-- ==== Sys2Proof/Word.lean ====
section
/-!
DEFINITION. The word types of the block and the shape of its sparse tables.
-/

set_option Elab.async false

namespace Sys2Proof

/-- A 32-bit register word. -/
abbrev Word := BitVec 32

/-- A byte. -/
abbrev Byte := BitVec 8

/-- A sparse table: keys strictly rising, no entry equal to what an unlisted key reads as. -/
abbrev Tab (α : Type) := List (Nat × α)

end Sys2Proof
end

