-- ==== Sys2Proof/Syntax.lean ====
section
/-!
DEFINITION. The commands of the block: one constructor per row of spec/opcode_table.json, with the operands that the
outside world supplies with it. The first operand `dt` of every command is the time in ns that passed since the command
before it (log entry 1); `dt = 0` means the same core clock cycle.
-/

set_option Elab.async false

namespace Sys2Proof

/-- One served Kilel request: the slot it stands in, and what the host transfers of it gave. `inp` is the data of the
input read (`none`: a failed completion, R67), `outOk` says that the output write met no error. -/
structure Call where
  part : Fin 64
  slot : Fin 16
  inp : Option (List Byte)
  outOk : Bool
deriving DecidableEq, Repr

/-- Bits that came in at the PRBS checker of a lane (R150), the first first. -/
structure PrbsRx where
  lane : Fin 64
  bits : List Bool
deriving DecidableEq, Repr

/-- How a register write reaches the part: a Kilel `REG_WRITE` of a partition's context, the PF's BAR2 window, or BAR0 of a
function (MBX_INT_EN and MBX_BAR2_WIN only). -/
inductive WrPath where
  | regWrite (part : Fin 64) (ctx : Fin 4096)
  | bar2
  | bar0 (fn : Fin 64)
deriving DecidableEq, Repr

/-- A sensor register write that a commit carries (R35, R179; log entry 12). -/
structure SensorWrite where
  addr : Word
  vals : List Word
deriving DecidableEq, Repr

/-- A submission descriptor of a host ring (Table 17-2). -/
structure Desc where
  addr : BitVec 64
  len : Word
  cookie : Word
deriving DecidableEq, Repr

/-- Which read of a ring failed (HLK_RING_STAT.ERR_CAUSE). -/
inductive RingRead where
  | descriptor | data | index
deriving DecidableEq, Repr

/-- Fault classes of Table 4-5. -/
inductive FaultClass where
  | corrected | item | unit | device
deriving DecidableEq, Repr

/-- A unit's fault report (R120, R121), with the contexts it affects. -/
structure FaultRep where
  src : BitVec 8
  unit : BitVec 16
  code : BitVec 16
  cls : FaultClass
  detail : Word
  ctxs : List (Fin 4096)
deriving DecidableEq, Repr

/-- What memory and the ports did for one PSC beat: table data late (R201), plane words uncorrectable, list entries (by
index) uncorrectable, line storage failing parity (R206), the tap's port unable to queue (R330). -/
structure BeatIo where
  late : Bool
  darkUe : Bool
  gainUe : Bool
  listUe : List Nat
  parity : Bool
  tapFull : Bool
deriving DecidableEq, Repr

/-- What happened to one coder beat: the output port blocked (R226), the reference read uncorrectable, line storage
failing parity (R236). -/
structure CodeIo where
  blocked : Bool
  refUe : Bool
  parity : Bool
deriving DecidableEq, Repr

/-- What the encode engine made of a slice: the NAL units of the parameter sets (before an IDR) and of the slice, its mean
QP, whether a poisoned word was coded, CTBs coded at QP 51 or skipped to keep the buffer model, and the statistics
entries of the picture (with its last slice). -/
structure SliceOut where
  params : List Byte
  payload : List Byte
  qp : BitVec 8
  damaged : Bool
  over51 : Nat
  stats : List (BitVec 64)
deriving DecidableEq, Repr

/-- What the decode engine made of an access unit: the picture order count, the cropped size, the chroma (`yc422`), the
rows of bytes of each plane, what DFLAGS says, the CTBs concealed, and the references the session holds after it. -/
structure DecOut where
  poc : Word
  w : Nat
  h : Nat
  yc422 : Bool
  planes : List (List (List Byte))
  output : Bool
  irap : Bool
  paramError : Bool
  concealed : Nat
  refs : Nat
deriving DecidableEq, Repr


/-- What a PTP message for the ordinary clock amounts to after the arithmetic of IEEE 1588, which the spec does not restate
(log entry 22): an Announce of grandmaster `gm` with its data set (priority1, clockClass, clockAccuracy, offsetScaledLogVariance,
priority2, the first highest); an offset from the time transmitter in 2^-8 ns with the mean path delay, both as the balls see them;
a port's mean link delay in 2^-8 ns; or a message that is discarded. -/
inductive PtpIn where
  | announce (gm : BitVec 64) (rank : BitVec 48)
  | offset (off : Int) (path : Nat)
  | linkDelay (v : Nat)
  | other
deriving DecidableEq, Repr

/-- A subframe of an AES3 input: its 24-bit sample, V, U and C, and whether its parity holds (R432). -/
structure AesSub where
  sample : BitVec 24
  v : Bool
  u : Bool
  c : Bool
  parityOk : Bool
deriving DecidableEq, Repr

/-- The commands, in the order of spec/opcode_table.json. -/
inductive Instr where
  /-- NOP: Kilel liveness command that returns OK. (R78) -/
  | nop (dt : Nat) (c : Call)
  /-- SYS_INFO: Returns SYS_ID, firmware version, capabilities and DRAM information. (R532) -/
  | sysInfo (dt : Nat) (c : Call)
  /-- REG_READ: Returns the device epoch and up to 59 consecutive register values, all latched in one core clock cycle. (R69) -/
  | regRead (dt : Nat) (c : Call)
  /-- REG_WRITE: Writes up to 58 consecutive registers; refused whole if any target is a settings register. (R70) -/
  | regWrite (dt : Nat) (c : Call)
  /-- PLAIN_REGISTER_WRITE: Write through REG_WRITE or BAR2 to a register that has no behaviour of its own; suppressed and counted when the writer does not own the register. (R529) -/
  | plainRegisterWrite (dt : Nat) (path : WrPath) (addr : BitVec 40) (v : Word)
  /-- BAR2_ENABLE: PF command that opens or closes the BAR2 direct window. (R71) -/
  | bar2Enable (dt : Nat) (c : Call)
  /-- BAR2_READ: Host read through BAR2; returns the active-epoch value after every earlier BAR2 write, or is suppressed. (R72) -/
  | bar2Read (dt : Nat) (off : BitVec 24) (size : Nat)
  /-- BAR2_WRITE: Host write through BAR2; suppressed and counted when the window is closed, the access is misaligned, or the target is a settings register. (R71) -/
  | bar2Write (dt : Nat) (off : BitVec 24) (size : Nat) (v : BitVec 64)
  /-- FW_LOG_READ: PF command that copies the firmware log to a host buffer. (R78) -/
  | fwLogRead (dt : Nat) (c : Call) (log : List Byte)
  /-- MEM_ALLOC: Allocates one contiguous DRAM range within the context and partition quotas. (R92) -/
  | memAlloc (dt : Nat) (c : Call) (pages : Nat)
  /-- MEM_FREE: Frees a DRAM allocation. (R78) -/
  | memFree (dt : Nat) (c : Call) (addr : BitVec 40)
  /-- MEM_WRITE: Copies a host buffer into owned DRAM. (R78) -/
  | memWrite (dt : Nat) (c : Call) (addr : BitVec 40)
  /-- MEM_READ: Copies owned DRAM into a host buffer. (R78) -/
  | memRead (dt : Nat) (c : Call) (addr : BitVec 40) (len : Nat)
  /-- SETTINGS_STAGE: Checks entries, inline or by DMA, and adds them to the partition's staging set. (R16) -/
  | settingsStage (dt : Nat) (c : Call)
  /-- EPOCH_COMMIT: Validates the staging set and moves it into the partition's commit queue with acceptance time tA. (R20) -/
  | epochCommit (dt : Nat) (c : Call) (sensor : List SensorWrite)
  /-- EPOCH_DISCARD: Empties the calling partition's staging set. (R18) -/
  | epochDiscard (dt : Nat) (c : Call)
  /-- STATUS_SNAPSHOT: Latches the status images of the selected blocks, in FRAME or INSTANT mode, and writes them by DMA. (R42) -/
  | statusSnapshot (dt : Nat) (c : Call)
  /-- SETTINGS_READ: Returns the caller's staged value of a settings register, or the active value. (R45) -/
  | settingsRead (dt : Nat) (c : Call)
  /-- EPOCH_STATUS: Returns the current epoch, its first frame and the commit-queue depths, all latched in one cycle. (R45) -/
  | epochStatus (dt : Nat) (c : Call)
  /-- CTX_ALLOC: PF command that stages allocation of a range of contexts to a partition. (R82) -/
  | ctxAlloc (dt : Nat) (c : Call)
  /-- CTX_FREE: PF command that stages freeing of a range of contexts. (R82) -/
  | ctxFree (dt : Nat) (c : Call)
  /-- CTX_CONFIG: Stages the IRQ, QOS and MEM words of an owned context. (R82) -/
  | ctxConfig (dt : Nat) (c : Call)
  /-- PART_CONFIG: PF command that stages partition quotas and resource ownership. (R82) -/
  | partConfig (dt : Nat) (c : Call)
  /-- RESET: Requests a reset of level 1 to 4 for a context, a partition, a function or the device. (R101) -/
  | reset (dt : Nat) (c : Call)
  /-- VIOLATION_READ: Returns a partition's violation counters and last violation, and clears them when the PF sets CLEAR. (R110) -/
  | violationRead (dt : Nat) (c : Call)
  /-- EVQ_CONFIG: Sets or removes a context's event-queue ring, with cut-over at acceptance. (R116) -/
  | evqConfig (dt : Nat) (c : Call)
  /-- LINK_START: Starts bring-up of every enabled sensor lane. (R532) -/
  | linkStart (dt : Nat) (c : Call)
  /-- LINK_STOP: Stops the sensor link at the next frame boundary. (R532) -/
  | linkStop (dt : Nat) (c : Call)
  /-- LINK_STATUS: Returns the link, lane and stripe state. (R532) -/
  | linkStatus (dt : Nat) (c : Call)
  /-- SENSOR_CMD: Sends a back-channel WRITE, READ or PING to the sensor and returns its reply. (R178) -/
  | sensorCmd (dt : Nat) (c : Call)
  /-- SPARE_MAP: Stages up to four logical lanes as spares. (R159) -/
  | spareMap (dt : Nat) (c : Call)
  /-- TAKE_CONFIG: Configures a FREE or IDLE take slot and puts it in IDLE. (R282) -/
  | takeConfig (dt : Nat) (c : Call)
  /-- TAKE_DIR_READ: Returns the 16 take-directory entries by DMA. (R299) -/
  | takeDirRead (dt : Nat) (c : Call)
  /-- TAKE_ARM: Allocates the store of an IDLE slot and moves it to ARMED with a new TAKE_ID. (R284) -/
  | takeArm (dt : Nat) (c : Call)
  /-- TAKE_DISARM: Returns an ARMED slot with no known start to IDLE and frees its store. (R296) -/
  | takeDisarm (dt : Nat) (c : Call)
  /-- TAKE_START: Sets the start time of a STREAM take and moves the slot to RECORDING. (R288) -/
  | takeStart (dt : Nat) (c : Call)
  /-- TAKE_STOP: Sets the stop time of a STREAM take. (R288) -/
  | takeStop (dt : Nat) (c : Call)
  /-- TAKE_TRIGGER: Sets the trigger time of a RING take, deriving its start and stop. (R289) -/
  | takeTrigger (dt : Nat) (c : Call)
  /-- TAKE_DELETE: Clears the directory entry of a HOLDING slot, frees its store and returns the slot to IDLE. (R297) -/
  | takeDelete (dt : Nat) (c : Call)
  /-- TAKE_READ: Queues frames of a HOLDING slot onto a host ring. (R298) -/
  | takeRead (dt : Nat) (c : Call) (ue : List Nat)
  /-- LANDING_STATUS: Returns retention state, landing rate and slot states. (R532) -/
  | landingStatus (dt : Nat) (c : Call)
  /-- STREAM_OPEN: Stages the binding of an output stream to a host ring. (R453) -/
  | streamOpen (dt : Nat) (c : Call)
  /-- STREAM_CLOSE: Submits a commit that clears a stream's enable. (R453) -/
  | streamClose (dt : Nat) (c : Call)
  /-- PIPE_STATUS: Returns the colour pipeline state and the state of owned scalers, latched together. (R265) -/
  | pipeStatus (dt : Nat) (c : Call)
  /-- STATS_ROUTE: Stages a statistics route and binds the context's statistics ring. (R275) -/
  | statsRoute (dt : Nat) (c : Call) (route : Fin 15) (ctx : Fin 4096) (en : Bool) (ring : Fin 16384)
  /-- VC_SESSION_OPEN: Opens an encode or decode session for the calling context. (R350) -/
  | vcSessionOpen (dt : Nat) (c : Call)
  /-- VC_SESSION_CLOSE: Closes a session: its jobs end, an encode session writes EOS, and its buffers return to the pool. (R359) -/
  | vcSessionClose (dt : Nat) (c : Call) (session : Fin 64)
  /-- VC_ENCODE: Queues an offline encode job. (R357) -/
  | vcEncode (dt : Nat) (c : Call)
  /-- VC_DECODE: Queues a decode job. (R357) -/
  | vcDecode (dt : Nat) (c : Call)
  /-- VC_POOL_ALLOC: Takes or releases reference-pool buffers for a session. (R361) -/
  | vcPoolAlloc (dt : Nat) (c : Call)
  /-- VC_MARK: Sets a reference mark on a picture of an encode session. (R362) -/
  | vcMark (dt : Nat) (c : Call) (session : Fin 64) (poc : Word) (mark : Fin 3)
  /-- VC_ABORT: Aborts a video-coder job, queued or running. (R358) -/
  | vcAbort (dt : Nat) (c : Call)
  /-- MON_OUTPUT_CONFIG: Stages the output control register of an owned output, with its event context. (R372) -/
  | monOutputConfig (dt : Nat) (c : Call) (output : Fin 8) (ctx : Fin 4096)
  /-- MON_PUSH: Pushes a DSI dirty region or flips a layer to a pool buffer. (R384) -/
  | monPush (dt : Nat) (c : Call)
  /-- MON_FB_ALLOC: Takes or releases output frame-buffer pool buffers. (R382) -/
  | monFbAlloc (dt : Nat) (c : Call)
  /-- MON_STATUS: Returns the state of each owned output, latched together. (R391) -/
  | monStatus (dt : Nat) (c : Call)
  /-- TIME_READ: Returns device time and lock state latched in one tick. (R396) -/
  | timeRead (dt : Nat) (c : Call)
  /-- TIME_SET: PF command that sets or steps device time while it is unlocked. (R393) -/
  | timeSet (dt : Nat) (c : Call)
  /-- PTP_CONFIG: Stages the PTP profile, ports and parameters. (R397) -/
  | ptpConfig (dt : Nat) (c : Call) (cfg intv servo step : Word)
  /-- TRIG_SCHEDULE: Stores or cancels a scheduled trigger or strobe at a short time. (R407) -/
  | trigSchedule (dt : Nat) (c : Call)
  /-- GENLOCK_CONFIG: PF command that sets the genlock source and phase. (R78) -/
  | genlockConfig (dt : Nat) (c : Call) (cad : Fin 4) (cfg rate phase gl : Word)
  /-- TIMECODE_SET: Computes TC_BASE from a given timecode and time, or jams it to LTC_IN. (R412) -/
  | timecodeSet (dt : Nat) (c : Call)
  /-- PTP_STATUS: Returns servo state, offset, path delay and grandmaster identity, latched together. (R403) -/
  | ptpStatus (dt : Nat) (c : Call)
  /-- AUD_PORT_CONFIG: Sets the format, rate, clock role and slot mask of an audio port. (R419) -/
  | audPortConfig (dt : Nat) (c : Call) (port : Fin 8) (cfg mask : Word)
  /-- AUD_START: Arms the named audio ports to start together on the first grid frame at or after ts. (R426) -/
  | audStart (dt : Nat) (c : Call)
  /-- AUD_STOP: Stops the named ports after the block in progress, or at once in LOST or ASYNC. (R427) -/
  | audStop (dt : Nat) (c : Call) (parts : List (Fin 8 × List (List Nat)))
  /-- AUD_MUTE: Mutes or unmutes an owned port from the next frame. (R429) -/
  | audMute (dt : Nat) (c : Call)
  /-- AUD_STATUS: Returns the state, errors and clock counts of owned ports. (R438) -/
  | audStatus (dt : Nat) (c : Call)
  /-- SQ_CREATE: Creates a storage queue with 32 tags for the calling context. (R306) -/
  | sqCreate (dt : Nat) (c : Call)
  /-- SQ_DELETE: Deletes an idle storage queue. (R307) -/
  | sqDelete (dt : Nat) (c : Call) (qid : Fin 32)
  /-- SQ_ABORT: Aborts a storage command by QID and tag. (R311) -/
  | sqAbort (dt : Nat) (c : Call) (qid : Fin 32) (tag : Fin 32)
  /-- SQ_STATUS: Returns tags in use and NV blocks held. (R78) -/
  | sqStatus (dt : Nat) (c : Call) (qid : Fin 32)
  /-- MAINT_START: Starts or defers a maintenance activity. (R504) -/
  | maintStart (dt : Nat) (c : Call)
  /-- MAINT_STATUS: Returns the running and deferred activities. (R506) -/
  | maintStatus (dt : Nat) (c : Call)
  /-- MAINT_CANCEL: Cancels a running or deferred activity. (R506) -/
  | maintCancel (dt : Nat) (c : Call) (act : Fin 256)
  /-- PRBS_CONFIG: Configures the PRBS generator and checker of a lane. (R150) -/
  | prbsConfig (dt : Nat) (c : Call) (lane : Fin 64) (v : Word)
  /-- ERR_INJECT: Applies lane or memory error injections COUNT times. (R154) -/
  | errInject (dt : Nat) (c : Call) (kind : Nat) (target : BitVec 40) (count : Nat)
  /-- LOOPBACK_SET: Sets the loopback mode of a lane, taking effect within 1 µs. (R148) -/
  | loopbackSet (dt : Nat) (c : Call) (lane : Fin 64) (mode : Fin 4)
  /-- NV_IMAGE_BEGIN: Opens the unselected image slot for writing and marks it PARTIAL. (R497) -/
  | nvImageBegin (dt : Nat) (c : Call)
  /-- NV_IMAGE_WRITE: Writes up to 1 MiB of the open image slot at a 4 KiB offset. (R498) -/
  | nvImageWrite (dt : Nat) (c : Call)
  /-- NV_IMAGE_COMMIT: Verifies the new image, marks it VALID, optionally selects it and boots. (R499) -/
  | nvImageCommit (dt : Nat) (c : Call)
  /-- NV_IMAGE_STATUS: Returns the image control record. (R500) -/
  | nvImageStatus (dt : Nat) (c : Call)
  /-- NV_IMAGE_SELECT: Selects a VALID image for the next boot and sets CONSEC to 0. (R500) -/
  | nvImageSelect (dt : Nat) (c : Call) (slot : Fin 2)
  /-- NV_LOG_READ: Returns NV event-log entries in log order to a host buffer. (R130) -/
  | nvLogRead (dt : Nat) (c : Call) (first : Fin 32768) (count : Fin 32769)
  /-- POWER_STATE: Requests a transition to P0, P1, P2 or P3. (R474) -/
  | powerState (dt : Nat) (c : Call)
  /-- THERMAL_READ: Returns Tj, thresholds and throttle state, latched in one sample. (R510) -/
  | thermalRead (dt : Nat) (c : Call)
  /-- THERMAL_CONFIG: Stages thermal thresholds, rate of rise and re-arm. (R483) -/
  | thermalConfig (dt : Nat) (c : Call) (limit rate : Word)
  /-- BACKUP_STATUS: Returns the backup-cell state and the last hold time. (R481) -/
  | backupStatus (dt : Nat) (c : Call)
  /-- BOOT_INFO: Returns the boot status and the boot counter. (R502) -/
  | bootInfo (dt : Nat) (c : Call)
  /-- MBX_DOORBELL: Doorbell write that moves a FREE slot to POSTED, or is ignored and counted. (R50) -/
  | mbxDoorbell (dt : Nat) (fn : Fin 64) (w : Word)
  /-- REQUEST_AREA_WRITE: Host write to a slot's request area; discarded and counted unless the slot is FREE. (R52) -/
  | requestAreaWrite (dt : Nat) (fn : Fin 64) (slot : Fin 16) (word : Fin 64) (v : Word)
  /-- MBX_SLOT_ACK: Host acknowledge that moves a DONE slot to FREE. (R53) -/
  | mbxSlotAck (dt : Nat) (fn : Fin 64) (w : Word)
  /-- MBX_INT_STAT: W1C write that clears mailbox interrupt bits and so updates the mailbox vector. (R49) -/
  | mbxIntStat (dt : Nat) (fn : Fin 64) (w : Word)
  /-- BAR0_RESERVED_ACCESS: Host access to a reserved BAR0 offset, suppressed and counted as kind 3. (R47) -/
  | bar0ReservedAccess (dt : Nat) (fn : Fin 64) (off : BitVec 16) (write : Bool)
  /-- PENDING_BITMAP_CLEAR: Host writes 1 to clear a context's interrupt-pending bit. (R88) -/
  | pendingBitmapClear (dt : Nat) (fn : Fin 64) (word : Fin 128) (v : Word)
  /-- EVQ_CONS_WRITE: Host advances CONS of a context's event queue. (R117) -/
  | evqConsWrite (dt : Nat) (fn : Fin 64) (ctx : Fin 4096) (cons : BitVec 16)
  /-- EVQ_MOD_EXPIRY: End of a context's EVQ_MOD gap, when a held MSI-X message is sent if the pending bit is still set. (R87) -/
  | evqModExpiry (dt : Nat) (ctx : Fin 4096)
  /-- MSIX_UNMASK: Unmasking of a vector or function, which sends its held message if it is still pending. (R441) -/
  | msixUnmask (dt : Nat) (fn : Fin 64) (vec : Option (Fin 2048))
  /-- BME_CLEAR: Bus Master Enable of a function goes to 0, stopping its requests after the one in progress. (R443) -/
  | bmeClear (dt : Nat) (fn : Fin 64)
  /-- BME_SET: Bus Master Enable returns to 1, and waiting transfers and held messages resume. (R443) -/
  | bmeSet (dt : Nat) (fn : Fin 64)
  /-- PCIE_HOT_RESET: A PCIe hot reset causes a level 4 reset. (R442) -/
  | pcieHotReset (dt : Nat)
  /-- PCIE_DL_DOWN: A DL_Down condition causes a level 4 reset, except during P2 entry. (R442) -/
  | pcieDlDown (dt : Nat)
  /-- VF_FLR: A function-level reset of VF p causes a level 3 reset of part p. (R442) -/
  | vfFlr (dt : Nat) (p : Fin 64)
  /-- PF_FLR: A function-level reset of the PF causes a level 3 reset of part 0 and every enabled partition. (R442) -/
  | pfFlr (dt : Nat)
  /-- PCIE_PERST_N_ASSERT: Assertion of PCIE_PERST_N: a level 4 reset in P0 or P1, part of P2, ignored in P3. (R442) -/
  | pciePerstNAssert (dt : Nat)
  /-- PCIE_PERST_N_DEASSERT: Deassertion of PCIE_PERST_N, which wakes the device from P2. (R473) -/
  | pciePerstNDeassert (dt : Nat)
  /-- READ_COMPLETION_ERROR: A failed or timed-out PCIe read completion puts its ring in ERROR. (R444) -/
  | readCompletionError (dt : Nat) (ring : Fin 16384) (what : RingRead)
  /-- RING_ENABLE: Setting EN of HLK_RING_CTRL zeroes the ring indices, sets PHASE to 1 and starts the ring. (R451) -/
  | ringEnable (dt : Nat) (path : WrPath) (ring : Fin 16384) (v : Word)
  /-- RING_DISABLE: Clearing EN stops the ring: untaken descriptors abort, the current buffer truncates, and the device word is written. (R451) -/
  | ringDisable (dt : Nat) (path : WrPath) (ring : Fin 16384) (v : Word) (written : Nat)
  /-- HLK_RING_POLL: POLL_US expiry: HLK reads the ring's host word and takes the descriptors it may take. (R447) -/
  | hlkRingPoll (dt : Nat) (ring : Fin 16384) (hostWord : BitVec 64) (descs : List Desc)
  /-- H2C_READ_COMPLETE: Completion of the read of an audio output buffer, after which its descriptor completes and the block is present. (R450) -/
  | h2cReadComplete (dt : Nat) (ring : Fin 16384) (data : List Byte)
  /-- HLK_ITEM_DELIVERY: Delivery of an item into ring buffers once room allows, followed by completion entries and the device word. (R449) -/
  | hlkItemDelivery (dt : Nat) (ring : Fin 16384) (bytes : Nat)
  /-- CPL_MOD_EXPIRY: End of a ring's CPL_MOD gap, which raises one RING_CPL if any entry was written during it. (R459) -/
  | cplModExpiry (dt : Nat) (ring : Fin 16384)
  /-- SYNTHETIC_BOUNDARY: Synthetic frame boundary tEPOCH_IDLE after a commit when no frame source runs. (R37) -/
  | syntheticBoundary (dt : Nat)
  /-- EPOCH_RETIREMENT: An epoch retires when a later epoch is active and no item of it or any earlier epoch remains in any engine. (R19) -/
  | epochRetirement (dt : Nat)
  /-- RESET_DRAIN_COMPLETE: After the last write of the scope reaches the host, the reset clears its items and returns contexts to ACTIVE or FREE. (R103) -/
  | resetDrainComplete (dt : Nat) (id : Nat)
  /-- FAULT_REPORT: A unit's fault report, counted as corrected or matched to or opened as a root record. (R121) -/
  | faultReport (dt : Nat) (reps : List FaultRep)
  /-- ROOT_QUIET_CLOSE: A root record closes when no report matches it for QUIET_MS. (R124) -/
  | rootQuietClose (dt : Nat) (id : Word)
  /-- EVT_ROOT_CLOSE: Part 0 writes a ROOT_ID to close that root record. (R124) -/
  | evtRootClose (dt : Nat) (path : WrPath) (v : Word)
  /-- LANE_CDR_LOCK: A lane's CDR locks, and the lane moves to BLOCK. (R146) -/
  | laneCdrLock (dt : Nat) (lane : Fin 64)
  /-- LANE_CDR_TIMEOUT: tCDR expires without CDR lock, and the lane goes to FAILED. (R146) -/
  | laneCdrTimeout (dt : Nat) (lane : Fin 64)
  /-- LANE_BLOCK_LOCK: 64 consecutive valid headers give block lock, and the lane moves to ALIGN. (R137) -/
  | laneBlockLock (dt : Nat) (lane : Fin 64)
  /-- LANE_LOCK_LOSS: 16 invalid headers in 64 lose block lock, and the lane retrains. (R137) -/
  | laneLockLoss (dt : Nat) (lane : Fin 64)
  /-- LANE_SIGNAL_LOSS: Loss of signal or CDR lock sends an ACTIVE or STANDBY lane back to CDR. (R146) -/
  | laneSignalLoss (dt : Nat) (lane : Fin 64)
  /-- ALIGN_BLOCK: Receipt of an ALIGN: seeds the scrambler and drives identity, polarity and deskew, or is counted in ALIGN_ERR. (R141) -/
  | alignBlock (dt : Nat) (lane : Fin 64) (h0 h1 : Bool) (pay : BitVec 256) (gap : Nat) (skewUi : Nat)
  /-- LANE_ALIGN_TIMEOUT: A lane in ALIGN that does not resolve within four intervals goes to FAILED. (R141) -/
  | laneAlignTimeout (dt : Nat) (lane : Fin 64)
  /-- PRBS_CHECKER_LOCK: After 64 error-free bits the checker sets CHK_LOCK. (R150) -/
  | prbsCheckerLock (dt : Nat) (rx : PrbsRx)
  /-- FS_PACKET: A frame-start packet of a new SENSOR_FRAME opens a frame and sets the frame boundary. (R166) -/
  | fsPacket (dt : Nat) (g : Fin 48) (hdr : BitVec 128)
  /-- FS_SKEW_TIMEOUT: FS_SKEW_US passes without a group's FS, and that group's stripes are lost in the frame. (R166) -/
  | fsSkewTimeout (dt : Nat) (g : Fin 48)
  /-- FE_PACKET: Frame-end packet; the frame closes and its record issues when every group has sent its FE. (R167) -/
  | fePacket (dt : Nat) (g : Fin 48) (hdr : BitVec 128)
  /-- PIXEL_PACKET: A row-segment packet is checked and passed to the ingest path or discarded. (R164) -/
  | pixelPacket (dt : Nat) (g : Fin 48) (hdr : BitVec 128) (payload : List Byte) (pcrc : Word)
  /-- EMBED_PACKET: Sensor metadata packet carried with the frame, up to 64 KiB. (R165) -/
  | embedPacket (dt : Nat) (g : Fin 48) (hdr : BitVec 128) (payload : List Byte) (pcrc : Word)
  /-- NULL_PACKET: A NULL packet is discarded without being counted. (R162) -/
  | nullPacket (dt : Nat) (g : Fin 48) (hdr : BitVec 128)
  /-- REPLY_PACKET: A sensor reply completes its back-channel command and may acknowledge an epoch. (R178) -/
  | replyPacket (dt : Nat) (g : Fin 48) (hdr : BitVec 128) (payload : List Byte) (pcrc : Word)
  /-- BACKCHANNEL_COMMAND_SEND: The next queued back-channel command leaves as one block when the channel is free. (R179) -/
  | backchannelCommandSend (dt : Nat)
  /-- BC_COMMAND_TIMEOUT: TIMEOUT_US passes without a reply, and the command is resent or fails. (R178) -/
  | bcCommandTimeout (dt : Nat) (tag : BitVec 8)
  /-- SPARE_SWAP_DUE: At boundary F + REJOIN_FRAMES with no rejoin, firmware sends SPARE_SWAP or the link degrades. (R174) -/
  | spareSwapDue (dt : Nat) (lane : Fin 64)
  /-- PSC_BEAT: PSC corrects one beat of up to 96 samples and passes it to the coder and the tap. (R187) -/
  | pscBeat (dt : Nat) (stripe : Fin 48) (io : BeatIo)
  /-- BKC_BEAT: The Bucking coder codes the cells of a beat and writes the stripe packet. (R212) -/
  | bkcBeat (dt : Nat) (stripe : Fin 48) (io : CodeIo)
  /-- BKC_KEY_REQ: Write requesting that the first frame whose boundary falls at least 2 µs later be a key frame. (R219) -/
  | bkcKeyReq (dt : Nat) (path : WrPath) (v : Word)
  /-- BKC_JOB_PROD: Part 0 advances the coder job producer index, or the write is discarded. (R228) -/
  | bkcJobProd (dt : Nat) (path : WrPath) (v : Word)
  /-- BKC_JOB_START: The coder starts the next job in the ring when it is free, after checking it. (R230) -/
  | bkcJobStart (dt : Nat)
  /-- BKC_JOB_COMPLETION: A coder job ends, saves its state and advances BKC_JOB_CONS. (R232) -/
  | bkcJobCompletion (dt : Nat) (frames stripes : Nat) (ue par : List (Fin 48))
  /-- BKC_JOB_ABORT: Write of a tag that aborts the matching coder job. (R233) -/
  | bkcJobAbort (dt : Nat) (path : WrPath) (v : Word)
  /-- LANDING_UNIT_WRITE: A frame is written into the next unit of an armed or recording slot, COMPLETE last. (R286) -/
  | landingUnitWrite (dt : Nat) (slot : Fin 16) (cut : Option Nat)
  /-- TAKE_FINALISATION: A recording slot finalises once its end is reached and every unit is COMPLETE. (R294) -/
  | takeFinalisation (dt : Nat) (slot : Fin 16)
  /-- TAKE_ENTRY_WRITTEN: The directory entry reaches NV, and the slot enters HOLDING. (R295) -/
  | takeEntryWritten (dt : Nat) (slot : Fin 16)
  /-- DEVELOPMENT_START: Development of a selected frame starts once its first 16 rows are in the tap buffer and the pipeline is free. (R243) -/
  | developmentStart (dt : Nat) (tapUe : List (Nat × Nat × Nat)) (lutUe : List (Fin 8 × Fin 3))
  /-- SCALER_OUTPUT_RECORD: A scaler writes its output record after the last plane byte, completing the buffer. (R258) -/
  | scalerOutputRecord (dt : Nat) (scaler : Fin 8)
  /-- STATS_RECORD_COMPLETE: A statistics record enters the chute to HLK, or is discarded whole. (R276) -/
  | statsRecordComplete (dt : Nat) (full : Bool) (parity : Bool)
  /-- LIVE_PICTURE_HOLD: VCD holds a scaler buffer for a live session and queues the picture, or skips it. (R352) -/
  | livePictureHold (dt : Nat) (session : Fin 64)
  /-- VC_SLICE_BOUNDARY: An encode slice completes, and the engine picks the next slice by deadline and priority. (R355) -/
  | vcSliceBoundary (dt : Nat) (out : SliceOut)
  /-- VC_DECODE_START: The decode engine starts the next queued job when it is free. (R349) -/
  | vcDecodeStart (dt : Nat)
  /-- VC_DECODE_DONE: A decode job completes and writes its picture and record. (R367) -/
  | vcDecodeDone (dt : Nat) (out : DecOut)
  /-- OUTPUT_FRAME_START: An output frame start: layers take buffers and pending settings apply. (R385) -/
  | outputFrameStart (dt : Nat) (output : Fin 6)
  /-- TE_EDGE: A panel TE edge on the TE GPIO sets a DSI output frame start. (R376) -/
  | teEdge (dt : Nat) (port : Fin 2)
  /-- TE_MISS_TIMEOUT: 2 × PERIOD without a TE edge: the port starts the frame on its cadence and clears TE_LOCK. (R376) -/
  | teMissTimeout (dt : Nat) (port : Fin 2)
  /-- DSI_TRANSFER_DONE: The last byte of a DSI dirty-region transfer is sent. (R377) -/
  | dsiTransferDone (dt : Nat) (port : Fin 2) (under : List (Nat × Nat)) (ue : List Nat)
  /-- SDI_LINE_START: Start of an SDI active line, where underrun and line match are judged. (R386) -/
  | sdiLineStart (dt : Nat) (output : Fin 4) (miss : Option Nat) (ue : Bool)
  /-- SDI_FRAME_END: End of the last active SDI line. (R388) -/
  | sdiFrameEnd (dt : Nat) (output : Fin 4)
  /-- TRIG_PIN_EDGE: An accepted TRIG edge requests an exposure, fires strobes, raises an event and logs. (R405) -/
  | trigPinEdge (dt : Nat) (pin : Fin 4) (falling : Bool)
  /-- SCHEDULE_ENTRY_DUE: A stored TRIG or STRB schedule entry reaches its time and acts as an edge or a strobe fire. (R407) -/
  | scheduleEntryDue (dt : Nat) (pin : Fin 4) (strb : Bool)
  /-- STROBE_TRAILING_EDGE: WIDTH_NS after the nominal leading edge, the strobe pulse ends. (R406) -/
  | strobeTrailingEdge (dt : Nat) (strobe : Fin 4)
  /-- CADENCE_TICK: A cadence tick, which may set a synthetic frame boundary or request an exposure. (R409) -/
  | cadenceTick (dt : Nat) (cad : Fin 4)
  /-- GENLOCK_EDGE: A GENLOCK edge is compared with the cadence, and the phase is steered and locked. (R410) -/
  | genlockEdge (dt : Nat) (falling : Bool)
  /-- GENLOCK_EDGE_TIMEOUT: An expected GENLOCK edge is missing; after three, LOCK clears. (R410) -/
  | genlockEdgeTimeout (dt : Nat) (cad : Fin 4)
  /-- LTC_IN_FRAME: A valid LTC_IN frame is decoded, stamped and logged, and may jam TC_BASE. (R413) -/
  | ltcInFrame (dt : Nat) (tc : Word)
  /-- LTC_IN_TIMEOUT: Two frame periods pass without a valid LTC_IN frame. (R413) -/
  | ltcInTimeout (dt : Nat)
  /-- TIMECODE_FRAME_START: Timecode frame start, which sends the LTC_OUT frame and applies a new TC_BASE. (R412) -/
  | timecodeFrameStart (dt : Nat)
  /-- ETH_FRAME_RECEIVED: An Ethernet frame is received, forwarded with residence-time correction, consumed, or discarded. (R400) -/
  | ethFrameReceived (dt : Nat) (port : Fin 2) (frame : List Byte) (residence : Nat) (busy : Bool)
  /-- PTP_MESSAGE_RECEIVED: A PTP message for the ordinary clock feeds the BMCA and the servo. (R402) -/
  | ptpMessageReceived (dt : Nat) (port : Fin 2) (msg : PtpIn)
  /-- PTP_MESSAGE_TRANSMIT: At its log interval the device sends a one-step Sync, Delay_Req or Pdelay message. (R399) -/
  | ptpMessageTransmit (dt : Nat) (port : Fin 2) (type : Fin 4) (turn : Nat)
  /-- ANNOUNCE_RECEIPT_TIMEOUT: announceReceiptTimeout expires, and the servo leaves LOCKED for HOLDOVER. (R402) -/
  | announceReceiptTimeout (dt : Nat)
  /-- AUD_PORT_START_INSTANT: At t_k0 an ARMED audio port becomes RUNNING. (R426) -/
  | audPortStartInstant (dt : Nat) (port : Fin 8)
  /-- AUD_BLOCK_END: End of an input block's last frame; the block is written to the RX ring, or a stopping port stops. (R424) -/
  | audBlockEnd (dt : Nat) (port : Fin 8) (data : List (List Nat)) (parity : List Nat)
  /-- AUD_BLOCK_START: At an output block's first frame instant, the block plays, or zeros play when it is absent. (R424) -/
  | audBlockStart (dt : Nat) (port : Fin 8)
  /-- FOLLOWER_FRAME_START: A frame start received on a follower port is checked for errors, window and clock state. (R430) -/
  | followerFrameStart (dt : Nat) (port : Fin 4) (clocks : Nat) (midOk : Bool)
  /-- AUD_CLOCK_LOSS_TIMEOUT: No BCLK edge for 8 bit periods, or missing frame starts, puts the port in LOST. (R431) -/
  | audClockLossTimeout (dt : Nat) (port : Fin 8)
  /-- AES3_FRAME: An AES3 input frame is received, with parity, Z preamble and channel-status handling. (R432) -/
  | aes3Frame (dt : Nat) (input : Fin 2) (z : Bool) (a b : AesSub)
  /-- SQ_POLL: POLL_US expiry: the storage queue reads its index word and fetches commands. (R307) -/
  | sqPoll (dt : Nat) (qid : Fin 32) (hostWord : BitVec 64) (cmds : List (BitVec 512))
  /-- SQ_READ: Storage READ command of NV user-area blocks to a host buffer. (R309) -/
  | sqRead (dt : Nat) (qid : Fin 32)
  /-- SQ_WRITE: Storage WRITE command, atomic per block. (R309) -/
  | sqWrite (dt : Nat) (qid : Fin 32) (data : Option (List Byte))
  /-- SQ_ATOMIC_WRITE: Storage ATOMIC_WRITE of up to 4 blocks, atomic over all of them. (R309) -/
  | sqAtomicWrite (dt : Nat) (qid : Fin 32) (data : Option (List Byte))
  /-- SQ_NOP: Storage NOP command. (R307) -/
  | sqNop (dt : Nat) (qid : Fin 32)
  /-- SQ_COMMAND_DONE: A storage command finishes and its completion is written when the completion ring has room. (R309) -/
  | sqCommandDone (dt : Nat) (qid : Fin 32) (tag : Fin 32) (blocks : Nat) (fail : Option (Fin 2048))
  /-- I2C_TARGET_READ: Board-controller read transaction, served from one latch taken at the address phase. (R468) -/
  | i2cTargetRead (dt : Nat) (addr : BitVec 7) (n : Nat) (cut : Bool)
  /-- I2C_TARGET_WRITE: Board-controller write transaction, which sets the pointer and writes bytes that take effect at STOP. (R466) -/
  | i2cTargetWrite (dt : Nat) (addr : BitVec 7) (start : Bool) (bytes : List Byte) (cut stop : Bool)
  /-- UA_HOLD_EXPIRY: tUA_HOLD passes on an I²C user-area write, which commits the block and NACKs further bytes. (R312) -/
  | uaHoldExpiry (dt : Nat)
  /-- CBS_I2C_XFER: A write of GO starts an I²C controller transfer. (R464) -/
  | cbsI2cXfer (dt : Nat) (path : WrPath) (ctl : Fin 4) (v : Word)
  /-- I2C_TRANSFER_END: An I²C transfer ends with DONE and RESULT. (R464) -/
  | i2cTransferEnd (dt : Nat) (ctl : Fin 4) (result : Fin 4) (idx : Fin 17) (data : List Byte)
  /-- I2C_SCL_TIMEOUT: SCL held low for more than 25 ms ends the transfer with TIMEOUT. (R464) -/
  | i2cSclTimeout (dt : Nat) (ctl : Fin 4)
  /-- CBS_GPIO_SET: Sets GPIO output bits of owned pins. (R469) -/
  | cbsGpioSet (dt : Nat) (path : WrPath) (v : Word)
  /-- CBS_GPIO_CLR: Clears GPIO output bits of owned pins. (R469) -/
  | cbsGpioClr (dt : Nat) (path : WrPath) (v : Word)
  /-- GPIO_PIN_EDGE: A selected GPIO edge is stamped and may wake the device. (R469) -/
  | gpioPinEdge (dt : Nat) (pin : Fin 32) (falling : Bool)
  /-- SPD_BANK_HO: Handover write that moves a scratchpad bank to HANDOVER, or is refused. (R335) -/
  | spdBankHo (dt : Nat) (path : WrPath) (bank : Fin 64) (v : Word)
  /-- SPD_HANDOVER_COMPLETE: After pending accesses and any scrub, the bank passes to its new owner and becomes OWNED. (R335) -/
  | spdHandoverComplete (dt : Nat) (bank : Fin 64)
  /-- CHUTE_WRITE: A producer writes a word to a chute, or holds it while the chute is full. (R339) -/
  | chuteWrite (dt : Nat) (chute : Fin 128) (kind : Fin 3) (data : BitVec 64) (poison : Bool)
  /-- CHUTE_READ: A consumer reads a chute word, or underruns. (R340) -/
  | chuteRead (dt : Nat) (chute : Fin 128)
  /-- PAGE_IDLE_EXPIRY: A bank's idle timer reaches DMC_PAGE_IDLE, and the bank is precharged. (R321) -/
  | pageIdleExpiry (dt : Nat) (ch : Fin 32) (bank : Fin 16)
  /-- SELF_REFRESH_ENTRY: A channel idle for DMC_SR_IDLE enters self-refresh. (R322) -/
  | selfRefreshEntry (dt : Nat) (ch : Fin 32)
  /-- DQS_TRACKING: Every 4 ms a channel tracks its DQS oscillator and adjusts its timing. (R325) -/
  | dqsTracking (dt : Nat) (ch : Fin 32)
  /-- SCHEDULED_RETRAIN_DUE: DMC_RETRAIN_S expiry requests a DRAM_RETRAIN that starts when nothing blocks it. (R326) -/
  | scheduledRetrainDue (dt : Nat)
  /-- DEFERRED_ACTIVITY_START: A deferred maintenance activity starts when no conflict remains, or completes REFUSED_ARMED. (R505) -/
  | deferredActivityStart (dt : Nat)
  /-- DRAM_RETRAIN_STEP: One of the 16 steps of retraining a channel, at least 1 ms apart. (R326) -/
  | dramRetrainStep (dt : Nat) (fail : Bool)
  /-- DRAM_RETRAIN_DONE: DRAM_RETRAIN ends and its results are written to the training record. (R326) -/
  | dramRetrainDone (dt : Nat)
  /-- LANE_EYE_SCAN_DONE: The eye scan ends and its grid goes by DMA. (R153) -/
  | laneEyeScanDone (dt : Nat) (counts : List Word) (outOk : Bool)
  /-- NV_SCRUB_DONE: NV_SCRUB has read every block and rewritten those with corrected errors. (R507) -/
  | nvScrubDone (dt : Nat)
  /-- DRAM_SCRUB_DONE: DRAM_SCRUB has read every line and rewritten corrected lines. (R507) -/
  | dramScrubDone (dt : Nat)
  /-- THM_SAMPLE: Each 1 ms Tj sample drives warn, throttle, rate trip, shutdown, re-arm and the thermal marker. (R484) -/
  | thmSample (dt : Nat) (tj : Option (BitVec 16)) (raw : Word)
  /-- VBAK_SAMPLE: Each 1 ms VBAK measurement classifies the backup cell and drives BAK_OK and BAK_EXHAUSTED. (R480) -/
  | vbakSample (dt : Nat) (mv : Fin 4096)
  /-- NV_HELD_WRITE_FLUSH: Once Tj is in the NV write range, held NV updates and log entries are written in order. (R490) -/
  | nvHeldWriteFlush (dt : Nat)
  /-- PME_HANDSHAKE_COMPLETE: After D3hot and the PME handshake, the device saves its state and enters P2. (R476) -/
  | pmeHandshakeComplete (dt : Nat)
  /-- P2_HANDSHAKE_TIMEOUT: The handshake does not complete within 1 s, and the device stays in P0. (R476) -/
  | p2HandshakeTimeout (dt : Nat)
  /-- MAIN_GOOD_FALL: The falling edge of MAIN_GOOD starts P3 entry: ingest stops and DRAM_HOLD asserts. (R478) -/
  | mainGoodFall (dt : Nat)
  /-- RETENTION_ARBITRATION: The AON arbiter recognises MAIN_GOOD or BAK_EXHAUSTED and latches the retention result. (R300) -/
  | retentionArbitration (dt : Nat) (good : Bool)
  /-- PORST_N_ASSERT: PORST_N asserted while PWRGD_MAIN is high causes a level 5 reset. (R518) -/
  | porstNAssert (dt : Nat)
  /-- BOOT_ATTEMPT: A boot attempt runs the boot steps, falls back between images, or enters Base camp mode. (R491) -/
  | bootAttempt (dt : Nat) (trainFail fastFail : List (Fin 32)) (step : Fin 16) (ready : Bool)
  /-- BOOT_WATCHDOG: FW_READY not set within 2 s of step 3; the attempt fails with WATCHDOG. (R491) -/
  | bootWatchdog (dt : Nat)
  /-- BOOT_SUCCESS_TIMER: FW_READY held for 10 s sets CONSEC to 0. (R491) -/
  | bootSuccessTimer (dt : Nat)
  /-- FIRMWARE_WATCHDOG: Expiry of the firmware watchdog causes a level 4 reset. (R492) -/
  | firmwareWatchdog (dt : Nat)
  /-- LINK_UP_TIMEOUT: tLINK_UP passes after a LINK_START with WAIT before every data lane is ACTIVE; the response is sent with TIMEOUT while the link stays STARTING and keeps trying. (R532) -/
  | linkUpTimeout (dt : Nat)
  /-- AON_POWER_LOSS: AON loses power when VBAK is absent or exhausted and the main rails are off; device time, ROOT_ID, held NV entries and retention records are lost. (R516) -/
  | aonPowerLoss (dt : Nat)
deriving DecidableEq, Repr

end Sys2Proof
end

