-- ==== Sys2Proof/Decode.lean ====
section
/-!
DEFINITION. The commands that a word spells by the bits of the command table. The block's commands are events on its pins
and buses, and the table gives none of its rows bits, so no word spells a command.
-/

set_option Elab.async false

namespace Sys2Proof

/-- The command that the word `w` of `nbits` bits spells: none, as no row of the table has bits. -/
def decodeTableWord (_nbits _w : Nat) : Option Instr := none

end Sys2Proof
end

