-- ==== Sys2Proof/Config.lean ====
section
/-!
DEFINITION. The values the spec leaves open. Each is an opaque constant applied to the model's counter of open values (or
to the operands it depends on): nothing in Lean can evaluate it, so a claim holds for every value (log entry 2).
-/

set_option Elab.async false

namespace Sys2Proof

/-- A value the spec does not state, taken as the `n`-th open value of the run. -/
opaque Config.freeWord : Nat → BitVec 64

/-- What the Bucking encoder picks where R211 and R220 leave it a choice, as the `n`-th pick for a cell with this input, these
settings and this reference: the same for the same (R221). -/
opaque Config.coderPick : List Nat → Nat → BitVec 64

/-- How long a channel takes over the `n`-th DRAM request, beyond one cycle (the spec gives no service times). -/
opaque Config.dramTime : Nat → BitVec 8

/-- How far the stored bits of the DRAM or scratchpad byte at an address, read at a time, differ from those written, where an
error stands that is not corrected (R327). -/
opaque Config.wrongByte : Nat → Nat → BitVec 8

/-- Which half of a line, of two that a write covers, takes the flipped bits of an injection, by line and writes left
(R345 does not say). -/
opaque Config.hurtHalf : Nat → Nat → Bool

/-- clockAccuracy and offsetScaledLogVariance of the device's own data set in the best master clock algorithm, and its clockIdentity:
the spec gives neither (log entry 22). -/
opaque Config.clockQuality : BitVec 24
opaque Config.clockIdentity : BitVec 64

/-- The depth of chute `i` as 2^(4 + this mod 9) words, and its producer, consumer and mode: firmware sets them at boot
and the spec gives no values (R338). -/
opaque Config.chute : Nat → BitVec 32

/-- A scaler position between two multiples of 1/64 pixel is quantised to the upper one (R252 does not say which). -/
opaque Config.phaseUp : Int → Bool

/-- The centre tap of the eight Lanczos taps at a phase is the fifth, not the fourth (R252 does not say which). -/
opaque Config.lanczosCentre : Nat → Bool

/-- What a value that does not fit its `n` bits becomes when MON rounds it (R379 does not say). -/
opaque Config.tooWide : Nat → Nat → BitVec 16

/-- The VERSION that the boot ROM's own firmware reports in Base camp mode (R532 gives none). -/
opaque Config.romVersion : BitVec 32

/-- The Kilel minor version served (R532 gives none). -/
opaque Config.kilelMinor : BitVec 8

end Sys2Proof
end

