-- ==== Sys2Proof/Machine/Bits.lean ====
section
/-!
DEFINITION. Bit fields of 32-bit words, little-endian byte order, signed readings and saturating counts.
-/

set_option Elab.async false

namespace Sys2Proof.Machine

/-- The field of `n` bits of `w` that starts at bit `lo`. -/
def fld (w : Word) (lo n : Nat) : Nat := (w.toNat / 2 ^ lo) % 2 ^ n

/-- Bit `i` of `w`. -/
def bit (w : Word) (i : Nat) : Bool := decide (w.toNat / 2 ^ i % 2 = 1)

/-- `w` with its field of `n` bits at `lo` set to `v` (low `n` bits of `v`). -/
def setFld (w : Word) (lo n v : Nat) : Word :=
  BitVec.ofNat 32 (w.toNat / 2 ^ (lo + n) * 2 ^ (lo + n) + (v % 2 ^ n) * 2 ^ lo + w.toNat % 2 ^ lo)

/-- One bit as a number. -/
def b2n (b : Bool) : Nat := if b then 1 else 0

/-- A word from a number, modulo 2^32. -/
def w32 (n : Nat) : Word := BitVec.ofNat 32 n

/-- The low `n` bytes of `v`, lowest first (every multi-byte quantity of the part is little-endian, R39, R56). -/
def leBytes : Nat → Nat → List Byte
  | 0, _ => []
  | n + 1, v => BitVec.ofNat 8 v :: leBytes n (v / 256)

/-- The number that bytes spell, lowest first. -/
def ofBytes : List Byte → Nat
  | [] => 0
  | b :: bs => b.toNat + 256 * ofBytes bs

/-- Words as bytes. -/
def wordBytes (ws : List Word) : List Byte := ws.flatMap (fun w => leBytes 4 w.toNat)

/-- The word at byte offset `off` of a byte list; bytes past the end read 0. -/
def wordAt (bs : List Byte) (off : Nat) : Word := w32 (ofBytes ((bs.drop off).take 4))

/-- Bytes as words, four to a word; `n` words are taken. -/
def bytesWords : Nat → List Byte → List Word
  | 0, _ => []
  | n + 1, bs => w32 (ofBytes (bs.take 4)) :: bytesWords n (bs.drop 4)

/-- The signed reading of the low `n` bits of `v`. -/
def sx (n v : Nat) : Int :=
  let u := v % 2 ^ n
  if u < 2 ^ (n - 1) then (u : Int) else (u : Int) - (2 ^ n : Nat)

/-- `v` as an `n`-bit two's complement number. -/
def unsx (n : Nat) (v : Int) : Nat := (v % ((2 ^ n : Nat) : Int)).toNat

/-- Clamp to a closed range. -/
def clampI (lo hi v : Int) : Int := if v < lo then lo else if hi < v then hi else v

/-- The value rounded up to the next whole multiple of `d`, counted in `d`s; 0 for `d = 0`. -/
def ceilDiv (a d : Nat) : Nat := if d = 0 then 0 else (a + d - 1) / d

/-- Round half away from zero of `a / d`. -/
def roundDiv (a : Int) (d : Nat) : Int :=
  if a < 0 then -(((-a).toNat * 2 + d) / (2 * d) : Nat) else ((a.toNat * 2 + d) / (2 * d) : Nat)

/-- `a` is at or before `b` as `n`-bit counters by signed difference (R14, R31, R395). -/
def leMod (n a b : Nat) : Bool := decide (((b + 2 ^ n - a % 2 ^ n) % 2 ^ n) < 2 ^ (n - 1))

/-- A count that saturates at `m`. -/
def satAdd (m a b : Nat) : Nat := min m (a + b)

/-- Largest field value that a quantity rounded up may take (R530): rounded up to whole units, saturating at `n` bits. -/
def unitsUp (q unit n : Nat) : Nat := min (2 ^ n - 1) (ceilDiv q unit)

/-- Element `i` of a list of numbers, 0 past the end. -/
def nth (xs : List Nat) (i : Nat) : Nat := xs.getD i 0

/-- The indices `0 … n-1` whose test holds. -/
def selIdx (n : Nat) (p : Nat → Bool) : List Nat := (List.range n).filter p

/-- The mask with a bit for every index below `n` whose test holds. -/
def maskOf (n : Nat) (p : Nat → Bool) : Nat := ((selIdx n p).map (2 ^ ·)).sum

end Sys2Proof.Machine
end

