-- ==== Sys2Proof/Machine/CplCore.lean ====
section
/-!
DEFINITION. The arithmetic of the colour pipeline as functions of plain pictures: black level and white balance (R244),
flag repair (R245), demosaic (R246, R247), matrix (R249), crop and scale (R250 to R252), tone curve (R253) and the output
formats (R255 to R257).
-/

set_option Elab.async false

namespace Sys2Proof.Machine

/-- A plane: rows of values. -/
abbrev Plane := List (List Nat)

/-- A colour picture: rows of R, G, B. -/
abbrev Rgb := List (List (Nat × Nat × Nat))

/-- The value at column `x` of row `y`. -/
def at2 (p : Plane) (x y : Nat) : Nat := nth (p.getD y []) x

/-- The pixel at column `x` of row `y`; black outside. -/
def px (p : Rgb) (x y : Nat) : Nat × Nat × Nat := (p.getD y []).getD x (0, 0, 0)

/-- A plane made point by point. -/
def mkPlane {α : Type} (w h : Nat) (f : Nat → Nat → α) : List (List α) :=
  (List.range h).map (fun y => (List.range w).map (fun x => f x y))

/-- A position mirrored into 0 to n − 1 (R247). -/
def mirror (n : Nat) (i : Int) : Nat :=
  let j := if i < 0 then -i else i
  (clampI 0 ((n : Int) - 1) (if (n : Int) ≤ j then 2 * ((n : Int) - 1) - j else j)).toNat

/-- A mean rounded half up. -/
def meanUp (vs : List Int) : Int := if vs.isEmpty then 0 else (2 * vs.sum + vs.length) / (2 * vs.length : Nat)

/-- Working range, 16 bits. -/
def clamp16 (v : Int) : Nat := (clampI 0 65535 v).toNat

/-- CFA phase of (x, y) (R244). -/
def cfaPhase (x y : Nat) : Nat := 2 * (y % 2) + x % 2

/-- Black level and white balance (R244). -/
def cplLinear (d s ped : Nat) (trim : Int) (wb : Nat) : Nat :=
  clamp16 (((((s * 2 ^ (16 - d) : Nat) : Int) - ped - trim) * wb + 2048) / 4096)

/-- Colour of each phase for CFA_ORDER: 0 R, 1 G, 2 B (Table 9-10). -/
def cfaColour (order phase : Nat) : Nat :=
  match order with
  | 0 => nth [0, 1, 1, 2] phase
  | 1 => nth [1, 0, 2, 1] phase
  | 2 => nth [1, 2, 0, 1] phase
  | _ => nth [2, 1, 1, 0] phase

/-- Flag repair (R245): `bad y` says that row `y` lies in a lost stripe. -/
def flagFix (w h k : Nat) (l : Plane) (flag : List (List Bool)) (bad : Nat → Bool) : Plane :=
  let fl := fun x y => (flag.getD y []).getD x false
  mkPlane w h (fun x y =>
    if fl x y then
      let nb := fun (x' y' : Int) =>
        if x' < 0 || y' < 0 || (w : Int) ≤ x' || (h : Int) ≤ y' || fl x'.toNat y'.toNat || bad y'.toNat then none
        else some ((at2 l x'.toNat y'.toNat : Nat) : Int)
      let vs := [nb (x - k) y, nb (x + k) y, nb x (y - k), nb x (y + k)].filterMap id
      if vs.isEmpty then at2 l x y else (meanUp vs).toNat
    else at2 l x y)

/-- Values of a plane `v` at the positions of colour `c` among the 8 neighbours of (x, y), mirrored at the edges. -/
def colourNb (w h order c : Nat) (v : Nat → Nat → Int) (x y : Nat) : List Int :=
  [(-1, -1), (0, -1), (1, -1), (-1, 0), (1, 0), (-1, 1), (0, 1), (1, 1)].filterMap (fun (e : Int × Int) =>
    let x' := mirror w (x + e.1)
    let y' := mirror h (y + e.2)
    if cfaColour order (cfaPhase x' y') = c then some (v x' y') else none)

/-- The G plane of mode EDGE (Table 9-2). -/
def edgeG (w h order : Nat) (l : Plane) : Plane :=
  mkPlane w h (fun x y =>
    if cfaColour order (cfaPhase x y) = 1 then at2 l x y
    else
      let g := fun (dx dy : Int) => ((at2 l (mirror w (x + dx)) (mirror h (y + dy)) : Nat) : Int)
      let hd := (g (-1) 0 - g 1 0).natAbs
      let vd := (g 0 (-1) - g 0 1).natAbs
      (if hd < vd then meanUp [g (-1) 0, g 1 0]
       else if vd < hd then meanUp [g 0 (-1), g 0 1]
       else meanUp [g (-1) 0, g 1 0, g 0 (-1), g 0 1]).toNat)

/-- Demosaic (R246): mode 0 BILINEAR, 1 EDGE, 2 BINNED. -/
def demosaic (w h order mode : Nat) (mono : Bool) (l : Plane) : Rgb :=
  if mode = 2 then
    mkPlane (w / 2) (h / 2) (fun x y =>
      let q := [at2 l (2 * x) (2 * y), at2 l (2 * x + 1) (2 * y), at2 l (2 * x) (2 * y + 1), at2 l (2 * x + 1) (2 * y + 1)]
      let of := fun c => (meanUp (((List.range 4).filter (fun k => cfaColour order k = c)).map
        (fun k => ((nth q k : Nat) : Int)))).toNat
      if mono then
        let m := (meanUp (q.map (fun (v : Nat) => (v : Int)))).toNat
        (m, m, m)
      else (of 0, of 1, of 2))
  else if mono then mkPlane w h (fun x y => (at2 l x y, at2 l x y, at2 l x y))
  else if mode = 0 then
    mkPlane w h (fun x y =>
      let of := fun c => if cfaColour order (cfaPhase x y) = c then at2 l x y
        else (meanUp (colourNb w h order c (fun a b => ((at2 l a b : Nat) : Int)) x y)).toNat
      (of 0, of 1, of 2))
  else
    let g := edgeG w h order l
    mkPlane w h (fun x y =>
      let of := fun c => if cfaColour order (cfaPhase x y) = c then at2 l x y
        else clamp16 ((at2 g x y : Nat) +
          meanUp (colourNb w h order c (fun a b => ((at2 l a b : Nat) : Int) - (at2 g a b : Nat)) x y))
      (of 0, at2 g x y, of 2))

/-- One matrix row: m[r][0..2] and off[r] (R249). -/
def mtxRow (m : List Int) (off : Int) (p : Nat × Nat × Nat) : Nat :=
  clamp16 ((m.getD 0 0 * p.1 + m.getD 1 0 * p.2.1 + m.getD 2 0 * p.2.2 + 2048) / 4096 + off)

/-- The colour matrix over a picture. -/
def matrix (rows : List (List Int × Int)) (p : Rgb) : Rgb :=
  let row := fun i => rows.getD i ([], 0)
  p.map (fun r => r.map (fun q => (mtxRow (row 0).1 (row 0).2 q, mtxRow (row 1).1 (row 1).2 q, mtxRow (row 2).1 (row 2).2 q)))

/-! ### Crop and scale -/

/-- The scale ratio as u8.16, rounded to nearest (R250). -/
def scaleRatio (n outN : Nat) : Nat := (2 * n * 65536 + outN) / (2 * outN)

/-- 1024 × sinc(t/64) × sinc(t/256), rounded: the Lanczos window function with a = 4 (R252). -/
def lanczos : List Int :=
  [1024, 1024, 1022, 1020, 1017, 1013, 1008, 1003, 996, 989, 981, 972, 962, 952, 941, 929, 916, 903, 889, 874, 859, 843, 826, 809, 791, 773, 755, 736, 716, 697, 676, 656] ++
  [635, 614, 593, 572, 550, 528, 506, 485, 463, 441, 419, 397, 375, 354, 332, 311, 290, 269, 248, 228, 208, 188, 169, 150, 132, 113, 96, 79, 62, 46, 30, 15] ++
  [0, -14, -28, -41, -53, -65, -76, -87, -97, -106, -115, -124, -131, -138, -145, -151, -156, -161, -165, -169, -172, -174, -176, -178, -179, -179, -179, -179, -178, -177, -175, -173] ++
  [-170, -168, -164, -161, -157, -153, -148, -144, -139, -134, -129, -123, -118, -112, -106, -100, -94, -88, -82, -76, -69, -63, -57, -51, -45, -39, -33, -27, -22, -16, -10, -5] ++
  [0, 5, 10, 15, 19, 23, 27, 31, 35, 38, 42, 45, 48, 50, 53, 55, 57, 59, 60, 61, 63, 64, 64, 65, 65, 65, 65, 65, 65, 64, 63, 62] ++
  [61, 60, 59, 58, 56, 54, 53, 51, 49, 47, 45, 43, 41, 39, 37, 34, 32, 30, 28, 26, 23, 21, 19, 17, 15, 13, 11, 9, 7, 5, 3, 2] ++
  [0, -2, -3, -4, -6, -7, -8, -9, -10, -11, -12, -13, -14, -14, -15, -15, -15, -16, -16, -16, -16, -16, -16, -16, -16, -16, -15, -15, -15, -14, -14, -13] ++
  [-13, -12, -12, -11, -11, -10, -10, -9, -8, -8, -7, -7, -6, -6, -5, -5, -4, -4, -3, -3, -2, -2, -2, -1, -1, -1, -1, 0, 0, 0, 0, 0] ++
  [0]

/-- The eight coefficients of phase `f`/64; their sum is 1,024. Which of the two middle taps is the centre one the spec
does not say: an open value. -/
def lanczosTaps (f : Nat) : List Int :=
  let raw := (List.range 8).map (fun i => lanczos.getD (((i : Int) - 3) * 64 - f).natAbs 0)
  let c := if Config.lanczosCentre f then 4 else 3
  (List.range 8).map (fun i => if i = c then raw.getD i 0 + (1024 - raw.sum) else raw.getD i 0)

/-- Position of output sample `j` at a ratio `rho` below 1, in 1/64 pixel (R252). Which neighbouring 1/64 a position between
two is quantised to the spec does not say: an open value. -/
def scalePhase (rho j : Nat) : Int :=
  let p17 : Int := ((2 * j + 1) * rho : Nat) - 65536
  p17 / 2048 + (if p17 % 2048 ≠ 0 && Config.phaseUp p17 then 1 else 0)

/-- The inputs that output sample `j` of an axis draws on: its footprint, or the taps of the filter (R252). -/
def scaleSpan (rho n filter j : Nat) : List Nat :=
  if 65536 ≤ rho then
    let first := j * rho / 65536
    (List.range (((j + 1) * rho - 1) / 65536 - first + 1)).map (fun i => mirror n (first + i : Nat))
  else
    let ip := scalePhase rho j / 64
    (if filter = 0 then [0, 1] else [-3, -2, -1, 0, 1, 2, 3, 4]).map (fun i => mirror n (ip + i))

/-- Output sample `j` of an axis of `n` inputs at ratio `rho` (R252). -/
def scaleTap (rho n filter : Nat) (v : Nat → Nat) (j : Nat) : Nat :=
  if 65536 ≤ rho then
    let lo := j * rho
    let hi := (j + 1) * rho
    let first := lo / 65536
    let cnt := (hi - 1) / 65536 - first + 1
    let sum := ((List.range cnt).map (fun i =>
      let p := first + i
      (min hi ((p + 1) * 65536) - max lo (p * 65536)) * v (mirror n p))).sum
    min 65535 ((2 * sum + rho) / (2 * rho))
  else
    let q := scalePhase rho j
    let ip := q / 64
    let f := (q % 64).toNat
    let tap := fun (i : Int) => ((v (mirror n (ip + i)) : Nat) : Int)
    if filter = 0 then clamp16 (((64 - f : Nat) * tap 0 + (f : Nat) * tap 1 + 32) / 64)
    else
      let cs := lanczosTaps f
      clamp16 ((((List.range 8).map (fun i => cs.getD i 0 * tap ((i : Int) - 3))).sum + 512) / 1024)

/-- One channel cropped and scaled: the horizontal pass before the vertical one. `v` gives the developed frame's channel,
0 outside it (R251). -/
def scaleChannel (x0 y0 w h ow oh filter : Nat) (v : Nat → Nat → Nat) : Plane :=
  let rx := scaleRatio w ow
  let ry := scaleRatio h oh
  let mid := (List.range h).map (fun y => (List.range ow).map (scaleTap rx w filter (fun x => v (x0 + x) (y0 + y))))
  mkPlane ow oh (fun x y => scaleTap ry h filter (fun j => at2 mid x j) y)

/-! ### Tone curve and formats -/

/-- The tone curve `l` at `x` (R253). -/
def toneCurve (l : List Nat) (x : Nat) : Nat :=
  let i := x / 64
  let f := x % 64
  clamp16 ((nth l i : Int) + (((nth l (i + 1) : Int) - nth l i) * f + 32) / 64)

/-- The tone curves over a picture: none, one shared, or one for each channel. -/
def toneMap (lut : List (List Nat)) (p : Rgb) : Rgb :=
  match lut with
  | [] => p
  | [l] => p.map (fun r => r.map (fun q => (toneCurve l q.1, toneCurve l q.2.1, toneCurve l q.2.2)))
  | r :: g :: b => p.map (fun row => row.map (fun q =>
      (toneCurve r q.1, toneCurve g q.2.1, toneCurve (b.headD []) q.2.2)))

/-- RGB quantisation to `n` bits (R255). -/
def quantRgb (n v : Nat) : Nat := if 16 ≤ n then v else min ((v + 2 ^ (15 - n)) / 2 ^ (16 - n)) (2 ^ n - 1)

/-- A coefficient `a × b / d` rounded to a multiple of 2^-14, in units of 2^-14. -/
def coef14 (a : Int) (b d : Nat) : Int := roundDiv (a * b * 2 ^ 14) d

/-- The coefficients of Y', Cb and Cr on R', G', B' for `n` bits, in units of 2^-14 (R255): Kr, Kb are in 10^-4. -/
def ycCoefs (bt2020 full : Bool) (n : Nat) : List (List Int) :=
  let kr : Int := if bt2020 then 2627 else 2126
  let kb : Int := if bt2020 then 593 else 722
  let kg : Int := 10000 - kr - kb
  let sy := if full then 2 ^ n - 1 else 219 * 2 ^ (n - 8)
  let sc := if full then 2 ^ n - 1 else 224 * 2 ^ (n - 8)
  let db := (2 * (10000 - kb)).toNat
  let dr := (2 * (10000 - kr)).toNat
  [[coef14 kr sy 10000, coef14 kg sy 10000, coef14 kb sy 10000],
   [coef14 (-kr) sc db, coef14 (-kg) sc db, coef14 1 sc 2],
   [coef14 1 sc 2, coef14 (-kg) sc dr, coef14 (-kb) sc dr]]

/-- A component before quantisation, in units of 2^-14 ÷ 65,535. -/
def ycRaw (c : List Int) (p : Nat × Nat × Nat) : Int := c.getD 0 0 * p.1 + c.getD 1 0 * p.2.1 + c.getD 2 0 * p.2.2

/-- A component (over `parts` equal parts of the unit of `ycRaw`) with its offset, rounded half up and clamped. -/
def ycQuant (n off parts : Nat) (v : Int) : Nat :=
  let d : Nat := 2 ^ 14 * 65535 * parts
  (clampI 0 ((2 ^ n : Nat) - 1) ((2 * v + d) / (2 * d : Nat) + off)).toNat

/-- The offset of Y' and of chroma. -/
def yOff (full : Bool) (n : Nat) : Nat := if full then 0 else 16 * 2 ^ (n - 8)

/-- The rows of one component of a picture, as bytes of 16-bit containers: `f x y` gives the value. -/
def packRows (w h : Nat) (f : Nat → Nat → Nat) : List (List Byte) :=
  (List.range h).map (fun y => (List.range w).flatMap (fun x => leBytes 2 (f x y)))

/-- The planes of an output: rows of bytes for each plane (Table 9-3, R255, R256). -/
def packPlanes (fmt : Nat) (bt2020 full : Bool) (w h : Nat) (p : Rgb) : List (List (List Byte)) :=
  let n := if fmt = 4 then 12 else 10
  let cs := ycCoefs bt2020 full n
  let raw := fun k x y => ycRaw (cs.getD k []) (px p x y)
  let luma := packRows w h (fun x y => ycQuant n (yOff full n) 1 (raw 0 x y))
  let half := fun (k i y : Nat) => raw k (mirror w (2 * i - 1 : Int)) y + 2 * raw k (2 * i) y + raw k (mirror w (2 * i + 1)) y
  match fmt with
  | 0 => [(List.range h).map (fun y => (List.range w).flatMap (fun x =>
      let q := px p x y
      leBytes 4 (quantRgb 10 q.1 + quantRgb 10 q.2.1 * 2 ^ 10 + quantRgb 10 q.2.2 * 2 ^ 20)))]
  | 1 => [(List.range h).map (fun y => (List.range w).flatMap (fun x =>
      let q := px p x y
      leBytes 2 q.1 ++ leBytes 2 q.2.1 ++ leBytes 2 q.2.2))]
  | 2 => [luma, packRows (w / 2) h (fun i y => ycQuant n 512 4 (half 1 i y)),
      packRows (w / 2) h (fun i y => ycQuant n 512 4 (half 2 i y))]
  | 3 => [luma, (List.range (h / 2)).map (fun y => (List.range (w / 2)).flatMap (fun i =>
      leBytes 2 (ycQuant n 512 8 (half 1 i (2 * y) + half 1 i (2 * y + 1))) ++
      leBytes 2 (ycQuant n 512 8 (half 2 i (2 * y) + half 2 i (2 * y + 1)))))]
  | _ => [luma, packRows w h (fun x y => ycQuant n 2048 1 (raw 1 x y)), packRows w h (fun x y => ycQuant n 2048 1 (raw 2 x y))]

/-- Rows and stride of each plane of an output (R257). -/
def planeShapes (fmt h strideY strideC : Nat) : List (Nat × Nat) :=
  match fmt with
  | 0 | 1 => [(h, strideY)]
  | 3 => [(h, strideY), (h / 2, strideC)]
  | 4 => [(h, strideY), (h, strideC), (h, strideC)]
  | _ => [(h, strideY), (h, strideC), (h, strideC)]

/-- Offset of each plane in a buffer, and the offset past the last one (R257). -/
def planeOffsets (shapes : List (Nat × Nat)) : List Nat × Nat :=
  shapes.foldl (fun (a : List Nat × Nat) e =>
    let o := (a.2 + 4095) / 4096 * 4096
    (a.1 ++ [o], o + e.1 * e.2)) ([], 4096)

/-- Minimum strides of a format (Table 9-3). -/
def minStride (fmt ow : Nat) : Nat × Nat :=
  match fmt with
  | 0 => (4 * ow, 0) | 1 => (6 * ow, 0) | 2 => (2 * ow, ow) | 3 => (2 * ow, 2 * ow) | _ => (2 * ow, 2 * ow)

/-- Where rows `y0` to `y1` of a `w` × `h` picture at `addr` lie, plane by plane: addresses and lengths (R257). -/
def pictureSpans (addr fmt w h strideY strideC y0 y1 : Nat) : List (Nat × Nat) :=
  let shapes := planeShapes fmt h strideY strideC
  let offs := (planeOffsets shapes).1
  let m := minStride fmt w
  (List.range shapes.length).filterMap (fun k =>
    let (rows, stride) := shapes.getD k (0, 0)
    let lo := y0 * rows / max 1 h
    let hi := ceilDiv (y1 * rows) (max 1 h)
    if hi ≤ lo then none
    else some (addr + nth offs k + stride * lo, stride * (hi - lo - 1) + (if k = 0 then m.1 else m.2)))

end Sys2Proof.Machine
end

