-- ==== Sys2Proof/Machine/Regs.lean ====
section
/-!
DEFINITION. The register map of the part: every register of the block tables of the spec with its address, its
dimensions, its field type (Table 0-6), the mask of its defined bits (R6: reserved bits read 0), its reset value, whether
the spec names it a settings register, and its owner under R529. The mailbox window (BAR0, R47) is addressed here too.
Reset values the tables do not give are 0 (log entry 3).
-/

set_option Elab.async false

namespace Sys2Proof.Machine

/-- Register field types of Table 0-6. -/
inductive RegTy where
  | ro | rw | rc | w1c | wo | rws
deriving DecidableEq, Repr

/-- Who owns a register (R529, R83, R98 and the subject chapters). `res b` is the resource byte `b` plus the first index. -/
inductive Own where
  | part0 | everyone | res (first : Nat) | ctxWord | partEntry | ring | session | bank | slot | stream | output | root | perBit
deriving DecidableEq, Repr

/-- One row of a register map: `base + s1 * i + s2 * j` for `i < n1`, `j < n2`. -/
structure RegRow where
  base : Nat
  s1 : Nat
  n1 : Nat
  s2 : Nat
  n2 : Nat
  ty : RegTy
  mask : Nat
  rst : Nat
  setting : Bool
  own : Own
deriving DecidableEq, Repr


-- CTX
def R.CTX_INFO : Nat := 0x1100000000
def R.CTX_FREE_COUNT : Nat := 0x1100000004
def R.CTX_ENT_OWN (i : Nat) : Nat := 0x1100010000 + 0x10 * i
def R.CTX_ENT_IRQ (i : Nat) : Nat := 0x1100010004 + 0x10 * i
def R.CTX_ENT_QOS (i : Nat) : Nat := 0x1100010008 + 0x10 * i
def R.CTX_ENT_MEM (i : Nat) : Nat := 0x110001000c + 0x10 * i
def R.PART_CTRL (i : Nat) : Nat := 0x1100020000 + 0x40 * i
def R.PART_DRAM_QUOTA (i : Nat) : Nat := 0x1100020004 + 0x40 * i
def R.PART_DRAM_USED (i : Nat) : Nat := 0x1100020008 + 0x40 * i
def R.PART_LAT_DEFAULT (i : Nat) : Nat := 0x110002000c + 0x40 * i
def R.PART_STAGE_QUOTA (i : Nat) : Nat := 0x1100020010 + 0x40 * i
def R.PART_POOL_QUOTA (i : Nat) : Nat := 0x1100020014 + 0x40 * i
def R.PART_POOL_USED (i : Nat) : Nat := 0x1100020018 + 0x40 * i
def R.PART_CTX_COUNT (i : Nat) : Nat := 0x110002001c + 0x40 * i
def R.PART_RST_STAT (i : Nat) : Nat := 0x1100020020 + 0x40 * i
def R.CTX_RES_OWN (i : Nat) : Nat := 0x1100030000 + 0x4 * i
def R.CTX_VIOL_CNT (i : Nat) (j : Nat) : Nat := 0x1100040000 + 0x40 * i + 0x4 * j
def R.CTX_VIOL_LAST (i : Nat) (j : Nat) : Nat := 0x1100050000 + 0x10 * i + 0x4 * j
def R.CTX_ST_USED (i : Nat) : Nat := 0x1100060000 + 0x10 * i
def R.CTX_ST_QOS (i : Nat) : Nat := 0x1100060004 + 0x10 * i
def R.CTX_ST_LAT (i : Nat) : Nat := 0x1100060008 + 0x10 * i

-- EVT
def R.EVT_INFO : Nat := 0x1200000000
def R.EVT_CTRL : Nat := 0x1200000004
def R.EVT_ROOT_NEXT : Nat := 0x1200000008
def R.EVT_ROOT_OPEN : Nat := 0x120000000c
def R.EVT_ROOT_CLOSE : Nat := 0x1200000010
def R.EVT_NVLOG_STAT : Nat := 0x1200000014
def R.EVT_CORR_CNT (i : Nat) : Nat := 0x1200010000 + 0x4 * i
def R.EVT_ROOT (i : Nat) (j : Nat) : Nat := 0x1200020000 + 0x40 * i + 0x4 * j
def R.EVT_NOQ_CNT (i : Nat) : Nat := 0x1200030000 + 0x4 * i

-- LNA
def R.LNA_INFO : Nat := 0x2000000000
def R.LNA_ALIGN_CFG : Nat := 0x2000000004
def R.LNA_QUAD_CFG (i : Nat) : Nat := 0x2000000100 + 0x4 * i
def R.LNA_QUAD_STAT (i : Nat) : Nat := 0x2000000200 + 0x4 * i
def R.LNA_LANE_CTRL (i : Nat) : Nat := 0x2000010000 + 0x40 * i
def R.LNA_LANE_STAT (i : Nat) : Nat := 0x2000010004 + 0x40 * i
def R.LNA_LANE_ERR (i : Nat) : Nat := 0x2000010008 + 0x40 * i
def R.LNA_LANE_LOSS (i : Nat) : Nat := 0x200001000c + 0x40 * i
def R.LNA_LANE_LOOP (i : Nat) : Nat := 0x2000010010 + 0x40 * i
def R.LNA_PRBS_CTRL (i : Nat) : Nat := 0x2000010014 + 0x40 * i
def R.LNA_PRBS_ERR (i : Nat) : Nat := 0x2000010018 + 0x40 * i
def R.LNA_PRBS_BITS_LO (i : Nat) : Nat := 0x200001001c + 0x40 * i
def R.LNA_PRBS_BITS_HI (i : Nat) : Nat := 0x2000010020 + 0x40 * i
def R.LNA_INJ_CNT (i : Nat) : Nat := 0x2000010024 + 0x40 * i

-- SLK
def R.SLK_INFO : Nat := 0x2100000000
def R.SLK_FRAME_CFG : Nat := 0x2100000004
def R.SLK_PERIOD_MIN : Nat := 0x2100000008
def R.SLK_LINK_CFG : Nat := 0x210000000c
def R.SLK_EXP_LAT : Nat := 0x2100000010
def R.SLK_RX_LAT : Nat := 0x2100000014
def R.SLK_EXP_DUR : Nat := 0x2100000018
def R.SLK_BC_CFG : Nat := 0x210000001c
def R.SLK_LINK_STAT : Nat := 0x2100000020
def R.SLK_REJ_CAUSE : Nat := 0x2100000024
def R.SLK_STRIPE_COUNT : Nat := 0x2100000028
def R.SLK_STRIPE_CFG (i : Nat) : Nat := 0x2100000040 + 0x4 * i
def R.SLK_LANE_MAP (i : Nat) : Nat := 0x2100000200 + 0x4 * i
def R.SLK_LANE_STAT (i : Nat) : Nat := 0x2100000300 + 0x4 * i
def R.SLK_HCRC_ERR : Nat := 0x2100000400
def R.SLK_PCRC_ERR : Nat := 0x2100000404
def R.SLK_PKT_DROP : Nat := 0x2100000408
def R.SLK_OVF_CNT : Nat := 0x210000040c
def R.SLK_EXP_DROP : Nat := 0x2100000410
def R.SLK_BC_RETRY : Nat := 0x2100000414
def R.SLK_EMBED_DROP : Nat := 0x2100000418
def R.SLK_EXP_NEXT : Nat := 0x210000041c

-- PSC
def R.PSC_INFO : Nat := 0x2200000000
def R.PSC_CFG : Nat := 0x2200000004
def R.PSC_LEVEL : Nat := 0x2200000008
def R.PSC_DARK_CFG : Nat := 0x220000000c
def R.PSC_DARK_ADDR_LO : Nat := 0x2200000010
def R.PSC_DARK_ADDR_HI : Nat := 0x2200000014
def R.PSC_GAIN_CFG : Nat := 0x2200000018
def R.PSC_GAIN_ADDR_LO : Nat := 0x220000001c
def R.PSC_GAIN_ADDR_HI : Nat := 0x2200000020
def R.PSC_PLANE_PITCH : Nat := 0x2200000024
def R.PSC_PLANE_ORIGIN : Nat := 0x2200000028
def R.PSC_SPARSE_CFG : Nat := 0x220000002c
def R.PSC_SPARSE_ADDR_LO : Nat := 0x2200000030
def R.PSC_SPARSE_ADDR_HI : Nat := 0x2200000034
def R.PSC_STAT : Nat := 0x2200000038
def R.PSC_REJ_CAUSE : Nat := 0x220000003c
def R.PSC_SPARSE_ERR : Nat := 0x2200000040
def R.PSC_SPARSE_SKIP : Nat := 0x2200000044
def R.PSC_STARVE_CNT : Nat := 0x2200000048
def R.PSC_DEMAND : Nat := 0x220000004c

-- BKC
def R.BKC_INFO : Nat := 0x2300000000
def R.BKC_CFG : Nat := 0x2300000004
def R.BKC_REF_ADDR_LO : Nat := 0x2300000008
def R.BKC_REF_ADDR_HI : Nat := 0x230000000c
def R.BKC_KEY_REQ : Nat := 0x2300000010
def R.BKC_FRAME_BYTES : Nat := 0x2300000014
def R.BKC_REF_VALID_LO : Nat := 0x2300000018
def R.BKC_REF_VALID_HI : Nat := 0x230000001c
def R.BKC_REJ_CAUSE : Nat := 0x2300000020
def R.BKC_DROP_CNT : Nat := 0x2300000024
def R.BKC_CORRUPT_CNT : Nat := 0x2300000028
def R.BKC_JOB_BASE_LO : Nat := 0x2300000100
def R.BKC_JOB_BASE_HI : Nat := 0x2300000104
def R.BKC_JOB_CTRL : Nat := 0x2300000108
def R.BKC_JOB_PROD : Nat := 0x230000010c
def R.BKC_JOB_CONS : Nat := 0x2300000110
def R.BKC_JOB_ABORT : Nat := 0x2300000114
def R.BKC_JOB_ERR : Nat := 0x2300000118

-- CPL
def R.CPL_INFO : Nat := 0x2400000000
def R.CPL_CFG : Nat := 0x2400000004
def R.CPL_DEC : Nat := 0x2400000008
def R.CPL_TAP_ADDR_LO : Nat := 0x240000000c
def R.CPL_TAP_ADDR_HI : Nat := 0x2400000010
def R.CPL_TRIM_01 : Nat := 0x2400000014
def R.CPL_TRIM_23 : Nat := 0x2400000018
def R.CPL_WB_01 : Nat := 0x240000001c
def R.CPL_WB_23 : Nat := 0x2400000020
def R.CPL_MTX_A (i : Nat) : Nat := 0x2400000040 + 0x10 * i
def R.CPL_MTX_B (i : Nat) : Nat := 0x2400000044 + 0x10 * i
def R.CPL_MTX_OFF (i : Nat) : Nat := 0x2400000048 + 0x10 * i
def R.CPL_STAT : Nat := 0x2400000080
def R.CPL_DEV_FRAME_LO : Nat := 0x2400000084
def R.CPL_DEV_FRAME_HI : Nat := 0x2400000088
def R.CPL_SKIP_CNT : Nat := 0x240000008c
def R.CPL_REJ_CAUSE : Nat := 0x2400000090
def R.CPL_SC_CFG (i : Nat) : Nat := 0x2400010000 + 0x100 * i
def R.CPL_SC_CTX (i : Nat) : Nat := 0x2400010004 + 0x100 * i
def R.CPL_SC_CROP_XY (i : Nat) : Nat := 0x2400010008 + 0x100 * i
def R.CPL_SC_CROP_WH (i : Nat) : Nat := 0x240001000c + 0x100 * i
def R.CPL_SC_OUT_WH (i : Nat) : Nat := 0x2400010010 + 0x100 * i
def R.CPL_SC_STRIDE (i : Nat) : Nat := 0x2400010014 + 0x100 * i
def R.CPL_SC_LUT_LO (i : Nat) : Nat := 0x2400010018 + 0x100 * i
def R.CPL_SC_LUT_HI (i : Nat) : Nat := 0x240001001c + 0x100 * i
def R.CPL_SC_BUF_LO (i : Nat) (j : Nat) : Nat := 0x2400010020 + 0x100 * i + 0x8 * j
def R.CPL_SC_BUF_HI (i : Nat) (j : Nat) : Nat := 0x2400010024 + 0x100 * i + 0x8 * j
def R.CPL_SC_STAT (i : Nat) : Nat := 0x2400010040 + 0x100 * i
def R.CPL_SC_DROP (i : Nat) : Nat := 0x2400010044 + 0x100 * i
def R.CPL_SC_CLIP (i : Nat) : Nat := 0x2400010048 + 0x100 * i
def R.CPL_SC_LAST_LO (i : Nat) : Nat := 0x240001004c + 0x100 * i
def R.CPL_SC_LAST_HI (i : Nat) : Nat := 0x2400010050 + 0x100 * i

-- CRS
def R.CRS_INFO : Nat := 0x2500000000
def R.CRS_CFG : Nat := 0x2500000004
def R.CRS_CLIP : Nat := 0x2500000008
def R.CRS_Z_XY (i : Nat) : Nat := 0x2500000010 + 0x10 * i
def R.CRS_Z_WH (i : Nat) : Nat := 0x2500000014 + 0x10 * i
def R.CRS_Z_GRID (i : Nat) : Nat := 0x2500000018 + 0x10 * i
def R.CRS_ROUTE (i : Nat) : Nat := 0x2500000100 + 0x4 * i
def R.CRS_REJ_CAUSE : Nat := 0x2500000200
def R.CRS_DROP_CNT : Nat := 0x2500000204
def R.CRS_LOAD : Nat := 0x2500000208
def R.CRS_SC_CFG (i : Nat) : Nat := 0x2500010000 + 0x40 * i
def R.CRS_SC_ROUTE (i : Nat) : Nat := 0x2500010004 + 0x40 * i

-- LND
def R.LND_INFO : Nat := 0x2600000000
def R.LND_REJ_CAUSE : Nat := 0x2600000004
def R.LND_RATE : Nat := 0x2600000008
def R.LND_RET_STAT : Nat := 0x260000000c
def R.LND_UA_I2C : Nat := 0x2600000010
def R.LND_TAG_FREE : Nat := 0x2600000014
def R.LND_SLOT_OWN (i : Nat) : Nat := 0x2600000100 + 0x4 * i
def R.LND_UA_OWN (i : Nat) : Nat := 0x2600000200 + 0x4 * i
def R.LND_SLOT_STAT (i : Nat) : Nat := 0x2600001000 + 0x20 * i
def R.LND_SLOT_WIDX (i : Nat) : Nat := 0x2600001004 + 0x20 * i
def R.LND_SLOT_TAKE (i : Nat) : Nat := 0x2600001008 + 0x20 * i
def R.LND_SLOT_CUT (i : Nat) : Nat := 0x260000100c + 0x20 * i

-- DMC
def R.DMC_INFO : Nat := 0x3000000000
def R.DMC_CFG : Nat := 0x3000000004
def R.DMC_PAGE_IDLE : Nat := 0x3000000008
def R.DMC_SR_IDLE : Nat := 0x300000000c
def R.DMC_ING_TGT : Nat := 0x3000000010
def R.DMC_ING_TGT_TAP : Nat := 0x3000000014
def R.DMC_RETRAIN : Nat := 0x3000000018
def R.DMC_DEMAND : Nat := 0x300000001c
def R.DMC_BUDGET : Nat := 0x3000000020
def R.DMC_TRAIN_STAT : Nat := 0x3000000024
def R.DMC_CH_STAT (i : Nat) : Nat := 0x3000010000 + 0x20 * i
def R.DMC_CH_CE (i : Nat) : Nat := 0x3000010004 + 0x20 * i
def R.DMC_CH_UE (i : Nat) : Nat := 0x3000010008 + 0x20 * i
def R.DMC_CH_UE_ADDR_LO (i : Nat) : Nat := 0x300001000c + 0x20 * i
def R.DMC_CH_UE_ADDR_HI (i : Nat) : Nat := 0x3000010010 + 0x20 * i
def R.DMC_PORT_STAT (i : Nat) : Nat := 0x3000020000 + 0x10 * i
def R.DMC_PORT_LAT (i : Nat) : Nat := 0x3000020004 + 0x10 * i

-- SPD
def R.SPD_INFO : Nat := 0x3100000000
def R.SPD_COLL_CNT : Nat := 0x3100000004
def R.SPD_COLL_LAST : Nat := 0x3100000008
def R.SPD_ERR : Nat := 0x310000000c
def R.SPD_BANK_OWN (i : Nat) : Nat := 0x3100000100 + 0x4 * i
def R.SPD_BANK_HO (i : Nat) : Nat := 0x3100000200 + 0x4 * i

-- CHT
def R.CHT_INFO : Nat := 0x3200000000
def R.CHT_CFG (i : Nat) : Nat := 0x3200010000 + 0x10 * i
def R.CHT_STAT (i : Nat) : Nat := 0x3200010004 + 0x10 * i
def R.CHT_FLAGS (i : Nat) : Nat := 0x3200010008 + 0x10 * i
def R.CHT_ERR (i : Nat) : Nat := 0x320001000c + 0x10 * i

-- VCD
def R.VCD_INFO : Nat := 0x2700000000
def R.VCD_POOL_CFG : Nat := 0x2700000004
def R.VCD_POOL_ADDR_LO : Nat := 0x2700000008
def R.VCD_POOL_ADDR_HI : Nat := 0x270000000c
def R.VCD_POOL_FREE : Nat := 0x2700000010
def R.VCD_REJ_CAUSE : Nat := 0x2700000014
def R.VCD_ENC_RESV : Nat := 0x2700000018
def R.VCD_ENC_BUSY : Nat := 0x270000001c
def R.VCD_DEC_BUSY : Nat := 0x2700000020
def R.VCD_CONCEAL_CNT : Nat := 0x2700000024
def R.VCD_SES_STAT (i : Nat) : Nat := 0x2700010000 + 0x20 * i
def R.VCD_SES_BUFS (i : Nat) : Nat := 0x2700010004 + 0x20 * i
def R.VCD_SES_JOBS (i : Nat) : Nat := 0x2700010008 + 0x20 * i
def R.VCD_SES_PICS (i : Nat) : Nat := 0x270001000c + 0x20 * i
def R.VCD_SES_LAST_LO (i : Nat) : Nat := 0x2700010010 + 0x20 * i
def R.VCD_SES_LAST_HI (i : Nat) : Nat := 0x2700010014 + 0x20 * i
def R.VCD_SES_SKIP (i : Nat) : Nat := 0x2700010018 + 0x20 * i

-- MON
def R.MON_INFO : Nat := 0x2800000000
def R.MON_FB_CFG : Nat := 0x2800000004
def R.MON_FB_ADDR_LO : Nat := 0x2800000008
def R.MON_FB_ADDR_HI : Nat := 0x280000000c
def R.MON_FB_FREE : Nat := 0x2800000010
def R.MON_REJ_CAUSE : Nat := 0x2800000014
def R.MON_OUT_CTRL (i : Nat) : Nat := 0x2800010000 + 0x200 * i
def R.MON_OUT_SIZE (i : Nat) : Nat := 0x2800010004 + 0x200 * i
def R.MON_OUT_BG (i : Nat) : Nat := 0x2800010008 + 0x200 * i
def R.MON_OUT_LINE (i : Nat) : Nat := 0x280001000c + 0x200 * i
def R.MON_OUT_DSI (i : Nat) : Nat := 0x2800010010 + 0x200 * i
def R.MON_OUT_DSI_T (i : Nat) : Nat := 0x2800010014 + 0x200 * i
def R.MON_OUT_STAT (i : Nat) : Nat := 0x2800010018 + 0x200 * i
def R.MON_OUT_EPOCH (i : Nat) : Nat := 0x280001001c + 0x200 * i
def R.MON_OUT_UNDER (i : Nat) : Nat := 0x2800010020 + 0x200 * i
def R.MON_OUT_FRAMES (i : Nat) : Nat := 0x2800010024 + 0x200 * i
def R.MON_OUT_TEMISS (i : Nat) : Nat := 0x2800010028 + 0x200 * i
def R.MON_OUT_LATE (i : Nat) : Nat := 0x280001002c + 0x200 * i
def R.MON_LY_CFG (i : Nat) (j : Nat) : Nat := 0x2800010100 + 0x200 * i + 0x20 * j
def R.MON_LY_POS (i : Nat) (j : Nat) : Nat := 0x2800010104 + 0x200 * i + 0x20 * j
def R.MON_LY_SIZE (i : Nat) (j : Nat) : Nat := 0x2800010108 + 0x200 * i + 0x20 * j
def R.MON_LY_STRIDE (i : Nat) (j : Nat) : Nat := 0x280001010c + 0x200 * i + 0x20 * j
def R.MON_LY_STAT (i : Nat) (j : Nat) : Nat := 0x2800010110 + 0x200 * i + 0x20 * j

-- TIM
def R.TIM_INFO : Nat := 0x2900000000
def R.TIM_REJ_CAUSE : Nat := 0x2900000004
def R.TIM_NOW_NS : Nat := 0x2900000010
def R.TIM_NOW_SEC_LO : Nat := 0x2900000014
def R.TIM_NOW_SEC_HI : Nat := 0x2900000018
def R.TIM_NOW_FRAC : Nat := 0x290000001c
def R.TIM_NOW_SHORT : Nat := 0x2900000020
def R.TIM_ADJ : Nat := 0x2900000024
def R.TIM_PTP_CFG : Nat := 0x2900010000
def R.TIM_PTP_INTV : Nat := 0x2900010004
def R.TIM_PTP_SERVO : Nat := 0x2900010008
def R.TIM_PTP_STEP : Nat := 0x290001000c
def R.TIM_PTP_STAT : Nat := 0x2900010010
def R.TIM_PTP_OFFSET : Nat := 0x2900010014
def R.TIM_PTP_PATH : Nat := 0x2900010018
def R.TIM_PTP_GM_LO : Nat := 0x290001001c
def R.TIM_PTP_GM_HI : Nat := 0x2900010020
def R.TIM_ETH_MAC_LO (i : Nat) : Nat := 0x2900010100 + 0x20 * i
def R.TIM_ETH_MAC_HI (i : Nat) : Nat := 0x2900010104 + 0x20 * i
def R.TIM_ETH_IP (i : Nat) : Nat := 0x2900010108 + 0x20 * i
def R.TIM_PORT_ASYM (i : Nat) : Nat := 0x290001010c + 0x20 * i
def R.TIM_PORT_LAT (i : Nat) : Nat := 0x2900010110 + 0x20 * i
def R.TIM_PORT_CNT (i : Nat) : Nat := 0x2900010114 + 0x20 * i
def R.TIM_TRIG_CFG (i : Nat) : Nat := 0x2900020000 + 0x10 * i
def R.TIM_TRIG_CNT (i : Nat) : Nat := 0x2900020004 + 0x10 * i
def R.TIM_EXP_SRC : Nat := 0x2900020100
def R.TIM_STRB_CFG (i : Nat) : Nat := 0x2900020200 + 0x10 * i
def R.TIM_STRB_DELAY (i : Nat) : Nat := 0x2900020204 + 0x10 * i
def R.TIM_STRB_WIDTH (i : Nat) : Nat := 0x2900020208 + 0x10 * i
def R.TIM_STRB_CNT (i : Nat) : Nat := 0x290002020c + 0x10 * i
def R.TIM_CAD_CFG (i : Nat) : Nat := 0x2900030000 + 0x10 * i
def R.TIM_CAD_RATE (i : Nat) : Nat := 0x2900030004 + 0x10 * i
def R.TIM_CAD_PHASE (i : Nat) : Nat := 0x2900030008 + 0x10 * i
def R.TIM_CAD_STAT (i : Nat) : Nat := 0x290003000c + 0x10 * i
def R.TIM_OUT_CAD : Nat := 0x2900030100
def R.TIM_GL_CFG : Nat := 0x2900030104
def R.TIM_TC_CFG : Nat := 0x2900040000
def R.TIM_TC_BASE_NS : Nat := 0x2900040004
def R.TIM_TC_BASE_SEC_LO : Nat := 0x2900040008
def R.TIM_TC_BASE_SEC_HI : Nat := 0x290004000c
def R.TIM_TC_NOW : Nat := 0x2900040010
def R.TIM_LTC_IN : Nat := 0x2900040014
def R.TIM_LTC_DIFF : Nat := 0x2900040018
def R.TIM_LOG_IDX : Nat := 0x2900050000
def R.TIM_LOG (i : Nat) (j : Nat) : Nat := 0x2900051000 + 0x20 * i + 0x4 * j

-- AUD
def R.AUD_INFO : Nat := 0x2a00000000
def R.AUD_REJ_CAUSE : Nat := 0x2a00000004
def R.AUD_P_CFG (i : Nat) : Nat := 0x2a00010000 + 0x100 * i
def R.AUD_P_MASK (i : Nat) : Nat := 0x2a00010004 + 0x100 * i
def R.AUD_P_CTX (i : Nat) : Nat := 0x2a00010008 + 0x100 * i
def R.AUD_P_RING (i : Nat) : Nat := 0x2a0001000c + 0x100 * i
def R.AUD_P_WIN (i : Nat) : Nat := 0x2a00010010 + 0x100 * i
def R.AUD_P_STAT (i : Nat) : Nat := 0x2a00010014 + 0x100 * i
def R.AUD_P_ERR (i : Nat) : Nat := 0x2a00010018 + 0x100 * i
def R.AUD_P_CLK (i : Nat) : Nat := 0x2a0001001c + 0x100 * i
def R.AUD_P_SEQ (i : Nat) : Nat := 0x2a00010020 + 0x100 * i
def R.AUD_AES_V (i : Nat) : Nat := 0x2a00010024 + 0x100 * i
def R.AUD_AES_ERR (i : Nat) : Nat := 0x2a00010028 + 0x100 * i
def R.AUD_AES_CS (i : Nat) (j : Nat) : Nat := 0x2a00010040 + 0x100 * i + 0x4 * j

-- HLK
def R.HLK_INFO : Nat := 0x2b00000000
def R.HLK_LINK_STAT : Nat := 0x2b00000004
def R.HLK_STAGE_ADDR_LO : Nat := 0x2b00000008
def R.HLK_STAGE_ADDR_HI : Nat := 0x2b0000000c
def R.HLK_STAGE_SIZE : Nat := 0x2b00000010
def R.HLK_STAGE_USED : Nat := 0x2b00000014
def R.HLK_REJ_CAUSE : Nat := 0x2b00000018
def R.HLK_ERR : Nat := 0x2b0000001c
def R.HLK_STREAM_CFG (i : Nat) : Nat := 0x2b00000100 + 0x4 * i
def R.HLK_RING_SUB_LO (i : Nat) : Nat := 0x2b00100000 + 0x40 * i
def R.HLK_RING_SUB_HI (i : Nat) : Nat := 0x2b00100004 + 0x40 * i
def R.HLK_RING_CPL_LO (i : Nat) : Nat := 0x2b00100008 + 0x40 * i
def R.HLK_RING_CPL_HI (i : Nat) : Nat := 0x2b0010000c + 0x40 * i
def R.HLK_RING_IDX_LO (i : Nat) : Nat := 0x2b00100010 + 0x40 * i
def R.HLK_RING_IDX_HI (i : Nat) : Nat := 0x2b00100014 + 0x40 * i
def R.HLK_RING_CTRL (i : Nat) : Nat := 0x2b00100018 + 0x40 * i
def R.HLK_RING_STAT (i : Nat) : Nat := 0x2b0010001c + 0x40 * i
def R.HLK_RING_DROP (i : Nat) : Nat := 0x2b00100020 + 0x40 * i

-- CBS
def R.CBS_INFO : Nat := 0x2c00000000
def R.CBS_REJ_CAUSE : Nat := 0x2c00000004
def R.CBS_TGT_ADDR : Nat := 0x2c00000010
def R.CBS_TGT_CNT : Nat := 0x2c00000014
def R.CBS_I2C_TIM0 (i : Nat) : Nat := 0x2c00010000 + 0x40 * i
def R.CBS_I2C_TIM1 (i : Nat) : Nat := 0x2c00010004 + 0x40 * i
def R.CBS_I2C_XFER (i : Nat) : Nat := 0x2c00010008 + 0x40 * i
def R.CBS_I2C_CTX (i : Nat) : Nat := 0x2c0001000c + 0x40 * i
def R.CBS_I2C_DATA (i : Nat) (j : Nat) : Nat := 0x2c00010010 + 0x40 * i + 0x4 * j
def R.CBS_I2C_STAT (i : Nat) : Nat := 0x2c00010020 + 0x40 * i
def R.CBS_I2C_ERR (i : Nat) : Nat := 0x2c00010024 + 0x40 * i
def R.CBS_GPIO_CFG (i : Nat) : Nat := 0x2c00020000 + 0x4 * i
def R.CBS_GPIO_IN : Nat := 0x2c00020100
def R.CBS_GPIO_SET : Nat := 0x2c00020104
def R.CBS_GPIO_CLR : Nat := 0x2c00020108
def R.CBS_TRIG_PIN (i : Nat) : Nat := 0x2c00020200 + 0x4 * i

-- AON
def R.SYS_ID : Nat := 0x3f00000000
def R.AON_PWR_STAT : Nat := 0x3f00000004
def R.AON_WAKE : Nat := 0x3f00000008
def R.AON_BAK_CFG : Nat := 0x3f0000000c
def R.AON_BAK_STAT : Nat := 0x3f00000010
def R.AON_HOLD_TIME : Nat := 0x3f00000014
def R.AON_BOOT_STAT : Nat := 0x3f00000020
def R.AON_BOOT_COUNT : Nat := 0x3f00000024
def R.THM_TJ : Nat := 0x3f00010000
def R.THM_LIMIT : Nat := 0x3f00010004
def R.THM_RATE : Nat := 0x3f00010008
def R.THM_STAT : Nat := 0x3f0001000c
def R.THM_CNT : Nat := 0x3f00010010

def regsCtx : List RegRow := [
  ⟨0x1100000000, 0x0, 1, 0x0, 1, .ro, 0xffffff, 0x401000, false, .everyone⟩,
  ⟨0x1100000004, 0x0, 1, 0x0, 1, .ro, 0x1fff, 0x0, false, .part0⟩,
  ⟨0x1100010000, 0x10, 4096, 0x0, 1, .rw, 0x37f, 0x0, true, .part0⟩,
  ⟨0x1100010004, 0x10, 4096, 0x0, 1, .rw, 0xffff7fff, 0x1, true, .ctxWord⟩,
  ⟨0x1100010008, 0x10, 4096, 0x0, 1, .rw, 0x1ffff, 0x0, true, .ctxWord⟩,
  ⟨0x110001000c, 0x10, 4096, 0x0, 1, .rw, 0x3ffff, 0x0, true, .ctxWord⟩,
  ⟨0x1100020000, 0x40, 64, 0x0, 1, .rw, 0xfff71, 0x200, true, .partEntry⟩,
  ⟨0x1100020004, 0x40, 64, 0x0, 1, .rw, 0x3ffff, 0x0, true, .partEntry⟩,
  ⟨0x1100020008, 0x40, 64, 0x0, 1, .ro, 0x3ffff, 0x0, false, .partEntry⟩,
  ⟨0x110002000c, 0x40, 64, 0x0, 1, .rw, 0xffff, 0x7d0, true, .partEntry⟩,
  ⟨0x1100020010, 0x40, 64, 0x0, 1, .rw, 0x7fff, 0x0, true, .partEntry⟩,
  ⟨0x1100020014, 0x40, 64, 0x0, 1, .rw, 0xffffff, 0x0, true, .partEntry⟩,
  ⟨0x1100020018, 0x40, 64, 0x0, 1, .ro, 0xffffff, 0x0, false, .partEntry⟩,
  ⟨0x110002001c, 0x40, 64, 0x0, 1, .ro, 0x1fff, 0x0, false, .partEntry⟩,
  ⟨0x1100020020, 0x40, 64, 0x0, 1, .ro, 0xffff000f, 0x0, false, .partEntry⟩,
  ⟨0x1100030000, 0x4, 17, 0x0, 1, .rw, 0x3f3f3f3f, 0x0, true, .part0⟩,
  ⟨0x1100040000, 0x40, 64, 0x4, 16, .ro, 0xffffffff, 0x0, false, .part0⟩,
  ⟨0x1100050000, 0x10, 64, 0x4, 4, .ro, 0xffffffff, 0x0, false, .part0⟩,
  ⟨0x1100060000, 0x10, 4096, 0x0, 1, .ro, 0x3ffff, 0x0, false, .part0⟩,
  ⟨0x1100060004, 0x10, 4096, 0x0, 1, .ro, 0xffffffff, 0x0, false, .part0⟩,
  ⟨0x1100060008, 0x10, 4096, 0x0, 1, .ro, 0xffff, 0x0, false, .part0⟩]

def regsEvt : List RegRow := [
  ⟨0x1200000000, 0x0, 1, 0x0, 1, .ro, 0x1ff, 0x100, false, .everyone⟩,
  ⟨0x1200000004, 0x0, 1, 0x0, 1, .rw, 0x103ff, 0x1000a, true, .part0⟩,
  ⟨0x1200000008, 0x0, 1, 0x0, 1, .ro, 0xffffffff, 0x1, false, .part0⟩,
  ⟨0x120000000c, 0x0, 1, 0x0, 1, .ro, 0x1ff, 0x0, false, .part0⟩,
  ⟨0x1200000010, 0x0, 1, 0x0, 1, .wo, 0xffffffff, 0x0, false, .part0⟩,
  ⟨0x1200000014, 0x0, 1, 0x0, 1, .ro, 0xffffffff, 0x0, false, .part0⟩,
  ⟨0x1200010000, 0x4, 256, 0x0, 1, .rc, 0xffffffff, 0x0, false, .part0⟩,
  ⟨0x1200020000, 0x40, 256, 0x4, 16, .ro, 0xffffffff, 0x0, false, .root⟩,
  ⟨0x1200030000, 0x4, 64, 0x0, 1, .rc, 0xffffffff, 0x0, false, .part0⟩]

def regsLna : List RegRow := [
  ⟨0x2000000000, 0x0, 1, 0x0, 1, .ro, 0xffff, 0x1040, false, .everyone⟩,
  ⟨0x2000000004, 0x0, 1, 0x0, 1, .rw, 0x7fff, 0x1000, true, .part0⟩,
  ⟨0x2000000100, 0x4, 16, 0x0, 1, .rw, 0xf3, 0x0, true, .part0⟩,
  ⟨0x2000000200, 0x4, 16, 0x0, 1, .ro, 0xffff0003, 0x0, false, .part0⟩,
  ⟨0x2000010000, 0x40, 64, 0x0, 1, .rw, 0x7, 0x0, true, .part0⟩,
  ⟨0x2000010004, 0x40, 64, 0x0, 1, .ro, 0xffff7ff, 0x0, false, .part0⟩,
  ⟨0x2000010008, 0x40, 64, 0x0, 1, .rc, 0xffffffff, 0x0, false, .part0⟩,
  ⟨0x200001000c, 0x40, 64, 0x0, 1, .rc, 0xffff, 0x0, false, .part0⟩,
  ⟨0x2000010010, 0x40, 64, 0x0, 1, .rw, 0x3, 0x0, false, .part0⟩,
  ⟨0x2000010014, 0x40, 64, 0x0, 1, .rw, 0x7f, 0x0, false, .part0⟩,
  ⟨0x2000010018, 0x40, 64, 0x0, 1, .rc, 0xffffffff, 0x0, false, .part0⟩,
  ⟨0x200001001c, 0x40, 64, 0x0, 1, .ro, 0xffffffff, 0x0, false, .part0⟩,
  ⟨0x2000010020, 0x40, 64, 0x0, 1, .ro, 0xffffffff, 0x0, false, .part0⟩,
  ⟨0x2000010024, 0x40, 64, 0x0, 1, .rc, 0xffffffff, 0x0, false, .part0⟩]

def regsSlk : List RegRow := [
  ⟨0x2100000000, 0x0, 1, 0x0, 1, .ro, 0xffff, 0x430, false, .everyone⟩,
  ⟨0x2100000004, 0x0, 1, 0x0, 1, .rw, 0x3ffff7ff, 0x0, true, .part0⟩,
  ⟨0x2100000008, 0x0, 1, 0x0, 1, .rw, 0xffffffff, 0x7f2815, true, .part0⟩,
  ⟨0x210000000c, 0x0, 1, 0x0, 1, .rw, 0xff03ff, 0x4000a, true, .part0⟩,
  ⟨0x2100000010, 0x0, 1, 0x0, 1, .rw, 0xfffff, 0x0, true, .part0⟩,
  ⟨0x2100000014, 0x0, 1, 0x0, 1, .rw, 0xfffff, 0x0, true, .part0⟩,
  ⟨0x2100000018, 0x0, 1, 0x0, 1, .rw, 0xffffffff, 0x0, true, .part0⟩,
  ⟨0x210000001c, 0x0, 1, 0x0, 1, .rw, 0xfffff, 0x30064, true, .part0⟩,
  ⟨0x2100000020, 0x0, 1, 0x0, 1, .ro, 0x7ff, 0x0, false, .part0⟩,
  ⟨0x2100000024, 0x0, 1, 0x0, 1, .ro, 0xff, 0x0, false, .part0⟩,
  ⟨0x2100000028, 0x0, 1, 0x0, 1, .rw, 0x3f, 0x1, true, .part0⟩,
  ⟨0x2100000040, 0x4, 48, 0x0, 1, .rw, 0x3fffff, 0x0, true, .part0⟩,
  ⟨0x2100000200, 0x4, 64, 0x0, 1, .rw, 0x3fff, 0x0, true, .part0⟩,
  ⟨0x2100000300, 0x4, 64, 0x0, 1, .ro, 0xff7fff, 0x0, false, .part0⟩,
  ⟨0x2100000400, 0x0, 1, 0x0, 1, .rc, 0xffffffff, 0x0, false, .part0⟩,
  ⟨0x2100000404, 0x0, 1, 0x0, 1, .rc, 0xffffffff, 0x0, false, .part0⟩,
  ⟨0x2100000408, 0x0, 1, 0x0, 1, .rc, 0xffffffff, 0x0, false, .part0⟩,
  ⟨0x210000040c, 0x0, 1, 0x0, 1, .rc, 0xffffffff, 0x0, false, .part0⟩,
  ⟨0x2100000410, 0x0, 1, 0x0, 1, .rc, 0xffffffff, 0x0, false, .part0⟩,
  ⟨0x2100000414, 0x0, 1, 0x0, 1, .rc, 0xffffffff, 0x0, false, .part0⟩,
  ⟨0x2100000418, 0x0, 1, 0x0, 1, .rc, 0xffffffff, 0x0, false, .part0⟩,
  ⟨0x210000041c, 0x0, 1, 0x0, 1, .ro, 0xff, 0x0, false, .part0⟩]

def regsPsc : List RegRow := [
  ⟨0x2200000000, 0x0, 1, 0x0, 1, .ro, 0xffff, 0x1060, false, .everyone⟩,
  ⟨0x2200000004, 0x0, 1, 0x0, 1, .rw, 0x3, 0x1, true, .part0⟩,
  ⟨0x2200000008, 0x0, 1, 0x0, 1, .rw, 0xffff, 0x0, true, .part0⟩,
  ⟨0x220000000c, 0x0, 1, 0x0, 1, .rw, 0xffff00f3, 0x0, true, .part0⟩,
  ⟨0x2200000010, 0x0, 1, 0x0, 1, .rw, 0xfffff000, 0x0, true, .part0⟩,
  ⟨0x2200000014, 0x0, 1, 0x0, 1, .rw, 0xff, 0x0, true, .part0⟩,
  ⟨0x2200000018, 0x0, 1, 0x0, 1, .rw, 0x3, 0x0, true, .part0⟩,
  ⟨0x220000001c, 0x0, 1, 0x0, 1, .rw, 0xfffff000, 0x0, true, .part0⟩,
  ⟨0x2200000020, 0x0, 1, 0x0, 1, .rw, 0xff, 0x0, true, .part0⟩,
  ⟨0x2200000024, 0x0, 1, 0x0, 1, .rw, 0x7ff, 0x0, true, .part0⟩,
  ⟨0x2200000028, 0x0, 1, 0x0, 1, .rw, 0x7fff07ff, 0x0, true, .part0⟩,
  ⟨0x220000002c, 0x0, 1, 0x0, 1, .rw, 0x3, 0x0, true, .part0⟩,
  ⟨0x2200000030, 0x0, 1, 0x0, 1, .rw, 0xfffff000, 0x0, true, .part0⟩,
  ⟨0x2200000034, 0x0, 1, 0x0, 1, .rw, 0xff, 0x0, true, .part0⟩,
  ⟨0x2200000038, 0x0, 1, 0x0, 1, .ro, 0xffffff, 0x0, false, .part0⟩,
  ⟨0x220000003c, 0x0, 1, 0x0, 1, .ro, 0xff, 0x0, false, .part0⟩,
  ⟨0x2200000040, 0x0, 1, 0x0, 1, .rc, 0xffffffff, 0x0, false, .part0⟩,
  ⟨0x2200000044, 0x0, 1, 0x0, 1, .rc, 0xffffffff, 0x0, false, .part0⟩,
  ⟨0x2200000048, 0x0, 1, 0x0, 1, .rc, 0xffffffff, 0x0, false, .part0⟩,
  ⟨0x220000004c, 0x0, 1, 0x0, 1, .ro, 0xffff, 0x0, false, .part0⟩]

def regsBkc : List RegRow := [
  ⟨0x2300000000, 0x0, 1, 0x0, 1, .ro, 0xffff, 0x560, false, .everyone⟩,
  ⟨0x2300000004, 0x0, 1, 0x0, 1, .rw, 0xff01ff, 0x180004, true, .part0⟩,
  ⟨0x2300000008, 0x0, 1, 0x0, 1, .rw, 0xfffff000, 0x0, true, .part0⟩,
  ⟨0x230000000c, 0x0, 1, 0x0, 1, .rw, 0xff, 0x0, true, .part0⟩,
  ⟨0x2300000010, 0x0, 1, 0x0, 1, .wo, 0x1, 0x0, false, .part0⟩,
  ⟨0x2300000014, 0x0, 1, 0x0, 1, .ro, 0xffffffff, 0x0, false, .part0⟩,
  ⟨0x2300000018, 0x0, 1, 0x0, 1, .ro, 0xffffffff, 0x0, false, .part0⟩,
  ⟨0x230000001c, 0x0, 1, 0x0, 1, .ro, 0xffff, 0x0, false, .part0⟩,
  ⟨0x2300000020, 0x0, 1, 0x0, 1, .ro, 0xff, 0x0, false, .part0⟩,
  ⟨0x2300000024, 0x0, 1, 0x0, 1, .rc, 0xffffffff, 0x0, false, .part0⟩,
  ⟨0x2300000028, 0x0, 1, 0x0, 1, .rc, 0xffffffff, 0x0, false, .part0⟩,
  ⟨0x2300000100, 0x0, 1, 0x0, 1, .rw, 0xffffffc0, 0x0, false, .part0⟩,
  ⟨0x2300000104, 0x0, 1, 0x0, 1, .rw, 0xff, 0x0, false, .part0⟩,
  ⟨0x2300000108, 0x0, 1, 0x0, 1, .rw, 0x10f, 0x0, false, .part0⟩,
  ⟨0x230000010c, 0x0, 1, 0x0, 1, .rw, 0x1fff, 0x0, false, .part0⟩,
  ⟨0x2300000110, 0x0, 1, 0x0, 1, .ro, 0x3fff, 0x0, false, .part0⟩,
  ⟨0x2300000114, 0x0, 1, 0x0, 1, .wo, 0xffff, 0x0, false, .part0⟩,
  ⟨0x2300000118, 0x0, 1, 0x0, 1, .rc, 0xffffffff, 0x0, false, .part0⟩]

def regsCpl : List RegRow := [
  ⟨0x2400000000, 0x0, 1, 0x0, 1, .ro, 0xfff, 0x818, false, .everyone⟩,
  ⟨0x2400000004, 0x0, 1, 0x0, 1, .rw, 0x3f, 0x22, true, .part0⟩,
  ⟨0x2400000008, 0x0, 1, 0x0, 1, .rw, 0xffffffff, 0x1, true, .part0⟩,
  ⟨0x240000000c, 0x0, 1, 0x0, 1, .rw, 0xfffff000, 0x0, true, .part0⟩,
  ⟨0x2400000010, 0x0, 1, 0x0, 1, .rw, 0xff, 0x0, true, .part0⟩,
  ⟨0x2400000014, 0x0, 1, 0x0, 1, .rw, 0xffffffff, 0x0, true, .part0⟩,
  ⟨0x2400000018, 0x0, 1, 0x0, 1, .rw, 0xffffffff, 0x0, true, .part0⟩,
  ⟨0x240000001c, 0x0, 1, 0x0, 1, .rw, 0xffffffff, 0x10001000, true, .part0⟩,
  ⟨0x2400000020, 0x0, 1, 0x0, 1, .rw, 0xffffffff, 0x10001000, true, .part0⟩,
  ⟨0x2400000040, 0x10, 3, 0x0, 1, .rw, 0xffffffff, 0x0, true, .part0⟩,
  ⟨0x2400000044, 0x10, 3, 0x0, 1, .rw, 0xffff, 0x0, true, .part0⟩,
  ⟨0x2400000048, 0x10, 3, 0x0, 1, .rw, 0x3ffff, 0x0, true, .part0⟩,
  ⟨0x2400000080, 0x0, 1, 0x0, 1, .ro, 0x7, 0x0, false, .part0⟩,
  ⟨0x2400000084, 0x0, 1, 0x0, 1, .ro, 0xffffffff, 0x0, false, .part0⟩,
  ⟨0x2400000088, 0x0, 1, 0x0, 1, .ro, 0xff, 0x0, false, .part0⟩,
  ⟨0x240000008c, 0x0, 1, 0x0, 1, .rc, 0xffffffff, 0x0, false, .part0⟩,
  ⟨0x2400000090, 0x0, 1, 0x0, 1, .ro, 0x7ff, 0x0, false, .part0⟩,
  ⟨0x2400010000, 0x100, 8, 0x0, 1, .rw, 0x7fff, 0xa, true, .res 0⟩,
  ⟨0x2400010004, 0x100, 8, 0x0, 1, .rw, 0xff0fff, 0x10000, true, .res 0⟩,
  ⟨0x2400010008, 0x100, 8, 0x0, 1, .rw, 0xffffffff, 0x0, true, .res 0⟩,
  ⟨0x240001000c, 0x100, 8, 0x0, 1, .rw, 0xffffffff, 0x0, true, .res 0⟩,
  ⟨0x2400010010, 0x100, 8, 0x0, 1, .rw, 0xffffffff, 0x0, true, .res 0⟩,
  ⟨0x2400010014, 0x100, 8, 0x0, 1, .rw, 0xffffffff, 0x0, true, .res 0⟩,
  ⟨0x2400010018, 0x100, 8, 0x0, 1, .rw, 0xfffff000, 0x0, true, .res 0⟩,
  ⟨0x240001001c, 0x100, 8, 0x0, 1, .rw, 0xff, 0x0, true, .res 0⟩,
  ⟨0x2400010020, 0x100, 8, 0x8, 4, .rw, 0xfffff000, 0x0, true, .res 0⟩,
  ⟨0x2400010024, 0x100, 8, 0x8, 4, .rw, 0xff, 0x0, true, .res 0⟩,
  ⟨0x2400010040, 0x100, 8, 0x0, 1, .ro, 0x3f, 0x0, false, .res 0⟩,
  ⟨0x2400010044, 0x100, 8, 0x0, 1, .rc, 0xffffffff, 0x0, false, .res 0⟩,
  ⟨0x2400010048, 0x100, 8, 0x0, 1, .rc, 0xffffffff, 0x0, false, .res 0⟩,
  ⟨0x240001004c, 0x100, 8, 0x0, 1, .ro, 0xffffffff, 0x0, false, .res 0⟩,
  ⟨0x2400010050, 0x100, 8, 0x0, 1, .ro, 0xff, 0x0, false, .res 0⟩]

def regsCrs : List RegRow := [
  ⟨0x2500000000, 0x0, 1, 0x0, 1, .ro, 0xffffff, 0x30400b, false, .everyone⟩,
  ⟨0x2500000004, 0x0, 1, 0x0, 1, .rw, 0xf, 0x8, true, .part0⟩,
  ⟨0x2500000008, 0x0, 1, 0x0, 1, .rw, 0xffff, 0xffc0, true, .part0⟩,
  ⟨0x2500000010, 0x10, 3, 0x0, 1, .rw, 0xffffffff, 0x0, true, .part0⟩,
  ⟨0x2500000014, 0x10, 3, 0x0, 1, .rw, 0xffffffff, 0x0, true, .part0⟩,
  ⟨0x2500000018, 0x10, 3, 0x0, 1, .rw, 0x3f7f, 0x101, true, .part0⟩,
  ⟨0x2500000100, 0x4, 7, 0x0, 1, .rw, 0x1fff, 0x0, true, .part0⟩,
  ⟨0x2500000200, 0x0, 1, 0x0, 1, .ro, 0xff, 0x0, false, .part0⟩,
  ⟨0x2500000204, 0x0, 1, 0x0, 1, .rc, 0xffffffff, 0x0, false, .part0⟩,
  ⟨0x2500000208, 0x0, 1, 0x0, 1, .ro, 0xffff, 0x0, false, .part0⟩,
  ⟨0x2500010000, 0x40, 8, 0x0, 1, .rw, 0x3, 0x0, true, .res 0⟩,
  ⟨0x2500010004, 0x40, 8, 0x0, 1, .rw, 0xfff, 0x0, true, .res 0⟩]

def regsLnd : List RegRow := [
  ⟨0x2600000000, 0x0, 1, 0x0, 1, .ro, 0xffffff, 0x800410, false, .everyone⟩,
  ⟨0x2600000004, 0x0, 1, 0x0, 1, .ro, 0xff, 0x0, false, .part0⟩,
  ⟨0x2600000008, 0x0, 1, 0x0, 1, .ro, 0xffff, 0x0, false, .part0⟩,
  ⟨0x260000000c, 0x0, 1, 0x0, 1, .ro, 0x7, 0x0, false, .part0⟩,
  ⟨0x2600000010, 0x0, 1, 0x0, 1, .rc, 0xffffffff, 0x0, false, .part0⟩,
  ⟨0x2600000014, 0x0, 1, 0x0, 1, .ro, 0x7ff, 0x400, false, .part0⟩,
  ⟨0x2600000100, 0x4, 16, 0x0, 1, .rw, 0x3f, 0x0, true, .part0⟩,
  ⟨0x2600000200, 0x4, 128, 0x0, 1, .rw, 0x7f, 0x0, true, .part0⟩,
  ⟨0x2600001000, 0x20, 16, 0x0, 1, .ro, 0x7, 0x0, false, .slot⟩,
  ⟨0x2600001004, 0x20, 16, 0x0, 1, .ro, 0xffffffff, 0x0, false, .slot⟩,
  ⟨0x2600001008, 0x20, 16, 0x0, 1, .ro, 0xffffffff, 0x0, false, .slot⟩,
  ⟨0x260000100c, 0x20, 16, 0x0, 1, .rc, 0xffffffff, 0x0, false, .slot⟩]

def regsDmc : List RegRow := [
  ⟨0x3000000000, 0x0, 1, 0x0, 1, .ro, 0xf3f, 0x420, false, .everyone⟩,
  ⟨0x3000000004, 0x0, 1, 0x0, 1, .rw, 0x3, 0x1, true, .part0⟩,
  ⟨0x3000000008, 0x0, 1, 0x0, 1, .rw, 0x7ff, 0xc8, true, .part0⟩,
  ⟨0x300000000c, 0x0, 1, 0x0, 1, .rw, 0xffff, 0x32, true, .part0⟩,
  ⟨0x3000000010, 0x0, 1, 0x0, 1, .rw, 0xffffffff, 0x28281e19, true, .part0⟩,
  ⟨0x3000000014, 0x0, 1, 0x0, 1, .rw, 0xff, 0x28, true, .part0⟩,
  ⟨0x3000000018, 0x0, 1, 0x0, 1, .rw, 0x1ffff, 0xe10, true, .part0⟩,
  ⟨0x300000001c, 0x0, 1, 0x0, 1, .ro, 0x1ffff, 0x0, false, .part0⟩,
  ⟨0x3000000020, 0x0, 1, 0x0, 1, .ro, 0xffffffff, 0xccd1000, false, .part0⟩,
  ⟨0x3000000024, 0x0, 1, 0x0, 1, .ro, 0xffff0007, 0x0, false, .part0⟩,
  ⟨0x3000010000, 0x20, 32, 0x0, 1, .ro, 0x7, 0x0, false, .part0⟩,
  ⟨0x3000010004, 0x20, 32, 0x0, 1, .rc, 0xffffffff, 0x0, false, .part0⟩,
  ⟨0x3000010008, 0x20, 32, 0x0, 1, .rc, 0xffffffff, 0x0, false, .part0⟩,
  ⟨0x300001000c, 0x20, 32, 0x0, 1, .ro, 0xffffffff, 0x0, false, .part0⟩,
  ⟨0x3000010010, 0x20, 32, 0x0, 1, .ro, 0xff, 0x0, false, .part0⟩,
  ⟨0x3000020000, 0x10, 5, 0x0, 1, .ro, 0xffffffff, 0x0, false, .part0⟩,
  ⟨0x3000020004, 0x10, 5, 0x0, 1, .ro, 0xffff, 0x0, false, .part0⟩]

def regsSpd : List RegRow := [
  ⟨0x3100000000, 0x0, 1, 0x0, 1, .ro, 0xffff, 0x840, false, .everyone⟩,
  ⟨0x3100000004, 0x0, 1, 0x0, 1, .rc, 0xffffffff, 0x0, false, .part0⟩,
  ⟨0x3100000008, 0x0, 1, 0x0, 1, .ro, 0x73fffff, 0x0, false, .part0⟩,
  ⟨0x310000000c, 0x0, 1, 0x0, 1, .rc, 0xffffffff, 0x0, false, .part0⟩,
  ⟨0x3100000100, 0x4, 64, 0x0, 1, .ro, 0x3ff, 0x200, false, .part0⟩,
  ⟨0x3100000200, 0x4, 64, 0x0, 1, .wo, 0x7f, 0x0, false, .bank⟩]

def regsCht : List RegRow := [
  ⟨0x3200000000, 0x0, 1, 0x0, 1, .ro, 0x1ffffff, 0x1000080, false, .everyone⟩,
  ⟨0x3200010000, 0x10, 128, 0x0, 1, .ro, 0xffff1f, 0x0, false, .part0⟩,
  ⟨0x3200010004, 0x10, 128, 0x0, 1, .ro, 0xffff, 0x2000, false, .part0⟩,
  ⟨0x3200010008, 0x10, 128, 0x0, 1, .w1c, 0x1, 0x0, false, .part0⟩,
  ⟨0x320001000c, 0x10, 128, 0x0, 1, .rc, 0xffffff, 0x0, false, .part0⟩]

def regsVcd : List RegRow := [
  ⟨0x2700000000, 0x0, 1, 0x0, 1, .ro, 0x3ffff, 0x20040, false, .everyone⟩,
  ⟨0x2700000004, 0x0, 1, 0x0, 1, .rw, 0x3ff01ff, 0x20, true, .part0⟩,
  ⟨0x2700000008, 0x0, 1, 0x0, 1, .rw, 0xfffff000, 0x0, true, .part0⟩,
  ⟨0x270000000c, 0x0, 1, 0x0, 1, .rw, 0xff, 0x0, true, .part0⟩,
  ⟨0x2700000010, 0x0, 1, 0x0, 1, .ro, 0x3ff, 0x0, false, .part0⟩,
  ⟨0x2700000014, 0x0, 1, 0x0, 1, .ro, 0xff, 0x0, false, .part0⟩,
  ⟨0x2700000018, 0x0, 1, 0x0, 1, .ro, 0x7ff, 0x0, false, .part0⟩,
  ⟨0x270000001c, 0x0, 1, 0x0, 1, .ro, 0x3ff, 0x0, false, .part0⟩,
  ⟨0x2700000020, 0x0, 1, 0x0, 1, .ro, 0x3ff, 0x0, false, .part0⟩,
  ⟨0x2700000024, 0x0, 1, 0x0, 1, .rc, 0xffffffff, 0x0, false, .part0⟩,
  ⟨0x2700010000, 0x20, 64, 0x0, 1, .ro, 0x3ffff7f, 0x0, false, .session⟩,
  ⟨0x2700010004, 0x20, 64, 0x0, 1, .ro, 0xf03ff, 0x0, false, .session⟩,
  ⟨0x2700010008, 0x20, 64, 0x0, 1, .ro, 0x3f, 0x0, false, .session⟩,
  ⟨0x270001000c, 0x20, 64, 0x0, 1, .ro, 0xffffffff, 0x0, false, .session⟩,
  ⟨0x2700010010, 0x20, 64, 0x0, 1, .ro, 0xffffffff, 0x0, false, .session⟩,
  ⟨0x2700010014, 0x20, 64, 0x0, 1, .ro, 0xff, 0x0, false, .session⟩,
  ⟨0x2700010018, 0x20, 64, 0x0, 1, .rc, 0xffffffff, 0x0, false, .session⟩]

def regsMon : List RegRow := [
  ⟨0x2800000000, 0x0, 1, 0x0, 1, .ro, 0xffff, 0xff46, false, .everyone⟩,
  ⟨0x2800000004, 0x0, 1, 0x0, 1, .rw, 0xff01ff, 0x20, true, .part0⟩,
  ⟨0x2800000008, 0x0, 1, 0x0, 1, .rw, 0xfffff000, 0x0, true, .part0⟩,
  ⟨0x280000000c, 0x0, 1, 0x0, 1, .rw, 0xff, 0x0, true, .part0⟩,
  ⟨0x2800000010, 0x0, 1, 0x0, 1, .ro, 0xff, 0x0, false, .part0⟩,
  ⟨0x2800000014, 0x0, 1, 0x0, 1, .ro, 0x7ff, 0x0, false, .part0⟩,
  ⟨0x2800010000, 0x200, 6, 0x0, 1, .rw, 0xffff1, 0xa0, true, .output⟩,
  ⟨0x2800010004, 0x200, 6, 0x0, 1, .rw, 0xffffffff, 0x0, true, .output⟩,
  ⟨0x2800010008, 0x200, 6, 0x0, 1, .rw, 0x3fffffff, 0x0, true, .output⟩,
  ⟨0x280001000c, 0x200, 6, 0x0, 1, .rw, 0x7ffff, 0x0, true, .output⟩,
  ⟨0x2800010010, 0x200, 6, 0x0, 1, .rw, 0xffffffff, 0x0, true, .output⟩,
  ⟨0x2800010014, 0x200, 6, 0x0, 1, .rw, 0xffffffff, 0x6830000, true, .output⟩,
  ⟨0x2800010018, 0x200, 6, 0x0, 1, .ro, 0xffff0007, 0x0, false, .output⟩,
  ⟨0x280001001c, 0x200, 6, 0x0, 1, .ro, 0xffffffff, 0x0, false, .output⟩,
  ⟨0x2800010020, 0x200, 6, 0x0, 1, .rc, 0xffffffff, 0x0, false, .output⟩,
  ⟨0x2800010024, 0x200, 6, 0x0, 1, .ro, 0xffffffff, 0x0, false, .output⟩,
  ⟨0x2800010028, 0x200, 6, 0x0, 1, .rc, 0xffffffff, 0x0, false, .output⟩,
  ⟨0x280001002c, 0x200, 6, 0x0, 1, .rc, 0xffffffff, 0x0, false, .output⟩,
  ⟨0x2800010100, 0x200, 6, 0x20, 4, .rw, 0xffffff, 0xff40, true, .output⟩,
  ⟨0x2800010104, 0x200, 6, 0x20, 4, .rw, 0xffffffff, 0x0, true, .output⟩,
  ⟨0x2800010108, 0x200, 6, 0x20, 4, .rw, 0xffffffff, 0x0, true, .output⟩,
  ⟨0x280001010c, 0x200, 6, 0x20, 4, .rw, 0xffffffff, 0x0, true, .output⟩,
  ⟨0x2800010110, 0x200, 6, 0x20, 4, .ro, 0x3ff, 0x0, false, .output⟩]

def regsTim : List RegRow := [
  ⟨0x2900000000, 0x0, 1, 0x0, 1, .ro, 0xffff, 0x2444, false, .everyone⟩,
  ⟨0x2900000004, 0x0, 1, 0x0, 1, .ro, 0xff, 0x0, false, .part0⟩,
  ⟨0x2900000010, 0x0, 1, 0x0, 1, .ro, 0x3fffffff, 0x0, false, .everyone⟩,
  ⟨0x2900000014, 0x0, 1, 0x0, 1, .ro, 0xffffffff, 0x0, false, .everyone⟩,
  ⟨0x2900000018, 0x0, 1, 0x0, 1, .ro, 0xffff, 0x0, false, .everyone⟩,
  ⟨0x290000001c, 0x0, 1, 0x0, 1, .ro, 0xffff, 0x0, false, .everyone⟩,
  ⟨0x2900000020, 0x0, 1, 0x0, 1, .ro, 0xffffffff, 0x0, false, .everyone⟩,
  ⟨0x2900000024, 0x0, 1, 0x0, 1, .ro, 0xffffffff, 0x0, false, .everyone⟩,
  ⟨0x2900010000, 0x0, 1, 0x0, 1, .rw, 0xffffff3f, 0x80800010, true, .part0⟩,
  ⟨0x2900010004, 0x0, 1, 0x0, 1, .rw, 0xffff, 0x3d1d, true, .part0⟩,
  ⟨0x2900010008, 0x0, 1, 0x0, 1, .rw, 0xffffffff, 0x640014, true, .part0⟩,
  ⟨0x290001000c, 0x0, 1, 0x0, 1, .rw, 0xffffffff, 0x186a0, true, .part0⟩,
  ⟨0x2900010010, 0x0, 1, 0x0, 1, .ro, 0xf, 0x0, false, .part0⟩,
  ⟨0x2900010014, 0x0, 1, 0x0, 1, .ro, 0xffffffff, 0x0, false, .part0⟩,
  ⟨0x2900010018, 0x0, 1, 0x0, 1, .ro, 0xffffffff, 0x0, false, .part0⟩,
  ⟨0x290001001c, 0x0, 1, 0x0, 1, .ro, 0xffffffff, 0x0, false, .part0⟩,
  ⟨0x2900010020, 0x0, 1, 0x0, 1, .ro, 0xffffffff, 0x0, false, .part0⟩,
  ⟨0x2900010100, 0x20, 2, 0x0, 1, .rw, 0xffffffff, 0x0, true, .part0⟩,
  ⟨0x2900010104, 0x20, 2, 0x0, 1, .rw, 0xffff, 0x0, true, .part0⟩,
  ⟨0x2900010108, 0x20, 2, 0x0, 1, .rw, 0xffffffff, 0x0, true, .part0⟩,
  ⟨0x290001010c, 0x20, 2, 0x0, 1, .rw, 0xffffffff, 0x0, true, .part0⟩,
  ⟨0x2900010110, 0x20, 2, 0x0, 1, .rw, 0xffffffff, 0x0, true, .part0⟩,
  ⟨0x2900010114, 0x20, 2, 0x0, 1, .rc, 0xffffffff, 0x0, false, .part0⟩,
  ⟨0x2900020000, 0x10, 4, 0x0, 1, .rw, 0xffffffff, 0xa00000, true, .res 0x10⟩,
  ⟨0x2900020004, 0x10, 4, 0x0, 1, .rc, 0xffffffff, 0x0, false, .res 0x10⟩,
  ⟨0x2900020100, 0x0, 1, 0x0, 1, .rw, 0x1f, 0x0, true, .part0⟩,
  ⟨0x2900020200, 0x10, 4, 0x0, 1, .rw, 0x7, 0x0, true, .res 0x14⟩,
  ⟨0x2900020204, 0x10, 4, 0x0, 1, .rw, 0xffffff, 0x0, true, .res 0x14⟩,
  ⟨0x2900020208, 0x10, 4, 0x0, 1, .rw, 0xffffff, 0x3e8, true, .res 0x14⟩,
  ⟨0x290002020c, 0x10, 4, 0x0, 1, .rc, 0xffffffff, 0x0, false, .res 0x14⟩,
  ⟨0x2900030000, 0x10, 4, 0x0, 1, .rw, 0xf3, 0x0, true, .part0⟩,
  ⟨0x2900030004, 0x10, 4, 0x0, 1, .rw, 0xffffffff, 0x100078, true, .part0⟩,
  ⟨0x2900030008, 0x10, 4, 0x0, 1, .rw, 0xffffffff, 0x0, true, .part0⟩,
  ⟨0x290003000c, 0x10, 4, 0x0, 1, .ro, 0xff01, 0x0, false, .part0⟩,
  ⟨0x2900030100, 0x0, 1, 0x0, 1, .rw, 0xff, 0x0, true, .part0⟩,
  ⟨0x2900030104, 0x0, 1, 0x0, 1, .rw, 0xff01, 0xa00, true, .part0⟩,
  ⟨0x2900040000, 0x0, 1, 0x0, 1, .rw, 0x1f, 0x0, true, .part0⟩,
  ⟨0x2900040004, 0x0, 1, 0x0, 1, .ro, 0x3fffffff, 0x0, false, .part0⟩,
  ⟨0x2900040008, 0x0, 1, 0x0, 1, .ro, 0xffffffff, 0x0, false, .part0⟩,
  ⟨0x290004000c, 0x0, 1, 0x0, 1, .ro, 0xffff, 0x0, false, .part0⟩,
  ⟨0x2900040010, 0x0, 1, 0x0, 1, .ro, 0xffffffff, 0x0, false, .part0⟩,
  ⟨0x2900040014, 0x0, 1, 0x0, 1, .ro, 0xffffffff, 0x0, false, .part0⟩,
  ⟨0x2900040018, 0x0, 1, 0x0, 1, .ro, 0xffffffff, 0x0, false, .part0⟩,
  ⟨0x2900050000, 0x0, 1, 0x0, 1, .ro, 0xff, 0x0, false, .part0⟩,
  ⟨0x2900051000, 0x20, 256, 0x4, 8, .ro, 0xffffffff, 0x0, false, .part0⟩]

def regsAud : List RegRow := [
  ⟨0x2a00000000, 0x0, 1, 0x0, 1, .ro, 0xfff, 0x224, false, .everyone⟩,
  ⟨0x2a00000004, 0x0, 1, 0x0, 1, .ro, 0x7ff, 0x0, false, .part0⟩,
  ⟨0x2a00010000, 0x100, 8, 0x0, 1, .rw, 0x3fffffff, 0x20f02280, true, .res 0x18⟩,
  ⟨0x2a00010004, 0x100, 8, 0x0, 1, .rw, 0xffffffff, 0x0, true, .res 0x18⟩,
  ⟨0x2a00010008, 0x100, 8, 0x0, 1, .rw, 0xfff, 0x0, true, .res 0x18⟩,
  ⟨0x2a0001000c, 0x100, 8, 0x0, 1, .rw, 0xffffffff, 0x0, true, .res 0x18⟩,
  ⟨0x2a00010010, 0x100, 8, 0x0, 1, .rw, 0xff, 0x14, true, .res 0x18⟩,
  ⟨0x2a00010014, 0x100, 8, 0x0, 1, .ro, 0xf, 0x0, false, .res 0x18⟩,
  ⟨0x2a00010018, 0x100, 8, 0x0, 1, .rc, 0xffffffff, 0x0, false, .res 0x18⟩,
  ⟨0x2a0001001c, 0x100, 8, 0x0, 1, .rc, 0xffffffff, 0x0, false, .res 0x18⟩,
  ⟨0x2a00010020, 0x100, 8, 0x0, 1, .ro, 0xffffffff, 0x0, false, .res 0x18⟩,
  ⟨0x2a00010024, 0x100, 8, 0x0, 1, .rw, 0x3, 0x0, true, .res 0x18⟩,
  ⟨0x2a00010028, 0x100, 8, 0x0, 1, .rc, 0xffffffff, 0x0, false, .res 0x18⟩,
  ⟨0x2a00010040, 0x100, 8, 0x4, 6, .rw, 0xffffffff, 0x0, true, .res 0x18⟩]

def regsHlk : List RegRow := [
  ⟨0x2b00000000, 0x0, 1, 0x0, 1, .ro, 0xfffff, 0xa4000, false, .everyone⟩,
  ⟨0x2b00000004, 0x0, 1, 0x0, 1, .ro, 0x1ff, 0x0, false, .part0⟩,
  ⟨0x2b00000008, 0x0, 1, 0x0, 1, .rw, 0xfffff000, 0x0, true, .part0⟩,
  ⟨0x2b0000000c, 0x0, 1, 0x0, 1, .rw, 0xff, 0x0, true, .part0⟩,
  ⟨0x2b00000010, 0x0, 1, 0x0, 1, .rw, 0x1fff, 0x0, true, .part0⟩,
  ⟨0x2b00000014, 0x0, 1, 0x0, 1, .ro, 0x1fff, 0x0, false, .part0⟩,
  ⟨0x2b00000018, 0x0, 1, 0x0, 1, .ro, 0xff, 0x0, false, .part0⟩,
  ⟨0x2b0000001c, 0x0, 1, 0x0, 1, .rc, 0xffffffff, 0x0, false, .part0⟩,
  ⟨0x2b00000100, 0x4, 10, 0x0, 1, .rw, 0x3fff0001, 0x0, true, .stream⟩,
  ⟨0x2b00100000, 0x40, 16384, 0x0, 1, .rw, 0xffffffc0, 0x0, false, .ring⟩,
  ⟨0x2b00100004, 0x40, 16384, 0x0, 1, .rw, 0xffffffff, 0x0, false, .ring⟩,
  ⟨0x2b00100008, 0x40, 16384, 0x0, 1, .rw, 0xffffffc0, 0x0, false, .ring⟩,
  ⟨0x2b0010000c, 0x40, 16384, 0x0, 1, .rw, 0xffffffff, 0x0, false, .ring⟩,
  ⟨0x2b00100010, 0x40, 16384, 0x0, 1, .rw, 0xfffffff0, 0x0, false, .ring⟩,
  ⟨0x2b00100014, 0x40, 16384, 0x0, 1, .rw, 0xffffffff, 0x0, false, .ring⟩,
  ⟨0x2b00100018, 0x40, 16384, 0x0, 1, .rw, 0xff3fff, 0x290, false, .ring⟩,
  ⟨0x2b0010001c, 0x40, 16384, 0x0, 1, .ro, 0xffff003f, 0x0, false, .ring⟩,
  ⟨0x2b00100020, 0x40, 16384, 0x0, 1, .rc, 0xffffffff, 0x0, false, .ring⟩]

def regsCbs : List RegRow := [
  ⟨0x2c00000000, 0x0, 1, 0x0, 1, .ro, 0xfff, 0x204, false, .everyone⟩,
  ⟨0x2c00000004, 0x0, 1, 0x0, 1, .ro, 0xff, 0x0, false, .part0⟩,
  ⟨0x2c00000010, 0x0, 1, 0x0, 1, .rw, 0x7f, 0x5a, false, .part0⟩,
  ⟨0x2c00000014, 0x0, 1, 0x0, 1, .rc, 0xffffffff, 0x0, false, .part0⟩,
  ⟨0x2c00010000, 0x40, 4, 0x0, 1, .rw, 0x3fffffff, 0x1e641d6, true, .res 0x20⟩,
  ⟨0x2c00010004, 0x40, 4, 0x0, 1, .rw, 0xfffff, 0x759d6, true, .res 0x20⟩,
  ⟨0x2c00010008, 0x40, 4, 0x0, 1, .rw, 0x1f1f7f, 0x0, false, .res 0x20⟩,
  ⟨0x2c0001000c, 0x40, 4, 0x0, 1, .rw, 0xfff, 0x0, false, .res 0x20⟩,
  ⟨0x2c00010010, 0x40, 4, 0x4, 4, .rw, 0xffffffff, 0x0, false, .res 0x20⟩,
  ⟨0x2c00010020, 0x40, 4, 0x0, 1, .ro, 0x3ff, 0x0, false, .res 0x20⟩,
  ⟨0x2c00010024, 0x40, 4, 0x0, 1, .rc, 0xffffffff, 0x0, false, .res 0x20⟩,
  ⟨0x2c00020000, 0x4, 32, 0x0, 1, .rw, 0xfff003f, 0x0, true, .res 0x24⟩,
  ⟨0x2c00020100, 0x0, 1, 0x0, 1, .ro, 0xffffffff, 0x0, false, .perBit⟩,
  ⟨0x2c00020104, 0x0, 1, 0x0, 1, .wo, 0xffffffff, 0x0, false, .perBit⟩,
  ⟨0x2c00020108, 0x0, 1, 0x0, 1, .wo, 0xffffffff, 0x0, false, .perBit⟩,
  ⟨0x2c00020200, 0x4, 4, 0x0, 1, .rw, 0x33, 0x10, true, .res 0x10⟩]

def regsAon : List RegRow := [
  ⟨0x3f00000000, 0x0, 1, 0x0, 1, .ro, 0xfffffff0, 0x72401000, false, .everyone⟩,
  ⟨0x3f00000004, 0x0, 1, 0x0, 1, .ro, 0xf, 0x0, false, .part0⟩,
  ⟨0x3f00000008, 0x0, 1, 0x0, 1, .rw, 0xffffffff, 0x0, true, .part0⟩,
  ⟨0x3f0000000c, 0x0, 1, 0x0, 1, .rw, 0xfff0fff, 0x7d00960, true, .part0⟩,
  ⟨0x3f00000010, 0x0, 1, 0x0, 1, .ro, 0x3fff, 0x0, false, .part0⟩,
  ⟨0x3f00000014, 0x0, 1, 0x0, 1, .ro, 0xffffffff, 0x0, false, .part0⟩,
  ⟨0x3f00000020, 0x0, 1, 0x0, 1, .rws, 0x1ffffff, 0x0, false, .part0⟩,
  ⟨0x3f00000024, 0x0, 1, 0x0, 1, .ro, 0xffffffff, 0x0, false, .part0⟩,
  ⟨0x3f00010000, 0x0, 1, 0x0, 1, .ro, 0xffffffff, 0x0, false, .part0⟩,
  ⟨0x3f00010004, 0x0, 1, 0x0, 1, .rw, 0xffffffff, 0x5a766c64, true, .part0⟩,
  ⟨0x3f00010008, 0x0, 1, 0x0, 1, .rw, 0x10fff, 0x10430, true, .part0⟩,
  ⟨0x3f0001000c, 0x0, 1, 0x0, 1, .ro, 0x1f, 0x0, false, .part0⟩,
  ⟨0x3f00010010, 0x0, 1, 0x0, 1, .rc, 0xffffffff, 0x0, false, .part0⟩]

/-- The rows of the block whose SOURCE is `src` (bits 39:32 of the address). -/
def blockRows (src : Nat) : List RegRow :=
  match src with
  | 0x11 => regsCtx | 0x12 => regsEvt | 0x20 => regsLna | 0x21 => regsSlk | 0x22 => regsPsc | 0x23 => regsBkc
  | 0x24 => regsCpl | 0x25 => regsCrs | 0x26 => regsLnd | 0x27 => regsVcd | 0x28 => regsMon | 0x29 => regsTim
  | 0x2A => regsAud | 0x2B => regsHlk | 0x2C => regsCbs | 0x30 => regsDmc | 0x31 => regsSpd | 0x32 => regsCht
  | 0x3F => regsAon
  | _ => []

/-- The first index of `a` in row `r`. -/
def RegRow.idx1 (r : RegRow) (a : Nat) : Nat := if r.s1 = 0 then 0 else min ((a - r.base) / r.s1) (r.n1 - 1)

/-- The second index of `a` in row `r`. -/
def RegRow.idx2 (r : RegRow) (a : Nat) : Nat := if r.s2 = 0 then 0 else (a - r.base - r.s1 * r.idx1 a) / r.s2

/-- Address `a` is a register of row `r`. -/
def RegRow.has (r : RegRow) (a : Nat) : Bool :=
  decide (r.base ≤ a) && decide (r.idx2 a < r.n2) && decide (a = r.base + r.s1 * r.idx1 a + r.s2 * r.idx2 a)

/-- The row of a register address, if the block's table lists it. -/
def regRow (a : Nat) : Option RegRow := (blockRows (a / 0x100000000)).find? (·.has a)

/-- The mailbox window: BAR0 of partition `p` at offset `off` (R47). -/
def R.MBX (p off : Nat) : Nat := 0x1000000000 + 0x10000 * p + off

/-- Reset value of the word at `a` in the register file, before any boot (Tables of the block chapters; R85 for the
factory defaults of the context and partition tables). -/
def regReset (a : Nat) : BitVec 32 :=
  match regRow a with
  | none => if a / 0x100000000 = 0x10 ∧ a % 0x10000 = 4 then 0x0100#32 else 0#32
  | some r =>
    if r.base = R.CTX_ENT_OWN 0 then (if r.idx1 a < 256 then 0x140#32 else 0#32)
    else if a = R.PART_CTRL 0 then 0x80071#32
    else if a = R.PART_STAGE_QUOTA 0 then 16384#32
    else if a = R.PART_POOL_QUOTA 0 then 0x04FFFF#32
    else if a = R.CPL_MTX_A 0 then 0x00001000#32
    else if a = R.CPL_MTX_A 1 then 0x10000000#32
    else if a = R.CPL_MTX_B 2 then 0x00001000#32
    else if r.base = R.MON_OUT_BG 0 then (if r.idx1 a < 2 then 0#32 else 0x20080040#32)
    else if r.base = R.MON_OUT_DSI 0 then (if r.idx1 a < 2 then BitVec.ofNat 32 (1000 * 4 + 64 * 0x200000) else 0#32)
    else BitVec.ofNat 32 r.rst

/-- The spec names the register at `a` a settings register (held in epoch banks). The channel status of an AES3 input
is read-only (Table 16-6). -/
def isSetting (a : Nat) : Bool :=
  match regRow a with
  | none => false
  | some r => r.setting && !(r.base = R.AUD_AES_CS 0 0 && decide (r.idx1 a < 6))

/-- The ownership registers, which an epoch's items look up as they stood (R261, R275): CTX_RES_OWN and CTX_ENT_OWN. -/
def isOwner (a : Nat) : Bool :=
  (decide (R.CTX_RES_OWN 0 ≤ a) && decide (a ≤ R.CTX_RES_OWN 16)) ||
    (decide (R.CTX_ENT_OWN 0 ≤ a) && decide (a < R.CTX_ENT_OWN 4096) && decide (a % 16 = 0))

/-- Frame-bound settings (R33): SLK, PSC, BKC, CPL, CRS, VCD and HLK. -/
def isFrameBound (a : Nat) : Bool :=
  decide (a / 0x100000000 ∈ [0x21, 0x22, 0x23, 0x24, 0x25, 0x27, 0x2B]) && isSetting a

/-- Mask of the defined bits of the register at `a` (R6); CTX_RES_OWN offsets 0x0A and 0x0B are reserved (R98). -/
def regMask (a : Nat) : Nat :=
  match regRow a with
  | none => 0
  | some r => if a = R.CTX_RES_OWN 2 then 0x00003F3F else if a = R.PART_CTRL 0 then 0x000FFF70 else r.mask

end Sys2Proof.Machine
end

