-- ==== Sys2Proof/Machine/Tab.lean ====
section
/-!
DEFINITION. Sparse tables in one canonical form: keys strictly rising, no entry equal to what an unlisted key reads as.
`d` says what an unlisted key reads as. The register file, the memories and the per-context tables are such tables.
-/

set_option Elab.async false

namespace Sys2Proof.Machine

variable {α : Type}

/-- The value at key `k`. -/
def tabGet (d : Nat → α) (t : Tab α) (k : Nat) : α :=
  match t with
  | [] => d k
  | (a, v) :: r => if a = k then v else tabGet d r k

/-- The table with the value at `k` replaced; an entry that equals the default is not kept. -/
def tabSet [DecidableEq α] (d : Nat → α) (t : Tab α) (k : Nat) (v : α) : Tab α :=
  match t with
  | [] => if v = d k then [] else [(k, v)]
  | (a, x) :: r =>
    if a = k then (if v = d k then r.filter (fun e => e.1 ≠ k) else (k, v) :: r)
    else if k < a then
      (if v = d k then (a, x) :: r.filter (fun e => e.1 ≠ k) else (k, v) :: (a, x) :: r)
    else (a, x) :: tabSet d r k v

/-- Every key in the range `[lo, hi)` back to what an unlisted key reads as. -/
def tabClear (t : Tab α) (lo hi : Nat) : Tab α := t.filter (fun e => e.1 < lo ∨ hi ≤ e.1)

/-- Consecutive values from key `k` on. -/
def tabGets (d : Nat → α) (t : Tab α) (k n : Nat) : List α := (List.range n).map (fun i => tabGet d t (k + i))

/-- Consecutive values written from key `k` on. -/
def tabSets [DecidableEq α] (d : Nat → α) (t : Tab α) (k : Nat) (vs : List α) : Tab α :=
  match vs with
  | [] => t
  | v :: r => tabSets d (tabSet d t k v) (k + 1) r

/-- The canonical form: every key is above `lo`'s predecessor, keys rise strictly, no entry is the default. -/
def tabWfFrom [DecidableEq α] (d : Nat → α) (lo : Nat) (t : Tab α) : Bool :=
  match t with
  | [] => true
  | (a, v) :: r => decide (lo ≤ a) && decide (v ≠ d a) && tabWfFrom d (a + 1) r

/-- The table is in canonical form. -/
def tabWf [DecidableEq α] (d : Nat → α) (t : Tab α) : Bool := tabWfFrom d 0 t

end Sys2Proof.Machine
end

