-- ==== Sys2Proof/Machine/State.lean ====
section
/-!
DEFINITION. The state of the part as plain data, the reasons a command can stop, and the state right after reset. Every
register of the block tables stands in `regs` under its 40-bit internal address; the other fields hold the state the spec
describes in its text (queues, slots, rings, frames in flight, takes, sessions, timers, pins).
-/

set_option Elab.async false

namespace Sys2Proof.Machine

/-- Why a command stops. -/
inductive Fault where
  /-- Raised by no meaning of this model: every command of the table has an effect in every state. Kept for the
  interface. Safe: a state that stops proves nothing about hardware that goes on. -/
  | none
deriving DecidableEq, Repr

/-- Why a command has no meaning. -/
inductive Refusal where
  /-- Raised by an arm of `exec` that has no meaning yet; the string is the row's mnemonic. Safe. -/
  | notModelled (mnemonic : String)
deriving DecidableEq, Repr

/-- How a lane of Q15 sends an SDI output (R134): the lane, its synthesiser's rate in units of 10 Mb/s, whether divided by 1.001,
and the SMPTE standard whose scrambling and NRZI coding apply: 424, 2081 or 2082. -/
structure SdiCoding where
  lane : Nat
  rate : Nat
  per1001 : Bool
  standard : Nat
deriving DecidableEq, Repr

/-- The times of an I²C bus in ns, and the bytes to be read (R463, R464): SCL low and high, SDA hold after SCL falls, START and STOP
times, bus free time. -/
structure I2cBus where
  low : Nat
  high : Nat
  hold : Nat
  start : Nat
  free : Nat
  rlen : Nat
deriving DecidableEq, Repr

/-- How an audio port sends its frames (R421, R422): the bit clocks of a frame in which FS is high, the bit clock of the first data
bit, bit clocks a slot, bits a sample, whether it drives BCLK and FS, and periods of MCLK a frame (0: held low). -/
structure AudWire where
  fs : Nat := 0
  start : Nat := 0
  width : Nat := 32
  bits : Nat := 24
  master : Bool := true
  mclk : Nat := 0
deriving DecidableEq, Repr

/-- What the part puts out: writes to host memory, interrupt messages, answers to reads, and what leaves its pins. -/
inductive Out where
  /-- A posted write of function `fn` to host memory. -/
  | host (fn addr : Nat) (bytes : List Byte)
  /-- An MSI-X message of vector `vec` of function `fn`. -/
  | msix (fn vec : Nat)
  /-- The data of a host or board read. -/
  | read (v : Nat)
  /-- An error logged through AER (R444). -/
  | aer (fn : Nat)
  /-- A back-channel block (R132, R136): the physical lane it leaves on at 1.25 Gb/s, its sync header h0h1 (1 data, 2 control),
  its 32 payload bytes as they stand on the wire, scrambled in a data block (R138), and its nominal departure in ns of device
  time. -/
  | backchannel (lane hdr : Nat) (wire : List Byte) (time : Nat)
  /-- A block that a lane in FAR_RETIMED loopback received leaves again on its own transmitter (R148). -/
  | retimed (lane hdr : Nat) (payload : BitVec 256)
  /-- A pulse edge on a strobe pin at a device time in ns. -/
  | strobe (pin : Nat) (high : Bool) (time : Nat)
  /-- A level driven on a GPIO pin. -/
  | gpio (pin : Nat) (level : Option Bool)
  /-- The pull of a GPIO pin changes: 0 none, 1 up, 2 down. -/
  | gpioPull (pin pull : Nat)
  /-- The pads of TRIGn and STRBn change: 50 Ω to ground and pull-down of TRIGn, drive of STRBn in mA (R470). -/
  | trigPad (pin : Nat) (term pulldn : Bool) (drive : Nat)
  /-- A frame on an Ethernet port. -/
  | eth (port : Nat) (bytes : List Byte)
  /-- One LTC frame: its timecode (layout of TIM_TC_NOW) and the device time of its start (R413). -/
  | ltc (timecode : Nat) (time : Nat)
  /-- A PTP message that the device originates (R399): port, messageType, the device time in its originTimestamp, and the
  turnaround time added to correctionField. -/
  | ptp (port type origin turnaround : Nat)
  /-- One active line of an SDI output: the output, its line, the first column, the coding of its lane, and the pixels, three
  components of 10 bits at bits 0, 10 and 20 (R379). -/
  | video (output line col : Nat) (coding : Option SdiCoding) (pixels : List Nat)
  /-- A DSI command with its parameter bytes (R375). -/
  | dsi (port cmd : Nat) (params : List Byte)
  /-- One audio frame of a port, and how it is sent: one word per slot (serial: the sample; AES3: V, U, C, Z in bits 0 to 3, the
  sample above bit 8). -/
  | audio (port frame : Nat) (wire : AudWire) (samples : List Nat)
  /-- A transfer of an I2C controller (R464): its times, and the bytes that it sends. The address byte with R follows a START, or a
  repeated START where bytes came before it; the bytes read after it are acknowledged but for the last. -/
  | i2c (ctl : Nat) (bus : I2cBus) (bytes : List Byte)
  /-- The transfer ends: with STOP, or the lines are released without one (Table 18-1). -/
  | i2cEnd (ctl : Nat) (stop : Bool)
  /-- Bytes the I2C target returns. -/
  | i2cTarget (bytes : List Byte)
  /-- A level of an AON pin by name. -/
  | pin (name : String) (level : Bool)
deriving DecidableEq, Repr

/-! ### Mailboxes, interrupts, events -/

/-- A POSTED slot and the time its doorbell arrived (R54). -/
structure Posted where
  part : Nat
  slot : Nat
  at_ : Nat
deriving DecidableEq, Repr

/-- What an EXECUTING slot waits on (R62). -/
inductive WaitKind where
  | commit (seq : Nat) | reset (id : Nat) | link | sensor (tag : Nat) | maint (id : Nat)
deriving DecidableEq, Repr

/-- An EXECUTING slot. -/
structure Wait where
  part : Nat
  slot : Nat
  kind : WaitKind
deriving DecidableEq, Repr

/-- A response as it is kept for retries (R75): the function, SEQ, OPCODE, CTX, COOKIE, status, and the payload. -/
structure Cached where
  part : Nat
  seq : Nat
  op : Nat
  ctx : Nat
  cookie : Word
  status : Nat
  payload : List Word
deriving DecidableEq, Repr

/-- A posted write of ring `ring` that waits for Bus Master Enable of function `fn` (R443); `event`: a RING_CPL goes with it. -/
structure HeldWrite where
  ring : Nat
  fn : Nat
  addr : Nat
  bytes : List Byte
  event : Bool
deriving DecidableEq, Repr

/-- Mailbox firmware state and MSI-X state. `held`: completion entries and device words that wait for Bus Master Enable, oldest
first (R443). `vecMask` and `fnMask` read true where nothing is listed, as PCIe resets
them; `bme` reads false. -/
structure Mbx where
  posted : List Posted := []
  waits : List Wait := []
  cache : List Cached := []
  vecMask : Tab Bool := []
  fnMask : Tab Bool := []
  msixPend : Tab Bool := []
  bme : Tab Bool := []
  numVfs : Nat := 0
  held : List HeldWrite := []
deriving DecidableEq, Repr

/-- What orders a record among those of its ring (R118): device time in ns, rank of SOURCE, FRAME, SEQ. -/
structure EvKey where
  time : Nat
  rank : Nat
  frame : Nat
  seq : Nat
deriving DecidableEq, Repr

/-- The event queue of one context (Table 4-3, R87, R117). `n = 0`: no ring configured. `tail`: the records written in the
last 10 ns, newest first, each with the monotonic time of its writing: one that orders before them goes in front (R119). -/
structure EvQueue where
  tail : List (Nat × EvKey × List Byte) := []
  base : Nat := 0
  n : Nat := 0
  prod : Nat := 0
  cons : Nat := 0
  lost : Nat := 0
  lostTag : List Byte := []
  pend : Bool := false
  lastMsg : Option Nat := none
  held : Bool := false
  lastEv : Option Nat := none
deriving DecidableEq, Repr

/-- An open or closed root record (Table 4-6) with its marks (R122, R123). -/
structure Root where
  entry : Nat
  id : Nat
  src : Nat
  unit : Nat
  code : Nat
  cls : Nat
  detail : Nat
  tag : List Byte
  open_ : Bool
  order : Nat
  lastShort : Nat
  lastMono : Nat
  reports : Nat
  affected : Nat
  partMask : Nat
  marks : List Nat
  msgParts : List Nat
deriving DecidableEq, Repr

/-- The event and fault unit. `rootNext` and the log index are held in AON. -/
structure EvtSt where
  evq : Tab EvQueue := []
  seq : Tab Nat := []
  roots : List Root := []
  rootNext : Nat := 1
  order : Nat := 0
  logIdx : Nat := 0
  logHeld : List (List Byte) := []
  stopped : List (Nat × Nat) := []
deriving DecidableEq, Repr

/-! ### Epochs -/

/-- A queued commit (R21, R25). `tAm` is its acceptance on the monotonic clock; `sparse` the sparse header read when it was
validated, at the list address `sparseAt` (R203). -/
structure Commit where
  seq : Nat
  part : Nat
  ctx : Nat
  id : Nat
  tAm : Nat
  tAshort : Nat
  target : Nat
  past : Bool
  entries : List (Nat × Word)
  sensor : List SensorWrite
  sparse : Option (List Nat)
  sparseAt : Nat
  late : Bool
  hold : Bool
deriving DecidableEq, Repr

/-- An earlier epoch with items still in flight: its frame-bound settings, the ownership it ran under, and the contexts that
committed into it. -/
structure Bank where
  epoch : Nat
  first : Nat
  regs : Tab Word
  ctxs : List Nat
deriving DecidableEq, Repr

/-- The sensor writes of an epoch and whether the sensor acknowledged them (R179). -/
structure SensorEpoch where
  epoch : Nat
  writes : Bool
  ack : Option Nat
  failed : Bool
deriving DecidableEq, Repr

/-- A chute word (R338): `good` is its parity. -/
structure ChuteWord where
  data : Nat
  good : Bool
  poison : Bool
  slot : Bool
  at_ : Nat
deriving DecidableEq, Repr

/-- A chute: the words held, the last word its consumer read, the place of a pending slot, whether the rest of a packet is
discarded, words its producer still offers (kind of write, word), the position of the head. -/
structure Chute where
  words : List ChuteWord := []
  last : Option ChuteWord := none
  pend : Option Nat := none
  drop : Bool := false
  held : List (Nat × ChuteWord) := []
  rd : Nat := 0
deriving DecidableEq, Repr

/-- What R95 and R331 count of DRAM requests: those that reached U3, those that became overdue, the longest latency in ns, and
the longest with each latency short of its target. -/
structure QosRun where
  u3 : Nat := 0
  late : Nat := 0
  lat : Nat := 0
  met : Nat := 0
deriving DecidableEq, Repr

/-- Status images as latched at the latest frame boundary (R42, FRAME mode). -/
structure View where
  regs : Tab Word := []
  tod : Nat := 0
  grade : Nat := 0
  roots : List Root := []
  rootNext : Nat := 1
  now : Nat := 0
  sr : Tab Bool := []
  chutes : Tab Chute := []
  encBusy : List (Nat × Option Nat) := []
  decBusy : List (Nat × Option Nat) := []
  qos : Tab QosRun := []
  audEpochs : List Nat := []
deriving DecidableEq, Repr

/-- The epoch machinery. `stage` is keyed by partition × 2^40 + register address. `synth`: the latest boundary was not the
sensor's; `tFm`: when it fell; `qos`: the figures of R95 and R331 for the frame that it ended, keyed as those of `DmcSt`;
`committers`: the contexts that committed into the present epoch. -/
structure EpochSt where
  stage : Tab (Option Word) := []
  queue : List Commit := []
  seq : Nat := 0
  commitCnt : Tab Nat := []
  epoch : Nat := 0
  first : Nat := 0
  frame : Nat := 0
  synth : Bool := false
  tFm : Nat := 0
  qos : Tab QosRun := []
  committers : List Nat := []
  banks : List Bank := []
  sensor : List SensorEpoch := []
  snap : View := {}
deriving DecidableEq, Repr

/-! ### Resets -/

/-- A reset of levels 1 to 3 that drains (R103, R104). `scope`: the partitions it was asked for; `ctxs`: its contexts.
`parts` and `drain`: those it still has to clear itself, a higher-level reset having taken the others. `free`: contexts
that a commit frees, each with the PART that the commit wrote. -/
structure ResetJob where
  id : Nat
  level : Nat
  scope : List Nat
  ctxs : List Nat
  parts : List Nat
  drain : List Nat
  free : List (Nat × Nat)
deriving DecidableEq, Repr

/-! ### Sensor link and frames in flight -/

/-- A back-channel command (Table 6-3), `sentAt` its departure in tenths of a ns of monotonic time: `kind` 0 `SENSOR_CMD`,
1 epoch write, 2 SPARE_SWAP; `ctx`: for whom it goes. -/
structure BcCmd where
  kind : Nat
  type : Nat
  tag : Nat
  count : Nat
  addr : Nat
  vals : List Word
  last : Bool
  epoch : Nat
  from_ : Nat
  to_ : Nat
  tries : Nat
  sentAt : Option Nat
  ctx : Nat := 0
deriving DecidableEq, Repr

/-- An EXPOSE sent: its tag, its departure on the monotonic clock, and its EXPOSE time (R180). -/
structure Expose where
  tag : Nat
  at_ : Nat
  time : Nat
deriving DecidableEq, Repr

/-- A SPARE_SWAP that the sensor accepted and that applies at the FS of `frame` (R174). -/
structure Swap where
  lost : Nat
  spare : Nat
  frame : Nat
deriving DecidableEq, Repr

/-- The sensor link. Lists hold logical lanes; `lossAt` gives the device frame of each loss, `act` the state of every
lost lane's handling: 0 waiting, 1 swap sent, 2 degraded; `lossNext`, the groups that lost a lane with no frame open (R172);
`swapped`, the lanes that hold a position after a swap. By physical lane: `alignAt`, when its last ALIGN came; `hdrBad`, when
invalid headers came (R137); `scr`, the seed of its scrambler and the data blocks descrambled since (R138); `prbs`, the
checker's register and run of good bits, `prbsGen` the generator's register (R150). By group: `grpPos`, the position of its
next block (R158), `grpSkip`, it discards up to the next FILL (R162). The back-channel: `bcAt`, the first bit of its present
cadence's block 0 in tenths of a ns of monotonic time; `bcSeq`, the ALIGN_SEQ of that block; `bcNext`, the first block free;
`bcIvl` and `bcData`, the interval of 256 blocks last used and the data blocks sent in it (R142, R181). -/
structure LinkSt where
  lossAt : Tab Nat := []
  act : Tab Nat := []
  rejoin : Tab Nat := []
  alignRun : Tab Nat := []
  alignSeq : Tab Nat := []
  alignBad : Tab Nat := []
  laneInv : Tab Bool := []
  wasLane : Tab Nat := []
  alignAt : Tab Nat := []
  hdrBad : Tab (List Nat) := []
  scr : Tab (Nat × Nat) := []
  prbs : Tab (Nat × Nat) := []
  prbsGen : Tab Nat := []
  grpPos : Tab Nat := []
  grpSkip : List Nat := []
  lossNext : List Nat := []
  spareOrder : List Nat := []
  swapped : List Nat := []
  bcq : List BcCmd := []
  bcOut : List BcCmd := []
  bcTag : Nat := 0
  bcAt : Nat := 0
  bcSeq : Nat := 0
  bcNext : Nat := 1
  bcIvl : Nat := 0
  bcData : Nat := 0
  exposes : List Expose := []
  swaps : List Swap := []
  stopReq : Bool := false
  startedAt : Option Nat := none
  lastFrame : Option Nat := none
deriving DecidableEq, Repr

/-- One stripe of a frame in flight: rows as received, rows as PSC corrected them (value and flag), and the coded
packet as it grows. `lastEnt`, `sptr`, `later`: the sparse list's reference, next index, and skips of rows to come. `gone`: from
this row on PSC dropped the rest (R9, R201). `ue`: the beats whose plane words were uncorrectable: row in the stripe, first
column, samples (R206). `ref`: the reference stripe as decoded again from the reference buffer (R215). -/
structure StripeSt where
  rows : List (List Nat) := []
  seg : List Nat := []
  lost : Bool := false
  drop : Bool := false
  gone : Option Nat := none
  ue : List (Nat × Nat × Nat) := []
  ref : List (List Nat) := []
  cor : List (List (Nat × Bool)) := []
  corSeg : List (Nat × Bool) := []
  lastEnt : Option Nat := none
  later : List (Nat × Bool) := []
  sptr : Option Nat := none
  recon : List (List Nat) := []
  reconSeg : List (List Nat) := []
  bytes : List Byte := []
  cells : Nat := 0
  noMatch : Bool := false
  truncOnly : Bool := false
  refUe : Bool := false
  intra : Bool := false
  cut : Bool := false
  done : Bool := false
  doneAt : Nat := 0
deriving DecidableEq, Repr

/-- A frame from its boundary until its last item left the ingest engines. `fs`, `fe`: the groups whose FS and FE came;
`dead`: those whose FS was late; `ovf`: SLK drops its remaining packets; `refClear`: it is coded without a reference (R216). -/
structure Frame where
  no : Nat
  epoch : Nat
  sensorFrame : Nat
  tF : Nat
  tFm : Nat
  flags : Nat
  synth : Bool
  expStart : Nat
  expNs : Nat
  sensorEpoch : Nat
  fs : List Nat
  fe : List Nat
  dead : List Nat
  embed : List Byte
  stripes : List StripeSt
  closed : Bool
  ovf : Bool
  key : Bool
  refClear : Bool
  skips : Nat
  coded : Bool
  shipped : Bool
  landed : List Nat
  tapSeen : Bool
  tap : Option Nat
  tapDone : Bool
deriving DecidableEq, Repr

/-- Where the coder wrote the coded frame `no` in the reference buffer: the address of each stripe's packet, the rows of
each stripe, WIDTH_CELLS, and the reconstruction that each stripe was predicted from in its turn (R215). -/
structure RefFrame where
  no : Nat
  addrs : List Nat
  rows : List Nat
  wc : Nat
  prev : List (List (List Nat))
deriving DecidableEq, Repr

/-- Ingest state beside the registers: frames in flight, oldest first; the times of the key requests pending (R219); the coder's
reference; the epochs for which CAL_ENTRIES_SKIPPED was raised; the sparse header values stored per epoch (R203); the job ring
indices aborted before their turn (R233). -/
structure IngestSt where
  frames : List Frame := []
  keyReq : List Nat := []
  geom : List Nat := []
  ref : Option RefFrame := none
  calEpoch : Option Nat := none
  sparse : List (Nat × List Nat) := []
  jobGone : List Nat := []
deriving DecidableEq, Repr

/-- A coder job that runs (R228 to R234), with the frames its output holds. -/
structure BkcJob where
  desc : List Byte
  aborted : Bool
  startedAt : Nat
deriving DecidableEq, Repr

/-! ### Host rings -/

/-- An item on its way to a ring (Table 17-5). `runs`: where its `size` bytes lie, first byte and length of each piece: in the
staging area, a scaler buffer or a take's store (R455). `ctx`: the context its reads are for. `known`: its size is known.
`trunc`: staging cut it short. `poisoned`: a read of it met the poison mark; `ue`: it will. `started` and `startAt`: it has
begun to be delivered, and when. `pos`: how much of it has been written. `scaler`: the scaler and the buffer it reads from.
`take`: the take slot and the `TAKE_READ` it belongs to; `unit`: its unit there. -/
structure Item where
  ring : Nat
  kind : Nat
  epoch : Nat
  size : Nat := 0
  runs : List (Nat × Nat) := []
  ctx : Nat
  known : Bool := true
  poisoned : Bool := false
  ue : Bool := false
  unit : Nat := 0
  staged : Bool := true
  trunc : Bool := false
  scaler : Option (Nat × Nat) := none
  take : Option (Nat × Nat) := none
  started : Bool := false
  startAt : Nat := 0
  pos : Nat := 0
deriving DecidableEq, Repr

/-- A descriptor taken and not yet complete; `bad`: it breaks Table 17-2 or R450. -/
structure Taken where
  desc : Desc
  bad : Bool
deriving DecidableEq, Repr

/-- One host ring beside its registers (R445 to R451). `bufPos`: bytes written to the first taken buffer.
`frontAt`: when that descriptor became the first. `blocks`: on a
host-to-device ring, the blocks read, oldest first; `none` stands for an absent block (R450). -/
structure Ring where
  subProd : Nat := 0
  cplCons : Nat := 0
  subHead : Nat := 0
  cplProd : Nat := 0
  taken : List Taken := []
  bufPos : Nat := 0
  frontAt : Nat := 0
  blocks : List (Option (List Byte)) := []
  item : Nat := 0
  dropRun : Bool := false
  lastCpl : Option Nat := none
  cplPend : Bool := false
deriving DecidableEq, Repr

/-! ### Colour pipeline and statistics -/

/-- What a scaler buffer holds: the developed frame it was made from, its geometry (Table 9-4), when its record was
written; the scaler's owner and DEST_MON in the frame's epoch (R381). -/
structure OutBuf where
  buf : Nat
  frame : Nat
  epoch : Nat
  flags : Nat
  tF : Nat
  w : Nat
  h : Nat
  fmt : Nat
  strideY : Nat
  strideC : Nat
  addr : Nat
  at_ : Nat := 0
  owner : Nat := 0
  destMon : Bool := false
deriving DecidableEq, Repr

/-- One scaler beside its registers: its complete buffers, oldest output first; whether the last frame was dropped; the
epoch for which CROP_CLIPPED was raised. -/
structure ScalerSt where
  done : List OutBuf := []
  dropRun : Bool := false
  clipEpoch : Option Nat := none
deriving DecidableEq, Repr

/-- An output in the making: the scaler, the buffer it picked, and the tone curves read at the frame's start (empty:
y = x). -/
structure DevOut where
  sc : Nat
  buf : Nat
  lut : List (List Nat)
deriving DecidableEq, Repr

/-- The frame being developed; `tapUe` are runs of photosites that read uncorrectable: row, first column, count. -/
structure Dev where
  no : Nat
  slot : Nat
  todo : List DevOut
  outs : List DevOut
  tapUe : List (Nat × Nat × Nat)
deriving DecidableEq, Repr

/-- A consumer holds a scaler buffer (R258): `who` 0 MON (`what` 4 × the output + the layer), 1 VCD (`what` the session), 2 HLK. -/
structure Hold where
  sc : Nat
  buf : Nat
  who : Nat
  what : Nat
deriving DecidableEq, Repr

/-- The colour pipeline: the slot of the previous tapped frame, the frame in development, the frames tapped and waiting
for it, the scalers and the holds. -/
structure CplSt where
  lastSlot : Option Nat := none
  dev : Option Dev := none
  scalers : Tab ScalerSt := []
  holds : List Hold := []
deriving DecidableEq, Repr

/-- A statistics record that is due (R274): its destination, the header fields and the body. -/
structure Stat where
  ctx : Nat
  owner : Nat
  point : Nat
  scaler : Nat
  kind : Nat
  frame : Nat
  epoch : Nat
  flags : Nat
  rest : List Byte
deriving DecidableEq, Repr

/-- Cruise statistics: the records due, the run of discarded ones, and the statistics ring of each context. -/
structure CrsSt where
  due : List Stat := []
  dropRun : Bool := false
  ring : Tab Nat := []
deriving DecidableEq, Repr

/-! ### Video coder -/

/-- A reference picture, with its mark and the pool buffers it lies in (R360). -/
structure VcRef where
  poc : Nat
  long : Bool
  bufs : List Nat := []
deriving DecidableEq, Repr

/-- What the start of a picture changed in its session: references, geometry, pictures since the last IDR, the mark of a skip. -/
structure VcUndo where
  refs : List VcRef := []
  geom : Option (Nat × Nat × Nat × Bool × Bool) := none
  sinceIdr : Option Nat := none
  skipped : Bool := false
deriving DecidableEq, Repr

/-- A picture taken or in coding (R352 to R358). `buf`: the scaler buffer it holds; `tag`: the offline job it belongs to;
`slice`: slices coded so far; `addr`, `strideY`, `strideC`: where its input lies; `bufs`: the pool buffers it is coded into;
`squeezed`: its CTBs at QP 51 or skipped so far; `hurt`: a poisoned word was coded; `undo`: the session before its start. -/
structure VcPic where
  frame : Nat
  epoch : Nat
  flags : Nat
  poc : Nat
  w : Nat
  h : Nat
  fmt : Nat
  mtx : Bool
  full : Bool
  buf : Option (Nat × Nat)
  tag : Option Nat
  deadline : Nat := 0
  skipBefore : Bool := false
  idr : Bool := false
  slice : Nat := 0
  abort : Bool := false
  addr : Nat := 0
  strideY : Nat := 0
  strideC : Nat := 0
  bufs : List Nat := []
  squeezed : Nat := 0
  hurt : Bool := false
  undo : VcUndo := {}
deriving DecidableEq, Repr

/-- An offline job (Table 13-4). `ord`: its place in the order of acceptance. -/
structure VcJob where
  tag : Nat
  inAddr : Nat
  inLen : Nat
  outAddr : Nat
  outLen : Nat
  strideY : Nat
  strideC : Nat
  ord : Nat
  startAt : Option Nat := none
  abort : Bool := false
deriving DecidableEq, Repr

/-- An accepted `VC_MARK` not yet applied: 0 SHORT, 1 LONG, 2 UNUSED. -/
structure VcMark where
  poc : Nat
  mark : Nat
  at_ : Nat
deriving DecidableEq, Repr

/-- An open session (Table 13-2). `geom`: size, format, matrix and range of the previous picture; `pool`: the pool buffers it
holds, by number. -/
structure VcSession where
  ctx : Nat
  dec : Bool
  live : Bool
  scaler : Nat
  profile : Nat
  maxW : Nat
  maxH : Nat
  rate : Nat
  numRef : Nat
  gopLen : Nat
  sliceRows : Nat
  statsEn : Bool
  ring : Nat
  config : List Word
  pool : List Nat := []
  refs : List VcRef := []
  decRefs : Nat := 0
  marks : List VcMark := []
  poc : Nat := 0
  jobs : List VcJob := []
  queue : List VcPic := []
  cur : Option VcPic := none
  geom : Option (Nat × Nat × Nat × Bool × Bool) := none
  sinceIdr : Option Nat := none
  lastDeadline : Nat := 0
  skipRun : Bool := false
  skipped : Bool := false
  lastFrame : Nat := 0
  lastEpoch : Nat := 0
  closing : Bool := false
deriving DecidableEq, Repr

/-- A scaler output that a live session has still to look at. -/
structure VcOut where
  session : Nat
  out : OutBuf
  mtx : Bool
  full : Bool
  dest : Bool
  poc : Nat
  sc : Nat
deriving DecidableEq, Repr

/-- The video coder: sessions, outputs to look at, the session whose slice is in the encode engine, the session whose job
is in the decode engine, and the times each engine was busy in the last 100 ms (a start without an end is still busy). -/
structure VcSt where
  ses : Tab (Option VcSession) := []
  pend : List VcOut := []
  enc : Option Nat := none
  dec : Option Nat := none
  ord : Nat := 0
  encBusy : List (Nat × Option Nat) := []
  decBusy : List (Nat × Option Nat) := []
deriving DecidableEq, Repr

/-! ### NV records -/

/-- An update of a record kept in two NV copies at `a0` and `a1` (R490): `body` is all of it but the CRC, with SEQ 0 at
`seqOff`. -/
structure NvUpd where
  a0 : Nat
  a1 : Nat
  seqOff : Nat
  body : List Byte
deriving DecidableEq, Repr

/-! ### Landing store and storage queues -/

/-- A unit of a take's store: the frame in it, what the directory and the lead-in rules need of that frame. -/
structure Unit_ where
  idx : Nat
  frame : Nat
  epoch : Nat
  t : Nat
  complete : Bool
  damaged : Bool
  temporal : Bool
  intra : Nat
deriving DecidableEq, Repr

/-- A `TAKE_READ` in progress: frames left, frames delivered, whether one was lost. -/
structure TakeRead where
  id : Nat
  left : Nat
  done : Nat
  bad : Bool
deriving DecidableEq, Repr

/-- A take slot (R280 to R298). Times are device time in ns. `units` are in ring order, oldest first. `lapped`: a unit was
overwritten since arming. `stopSeen`: the first frame at or after stop was recognised. `entry`: the directory entry computed, held in AON until it is in NV. -/
structure TakeSlot where
  mode : Nat := 0
  trigSrc : Nat := 0
  leadEn : Bool := false
  embedKib : Nat := 0
  capMib : Nat := 0
  preNs : Nat := 0
  postNs : Nat := 0
  ctx : Nat := 0
  takeId : Nat := 0
  n : Nat := 0
  u : Nat := 0
  h : Nat := 0
  addr : Nat := 0
  armedAt : Nat := 0
  lapped : Bool := false
  trunc : Bool := false
  start : Option Nat := none
  stop : Option Nat := none
  trig : Option Nat := none
  units : List Unit_ := []
  stopSeen : Bool := false
  full : Bool := false
  aborted : Bool := false
  recovered : Bool := false
  entry : List Byte := []
  reads : List TakeRead := []
deriving DecidableEq, Repr

/-- A storage command (Table 11-5). `seq`: its place in the order of starts over all queues. `data`: what a write took from
the host, or what a read found at its start (R309). -/
structure SqCmd where
  opc : Nat
  tag : Nat
  block : Nat
  count : Nat
  addr : Nat
  cookie : Nat
  started : Bool := false
  abort : Bool := false
  startAt : Nat := 0
  seq : Nat := 0
  data : List Byte := []
deriving DecidableEq, Repr

/-- A completion that waits for room in its ring (Table 11-6). -/
structure SqDone where
  tag : Nat
  status : Nat
  cookie : Nat
  time : Nat
  blocks : Nat
deriving DecidableEq, Repr

/-- A storage queue (R306). -/
structure SqQueue where
  ctx : Nat
  n : Nat
  poll : Nat
  sub : Nat
  cpl : Nat
  idx : Nat
  cons : Nat := 0
  head : Nat := 0
  cplProd : Nat := 0
  cmds : List SqCmd := []
  out : List SqDone := []
  lastEv : Option Nat := none
  evPend : Bool := false
deriving DecidableEq, Repr

/-- The landing store: slots, the TAKE_ID counter and retention result in AON, storage queues by QID. `i2c` is the
block an I²C write holds, the bytes received, and when the hold began. -/
structure LndSt where
  slots : Tab TakeSlot := []
  takeNext : Nat := 1
  readSeq : Nat := 0
  lastT : Option Nat := none
  sqs : Tab (Option SqQueue) := []
  sqSeq : Nat := 0
  i2c : Option (Nat × List (Nat × Byte) × Nat) := none
  sqStop : Bool := false
deriving DecidableEq, Repr

/-! ### Power, thermal protection, boot and maintenance -/

/-- A maintenance activity that runs or is deferred (R504, R505). `words` are its activity words; `pct` percent done;
`chans` (those still to do) and `step` where a `DRAM_RETRAIN` stands and `stepAt` when its last step ran; `failed`: a
channel failed, `root` the ROOT_ID of the first failure; `abort`: it is to stop at its next step boundary, `armed` because a slot
became ARMED; `before`: the values of the channels when it started; `sched`: firmware scheduled it (R326). -/
structure Act where
  id : Nat
  code : Nat
  ctx : Nat
  words : List Nat
  addr : Nat
  len : Nat
  running : Bool
  startAt : Nat
  pct : Nat := 0
  chans : List Nat := []
  step : Nat := 0
  stepAt : Nat := 0
  failed : Bool := false
  root : Nat := 0xFFFFFFFF
  abort : Bool := false
  armed : Bool := false
  before : List (BitVec 56) := []
  sched : Bool := false
deriving DecidableEq, Repr

/-- Boot (R491 to R493): `pend`, an attempt is due; `wait`, when an attempt passed step 3 and FW_READY is not set yet;
`readyAt`, when FW_READY was set in an attempt that is not yet at step 6; `aonLost`: AON lost power since the last boot;
`held`: slots are treated as after RESULT 1 (R302, R303); `result`: the latched retention result, its sample time, and
`told`: step 1 has dealt with it;
`prev`: how the attempt before ended (Table 19-5); `hot`: a thermal shutdown came before; `ver`: the VERSION of the image
that runs (`none`: the boot ROM's own firmware). -/
structure BootSt where
  pend : Bool := true
  wait : Option Nat := none
  readyAt : Option Nat := none
  aonLost : Bool := true
  held : Bool := false
  result : Nat := 0
  resultAt : Nat := 0
  told : Bool := false
  prev : Nat := 0
  hot : Bool := false
  ver : Option Nat := none
deriving DecidableEq, Repr

/-- Thermal state: the last 100 samples, newest first; runs of samples at or above RATE and below it; the last rise; Tj
holds the throttle; THERM_N is held by a shutdown; a failed sensor; the thermal record latched and not yet copied (R486,
R488). -/
structure ThmSt where
  hist : List Int := []
  up : Nat := 0
  down : Nat := 0
  rise : Int := 0
  hotThr : Bool := false
  hold : Bool := false
  sensorBad : Bool := false
  record : Option (List Byte) := none
deriving DecidableEq, Repr

/-- Power: when P2 entry was accepted and still waits; whether its PME handshake is done; MAIN_GOOD; DRAM_HOLD; when P3 began; a `POWER_STATE` P3 waits for
storage commands; BAK_EXHAUSTED; the maintenance activities, the running ones first; when the last scheduled DRAM_RETRAIN began; the open image session; a level
4 reset that follows the present response. -/
structure PwrSt where
  p2At : Option Nat := none
  p2Ack : Bool := false
  mainGood : Bool := true
  dramHold : Bool := false
  p3At : Option Nat := none
  p3Cmd : Bool := false
  bakEx : Bool := false
  acts : List Act := []
  actNext : Nat := 0
  retrainAt : Nat := 0
  imgOpen : Option Nat := none
  warm : Bool := false
  boot : BootSt := {}
  thm : ThmSt := {}
deriving DecidableEq, Repr

/-! ### Monitor outputs -/

/-- A rectangle: first column and row, and those past the last. -/
structure Rect where
  x0 : Nat
  y0 : Nat
  x1 : Nat
  y1 : Nat
deriving DecidableEq, Repr

/-- Where a layer's pixels come from in the present output frame: nothing, opaque black (R383), or the planes of a buffer. -/
inductive MonSrc where
  | none | black
  | planes (addr fmt w h strideY strideC : Nat)
deriving DecidableEq, Repr

/-- One layer: the scaler buffer it holds; the pool buffer a flip put in place of BUF; and what it shows in the present
frame: source, rectangle, opacity, whether its fetch is skipped (R380), the buffer number. -/
structure MonLayer where
  take : Option (Nat × OutBuf) := none
  flip : Option Nat := none
  src : MonSrc := .none
  rect : Rect := ⟨0, 0, 0, 0⟩
  alpha : Nat := 0
  skip : Bool := false
  buf : Nat := 0
deriving DecidableEq, Repr

/-- An accepted `MON_PUSH` that waits for its output frame start (R384). -/
structure MonPush where
  output : Nat
  layer : Nat
  flip : Option Nat
  rect : Option Rect
  at_ : Nat
deriving DecidableEq, Repr

/-- One output: the settings it runs and their place in the order of epochs; whether a frame start fell in the commit window
(R385); its layers; the next active SDI line; LATE and UNDERRUN of the present frame; the last pixel sent; the DSI region
still to send; the last TE edge and the frame start due after one; the last frame start, and the cadence tick it took. -/
structure MonOut where
  regs : Tab Word := []
  ord : Nat := 0
  miss : Bool := false
  layers : Tab MonLayer := []
  line : Option Nat := none
  late : Bool := false
  under : Bool := false
  lastPx : Nat := 0
  dirty : Option Rect := none
  teAt : Option Nat := none
  teDue : Option Nat := none
  startAt : Option Nat := none
  tick : Option Int := none
deriving DecidableEq, Repr

/-- An epoch's settings as MON needs them, kept until every output has passed it. -/
structure MonEpoch where
  ord : Nat
  epoch : Nat
  at_ : Nat
  regs : Tab Word
deriving DecidableEq, Repr

/-- The monitor outputs: outputs, epochs not yet passed by all, pushes, and the owners of the pool buffers plus 1. -/
structure MonSt where
  outs : Tab MonOut := []
  hist : List MonEpoch := []
  ord : Nat := 0
  pushes : List MonPush := []
  fb : Tab Nat := []
deriving DecidableEq, Repr

/-! ### Time, triggers and sync -/

/-- A TRIG pin: when its last accepted edge was taken, whether that edge acted, whether it came from a pin, from a schedule,
and the record it wrote. -/
structure TrigSt where
  last : Option Nat := none
  acted : Bool := false
  pin : Bool := false
  sched : Bool := false
  log : Option Nat := none
deriving DecidableEq, Repr

/-- A schedule entry (R407), as a full device time. -/
structure SchedEnt where
  pin : Nat
  strb : Bool
  ts : Nat
deriving DecidableEq, Repr

/-- A strobe pulse: device times of its nominal leading edge and of its trailing edge. -/
structure Pulse where
  lead : Nat
  trail : Nat
deriving DecidableEq, Repr

/-- The genlock of a cadence: the phase steered in, in ns; edges in a row in and out of tolerance. -/
structure GenSt where
  phase : Int := 0
  good : Nat := 0
  bad : Nat := 0
deriving DecidableEq, Repr

/-- Time, triggers and sync beside the registers. `servo` counts: offsets in a row within LOCK_NS and beyond UNLOCK_NS, and
whether the next offset is the first in UNCALIBRATED. `ticks`: the last tick taken of each cadence, on device time. -/
structure TimSt where
  trig : Tab TrigSt := []
  sched : List SchedEnt := []
  pulses : Tab (Option Pulse) := []
  gen : Tab GenSt := []
  logNo : Nat := 0
  ptpGood : Nat := 0
  ptpBad : Nat := 0
  ptpFirst : Bool := false
  linkDelay : Tab Nat := []
  tcBase : Option Nat := none
  jam : Bool := false
  ltcAt : Option Nat := none
  ltcLost : Bool := false
  ticks : Tab (Option Int) := []
deriving DecidableEq, Repr

/-! ### Audio -/

/-- One audio port while it is not stopped (R424 to R434). `regs`: the settings it runs, `epoch` theirs. `k0`: its first
frame; `blk`: the block in progress; `start`: the device frame number at that block's start. `mutes`, `losses`: changes of
MUTED and of the zeroed state, with the first frame each affects. `errs`: frames in error; `aesErr`: frames with a subframe
in error. `inWin`, `outWin`, `gap`: frame
starts in a row inside and outside the window, instants in a row without one. `tx`: the output block in play; `begun`: that
was decided; `skipTx`: absent blocks to discard when they come. -/
structure AudPort where
  regs : Tab Word := []
  epoch : Nat := 0
  k0 : Nat := 0
  blk : Nat := 0
  start : Nat := 0
  mutes : List (Nat × Bool) := []
  losses : List (Nat × Bool) := []
  asyncs : List (Nat × Bool) := []
  errs : List Nat := []
  aesErr : List Nat := []
  errSeen : Bool := false
  inWin : Nat := 0
  outWin : Nat := 0
  gap : Nat := 0
  lostFrom : Nat := 0
  zeroed : Nat := 0
  lastStart : Option Nat := none
  tx : Option (List Byte) := none
  begun : Bool := false
  skipTx : Nat := 0
  stop : Bool := false
  aes : List (Nat × List Nat) := []
  csBits : List Bool := []
  csChanged : Bool := false
  sinceZ : Option Nat := none
deriving DecidableEq, Repr

/-! ### Control buses -/

/-- An I²C controller's transfer: address, WLEN, RLEN and the bytes to write; it is to end at the next byte boundary. -/
structure I2cXfer where
  addr : Nat
  wlen : Nat
  rlen : Nat
  data : List Byte
  abort : Bool := false
deriving DecidableEq, Repr

/-- A write transaction of the I²C target (R466, R468): bytes completed, pointer bytes among them; the first pointer byte;
status bytes written; whether its user-area bytes are taken (1), refused (2), or none came yet (0). -/
structure TgtTxn where
  n : Nat := 0
  hi : Nat := 0
  st : List (Nat × Byte) := []
  ua : Nat := 0
deriving DecidableEq, Repr

/-- The control buses: transfers, GPIO output values, the last CLR (time plus 1, its bits), the I²C target's pointer and
write transaction, UA_BLOCK and LOG_INDEX, and whether it is awake in P2. -/
structure CbsSt where
  xfers : Tab (Option I2cXfer) := []
  gpioOut : Nat := 0
  clr : Nat × Nat := (0, 0)
  ptr : Nat := 0
  txn : Option TgtTxn := none
  uaBlock : Nat := 0
  logIndex : Nat := 0
  awake : Bool := false
deriving DecidableEq, Repr

/-- A range of DRAM that is held: an allocation of a context, or the store of a take slot. -/
structure Alloc where
  addr : Nat
  size : Nat
  ctx : Option Nat
  part : Nat
  slot : Option Nat
deriving DecidableEq, Repr

/-! ### Memory system -/

/-- A pending injection of `ERR_INJECT` (Tables 5-8, 12-5). -/
structure Inj where
  kind : Nat
  target : Nat
  left : Nat
deriving DecidableEq, Repr

/-- Where an internal DRAM address lies (R320). -/
structure DramPlace where
  ch : Nat
  bank : Nat
  row : Nat
  col : Nat
deriving DecidableEq, Repr

/-- A DRAM request that waits at its channel (R94, R328): its port, its target T in ns, the place where its figures are
kept, when it arrived, and whether it has been counted as U3 and as overdue. -/
structure DramReq where
  place : DramPlace
  port : Nat
  target : Nat
  key : Nat
  at_ : Nat
  u3 : Bool := false
  late : Bool := false
deriving DecidableEq, Repr

/-- DRAM and scratchpad beside their contents. `rows`: by channel × 16 + bank, the open row plus 1 (0: none) and its last
access; `last`: the last access of a channel; `sr`: channels in self-refresh; `dqs`: the last DQS tracking of a channel;
`err`: flipped bits of a stored half line or scratchpad word, by its address (3: the poison mark); `trained`: what a channel
trained to (R323, R326). `queue`: requests that wait, oldest first; `freeAt`: when a channel can take its next; `served`: how
many have been taken; `run`: the figures of the frame so far, by context, and from 4096 on by ingest port (R95, R331);
`moved`, `ingest`: its traffic in bytes, in all and of the ingest ports; `since`: when it began; `held`: a retraining step
has held a channel in it (R97, R332). -/
structure DmcSt where
  rows : Tab (Nat × Nat) := []
  last : Tab Nat := []
  sr : Tab Bool := []
  dqs : Tab Nat := []
  inj : List Inj := []
  err : Tab Nat := []
  trained : Tab (BitVec 56) := []
  queue : List DramReq := []
  freeAt : Tab Nat := []
  served : Nat := 0
  run : Tab QosRun := []
  moved : Nat := 0
  ingest : Nat := 0
  since : Nat := 0
  held : Bool := false
deriving DecidableEq, Repr

/-- Clocks: `now` counts ns and never jumps; `tod` is device time in units of 2^-32 ns (R392). -/
structure Clock where
  now : Nat := 0
  tod : Nat := 0
deriving DecidableEq, Repr

/-- The counters of the core cycle `at_`: the count up to the end of the cycle before, and what this one added (R152). -/
structure RcCycle where
  at_ : Nat := 0
  seen : Tab (Word × Word) := []
deriving DecidableEq, Repr

/-- What the board fits: temperature grade (Table 0-2), the DRAM density of each channel in GiB (R317), REF_SEL. -/
structure Straps where
  grade : Nat := 0
  densities : List Nat := List.replicate 32 8
  refSel : Bool := true
deriving DecidableEq, Repr

/-- The whole state of the part. -/
structure State where
  /-- The commands that wait, first in first out. -/
  pending : List Instr := []
  clk : Clock := {}
  straps : Straps := {}
  /-- Every register, by internal address; an unlisted address reads its reset value. -/
  regs : Tab Word := []
  /-- DRAM and scratchpad, by internal address; an unlisted byte reads 0 (log entry 4). -/
  mem : Tab Byte := []
  /-- NV memory (32 MiB), by NV address; an unlisted byte reads 0 (log entry 4). -/
  nv : Tab Byte := []
  mbx : Mbx := {}
  evt : EvtSt := {}
  ep : EpochSt := {}
  resets : List ResetJob := []
  resetSeq : Nat := 0
  lnk : LinkSt := {}
  ing : IngestSt := {}
  bkcJob : Option BkcJob := none
  items : List Item := []
  rings : Tab Ring := []
  allocs : List Alloc := []
  cpl : CplSt := {}
  crs : CrsSt := {}
  lnd : LndSt := {}
  vcd : VcSt := {}
  mon : MonSt := {}
  tim : TimSt := {}
  aud : Tab AudPort := []
  cbs : CbsSt := {}
  dmc : DmcSt := {}
  chutes : Tab Chute := []
  pwr : PwrSt := {}
  /-- NV record updates held in AON while Tj is outside the NV write range (R490). -/
  nvHeld : List NvUpd := []
  /-- The model's own counter of open values taken (log entry 2). -/
  free : Nat := 0
  /-- The model's own trace of what the part put out, newest first (log entry 5). -/
  out : List Out := []
  /-- By scratchpad bank: 1 more than the time of its handover write (R335). -/
  spdHo : Tab Nat := []
  /-- Scratchpad accesses of the present core cycle: time, word, write, port rank (R336). -/
  spdAcc : List (Nat × Nat × Bool × Nat) := []
  /-- Counters as the present core cycle found them (R152). -/
  rc : RcCycle := {}
deriving DecidableEq, Repr

/-- The machine right after a cold power-on reset, before any boot attempt: every register at its table's reset value
(Regs.lean), the factory defaults of R85 for a part with 8 GiB channels (log entries 3 and 6), empty NV memory. -/
def State.reset : State :=
  { regs := [
      (R.CTX_FREE_COUNT, 3840#32), (R.PART_DRAM_QUOTA 0, 261120#32), (R.PART_CTX_COUNT 0, 256#32),
      (R.DMC_INFO, 0x620#32) ] }

end Sys2Proof.Machine
end

