-- ==== Sys2Proof/Machine/Dmc.lean ====
section
/-!
DEFINITION. The DRAM channels (chapter 12): where an address lies (R320), the requests that wait at a channel, their
urgency and the order in which a channel takes them (R94, R95, R329), open rows and self-refresh (R321, R322), and the
marks of stored errors (R327, R345). Service times are open (log entry 98).
-/

set_option Elab.async false

namespace Sys2Proof.Machine

/-! ### Addresses -/

/-- Channel, bank, row and column of a DRAM address (R320). -/
def dramPlace (addr : Nat) : DramPlace :=
  let a := addr - 0x8000000000
  let ca := a / 65536 * 2048 + a % 2048
  { ch := (a / 2048 % 32) ^^^ (a / 65536 % 32)
    bank := (ca / 2048 % 16) ^^^ (ca / 32768 % 16)
    row := ca / 32768
    col := ca % 2048 }

/-- Number of the bank among those of all channels. -/
def DramPlace.index (p : DramPlace) : Nat := p.ch * 16 + p.bank

/-! ### Urgency -/

/-- The request's age at `now`. -/
def DramReq.age (r : DramReq) (now : Nat) : Nat := now - r.at_

/-- An age has reached `num`/`den` of the target, the threshold rounded down to a whole core clock cycle of 0.8 ns (R94). -/
def aged (num den target age : Nat) : Bool := decide (5 * target * num / (4 * den) * 4 ≤ 5 * age)

/-- Urgency U0 to U3 (R94). -/
def DramReq.urgency (r : DramReq) (now : Nat) : Nat :=
  let a := r.age now
  if aged 9 10 r.target a then 3 else if aged 3 4 r.target a then 2 else if aged 1 2 r.target a then 1 else 0

/-- A request of an ingest port (Table 12-2). -/
def DramReq.isIngest (r : DramReq) : Bool := decide (r.port < 5)

/-! ### Counts (R95, R331) -/

/-- The figures kept under `key`. -/
def DmcSt.figures (d : DmcSt) (key : Nat) : QosRun := tabGet (fun _ => {}) d.run key

/-- Request `r` is counted where it has reached U3 or its target by `now`, once each. -/
def DmcSt.tally (d : DmcSt) (now : Nat) (r : DramReq) : DramReq × DmcSt :=
  let u := !r.u3 && decide (r.urgency now = 3)
  let o := !r.late && decide (r.target ≤ r.age now)
  let x := d.figures r.key
  ({ r with u3 := r.u3 || u, late := r.late || o },
   if u || o then
     { d with run := tabSet (fun _ => {}) d.run r.key { x with u3 := x.u3 + b2n u, late := x.late + b2n o } }
   else d)

/-- Every request that waits is counted as it stands at `now`. -/
def DmcSt.tallyAll (now : Nat) : List DramReq → DmcSt → List DramReq × DmcSt
  | [], d => ([], d)
  | r :: rs, d =>
    let (r, d) := d.tally now r
    let (l, d) := DmcSt.tallyAll now rs d
    (r :: l, d)

/-- The latency of a request that is taken at `now`. -/
def DmcSt.taken (d : DmcSt) (now : Nat) (r : DramReq) : DmcSt :=
  let x := d.figures r.key
  let a := r.age now
  { d with run := tabSet (fun _ => {}) d.run r.key { x with lat := max x.lat a, met := max x.met (min a (r.target - 1)) } }

/-! ### The next request (R329) -/

/-- The row of the request is open. -/
def DmcSt.rowHit (d : DmcSt) (r : DramReq) : Bool :=
  decide ((tabGet (fun _ => (0, 0)) d.rows r.place.index).1 = r.place.row + 1)

/-- Request `x` goes before request `y` at `now` (R329). -/
def DmcSt.first (d : DmcSt) (now : Nat) (x y : DramReq) : Bool :=
  let u := x.urgency now
  if u ≠ y.urgency now then decide (y.urgency now < u)
  else if x.isIngest ≠ y.isIngest then x.isIngest
  else if u ≤ 1 ∧ d.rowHit x ≠ d.rowHit y then d.rowHit x
  else if x.at_ ≠ y.at_ then decide (x.at_ < y.at_)
  else decide (x.port < y.port)

/-- A channel takes request `r` at `now`: its row is open, or precharged at once with an idle time of 0 (R321). -/
def DmcSt.take (d : DmcSt) (idle now : Nat) (r : DramReq) : DmcSt :=
  let e := { (d.tally now r).2 with queue := d.queue.erase r }.taken now r
  { e with rows := tabSet (fun _ => (0, 0)) e.rows r.place.index (if idle = 0 then (0, 0) else (r.place.row + 1, now))
           last := tabSet (fun _ => 0) e.last r.place.ch now
           freeAt := tabSet (fun _ => 0) e.freeAt r.place.ch (now + 1 + (Config.dramTime e.served).toNat)
           served := e.served + 1 }

/-- Channel `ch` takes what it can up to the cycle `now`; `f` bounds the requests. -/
def DmcSt.serve (idle now ch : Nat) : Nat → DmcSt → DmcSt
  | 0, d => d
  | f + 1, d =>
    match d.queue.filter (fun r => decide (r.place.ch = ch)) with
    | [] => d
    | r :: rs =>
      let t := max (tabGet (fun _ => 0) d.freeAt ch) r.at_
      if now < t then d
      else
        DmcSt.serve idle now ch f (d.take idle t
          ((rs.filter (fun x => decide (x.at_ ≤ t))).foldl (fun b x => if d.first t x b then x else b) r))

/-- Channel `ch` up to `now`. -/
def DmcSt.drain (d : DmcSt) (idle now ch : Nat) : DmcSt := DmcSt.serve idle now ch d.queue.length d

/-- Every channel up to `now`. -/
def DmcSt.drainAll (d : DmcSt) (idle now : Nat) : DmcSt := (List.range 32).foldl (fun d c => d.drain idle now c) d

/-- Channel `ch` takes nothing before `t`. -/
def DmcSt.holdTo (d : DmcSt) (ch t : Nat) : DmcSt :=
  { d with freeAt := tabSet (fun _ => 0) d.freeAt ch (max t (tabGet (fun _ => 0) d.freeAt ch)) }

/-- A request arrives: those of earlier cycles go first, and a channel in self-refresh wakes, which takes at most 400 ns
(R322, Table 12-6). -/
def DmcSt.ask (d : DmcSt) (idle now : Nat) (r : DramReq) : DmcSt :=
  let c := r.place.ch
  let d := d.drain idle (now - 1) c
  let d := if tabGet (fun _ => false) d.sr c then d.holdTo c (now + (Config.dramTime d.served).toNat % 401) else d
  { d with queue := d.queue ++ [r]
           last := tabSet (fun _ => 0) d.last c now
           sr := tabSet (fun _ => false) d.sr c false }

/-- An access of `n` bytes at `a`: one request for each 2 KiB piece, which lies in one row (R320). -/
def DmcSt.request (d : DmcSt) (idle now port target key a n : Nat) : DmcSt :=
  if a < 0x8000000000 || n = 0 then d
  else
    let d := { d with moved := d.moved + n, ingest := if port < 5 then d.ingest + n else d.ingest }
    (List.range ((a + n - 1) / 2048 - a / 2048 + 1)).foldl (fun d i =>
      d.ask idle now { place := dramPlace (if i = 0 then a else (a / 2048 + i) * 2048)
                       port := port, target := target, key := key, at_ := now }) d

/-- The figures of the frame that ends at `now` (R95, R331), and a new frame's begun. Within the budget every target is met
(R97, R332): `fits` says that the frame's traffic, in all and of the ingest ports, stayed within it. -/
def DmcSt.latch (d : DmcSt) (idle now : Nat) (fits : Bool) : Tab QosRun × DmcSt :=
  let d := d.drainAll idle now
  let (q, d) := DmcSt.tallyAll now d.queue d
  (if fits && !d.held then d.run.map (fun e => (e.1, { e.2 with late := 0, lat := e.2.met })) else d.run,
   { d with queue := q, run := [], moved := 0, ingest := 0, since := now, held := false })

/-! ### Stored errors -/

/-- Size of the unit an error mark covers: a 32-byte half of a DRAM line or an 8-byte scratchpad word. -/
def eccUnit (a : Nat) : Nat := if a < 0x8000000000 then 8 else 32

/-- The injection falls on a write of `n` bytes at `a` (R345): the line or word that it names is written. -/
def Inj.falls (i : Inj) (a n : Nat) : Bool :=
  let u := if i.target < 0x8000000000 then 8 else 64
  decide (0x10 ≤ i.kind) && decide (i.kind / 16 ≠ 2) && decide (i.target / u * u < a + n) && decide (a < i.target / u * u + u)

/-- The unit that takes the flipped bits of an injection in a write of `n` bytes at `a`. -/
def Inj.spot (i : Inj) (a n : Nat) : Nat :=
  if i.target < 0x8000000000 then i.target / 8 * 8
  else
    let l := i.target / 64 * 64
    if a + n ≤ l + 32 then l else if l + 32 ≤ a then l + 32
    else if Config.hurtHalf l i.left then l + 32 else l

/-- A write of `n` bytes at `a` clears the marks of the units it covers and stores what injections ask for (R345). -/
def DmcSt.mark (d : DmcSt) (a n : Nat) : DmcSt :=
  let err := d.err.filter (fun e => !(decide (a ≤ e.1) && decide (e.1 + eccUnit e.1 ≤ a + n)))
  { d with err := (d.inj.filter (fun i => i.falls a n)).foldl (fun t i => tabSet (fun _ => 0) t (i.spot a n) (i.kind % 16 + 1)) err
           inj := (d.inj.map (fun i => if i.falls a n then { i with left := i.left - 1 } else i)).filter (fun i =>
             decide (0 < i.left)) }

end Sys2Proof.Machine
end

