-- ==== Sys2Proof/Machine/Flags.lean ====
section
/-!
DEFINITION. The codes of the spec: Kilel status codes (Table 2-13), tag flags (Table 1-7), slot states (Table 2-7), the
blocks' SOURCE numbers (Table 1-1) and tag kinds (Table 1-6).
-/

set_option Elab.async false

namespace Sys2Proof.Machine

/-! Status codes, Table 2-13. -/
def St.OK : Nat := 0x00
def St.DEFERRED : Nat := 0x01
def St.REFUSED_ARMED : Nat := 0x02
def St.POOL_EMPTY : Nat := 0x03
def St.LATE : Nat := 0x04
def St.ABORTED_NOT_STARTED : Nat := 0x05
def St.INVALID_CONFIG : Nat := 0x06
def St.QUEUE_FULL : Nat := 0x07
def St.ABORTED : Nat := 0x08
def St.NO_SPACE : Nat := 0x09
def St.MALFORMED : Nat := 0x10
def St.UNKNOWN_OPCODE : Nat := 0x11
def St.CLASS_INVALID : Nat := 0x12
def St.NOT_PERMITTED : Nat := 0x13
def St.BAD_ARGUMENT : Nat := 0x14
def St.BUFFER_SMALL : Nat := 0x15
def St.DMA_ERROR : Nat := 0x16
def St.SETTINGS_REGISTER : Nat := 0x17
def St.BASE_CAMP : Nat := 0x18
def St.DUPLICATE_PENDING : Nat := 0x19
def St.QUOTA_EXCEEDED : Nat := 0x1A
def St.STATE_CONFLICT : Nat := 0x1B
def St.TIMEOUT : Nat := 0x1C
def St.NV_TEMP_RANGE : Nat := 0x1D
def St.RESET_DISCARDED : Nat := 0x1E
def St.HW_FAULT : Nat := 0x1F

/-! Tag flags, Table 1-7. -/
def Fl.EPOCH_NEW : Nat := 1
def Fl.LATE : Nat := 2
def Fl.PARTIAL : Nat := 4
def Fl.OVERFLOW : Nat := 8
def Fl.SYNTH : Nat := 16
def Fl.TIME_UNLOCKED : Nat := 32
def Fl.HOLD : Nat := 64

/-! Slot states, Table 2-7. -/
def Slot.FREE : Nat := 0
def Slot.POSTED : Nat := 1
def Slot.EXECUTING : Nat := 2
def Slot.DONE : Nat := 3

/-! SOURCE numbers, Table 1-1. -/
def Src.MBX : Nat := 0x10
def Src.CTX : Nat := 0x11
def Src.EVT : Nat := 0x12
def Src.LNA : Nat := 0x20
def Src.SLK : Nat := 0x21
def Src.PSC : Nat := 0x22
def Src.BKC : Nat := 0x23
def Src.CPL : Nat := 0x24
def Src.CRS : Nat := 0x25
def Src.LND : Nat := 0x26
def Src.VCD : Nat := 0x27
def Src.MON : Nat := 0x28
def Src.TIM : Nat := 0x29
def Src.AUD : Nat := 0x2A
def Src.HLK : Nat := 0x2B
def Src.CBS : Nat := 0x2C
def Src.DMC : Nat := 0x30
def Src.SPD : Nat := 0x31
def Src.CHT : Nat := 0x32
def Src.AON : Nat := 0x3F

/-- Rank of a SOURCE for ties (Table 4-4); VCD orders before MON. -/
def srcRank (s : Nat) : Nat :=
  match s with
  | 0x29 => 1 | 0x3F => 2 | 0x20 => 3 | 0x21 => 4 | 0x22 => 5 | 0x23 => 6 | 0x26 => 8 | 0x30 => 9 | 0x31 => 10
  | 0x32 => 11 | 0x24 => 12 | 0x25 => 13 | 0x27 => 14 | 0x28 => 15 | 0x2A => 16 | 0x2C => 17 | 0x2B => 18 | 0x11 => 19
  | 0x10 => 20 | _ => 21

/-! Violation kinds, Table 3-10. -/
def Viol.noWindow : Nat := 0
def Viol.reg : Nat := 1
def Viol.ctx : Nat := 2
def Viol.bar0 : Nat := 3
def Viol.bar2Setting : Nat := 4
def Viol.bank : Nat := 5
def Viol.nv : Nat := 6
def Viol.dram : Nat := 7
def Viol.pool : Nat := 8
def Viol.bar2 : Nat := 9

end Sys2Proof.Machine
end

