-- ==== Sys2Proof/Machine/Ops.lean ====
section
/-!
DEFINITION. The named operations every meaning is built from: registers and their fields, time, memory, open values, the
output trace, ownership (R529, R83, R98), violations (R108, R109) and the common tag (R39).
-/

set_option Elab.async false

namespace Sys2Proof.Machine

/-! ### Registers -/

/-- The stored word of the register at `a`. -/
def State.rd (s : State) (a : Nat) : Word := tabGet regReset s.regs a

/-- The stored word of the register at `a` becomes `v`. -/
def State.wr (s : State) (a : Nat) (v : Word) : State := { s with regs := tabSet regReset s.regs a v }

/-- A field of a register. -/
def State.fd (s : State) (a lo n : Nat) : Nat := fld (s.rd a) lo n

/-- A bit of a register. -/
def State.bt (s : State) (a i : Nat) : Bool := bit (s.rd a) i

/-- A field of a register becomes `v`. -/
def State.wrF (s : State) (a lo n v : Nat) : State := s.wr a (setFld (s.rd a) lo n v)

/-- The counters noted in the cycle `now`. -/
def RcCycle.notes (c : RcCycle) (now : Nat) : Tab (Word × Word) := if c.at_ = now then c.seen else []

/-- A counter register that stood at `old` has changed by `up` in the cycle `now`. -/
def RcCycle.add (c : RcCycle) (now a : Nat) (old : Word) (up : Word → Word) : RcCycle :=
  let x := match (c.notes now).find? (fun e => e.1 = a) with
    | some e => (e.2.1, up e.2.2)
    | none => (old, up 0)
  { at_ := now, seen := tabSet (fun _ => (0, 0)) (c.notes now) a x }

/-- A counter field goes up by `k` and saturates. -/
def State.bump (s : State) (a lo n k : Nat) : State :=
  let up := fun (w : Word) => setFld w lo n (min (2 ^ n - 1) (fld w lo n + k))
  { s.wrF a lo n (min (2 ^ n - 1) (s.fd a lo n + k)) with rc := s.rc.add s.clk.now a (s.rd a) up }

/-- A read of an RC counter: the count up to the end of the cycle before; what this cycle added is kept (R152). -/
def State.readCount (s : State) (a : Nat) : Word × State :=
  let l := s.rc.notes s.clk.now
  let x := match l.find? (fun e => e.1 = a) with
    | some e => e.2
    | none => (s.rd a, 0)
  (x.1, { s.wr a x.2 with rc := { at_ := s.clk.now, seen := tabSet (fun _ => (0, 0)) l a (0, x.2) } })

/-- Registers in a range of addresses back to their reset values. -/
def State.regClear (s : State) (lo hi : Nat) : State := { s with regs := tabClear s.regs lo hi }

/-- Several registers written in order. -/
def State.wrs (s : State) (l : List (Nat × Word)) : State := l.foldl (fun s e => s.wr e.1 e.2) s

/-! ### Time -/

/-- Device time gained in one 1 ns tick, in units of 2^-32 ns: 1 ns × (1 + ADJ × 2^-8 × 10^-9), rounded down (R392). -/
def State.tickStep (s : State) : Nat := ((2 ^ 32 : Int) + sx 32 (s.rd R.TIM_ADJ).toNat * 2 ^ 24 / 10 ^ 9).toNat

/-- `dt` ns pass. -/
def State.tick (s : State) (dt : Nat) : State :=
  { s with clk := { now := s.clk.now + dt, tod := s.clk.tod + dt * s.tickStep } }

/-- Monotonic time in ns. -/
def State.now (s : State) : Nat := s.clk.now

/-- Device time in whole ns since 0 s. -/
def State.dev (s : State) : Nat := s.clk.tod / 2 ^ 32

/-- Short time of a device time in ns (R395). -/
def shortOf (t : Nat) : Nat := t % 2 ^ 32

/-- The present short time. -/
def State.short (s : State) : Nat := shortOf s.dev

/-- The time base is PTP-locked: servo STATE 3 (Table 15-4). -/
def State.locked (s : State) : Bool := decide (s.fd R.TIM_PTP_STAT 0 3 = 3)

/-- FLAGS of an item that is not made from a frame: TIME_UNLOCKED as it stands (R402), and SYNTH where the boundary that
its FRAME names was not the sensor's (Table 1-7). -/
def State.unlockFlag (s : State) : Nat :=
  (if s.locked then 0 else Fl.TIME_UNLOCKED) + (if s.ep.synth then Fl.SYNTH else 0)

/-- Throttling holds: Tj at or above THROTTLE, or a rate trip that acts so (R485). -/
def State.throttled (s : State) : Bool := s.bt R.THM_STAT 1

/-! ### Open values and the trace -/

/-- The next open value, and the state that has taken it. -/
def State.fresh (s : State) : Nat × State := ((Config.freeWord s.free).toNat, { s with free := s.free + 1 })

/-- `n` open bytes. -/
def State.freshBytes (s : State) (n : Nat) : List Byte × State :=
  ((List.range n).map (fun i => BitVec.ofNat 8 ((Config.freeWord (s.free + i / 8)).toNat / 256 ^ (i % 8))),
   { s with free := s.free + (n + 7) / 8 })

/-- Something leaves the part. -/
def State.emit (s : State) (o : Out) : State := { s with out := o :: s.out }

/-! ### Memory -/

/-- The default of an unlisted byte (log entry 4). -/
def memZero (_ : Nat) : Byte := 0

/-- A byte of DRAM or scratchpad. -/
def State.byte (s : State) (a : Nat) : Byte := tabGet memZero s.mem a

/-- The error mark of the unit at `a`. -/
def State.errAt (s : State) (a : Nat) : Nat := tabGet (fun _ => 0) s.dmc.err (a / eccUnit a * eccUnit a)

/-- A byte as a port receives it: as stored, but for an error that the ECC mode does not correct (R327). -/
def State.seen (s : State) (a : Nat) : Byte :=
  let e := s.errAt a
  if e = 0 || (decide (e = 1) && (decide (a < 0x8000000000) || decide (2 ≤ s.fd R.DMC_INFO 10 2))) then s.byte a
  else s.byte a ^^^ Config.wrongByte a s.clk.now

/-- Bytes of DRAM or scratchpad as a port receives them. -/
def State.bytes (s : State) (a n : Nat) : List Byte :=
  if s.dmc.err.isEmpty then tabGets memZero s.mem a n else (List.range n).map (fun i => s.seen (a + i))

/-- Bytes written to DRAM or scratchpad. -/
def State.store (s : State) (a : Nat) (bs : List Byte) : State :=
  { s with mem := tabSets memZero s.mem a bs, dmc := s.dmc.mark a bs.length }

/-- One injection of a kind on a target is used (R154, R345). -/
def State.useInj (s : State) (kind target : Nat) : State :=
  { s with dmc := { s.dmc with inj := (s.dmc.inj.map (fun i =>
      if i.kind = kind ∧ i.target = target then { i with left := i.left - 1 } else i)).filter (fun i => decide (0 < i.left)) } }

/-- An injection of a kind on a target is pending. -/
def State.injects (s : State) (kind target : Nat) : Bool :=
  s.dmc.inj.any (fun i => decide (i.kind = kind) && decide (i.target = target))

/-- A little-endian number in memory. -/
def State.num (s : State) (a n : Nat) : Nat := ofBytes (s.bytes a n)

/-- Bytes of a region back to 0. -/
def State.memClear (s : State) (lo hi : Nat) : State := { s with mem := tabClear s.mem lo hi }

/-- The memories hold their canonical form. -/
def Memory.wf (s : State) : Bool := tabWf memZero s.mem && tabWf memZero s.nv

/-- Bytes of NV memory. -/
def State.nvBytes (s : State) (a n : Nat) : List Byte := tabGets memZero s.nv a n

/-- Bytes written to NV memory. -/
def State.nvStore (s : State) (a : Nat) (bs : List Byte) : State := { s with nv := tabSets memZero s.nv a bs }

/-- Presented DRAM capacity in MiB (R318): 30/32 of the populated channels with INLINE ECC. -/
def State.dramMiB (s : State) : Nat :=
  (if 2 ≤ s.fd R.DMC_INFO 10 2 then 30 else 32) * 2 ^ (1 + s.fd R.DMC_INFO 8 2) * 1024

/-- First address past the presented DRAM. -/
def State.dramEnd (s : State) : Nat := 0x8000000000 + s.dramMiB * 0x100000

/-- First address of the firmware reservation (R319). -/
def State.fwBase (s : State) : Nat := s.dramEnd - 1024 * 0x100000

/-! ### Where an address lies (R7, R8) -/

/-- What an internal address names. -/
inductive Where where
  | window | spd | dram | nowhere
deriving DecidableEq, Repr

/-- Table 1-1. -/
def State.where_ (s : State) (a : Nat) : Where :=
  if a / 0x100000000 ∈ [0x10, 0x11, 0x12, 0x20, 0x21, 0x22, 0x23, 0x24, 0x25, 0x26, 0x27, 0x28, 0x29, 0x2A, 0x2B, 0x2C,
      0x30, 0x31, 0x32, 0x3F] ∧ a % 0x100000000 < 0x1000000 then .window
  else if 0x4000000000 ≤ a ∧ a < 0x4002000000 then .spd
  else if 0x8000000000 ≤ a ∧ a < s.dramEnd then .dram
  else .nowhere

/-! ### Ownership -/

/-- The byte of CTX_RES_OWN at offset `o` (Table 3-9). -/
def State.resOwner (s : State) (o : Nat) : Nat := s.fd (R.CTX_RES_OWN (o / 4)) (8 * (o % 4)) 6

/-- The partition that owns context `c`; a DRAINING context is still owned (R85). -/
def State.ctxOwner (s : State) (c : Nat) : Option Nat :=
  if s.fd (R.CTX_ENT_OWN c) 8 2 = 0 then none else some (s.fd (R.CTX_ENT_OWN c) 0 6)

/-- Context `c` is owned by partition `p`. -/
def State.owns (s : State) (p c : Nat) : Bool := decide (s.ctxOwner c = some p)

/-- Context `c` is DRAINING. -/
def State.draining (s : State) (c : Nat) : Bool := decide (s.fd (R.CTX_ENT_OWN c) 8 2 = 2)

/-- Partition `p` is enabled; part 0 always is. -/
def State.enabled (s : State) (p : Nat) : Bool := p = 0 || s.bt (R.PART_CTRL p) 0

/-- The CTX_RES_OWN offset of monitor output `o`: DSI ports 0–1, then SDI outputs 0–3. -/
def outputRes (o : Nat) : Nat := if o < 2 then 0x08 + o else 0x0C + (o - 2)

/-- The owner of stream `i`: part 0 for streams 0 and 1, the scaler's owner for the others (R453). -/
def State.streamOwner (s : State) (i : Nat) : Nat := if i < 2 then 0 else s.resOwner (i - 2)

/-- The owner of the register at `a` in row `r` (R529). -/
def State.owner (s : State) (r : RegRow) (a : Nat) : Nat :=
  match r.own with
  | .part0 | .everyone | .partEntry | .root | .perBit => 0
  | .res f => s.resOwner (f + r.idx1 a)
  | .ctxWord => (s.ctxOwner (r.idx1 a)).getD 0
  | .ring => (s.ctxOwner (r.idx1 a / 4)).getD 0
  | .session => s.fd (R.VCD_SES_STAT (r.idx1 a)) 20 6
  | .bank => s.fd (R.SPD_BANK_OWN (r.idx1 a)) 0 6
  | .slot => s.fd (R.LND_SLOT_OWN (r.idx1 a)) 0 6
  | .stream => s.streamOwner (r.idx1 a)
  | .output => s.resOwner (outputRes (r.idx1 a))

/-- The range `[a, a+n)` lies wholly within one allocation that `f` accepts. -/
def State.within (s : State) (f : Alloc → Bool) (a n : Nat) : Bool :=
  s.allocs.any (fun x => f x && decide (x.addr ≤ a) && decide (a + n ≤ x.addr + x.size))

/-- Wholly within the allocations of partition `p` (take stores are not allocations of a context, R85). -/
def State.inPart (s : State) (p a n : Nat) : Bool := s.within (fun x => x.part = p && x.slot.isNone) a n

/-- Wholly within an allocation of context `c`. -/
def State.inCtx (s : State) (c a n : Nat) : Bool := s.within (fun x => x.ctx = some c && x.slot.isNone) a n

/-! ### Violations -/

/-- A suppressed access by partition `p` is counted (R108) and recorded (R109). -/
def State.viol (s : State) (p kind ctx addr : Nat) : State :=
  let s := s.wr (R.CTX_VIOL_CNT p kind) (w32 (min 0xFFFFFFFF ((s.rd (R.CTX_VIOL_CNT p kind)).toNat + 1)))
  s.wrs [(R.CTX_VIOL_LAST p 0, w32 (kind + ctx % 4096 * 0x10000)), (R.CTX_VIOL_LAST p 1, w32 addr),
    (R.CTX_VIOL_LAST p 2, w32 (addr / 2 ^ 32 % 256)), (R.CTX_VIOL_LAST p 3, w32 s.short)]

/-! ### The common tag -/

/-- Tag kinds, Table 1-6. -/
def Kind.frame : Nat := 0
def Kind.stripe : Nat := 1
def Kind.stats : Nat := 2
def Kind.audio : Nat := 3
def Kind.stamp : Nat := 4
def Kind.event : Nat := 5
def Kind.snapshot : Nat := 6
def Kind.coder : Nat := 7
def Kind.scaler : Nat := 8

/-- The 24 bytes of a common tag (Table 1-6). `time` is device time in ns. -/
def tagBytes (time epoch ctx kind frame source flags : Nat) : List Byte :=
  leBytes 4 (time % 10 ^ 9) ++ leBytes 4 epoch ++
    leBytes 8 (time / 10 ^ 9 % 2 ^ 48 + ctx % 4096 * 2 ^ 48 + kind % 16 * 2 ^ 60) ++
    leBytes 8 (frame % 2 ^ 40 + source % 256 * 2 ^ 40 + flags % 65536 * 2 ^ 48)

/-- The tag of an item a boundary-bound block makes now (R40). -/
def State.tagNow (s : State) (ctx kind source : Nat) : List Byte :=
  tagBytes s.dev s.ep.epoch ctx kind s.ep.frame source s.unlockFlag

/-- The value of the setting at `a` that an item of epoch `e` is processed under (R33). -/
def State.cfg (s : State) (e a : Nat) : Word :=
  if e = s.ep.epoch then s.rd a
  else match s.ep.banks.find? (fun b => b.epoch = e) with
    | some b => tabGet regReset b.regs a
    | none => s.rd a

/-- A field of a setting under epoch `e`. -/
def State.cf (s : State) (e a lo n : Nat) : Nat := fld (s.cfg e a) lo n

/-- The owner of the resource at offset `o` of CTX_RES_OWN in epoch `e` (R261, R275). -/
def State.resOwnerAt (s : State) (e o : Nat) : Nat := s.cf e (R.CTX_RES_OWN (o / 4)) (8 * (o % 4)) 6

/-- Context `c` is owned by partition `p` in epoch `e`. -/
def State.ownsAt (s : State) (e p c : Nat) : Bool :=
  decide (s.cf e (R.CTX_ENT_OWN c) 8 2 ≠ 0) && decide (s.cf e (R.CTX_ENT_OWN c) 0 6 = p)

/-- The 40-bit address in a register pair (LO holds [31:12] or finer, HI [39:32]) under epoch `e`. -/
def State.cfAddr (s : State) (e lo hi : Nat) : Nat := (s.cfg e lo).toNat + s.cf e hi 0 8 * 2 ^ 32

end Sys2Proof.Machine
end

