-- ==== Sys2Proof/Machine/Events.lean ====
section
/-!
DEFINITION. Interrupt messages (R87, R123, R441), event records and queues (R111 to R117), faults and root causes
(R120 to R126), and the NV event log (R128, R129).
-/

set_option Elab.async false

namespace Sys2Proof.Machine

/-! ### MSI-X -/

/-- Bus Master Enable of function `fn`. -/
def State.bme (s : State) (fn : Nat) : Bool := tabGet (fun _ => false) s.mbx.bme fn

/-- Key of vector `vec` of function `fn`. -/
def vecKey (fn vec : Nat) : Nat := fn * 4096 + vec

/-- Vector `vec` of `fn` may send: neither it nor its function is masked, and BME is set (R441). -/
def State.vecOpen (s : State) (fn vec : Nat) : Bool :=
  s.bme fn && !tabGet (fun _ => true) s.mbx.fnMask fn && !tabGet (fun _ => true) s.mbx.vecMask (vecKey fn vec)

/-- A message on vector `vec` of `fn`: sent, or held with its pending bit set (R441). -/
def State.msix (s : State) (fn vec : Nat) : State :=
  if s.vecOpen fn vec then s.emit (.msix fn vec)
  else { s with mbx := { s.mbx with msixPend := tabSet (fun _ => false) s.mbx.msixPend (vecKey fn vec) true } }

/-- Held messages of function `fn` that may now go are sent (R441). -/
def State.msixFlush (s : State) (fn : Nat) : State :=
  (selIdx 2048 (fun v => tabGet (fun _ => false) s.mbx.msixPend (vecKey fn v))).foldl
    (fun s v =>
      if s.vecOpen fn v then
        { s with mbx := { s.mbx with msixPend := tabSet (fun _ => false) s.mbx.msixPend (vecKey fn v) false } }.emit
          (.msix fn v)
      else s) s

/-! ### Event queues -/

/-- The event queue of context `c`. -/
def State.evq (s : State) (c : Nat) : EvQueue := tabGet (fun _ => {}) s.evt.evq c

/-- The event queue of context `c` replaced. -/
def State.setEvq (s : State) (c : Nat) (q : EvQueue) : State :=
  { s with evt := { s.evt with evq := tabSet (fun _ => {}) s.evt.evq c q } }

/-- A 16-bit index difference. -/
def idxDiff (a b : Nat) : Nat := (a + 65536 - b % 65536) % 65536

/-- The ring of context `c` has no room but the reserved slot (R117). -/
def EvQueue.full (q : EvQueue) : Bool := decide (idxDiff q.prod q.cons = 2 ^ q.n - 1)

/-- A message for context `c` on its VECTOR, subject to EVQ_MOD (R87). -/
def State.ctxMessage (s : State) (c : Nat) : State :=
  let q := s.evq c
  let gap := s.fd (R.CTX_ENT_IRQ c) 16 16 * 100
  match q.lastMsg with
  | some t => if s.now < t + gap then s.setEvq c { q with held := true }
    else (s.setEvq c { q with lastMsg := some s.now, held := false }).msix ((s.ctxOwner c).getD 0)
      (s.fd (R.CTX_ENT_IRQ c) 0 11)
  | none => (s.setEvq c { q with lastMsg := some s.now, held := false }).msix ((s.ctxOwner c).getD 0)
      (s.fd (R.CTX_ENT_IRQ c) 0 11)

/-- An event was written for `c`: the pending bit (R87). Answers whether the bit rose. -/
def State.pendSet (s : State) (c : Nat) : Bool × State :=
  let q := s.evq c
  if s.bt (R.CTX_ENT_IRQ c) 11 then (!q.pend, s.setEvq c { q with pend := true, lastEv := some s.now })
  else (false, s)

/-- The sequence number of the next event of `src`, and the state that has taken it (R111). -/
def State.seqOf (s : State) (src : Nat) : Nat × State :=
  let n := tabGet (fun _ => 0) s.evt.seq src
  (n, { s with evt := { s.evt with seq := tabSet (fun _ => 0) s.evt.seq src ((n + 1) % 256) } })

/-- An event as raised: everything its record carries but SEQ (Table 4-1). -/
structure Ev where
  ctx : Nat
  code : Nat
  status : Nat
  src : Nat
  arg : Nat
  time : Nat
  epoch : Nat
  frame : Nat
  flags : Nat
deriving DecidableEq, Repr

/-- The order key of the event's record (R118). -/
def Ev.key (e : Ev) (seq : Nat) : EvKey := { time := e.time, rank := srcRank e.src, frame := e.frame, seq := seq }

/-- The record bytes of an event (Table 4-1). -/
def Ev.bytes (e : Ev) (seq : Nat) : List Byte :=
  tagBytes e.time e.epoch e.ctx Kind.event e.frame e.src e.flags ++ leBytes 2 e.code ++ leBytes 1 e.status ++
    leBytes 1 seq ++ leBytes 4 e.arg

/-- Signed difference of frame numbers: `a` is before `b`. -/
def frameBefore (a b : Nat) : Bool := decide ((a + 2 ^ 40 - b % 2 ^ 40) % 2 ^ 40 ≥ 2 ^ 39)

/-- The order of R118 among event records. -/
def EvKey.before (a b : EvKey) : Bool :=
  if a.time ≠ b.time then decide (a.time < b.time)
  else if a.rank ≠ b.rank then decide (a.rank < b.rank)
  else if a.frame ≠ b.frame then frameBefore a.frame b.frame
  else decide ((a.seq + 256 - b.seq % 256) % 256 ≥ 128)

/-- Records that go into the ring from index `i` on. -/
def State.putAt (s : State) (c i : Nat) : List (List Byte) → State
  | [] => s
  | b :: bs => (s.emit (.host ((s.ctxOwner c).getD 0) ((s.evq c).base + 32 * (i % 2 ^ (s.evq c).n)) b)).putAt c (i + 1) bs

/-- A record goes into the ring of `c`, in front of the unread records of the last 10 ns that order after it (R119), then
PROD advances (R113, R114). -/
def State.putRecord (s : State) (c : Nat) (k : EvKey) (bs : List Byte) : State :=
  let q := s.evq c
  let recent := (q.tail.take (idxDiff q.prod q.cons)).takeWhile (fun e => decide (s.now ≤ e.1 + 10))
  let after := recent.takeWhile (fun e => k.before e.2.1)
  let s := s.putAt c (q.prod + 65536 - after.length) (bs :: after.reverse.map (·.2.2))
  s.setEvq c { s.evq c with prod := (q.prod + 1) % 65536, tail := after ++ (s.now, k, bs) :: recent.drop after.length }

/-- The EVQ_LOST record, when records were lost and there is room: ARG is LOST, the tag is that of the first record not
written, and LOST returns to 0 (R117). -/
def State.flushLost (s : State) (c : Nat) : State :=
  let q := s.evq c
  if q.lost = 0 || q.full || q.n = 0 then s
  else
    let (n, s) := s.seqOf Src.EVT
    let t := ofBytes (q.lostTag.take 4) % 2 ^ 30 + ofBytes ((q.lostTag.drop 8).take 6) * 10 ^ 9
    let k : EvKey := { time := t, rank := srcRank Src.EVT, frame := ofBytes ((q.lostTag.drop 16).take 5), seq := n }
    let s := s.putRecord c k (q.lostTag ++ leBytes 2 1 ++ leBytes 1 St.OK ++ leBytes 1 n ++ leBytes 4 q.lost)
    let s := s.setEvq c { s.evq c with lost := 0, lostTag := [] }
    let (rose, s) := s.pendSet c
    if rose then s.ctxMessage c else s

/-- A record that is not written is counted in LOST (R117, R443). EVQ_LOST takes EPOCH, FRAME and FLAGS of the first such
record with its TIME (log entry 93). -/
def State.loseRecord (s : State) (e : Ev) : State :=
  let q := s.evq e.ctx
  s.setEvq e.ctx { q with lost := min 65535 (q.lost + 1)
                          lostTag := if q.lost = 0 then tagBytes e.time e.epoch e.ctx Kind.event e.frame Src.EVT e.flags
                            else q.lostTag }

/-- An event for a context without a ring, or for a FREE one, is discarded and counted (R116). -/
def State.noQueue (s : State) (p : Nat) : State := s.bump (R.EVT_NOQ_CNT p) 0 32 1

/-- An event is raised (R115): answers whether the pending bit rose, before any message. A discarded event takes a SEQ, and
one for a DRAINING context is not counted, ring or none (log entry 93). -/
def State.raiseCore (s : State) (e : Ev) : Bool × State :=
  let (n, s) := s.seqOf e.src
  match s.ctxOwner e.ctx with
  | none => (false, s.noQueue 0)
  | some p =>
    if s.draining e.ctx then (false, s)
    else if (s.evq e.ctx).n = 0 then (false, s.noQueue p)
    else if !s.bme p then (false, s.loseRecord e)
    else
      let s := s.flushLost e.ctx
      if (s.evq e.ctx).full then (false, s.loseRecord e)
      else (s.putRecord e.ctx (e.key n) (e.bytes n)).pendSet e.ctx

/-- An event is raised, with its message (R87). -/
def State.raiseEv (s : State) (e : Ev) : State :=
  let (rose, s) := s.raiseCore e
  if rose then s.ctxMessage e.ctx else s

/-- The event as an item made now (R40). -/
def State.evNow (s : State) (ctx code status src arg : Nat) : Ev :=
  { ctx := ctx, code := code, status := status, src := src, arg := arg % 2 ^ 32, time := s.dev, epoch := s.ep.epoch
    frame := s.ep.frame, flags := s.unlockFlag }

/-- An event made now. -/
def State.raise (s : State) (ctx code status src arg : Nat) : State := s.raiseEv (s.evNow ctx code status src arg)

/-- The event of a frame-bound item of frame `no` and epoch `e` (R40). Frames in flight are the sensor's, so SYNTH is 0. -/
def State.evOf (s : State) (e no ctx code status src arg : Nat) : Ev :=
  { s.evNow ctx code status src arg with
    epoch := e
    frame := no
    flags := if s.locked then 0 else Fl.TIME_UNLOCKED }

/-- An event of a frame-bound item. -/
def State.raiseOf (s : State) (e no ctx code status src arg : Nat) : State := s.raiseEv (s.evOf e no ctx code status src arg)

/-- An event of a resource of partition `p`, routed to a configured context: unless `p` owns the context (`own`) the event
is discarded and counted against `p` (R116, R261, R275, R282, R388). -/
def State.raiseIf (s : State) (own : Bool) (p : Nat) (e : Ev) : State :=
  if own then s.raiseEv e else ((s.seqOf e.src).2).noQueue p

/-- Such an event made now. -/
def State.raiseRes (s : State) (p ctx code status src arg : Nat) : State :=
  s.raiseIf (s.owns p ctx) p (s.evNow ctx code status src arg)

/-! ### The NV event log -/

/-- Tj in 1/16 °C. -/
def State.tj (s : State) : Int := sx 16 (s.fd R.THM_TJ 0 16)

/-- NV may be written: Tj lies in the NV write range, 0 to 95 °C (Table 19-2), and the device is not in P3 (Table 1-3). -/
def State.nvRange (s : State) : Bool := decide (0 ≤ s.tj) && decide (s.tj ≤ 95 * 16) && decide (s.fd R.AON_PWR_STAT 0 2 ≠ 3)

/-- First byte of the NV event log (Table 19-5). -/
def nvLogBase : Nat := 0x900000

/-- A 64-byte entry goes to the log, or is held in AON while Tj is outside the NV write range (R128, R129). -/
def State.logEntry (s : State) (bs : List Byte) : State :=
  if s.nvRange && s.evt.logHeld.isEmpty then
    let s := s.nvStore (nvLogBase + 64 * (s.evt.logIdx % 32768)) (bs.take 64)
    { s with evt := { s.evt with logIdx := s.evt.logIdx + 1 } }
  else if s.evt.logHeld.length < 64 then
    ({ s with evt := { s.evt with logHeld := s.evt.logHeld ++ [bs] } }).wrF R.EVT_NVLOG_STAT 0 16
      (s.evt.logHeld.length + 1)
  else s.bump R.EVT_NVLOG_STAT 16 16 1

/-- A record for the log, with NVLOG_EN set (R128). -/
def State.logRecord (s : State) (bs : List Byte) : State := if s.bt R.EVT_CTRL 16 then s.logEntry bs else s

/-- Held log entries are written in order once Tj is in range (R129). -/
def State.logFlush (s : State) : State :=
  if s.nvRange then
    let held := s.evt.logHeld
    let s := ({ s with evt := { s.evt with logHeld := [] } }).wrF R.EVT_NVLOG_STAT 0 16 0
    held.foldl (fun s b => s.logEntry b) s
  else s

/-! ### Faults and root causes -/

/-- Table 4-5. -/
def faultNum : FaultClass → Nat
  | .corrected => 0 | .item => 1 | .unit => 2 | .device => 3

/-- The 64 bytes of a root record (Table 4-6). -/
def Root.bytes (r : Root) : List Byte :=
  r.tag ++ leBytes 4 r.id ++ leBytes 2 r.code ++ leBytes 1 r.cls ++ leBytes 1 (if r.open_ then 1 else 2) ++
    leBytes 4 r.lastShort ++ leBytes 4 r.reports ++ leBytes 2 (min 0x1FFF r.affected) ++ leBytes 2 r.unit ++
    leBytes 4 r.detail ++ leBytes 8 r.partMask ++ leBytes 8 0

/-- The root record in entry `i`, if that entry was ever used. -/
def State.rootAt (s : State) (i : Nat) : Option Root := s.evt.roots.find? (fun r => r.entry = i)

/-- The record `r` replaces whatever its entry held. -/
def State.putRoot (s : State) (r : Root) : State :=
  { s with evt := { s.evt with roots := s.evt.roots.filter (fun x => x.entry ≠ r.entry) ++ [r] } }

/-- Open records, overflow record included. -/
def State.rootsOpen (s : State) : Nat := (s.evt.roots.filter (·.open_)).length

/-- EVT_ROOT_OPEN and EVT_ROOT_NEXT as they stand. -/
def State.rootRegs (s : State) : State := (s.wr R.EVT_ROOT_OPEN (w32 s.rootsOpen)).wr R.EVT_ROOT_NEXT (w32 s.evt.rootNext)

/-- The ROOT_ID after `n` (R121). -/
def rootSucc (n : Nat) : Nat := if n = 0xFFFFFFFE then 1 else n + 1

/-- An entry among 0 to 254 for a new record: the lowest never used, else the one whose record closed first (log
entry 93). -/
def State.rootEntry (s : State) : Option Nat :=
  match (List.range 255).find? (fun i => (s.rootAt i).isNone) with
  | some i => some i
  | none =>
    let cl := s.evt.roots.filter (fun r => !r.open_ && decide (r.entry < 255))
    (cl.foldl (fun (b : Option Root) r => match b with
      | none => some r
      | some x => if r.order < x.order then some r else b) none).map (·.entry)

/-- The log copy of a root record (R128). -/
def State.logRoot (s : State) (r : Root) : State := s.logRecord r.bytes

/-- A new root record in entry `i` (R121). -/
def State.openRoot (s : State) (i id src unit code cls detail : Nat) : State :=
  let r : Root := { entry := i, id := id, src := src, unit := unit, code := code, cls := cls, detail := detail
                    tag := s.tagNow 0 Kind.event src, open_ := true, order := s.evt.order
                    lastShort := s.short, lastMono := s.now, reports := 1, affected := 0, partMask := 0, marks := []
                    msgParts := [] }
  let s := { s with evt := { s.evt with order := s.evt.order + 1 } }
  let s := ((s.putRoot r).rootRegs).logRoot r
  s.raise 0 2 St.HW_FAULT src id

/-- The SECONDARY of root entry `i` for context `c`: at most once until a reset clears the mark (R122). Answers whether the
context's pending bit rose. One for a FREE context is discarded, and counted for part 0 (R116). -/
def State.secondary (s : State) (i c : Nat) : Bool × State :=
  match s.rootAt i with
  | none => (false, s)
  | some r =>
    if c = 0 || r.marks.contains c then (false, s)
    else match s.ctxOwner c with
      | none => s.raiseCore (s.evNow c 4 St.HW_FAULT r.src r.id)
      | some p =>
        let s := s.putRoot { r with marks := c :: r.marks, affected := r.affected + 1
                                    partMask := if r.partMask / 2 ^ p % 2 = 1 then r.partMask else r.partMask + 2 ^ p }
        s.raiseCore (s.evNow c 4 St.HW_FAULT r.src r.id)

/-- The message of a partition for root entry `i`, on the vector of context `c`: the first only (R123). -/
def State.rootMessage (s : State) (i c : Nat) : State :=
  match s.rootAt i, s.ctxOwner c with
  | some r, some p => if r.msgParts.contains p then s else (s.putRoot { r with msgParts := p :: r.msgParts }).ctxMessage c
  | _, _ => s

/-- The messages of the SECONDARY events of one cycle: `l` holds root entries and the contexts whose bit rose (R123). -/
def State.rootMessages (s : State) (l : List (Nat × Nat)) : State :=
  (l.insertionSort (fun a b => decide (a.2 ≤ b.2) = true)).foldl (fun s e => s.rootMessage e.1 e.2) s

/-- One report (R120, R121): the root entry it went to, `none` for a CORRECTED report. A report that matches keeps the
record's CLASS (log entry 93). -/
def State.report (s : State) (f : FaultRep) : Option Nat × State :=
  let src := f.src.toNat
  if f.cls = .corrected then (none, s.bump (R.EVT_CORR_CNT src) 0 32 1)
  else
    let cls := faultNum f.cls
    match s.evt.roots.find? (fun r => r.open_ && r.entry < 255 && decide (r.src = src) && decide (r.unit = f.unit.toNat)
        && decide (r.code = f.code.toNat)) with
    | some r =>
      (some r.entry, s.putRoot { r with reports := min 0xFFFFFFFF (r.reports + 1), lastShort := s.short
                                        lastMono := s.now })
    | none =>
      match s.rootEntry with
      | some i =>
        let id := s.evt.rootNext
        let s := { s with evt := { s.evt with rootNext := rootSucc id } }
        (some i, s.openRoot i id src f.unit.toNat f.code.toNat cls f.detail.toNat)
      | none =>
        match s.rootAt 255 with
        | some r =>
          if r.open_ then
            (some 255, s.putRoot { r with reports := min 0xFFFFFFFF (r.reports + 1), cls := max r.cls cls
                                          lastShort := s.short, lastMono := s.now })
          else (some 255, s.openRoot 255 0xFFFFFFFF Src.EVT 0 0 cls 0)
        | none => (some 255, s.openRoot 255 0xFFFFFFFF Src.EVT 0 0 cls 0)

/-- SECONDARY events of root entry `i` in the order given: the contexts whose pending bit rose. -/
def State.secondaries (s : State) (i : Nat) : List Nat → List (Nat × Nat) × State
  | [] => ([], s)
  | c :: cs =>
    let (b, s) := s.secondary i c
    let (l, s) := State.secondaries s i cs
    (if b then (i, c) :: l else l, s)

/-- One report with its SECONDARY events, lowest context first (R122), and for class UNIT the contexts the unit stops
serving until they are reset (Table 4-5). Answers what R123 needs of the cycle. -/
def State.faultCore (s : State) (f : FaultRep) : List (Nat × Nat) × State :=
  let (e, s) := s.report f
  let cs := (f.ctxs.map (·.val)).insertionSort (· ≤ ·)
  let (l, s) := match e with
    | some i => if i < 255 then s.secondaries i cs else ([], s)
    | none => ([], s)
  (l, if f.cls = .unit then
      { s with evt := { s.evt with stopped := s.evt.stopped ++ cs.map (fun c => (f.src.toNat, c)) } }
    else s)

/-- A single report, with its messages. -/
def State.fault (s : State) (f : FaultRep) : State :=
  let (l, s) := s.faultCore f
  s.rootMessages l

/-- A fault that a meaning itself meets, of class ITEM. -/
def State.faultItem (s : State) (src code unit detail : Nat) (ctxs : List (Fin 4096)) : State :=
  s.fault { src := BitVec.ofNat 8 src, unit := BitVec.ofNat 16 unit, code := BitVec.ofNat 16 code, cls := .item
            detail := w32 detail, ctxs := ctxs }

/-- The unit `src` serves context `c`: no fault of class UNIT stands against it. -/
def State.serves (s : State) (src c : Nat) : Bool := !s.evt.stopped.contains (src, c)

/-- The ROOT_ID of the open record of a fault, for HW_FAULT answers (R122). -/
def State.rootId (s : State) (src code unit : Nat) : Nat :=
  match s.evt.roots.find? (fun r => r.open_ && decide (r.src = src) && decide (r.unit = unit) && decide (r.code = code)) with
  | some r => r.id
  | none => 0xFFFFFFFF

/-- The record closes: STATE CLOSED, FAULT_CLOSED to ctx 0, the closing copy to the log (R124, R128). -/
def State.closeRoot (s : State) (r : Root) : State :=
  let r' := { r with open_ := false, order := s.evt.order }
  let s := { s with evt := { s.evt with order := s.evt.order + 1 } }
  (((s.putRoot r').rootRegs).logRoot r').raise 0 3 St.OK r.src r.id

/-- The contexts `cs` are reset: their delivered marks clear (R122), and units serve them again (Table 4-5). -/
def State.clearMarks (s : State) (cs : List Nat) : State :=
  { s with evt := { s.evt with
      roots := s.evt.roots.map (fun r => { r with marks := r.marks.filter (fun c => !cs.contains c) })
      stopped := s.evt.stopped.filter (fun e => !cs.contains e.2) } }

end Sys2Proof.Machine
end

