-- ==== Sys2Proof/Machine/DramPort.lean ====
section
/-!
DEFINITION. The ports of the memories (R328, R333): requests with their targets (R94, R96), what a port may reach (R319,
R334), collisions (R336), and stored errors as reads and part writes meet them (R327).
-/

set_option Elab.async false

namespace Sys2Proof.Machine

/-! ### Ports of DRAM (Table 12-2) -/

def Port.pscRd : Nat := 0
def Port.refRd : Nat := 1
def Port.refWr : Nat := 2
def Port.lndWr : Nat := 3
def Port.tapWr : Nat := 4
def Port.cplRd : Nat := 5
def Port.scWr : Nat := 6
def Port.monRd : Nat := 7
def Port.vcd : Nat := 8
def Port.hlk : Nat := 9
def Port.bkcJob : Nat := 10
def Port.mgmt : Nat := 11

/-- The target T in ns of a request on port `q` for context `ctx` (R94, R96, R328). -/
def State.target (s : State) (q ctx : Nat) : Nat :=
  if q < 4 then s.fd R.DMC_ING_TGT (8 * q) 8 * 10
  else if q = Port.tapWr then s.fd R.DMC_ING_TGT_TAP 0 8 * 10
  else if q = Port.mgmt then s.fd (R.PART_LAT_DEFAULT 0) 0 16 * 10
  else
    let t := s.fd (R.CTX_ENT_QOS ctx) 0 16
    (if t = 0 then s.fd (R.PART_LAT_DEFAULT ((s.ctxOwner ctx).getD 0)) 0 16 else t) * 10

/-- `n` bytes at `a` are requested on port `q` for context `ctx` (R94, R328). -/
def State.ask (s : State) (q ctx a n : Nat) : State :=
  { s with dmc := s.dmc.request (s.fd R.DMC_PAGE_IDLE 0 11) s.now q (s.target q ctx) (if q < 5 then 4096 + q else ctx) a n }

/-! ### Ports of the scratchpad (Table 12-3) -/

/-- Rank among the scratchpad's ports of the engine behind port `q` of DRAM. -/
def spdRank (q : Nat) : Nat := if q = Port.pscRd then 0 else if q = Port.mgmt then 1 else if q = Port.hlk then 2 else 3

/-- Index of the 8-byte scratchpad word at `a`, over all banks. -/
def spdWord (a : Nat) : Nat := (a - 0x4000000000) / 8

/-- Bank of a scratchpad address (R333). -/
def spdBank (a : Nat) : Nat := (a - 0x4000000000) / 0x80000

/-- A scratchpad port touches a word: answers whether that port receives BUSY, and whether a read of it is undefined
(R336). -/
def State.spdTouch (s : State) (rank : Nat) (write : Bool) (word : Nat) : Bool × Bool × State :=
  let acc := s.spdAcc.filter (fun e => e.1 = s.now)
  let hit := acc.filter (fun e => decide (e.2.1 = word) && (write || e.2.2.1) && decide (e.2.2.2 ≠ rank))
  let s := { s with spdAcc := (s.now, word, write, rank) :: acc }
  if hit.isEmpty then (false, false, s)
  else
    let other := (hit.map (fun e => e.2.2.2)).foldl max 0
    let s := s.bump R.SPD_COLL_CNT 0 32 1
    let s := s.wr R.SPD_COLL_LAST (w32 (word % 65536 + word / 65536 % 64 * 0x10000 + max rank other * 0x1000000))
    (decide (other ≤ rank), !write, s)

/-- Partition `p` may use the scratchpad bank of `a`: it owns it and the bank is OWNED, or its handover was written in this
very cycle (R334, R335). -/
def State.spdMay (s : State) (p a : Nat) : Bool :=
  let b := spdBank a
  decide (s.fd (R.SPD_BANK_OWN b) 0 6 = p) && (decide (s.fd (R.SPD_BANK_OWN b) 8 2 = 0) ||
    (decide (s.fd (R.SPD_BANK_OWN b) 8 2 = 1) && decide (tabGet (fun _ => 0) s.spdHo b = s.now + 1)))

/-! ### Errors (R327) -/

/-- An uncorrectable DRAM read of the unit at `a`: counted, recorded, DRAM_UE (R327). -/
def State.dramUe (s : State) (ctx a : Nat) : State :=
  let c := (dramPlace a).ch
  let s := ((s.bump (R.DMC_CH_UE c) 0 32 1).wr (R.DMC_CH_UE_ADDR_LO c) (w32 a)).wr (R.DMC_CH_UE_ADDR_HI c)
    (w32 (a / 2 ^ 32 % 256))
  s.faultItem Src.DMC 1 c (a / 64) [Fin.ofNat 4096 ctx]

/-- A corrected DRAM error of the unit at `a` is counted (R327, R120). -/
def State.dramCe (s : State) (a : Nat) : State :=
  (s.bump (R.DMC_CH_CE (dramPlace a).ch) 0 32 1).bump (R.EVT_CORR_CNT Src.DMC) 0 32 1

/-- Errors in the unit at `a` are found: by the check bits of a scratchpad word, and of DRAM under INLINE (Table 12-1). -/
def State.checked (s : State) (a : Nat) : Bool := decide (a < 0x8000000000) || decide (2 ≤ s.fd R.DMC_INFO 10 2)

/-- The units with a stored error that `n` bytes at `a` fall on. -/
def State.hurt (s : State) (a n : Nat) : List (Nat × Nat) :=
  s.dmc.err.filter (fun e => s.checked e.1 && decide (e.2 ≠ 0) && decide (e.1 < a + n) && decide (a < e.1 + eccUnit e.1))

/-- A read of `n` bytes at `a` is delivered with the poison mark (R327). -/
def State.poisoned (s : State) (a n : Nat) : Bool := (s.hurt a n).any (fun e => decide (2 ≤ e.2))

/-- What a read for context `ctx` makes of the error in a unit: corrected and counted, or uncorrectable (R327, Table
12-8). -/
def State.meet (s : State) (ctx : Nat) (e : Nat × Nat) : State :=
  if e.1 < 0x8000000000 then
    if e.2 = 1 then (s.bump R.SPD_ERR 0 16 1).bump (R.EVT_CORR_CNT Src.SPD) 0 32 1
    else (s.bump R.SPD_ERR 16 16 1).faultItem Src.SPD 1 (spdBank e.1) (spdWord e.1 % 65536) [Fin.ofNat 4096 ctx]
  else if e.2 = 1 then s.dramCe e.1
  else s.dramUe ctx e.1

/-- A read of `n` bytes at `a` for context `ctx` meets the errors stored there. -/
def State.meetAll (s : State) (ctx a n : Nat) : State := (s.hurt a n).foldl (fun s e => s.meet ctx e) s

/-- A write of part of a unit under INLINE reads it first (R327): a corrected error is counted and gone, an uncorrectable
one leaves the poison mark. -/
def State.mend (s : State) (ctx : Nat) (e : Nat × Nat) : State :=
  let s := s.meet ctx e
  { s with dmc := { s.dmc with err := tabSet (fun _ => 0) s.dmc.err e.1 (if e.2 = 1 then 0 else 3) } }

/-- A write for context `ctx`, with the read-modify-write that R327 asks for in DRAM. -/
def State.eccStore (s : State) (ctx a : Nat) (bs : List Byte) : State :=
  let part := (s.hurt a bs.length).filter (fun e => decide (0x8000000000 ≤ e.1) &&
    !(decide (a ≤ e.1) && decide (e.1 + 32 ≤ a + bs.length)))
  (part.foldl (fun s e => s.mend ctx e) s).store a bs

/-- A read of `n` bytes at `a` for context `ctx`, and what it meets. -/
def State.eccReads (s : State) (ctx a n : Nat) : List Byte × State := (s.bytes a n, s.meetAll ctx a n)

/-! ### Accesses of engines -/

/-- How many bytes of `n` at `a` the engine behind port `q` may access for context `ctx`; what it may not is suppressed and
counted against the context's partition: the firmware reservation (R319), a bank of another owner (R334), no memory at all
(R8). -/
def State.reach (s : State) (q ctx : Nat) (write : Bool) (a n : Nat) : Nat × State :=
  let p := (s.ctxOwner ctx).getD 0
  if n = 0 then (0, s)
  else match s.where_ a with
    | .spd =>
      if s.spdMay p a then (n, (s.spdTouch (spdRank q) write (spdWord a)).2.2) else (0, s.viol p Viol.bank ctx a)
    | .dram =>
      let m := min n (s.fwBase - a)
      let s := if m < n then s.viol p Viol.dram ctx (a + m) else s
      (m, s.ask q ctx a m)
    | .window => (0, s.viol p Viol.noWindow ctx a)
    | .nowhere => (0, s.viol p Viol.noWindow ctx a)

/-- An engine writes `bs` at `a` (R319, R327, R328). -/
def State.dmaPut (s : State) (q ctx a : Nat) (bs : List Byte) : State :=
  let (m, s) := s.reach q ctx true a bs.length
  if m = 0 then s else s.eccStore ctx a (bs.take m)

/-- An engine reads `n` bytes at `a`: the request and the errors it meets. What it receives is `State.bytes`, poisoned where
`State.poisoned` says so; a suppressed read returns zeros, which is what nothing but training rows holds. -/
def State.dmaGet (s : State) (q ctx a n : Nat) : State :=
  let (m, s) := s.reach q ctx false a n
  if m = 0 then s else s.meetAll ctx a m

/-- Several reads. -/
def State.dmaGets (s : State) (q ctx : Nat) (l : List (Nat × Nat)) : State :=
  l.foldl (fun s e => s.dmaGet q ctx e.1 e.2) s

end Sys2Proof.Machine
end

