-- ==== Sys2Proof/Machine/Timecode.lean ====
section
/-!
DEFINITION. Ticks of a rate on device time (R409, R420) and timecode labels (R412, SMPTE ST 12-1).
-/

set_option Elab.async false

namespace Sys2Proof.Machine

/-- Index of the first tick of NUM ÷ DEN Hz at or after `t` ns. -/
def tickIdx (num den : Nat) (t : Int) : Int := -((-(t * num)) / ((den * 10 ^ 9 : Nat) : Int))

/-- Time of tick `j`, rounded down. -/
def tickAt (num den : Nat) (j : Int) : Int := if num = 0 then 0 else j * ((den * 10 ^ 9 : Nat) : Int) / num

/-- NUM, DEN and frames of a label second for a TIM_TC_CFG rate code (Table 15-3). -/
def tcRate (code : Nat) : Nat × Nat × Nat :=
  match code with
  | 0 => (24, 1, 24) | 1 => (25, 1, 25) | 2 => (30, 1, 30) | 3 => (30000, 1001, 30) | 4 => (30000, 1001, 30)
  | _ => (24000, 1001, 24)

/-- Labels of one day; code 3 is drop-frame. -/
def tcDay (code : Nat) : Nat := if code = 3 then 2589408 else (tcRate code).2.2 * 86400

/-- Two BCD digits. -/
def bcd (n : Nat) : Nat := n / 10 % 10 * 16 + n % 10

/-- The number that two BCD digits spell; `none` for a digit above 9. -/
def unbcd (b : Nat) : Option Nat := if b % 16 ≤ 9 ∧ b / 16 ≤ 9 then some (b / 16 * 10 + b % 16) else none

/-- The label of frame `n` of the day, in the layout of TIM_TC_NOW. -/
def tcLabel (code n : Nat) : Nat :=
  let f := (tcRate code).2.2
  let m := if code = 3 then n + 18 * (n / 17982) + (if n % 17982 < 2 then 0 else 2 * ((n % 17982 - 2) / 1798)) else n
  bcd (m % f) + bcd (m / f % 60) * 2 ^ 8 + bcd (m / f / 60 % 60) * 2 ^ 16 + bcd (m / f / 3600 % 24) * 2 ^ 24

/-- The frame of the day that a label names; `none` when it names none. -/
def tcIndex (code : Nat) (w : Nat) : Option Nat :=
  let f := (tcRate code).2.2
  match unbcd (w % 256), unbcd (w / 256 % 256), unbcd (w / 65536 % 256), unbcd (w / 16777216 % 256) with
  | some ff, some ss, some mm, some hh =>
    if f ≤ ff || 60 ≤ ss || 60 ≤ mm || 24 ≤ hh then none
    else if code = 3 && decide (ff < 2) && decide (ss = 0) && decide (mm % 10 ≠ 0) then none
    else
      let n := ((hh * 60 + mm) * 60 + ss) * f + ff
      some (if code = 3 then n - 2 * (hh * 60 + mm - (hh * 60 + mm) / 10) else n)
  | _, _, _, _ => none

/-- The frame of the day at device time `t`. -/
def tcFrame (code : Nat) (base t : Int) : Int := (t - base) * (tcRate code).1 / (((tcRate code).2.1 * 10 ^ 9 : Nat) : Int)

/-- When frame `n`, counted from TC_BASE, starts: the first ns of it. -/
def tcStart (code : Nat) (base n : Int) : Int :=
  base - (-(n * (((tcRate code).2.1 * 10 ^ 9 : Nat) : Int))) / (tcRate code).1

end Sys2Proof.Machine
end

