-- ==== Sys2Proof/Machine/Access.lean ====
section
/-!
DEFINITION. Register and memory accesses of a partition through `REG_READ`, `REG_WRITE` and BAR2: what a register reads
(R6, R7, R8, R45, R529), the read side effects, the scratchpad ports (R333 to R336) and DRAM (R319).
-/

set_option Elab.async false

namespace Sys2Proof.Machine

/-- The state as a status image sees it. -/
def State.view (s : State) : View :=
  { regs := s.regs, tod := s.clk.tod, grade := s.straps.grade, roots := s.evt.roots, rootNext := s.evt.rootNext
    now := s.clk.now, sr := s.dmc.sr, chutes := s.chutes, encBusy := s.vcd.encBusy, decBusy := s.vcd.decBusy
    qos := s.ep.qos
    audEpochs := (selIdx 8 (fun p => decide (s.fd (R.AUD_P_STAT p) 0 3 ≠ 0))).map (fun p => (tabGet (fun _ => {}) s.aud p).epoch) }

/-- Words of a chute that its consumer can read: before a pending slot, written in an earlier cycle (R340, R342). -/
def Chute.readable (c : Chute) (now : Nat) : Nat :=
  let n := match c.pend with | some i => i | none => c.words.length
  ((c.words.take n).takeWhile (fun w => decide (w.at_ < now))).length

/-- CHT_STAT of chute `n` of depth 2^d (Table 12-10). -/
def chuteStat (c : Chute) (d now : Nat) : Word :=
  w32 (c.words.length % 8192 + b2n (decide (c.readable now = 0)) * 2 ^ 13 + b2n (decide (2 ^ d ≤ c.words.length)) * 2 ^ 14 +
    b2n c.pend.isSome * 2 ^ 15)

/-- Per mille of the last 100 ms that an engine was busy, rounded up (Table 13-10). -/
def busyPm (l : List (Nat × Option Nat)) (now : Nat) : Nat :=
  ceilDiv ((l.map (fun e => (match e.2 with | some t => t | none => now) - max e.1 (now - 10 ^ 8))).sum) (10 ^ 5)

/-- The counts of `key` for the frame just ended (R95, R331), saturating. -/
def qosWord (q : Tab QosRun) (key : Nat) : Word :=
  let x := tabGet (fun _ => {}) q key
  w32 (min 65535 x.u3 + min 65535 x.late * 65536)

/-- The longest latency of `key` in that frame, in units of 10 ns. -/
def latWord (q : Tab QosRun) (key : Nat) : Word := w32 (unitsUp (tabGet (fun _ => {}) q key).lat 10 16)

/-- CTX_ST_QOS or CTX_ST_LAT of context `c`; a FREE context made no request. -/
def viewQos (v : View) (c : Nat) (lat : Bool) : Word :=
  if fld (tabGet regReset v.regs (R.CTX_ENT_OWN c)) 8 2 = 0 then 0
  else if lat then latWord v.qos c else qosWord v.qos c

/-- The value a register shows in a status image: the stored word, but for the registers that follow the clock, the
straps, the root table, the DRAM channels and the chutes. -/
def viewVal (v : View) (a : Nat) : Word :=
  let ns := v.tod / 2 ^ 32
  if a = R.SYS_ID then w32 (0x72401000 + v.grade * 16)
  else if a = R.TIM_NOW_NS then w32 (ns % 10 ^ 9)
  else if a = R.TIM_NOW_SEC_LO then w32 (ns / 10 ^ 9)
  else if a = R.TIM_NOW_SEC_HI then w32 (ns / 10 ^ 9 / 2 ^ 32 % 2 ^ 16)
  else if a = R.TIM_NOW_FRAC then w32 (v.tod / 2 ^ 16 % 2 ^ 16)
  else if a = R.TIM_NOW_SHORT then w32 ns
  else if a = R.TIM_TC_NOW then
    let rd := fun a => (tabGet regReset v.regs a).toNat
    let code := rd R.TIM_TC_CFG % 8
    let base : Nat := rd R.TIM_TC_BASE_NS + (rd R.TIM_TC_BASE_SEC_LO + rd R.TIM_TC_BASE_SEC_HI * 2 ^ 32) * 10 ^ 9
    w32 (tcLabel code (tcFrame code base ns % (tcDay code : Nat)).toNat)
  else if a = R.EVT_ROOT_NEXT then w32 v.rootNext
  else if R.EVT_ROOT 0 0 ≤ a ∧ a < R.EVT_ROOT 256 0 then
    match v.roots.find? (fun r => r.entry = (a - R.EVT_ROOT 0 0) / 0x40) with
    | some r => wordAt r.bytes ((a - R.EVT_ROOT 0 0) % 0x40)
    | none => 0
  else if R.DMC_CH_STAT 0 ≤ a ∧ a < R.DMC_CH_STAT 32 ∧ (a - R.DMC_CH_STAT 0) % 0x20 = 0 then
    setFld (tabGet regReset v.regs a) 0 1 (b2n (tabGet (fun _ => false) v.sr ((a - R.DMC_CH_STAT 0) / 0x20)))
  else if R.CTX_ST_QOS 0 ≤ a ∧ a < R.CTX_ST_QOS 4096 ∧ a % 16 = 4 then viewQos v ((a - R.CTX_ST_QOS 0) / 16) false
  else if R.CTX_ST_LAT 0 ≤ a ∧ a < R.CTX_ST_LAT 4096 ∧ a % 16 = 8 then viewQos v ((a - R.CTX_ST_LAT 0) / 16) true
  else if R.DMC_PORT_STAT 0 ≤ a ∧ a < R.DMC_PORT_STAT 5 ∧ a % 16 = 0 then qosWord v.qos (4096 + (a - R.DMC_PORT_STAT 0) / 16)
  else if R.DMC_PORT_LAT 0 ≤ a ∧ a < R.DMC_PORT_LAT 5 ∧ a % 16 = 4 then latWord v.qos (4096 + (a - R.DMC_PORT_LAT 0) / 16)
  else if a = R.VCD_ENC_BUSY then w32 (busyPm v.encBusy v.now)
  else if a = R.VCD_DEC_BUSY then w32 (busyPm v.decBusy v.now)
  else if R.CHT_STAT 0 ≤ a ∧ a < R.CHT_STAT 128 ∧ (a - R.CHT_STAT 0) % 0x10 = 0 then
    let n := (a - R.CHT_STAT 0) / 0x10
    chuteStat (tabGet (fun _ => {}) v.chutes n) (fld (tabGet regReset v.regs (R.CHT_CFG n)) 0 4) v.now
  else tabGet regReset v.regs a

/-- What the register at `a` reads now. -/
def State.regVal (s : State) (a : Nat) : Word := viewVal s.view a

/-- How a partition may read a register (R529, R83, R126, R346). -/
inductive May where
  | own (mask : Nat) | look (mask : Nat) | no
deriving DecidableEq, Repr

/-- The GPIO bits that partition `p` owns. -/
def State.gpioMask (s : State) (p : Nat) : Nat := maskOf 32 (fun i => decide (s.resOwner (0x24 + i) = p))

/-- What partition `p` may do with the register at `a` of row `r`. -/
def State.mayRead (s : State) (v : View) (p : Nat) (r : RegRow) (a : Nat) : May :=
  match r.own with
  | .everyone => .look 0xFFFFFFFF
  | .partEntry => if p = 0 then .own 0xFFFFFFFF else if r.idx1 a = p then .look 0xFFFFFFFF else .no
  | .root =>
    if p = 0 then .own 0xFFFFFFFF
    else match v.roots.find? (fun x => x.entry = r.idx1 a) with
      | some x => if x.partMask / 2 ^ p % 2 = 1 then .look 0xFFFFFFFF else .no
      | none => .no
  | .perBit => if p = 0 then .look 0xFFFFFFFF else if s.gpioMask p = 0 then .no else .own (s.gpioMask p)
  | _ => if s.owner r a = p then .own 0xFFFFFFFF else if p = 0 then .look 0xFFFFFFFF else .no

/-- A read of 32 bits at `a` by partition `p`, charged to context `ctx`: the value, whether a scratchpad port answered
BUSY, and the state after it. -/
def State.readAt (s : State) (p ctx a : Nat) : Word × Bool × State :=
  match s.where_ a with
  | .nowhere => (0, false, s.viol p Viol.noWindow ctx a)
  | .spd =>
    if s.spdMay p a then
      let (busy, undef, s) := s.spdTouch 4 false (spdWord a)
      if undef then
        let (v, s) := s.fresh
        (w32 v, busy, s)
      else
        let (bs, s) := s.eccReads ctx a 4
        (w32 (ofBytes bs), busy, s)
    else (0, false, s.viol p Viol.bank ctx a)
  | .dram =>
    if a < s.fwBase && s.inPart p a 4 then
      let (bs, s) := (s.ask Port.hlk ctx a 4).eccReads ctx a 4
      (w32 (ofBytes bs), false, s)
    else (0, false, s.viol p Viol.dram ctx a)
  | .window =>
    if a / 0x100000000 = 0x10 then (0, false, s.viol p Viol.reg ctx a)
    else
      match regRow a with
      | none => (0, false, s)
      | some r =>
        match s.mayRead s.view p r a with
        | .no => (0, false, s.viol p Viol.reg ctx a)
        | .look m => (if r.ty = .wo then 0 else s.regVal a &&& w32 m, false, s)
        | .own m =>
          if r.ty = .wo then (0, false, s)
          else if r.ty = .rc then
            let (v, s) := s.readCount a
            (v, false, s)
          else (s.regVal a &&& w32 m, false, s)

/-- `n` consecutive reads from `a`. -/
def State.readRun (s : State) (p ctx a : Nat) : Nat → List Word × Bool × State
  | 0 => ([], false, s)
  | n + 1 =>
    let (v, b, s) := s.readAt p ctx a
    let (vs, b', s) := State.readRun s p ctx (a + 4) n
    (v :: vs, b || b', s)

/-- A value a partition may see in a status image: zero where it may not read (Table 2-15, `STATUS_SNAPSHOT`). -/
def State.imageVal (s : State) (v : View) (p : Nat) (r : RegRow) (a : Nat) : Word :=
  match s.mayRead v p r a with
  | .no => 0
  | .look m => viewVal v a &&& w32 m
  | .own m => viewVal v a &&& w32 m

/-- The addresses of a row's registers, in ascending order of its indices. -/
def RegRow.addrs (r : RegRow) : List Nat :=
  (List.range r.n1).flatMap (fun i => (List.range r.n2).map (fun j => r.base + r.s1 * i + r.s2 * j))

/-- The status registers of a block, RO and RC, in the order of its table (log entry 8). -/
def statusRows (src : Nat) : List RegRow := (blockRows src).filter (fun r => r.ty = .ro || r.ty = .rc)

/-- The image of block `src` for partition `p`. -/
def State.image (s : State) (v : View) (p src : Nat) : List Word :=
  (statusRows src).flatMap (fun r => r.addrs.map (fun a => s.imageVal v p r a))

/-- The value a plain register holds after a write: the defined bits only (R6), W1C bits cleared, RO bits kept. -/
def plainValue (r : RegRow) (a : Nat) (old new : Word) : Word :=
  match r.ty with
  | .rw | .rws => new &&& w32 (regMask a)
  | .w1c => old &&& ~~~new
  | .ro | .rc | .wo => old

/-- Partition `p` owns the register for writing: its owner, or part 0 for a bank's handover register (R346); a GPIO
register is written by anyone who owns one of its bits. -/
def State.mayWrite (s : State) (p : Nat) (r : RegRow) (a : Nat) : Bool :=
  match r.own with
  | .everyone => p = 0
  | .bank => decide (s.owner r a = p) || p = 0
  | .perBit => decide (s.gpioMask p ≠ 0)
  | _ => decide (s.owner r a = p)

end Sys2Proof.Machine
end

