-- ==== Sys2Proof/Machine/CheckBase.lean ====
section
/-!
DEFINITION. The resulting configuration a commit is validated against (R20): the active epoch overlaid by queued commits
and by the set itself; and the checks of the architecture, context, event, lane, link, correction and coder chapters.
A check answers the first refusal: the REJ_CAUSE register it sets (0 where its chapter has none) and the cause.
-/

set_option Elab.async false

namespace Sys2Proof.Machine

/-- Staged entries, the latest first. -/
abbrev Over := List (Nat × Word)

/-- The value of `a` in the resulting configuration. -/
def State.ov (s : State) (es : Over) (a : Nat) : Word :=
  match es.find? (fun e => e.1 = a) with
  | some e => e.2
  | none => s.rd a

/-- A field of the resulting configuration. -/
def State.of (s : State) (es : Over) (a lo n : Nat) : Nat := fld (s.ov es a) lo n

/-- A bit of the resulting configuration. -/
def State.ob (s : State) (es : Over) (a i : Nat) : Bool := bit (s.ov es a) i

/-- A 40-bit address from a LO and HI register. -/
def State.oAddr (s : State) (es : Over) (lo hi : Nat) : Nat := (s.ov es lo).toNat + s.of es hi 0 8 * 2 ^ 32

/-- The first condition that holds, with its register and cause. -/
def refuse1 (reg : Nat) (l : List (Bool × Nat)) : Option (Nat × Nat) :=
  (l.find? (·.1)).map (fun e => (reg, e.2))

/-- The entries write an address in the range. -/
def writes (es : Over) (lo hi : Nat) : Bool := es.any (fun e => decide (lo ≤ e.1) && decide (e.1 < hi))

/-! ### Geometry of the resulting configuration -/

def State.oWidth (s : State) (es : Over) : Nat := 32 * s.of es R.SLK_FRAME_CFG 0 11
def State.oHeight (s : State) (es : Over) : Nat := s.of es R.SLK_FRAME_CFG 12 16
def State.oDepth (s : State) (es : Over) : Nat := 10 + 2 * s.of es R.SLK_FRAME_CFG 28 2
def State.oS (s : State) (es : Over) : Nat := s.of es R.SLK_STRIPE_COUNT 0 6
def State.oRows (s : State) (es : Over) (i : Nat) : Nat := s.of es (R.SLK_STRIPE_CFG i) 0 16
def State.oGroup (s : State) (es : Over) (i : Nat) : Nat := s.of es (R.SLK_STRIPE_CFG i) 16 6
def State.oPeriod (s : State) (es : Over) : Nat := (s.ov es R.SLK_PERIOD_MIN).toNat

/-- Line rates of Table 5-2 in Mb/s for SENSOR; 0 for a code of another function or a reserved one. -/
def laneRate (code : Nat) : Nat :=
  match code with
  | 0 => 10000 | 1 => 12500 | 2 => 16000 | 3 => 20000 | 4 => 25000 | 5 => 28000 | 6 => 32000 | _ => 0

/-- The quads whose function is SENSOR. -/
def State.oSensorQuads (s : State) (es : Over) : List Nat := selIdx 16 (fun q => decide (s.of es (R.LNA_QUAD_CFG q) 0 2 = 1))

/-- The physical lanes enabled in SENSOR quads. -/
def State.oSensorLanes (s : State) (es : Over) : List Nat :=
  selIdx 64 (fun n => (s.oSensorQuads es).contains (n / 4) && s.ob es (R.LNA_LANE_CTRL n) 0)

/-- The logical lanes of a ROLE in the lane map. -/
def State.oLanes (s : State) (es : Over) (role : Nat) : List Nat :=
  selIdx 64 (fun n => decide (s.of es (R.SLK_LANE_MAP n) 12 2 = role))

/-- The data lanes of group `g`. -/
def State.oGroupLanes (s : State) (es : Over) (g : Nat) : List Nat :=
  (s.oLanes es 1).filter (fun n => decide (s.of es (R.SLK_LANE_MAP n) 0 6 = g))

/-- Blocks per row of the group capacity check (R170). -/
def rowBlocks (cells depth : Nat) : Nat :=
  let k := ceilDiv (cells * 4 * depth) 65504
  k * ceilDiv (ceilDiv cells k * 4 * depth + 20) 32

/-- The sensor link is started: not STOPPED. -/
def State.linkUp (s : State) : Bool := decide (s.fd R.SLK_LINK_STAT 0 2 ≠ 0)

/-! ### Contexts, partitions, quotas (R81, R84, R91, R98) -/

/-- Contexts with a word of their own in the register file or in the entries; every other context holds factory words. -/
def State.ctxTouched (s : State) (es : Over) : List Nat :=
  (((es ++ s.regs).filter (fun e => decide (R.CTX_ENT_OWN 0 ≤ e.1) && decide (e.1 < R.CTX_ENT_OWN 4096))).map
    (fun e => (e.1 - R.CTX_ENT_OWN 0) / 0x10)).dedup

/-- Partitions with a word of their own in the register file or in the entries. -/
def State.partTouched (s : State) (es : Over) : List Nat :=
  (((es ++ s.regs).filter (fun e => decide (R.PART_CTRL 0 ≤ e.1) && decide (e.1 < R.PART_CTRL 64))).map
    (fun e => (e.1 - R.PART_CTRL 0) / 0x40)).dedup

/-- MiB that partition `p` holds, rounded up for the check only in whole bytes (R530). -/
def State.heldPart (s : State) (p : Nat) : Nat := ((s.allocs.filter (fun x => x.part = p)).map (·.size)).sum

/-- Bytes that context `c` holds. -/
def State.heldCtx (s : State) (c : Nat) : Nat := ((s.allocs.filter (fun x => x.ctx = some c)).map (·.size)).sum

/-- Partition `p` is enabled in the resulting configuration. -/
def State.oEnabled (s : State) (es : Over) (p : Nat) : Bool := p = 0 || s.ob es (R.PART_CTRL p) 0

/-- The context checks of R81 and R84 for the commit's own entries `own`. -/
def State.chkCtx (s : State) (es own : Over) : Option (Nat × Nat) :=
  let owned := fun c => s.ob es (R.CTX_ENT_OWN c) 6
  let vec := fun p => s.of es (R.PART_CTRL p) 8 12
  refuse1 0 [
    (own.any (fun e => decide (e.1 = R.CTX_ENT_OWN 0) && decide (fld e.2 0 7 ≠ 0x40)), 0),
    (own.any (fun e => decide (R.CTX_ENT_OWN 0 ≤ e.1) && decide (e.1 < R.CTX_ENT_OWN 4096) && decide (e.1 % 16 = 0) &&
      bit e.2 6 && (match s.ctxOwner ((e.1 - R.CTX_ENT_OWN 0) / 16) with
        | some p => !(s.bt e.1 6) || decide (p ≠ fld e.2 0 6)
        | none => false)), 0),
    ((s.ctxTouched es).any (fun c => owned c && (
      decide (s.of es (R.PART_CTRL (s.of es (R.CTX_ENT_OWN c) 0 6)) 4 3 < s.of es (R.CTX_ENT_IRQ c) 12 3) ||
      decide (s.of es (R.CTX_ENT_IRQ c) 0 11 < 1) ||
      decide (vec (s.of es (R.CTX_ENT_OWN c) 0 6) - 1 < s.of es (R.CTX_ENT_IRQ c) 0 11) ||
      (decide (s.of es (R.CTX_ENT_QOS c) 0 16 ≠ 0) && decide (s.of es (R.CTX_ENT_QOS c) 0 16 < 50)))), 0),
    ((s.partTouched es).any (fun p => decide (vec p < 2) || decide ((if p = 0 then 2048 else 256) < vec p)), 0),
    ((s.partTouched es).any (fun p => decide (s.of es (R.PART_LAT_DEFAULT p) 0 16 < 50)), 0),
    ((s.partTouched es).any (fun p => decide (16384 < s.of es (R.PART_STAGE_QUOTA p) 0 15)), 0),
    (decide ((s.dramMiB - 1024) < (((List.range 64).filter (s.oEnabled es)).map
      (fun p => s.of es (R.PART_DRAM_QUOTA p) 0 18)).sum), 0),
    (own.any (fun e => (selIdx 64 (fun p => decide (e.1 = R.PART_DRAM_QUOTA p))).any
      (fun p => decide (fld e.2 0 18 * 0x100000 < s.heldPart p))), 0),
    (own.any (fun e => decide (R.CTX_ENT_OWN 0 ≤ e.1) && decide (e.1 < R.CTX_ENT_OWN 4096) && decide (e.1 % 16 = 12) &&
      decide (fld e.2 0 18 ≠ 0) && decide (fld e.2 0 18 * 0x100000 < s.heldCtx ((e.1 - R.CTX_ENT_OWN 0) / 16))), 0),
    (own.any (fun e => (selIdx 64 (fun p => decide (e.1 = R.PART_POOL_QUOTA p))).any
      (fun p => [0, 8, 16].any (fun i => decide (fld e.2 i 8 < s.fd (R.PART_POOL_USED p) i 8)))), 0),
    (own.any (fun e => decide (R.CTX_RES_OWN 0 ≤ e.1) && decide (e.1 ≤ R.CTX_RES_OWN 16) &&
      [0, 8, 16, 24].any (fun i => !s.oEnabled es (fld e.2 i 6))), 0)]

/-- EVT_CTRL (R127). -/
def State.chkEvt (s : State) (es : Over) : Option (Nat × Nat) :=
  let q := s.of es R.EVT_CTRL 0 10
  refuse1 0 [(decide (q = 0) || decide (1000 < q), 0)]

/-! ### Lanes (R131, R133, R156, R523) -/

/-- Table 5-1: quads Q0–Q13 take OFF and SENSOR, Q14 also ETH, Q15 also SDI. -/
def quadFuncOk (q f : Nat) : Bool := decide (f ≤ 1) || (decide (f = 3) && decide (q = 14)) || (decide (f = 2) && decide (q = 15))

/-- Table 5-2: the rate code fits the function. -/
def quadRateOk (f r : Nat) : Bool :=
  if f = 1 then decide (r ≤ 6) else if f = 3 then decide (r = 0xE) else if f = 2 then decide (r = 0xF) else true

/-- The lane checks. -/
def State.chkLna (s : State) (es own : Over) : Option (Nat × Nat) :=
  let f := fun q => s.of es (R.LNA_QUAD_CFG q) 0 2
  let r := fun q => s.of es (R.LNA_QUAD_CFG q) 4 4
  let sq := s.oSensorQuads es
  let ai := s.of es R.LNA_ALIGN_CFG 0 15
  let wasSensor := fun q => decide (s.fd (R.LNA_QUAD_CFG q) 0 2 = 1)
  refuse1 0 [
    ((List.range 16).any (fun q => !quadFuncOk q (f q)), 0),
    ((List.range 16).any (fun q => !quadRateOk (f q) (r q)), 0),
    (sq.any (fun q => decide (r q ≠ r (sq.headD 0))), 0),
    (!s.straps.refSel && sq.any (fun q => decide (2 < r q)), 0),
    (decide (52 < (s.oSensorLanes es).length), 0),
    (!sq.isEmpty && !s.ob es (R.LNA_LANE_CTRL (4 * sq.headD 0)) 0, 0),
    (s.linkUp && own.any (fun e => (List.range 16).any (fun q => (wasSensor q || decide (f q = 1)) &&
      ((decide (e.1 = R.LNA_QUAD_CFG q) && decide (e.2 ≠ s.rd e.1)) ||
       (List.range 4).any (fun k => decide (e.1 = R.LNA_LANE_CTRL (4 * q + k)) && decide (bit e.2 0 ≠ s.bt e.1 0))))), 0),
    (decide (ai < 1024) || decide (16384 < ai), 0),
    ((List.range 64).any (fun n => decide (s.of es (R.LNA_LANE_CTRL n) 1 2 = 3)), 0)]

/-! ### Sensor link (R5, R11, R13, R159, R170, R184) -/

/-- The positions of a group are 0 to L − 1, each once. -/
def posOk (ps : List Nat) : Bool := (List.range ps.length).all (fun i => ps.contains i)

/-- A group's frame fits in PERIOD_MIN (R170). -/
def State.groupFits (s : State) (es : Over) (g : Nat) : Bool :=
  let blocks := 3 + (((List.range (s.oS es)).filter (fun i => s.oGroup es i = g)).map
    (fun i => s.oRows es i * rowBlocks (s.oWidth es / 32) (s.oDepth es))).sum
  let ai := s.of es R.LNA_ALIGN_CFG 0 15
  let rate := laneRate (s.of es (R.LNA_QUAD_CFG ((s.oSensorQuads es).headD 0)) 4 4)
  decide (blocks * 258 * ai * 1000 ≤ (s.oGroupLanes es g).length * rate * (ai - 1) * s.oPeriod es)

/-- The link checks. The factory geometry, 0 × 0 in one stripe of no rows, stands for no sensor and is not checked (log
entry 14). -/
def State.chkSlk (s : State) (es own : Over) : Option (Nat × Nat) :=
  let w := s.oWidth es
  let h := s.oHeight es
  let n := s.oS es
  let used := ((List.range n).map (s.oGroup es)).dedup
  let data := s.oLanes es 1
  let sensor := decide (s.ov es R.SLK_FRAME_CFG &&& 0x0FFFFFFF#32 ≠ 0) || decide (n ≠ 1) || decide (s.oRows es 0 ≠ 0) ||
    decide (s.oGroup es 0 ≠ 0)
  let groups := (data.map (fun l => s.of es (R.SLK_LANE_MAP l) 0 6)).dedup
  refuse1 R.SLK_REJ_CAUSE [
    (sensor && decide (120 * s.oPeriod es < w * h), 1),
    (sensor && used.any (fun g => !s.groupFits es g), 2),
    (sensor && used.any (fun g => (s.oGroupLanes es g).isEmpty), 3),
    (groups.any (fun g => decide (47 < g) || !posOk ((s.oGroupLanes es g).map (fun l => s.of es (R.SLK_LANE_MAP l) 6 6))), 3),
    (decide (48 < data.length), 3),
    (decide (4 < (s.oLanes es 2).length), 3),
    (!(s.oLanes es 3).isEmpty, 3),
    (decide ((s.oSensorLanes es).length < data.length + (s.oLanes es 2).length), 3),
    (s.linkUp && own.any (fun e => decide (e.2 ≠ s.rd e.1) && (decide (e.1 = R.SLK_STRIPE_COUNT) ||
      decide (e.1 = R.SLK_FRAME_CFG) || (decide (R.SLK_STRIPE_CFG 0 ≤ e.1) && decide (e.1 < R.SLK_STRIPE_CFG 48)) ||
      (decide (R.SLK_LANE_MAP 0 ≤ e.1) && decide (e.1 < R.SLK_LANE_MAP 64)))), 3),
    (sensor && (decide (w = 0) || decide (h < 2) || decide (h % 2 = 1) || decide (65534 < h)), 4),
    (sensor && (decide (n < 1) || decide (48 < n)), 4),
    (sensor && (List.range n).any (fun i => decide (s.oRows es i = 0) || decide (s.oRows es i % 2 = 1)), 4),
    (sensor && decide (((List.range n).map (s.oRows es)).sum ≠ h), 4),
    (decide (s.oPeriod es < 1000), 4),
    (decide (s.of es R.SLK_LINK_CFG 0 10 < 1) || decide (1000 < s.of es R.SLK_LINK_CFG 0 10) ||
      decide (s.of es R.SLK_LINK_CFG 16 8 < 1), 4),
    (decide (s.of es R.SLK_BC_CFG 0 16 < 10) || decide (10000 < s.of es R.SLK_BC_CFG 0 16), 4)]

/-! ### Photosite correction (R200, R202, R203) -/

/-- Twice-eighth bytes a sample of the dark and gain planes: 8 × (bd + bg). -/
def planeEighths (dark gain : Nat) : Nat :=
  (if dark = 1 then 8 else if dark = 2 then 16 else 0) + (if gain = 1 then 1 else if gain = 2 then 16 else 0)

/-- COUNT and FIRST of a list header as memory holds them (R191), and whether its reserved fields are 0. -/
def State.sparseHeader (s : State) (a : Nat) : List Nat × Bool :=
  (s.num a 4 :: (List.range 48).map (fun i => s.num (a + 8 + 4 * i) 4),
   decide (s.num (a + 4) 4 = 0) && (s.bytes (a + 0xC8) 56).all (· = 0))

/-- The sparse list's base in the resulting configuration. -/
def State.oSparse (s : State) (es : Over) : Nat := s.oAddr es R.PSC_SPARSE_ADDR_LO R.PSC_SPARSE_ADDR_HI

/-- 8 × D × PERIOD_MIN of R200: the DRAM demand of PSC in bytes per frame, times 8. -/
def State.pscDemand8 (s : State) (es : Over) (count : Nat) : Nat :=
  if s.ob es R.PSC_CFG 0 then 0
  else s.oWidth es * s.oHeight es * planeEighths (s.of es R.PSC_DARK_CFG 0 2) (s.of es R.PSC_GAIN_CFG 0 2) +
    (if s.ob es R.PSC_SPARSE_CFG 0 && !s.ob es R.PSC_SPARSE_CFG 1 then count * 64 else 0)

/-- The bytes a plane covers (Table 7-5). -/
def State.planeBytes (s : State) (es : Over) (cellBytes : Nat) : Nat :=
  s.of es R.PSC_PLANE_PITCH 0 11 * (s.of es R.PSC_PLANE_ORIGIN 16 15 + s.oHeight es / 2) * cellBytes

/-- Every scratchpad bank of a range belongs to part 0. -/
def State.spdOwned (s : State) (a n : Nat) : Bool :=
  decide (0x4000000000 ≤ a) && decide (a + n ≤ 0x4002000000) &&
    (List.range 64).all (fun b => !(decide (0x4000000000 + b * 0x80000 < a + n) && decide (a < 0x4000000000 + (b + 1) * 0x80000))
      || decide (s.fd (R.SPD_BANK_OWN b) 0 6 = 0))

/-- The correction checks; `hdr` is the sparse header read for this commit, with its reserved fields' test. -/
def State.chkPsc (s : State) (es : Over) (hdr : List Nat × Bool) : Option (Nat × Nat) :=
  let count := nth hdr.1 0
  let n := s.oS es
  let first := fun i => nth hdr.1 (1 + i)
  let sp := s.ob es R.PSC_SPARSE_CFG 0
  let spd := s.ob es R.PSC_SPARSE_CFG 1
  let dark := s.of es R.PSC_DARK_CFG 0 2
  let gain := s.of es R.PSC_GAIN_CFG 0 2
  let dA := s.oAddr es R.PSC_DARK_ADDR_LO R.PSC_DARK_ADDR_HI
  let gA := s.oAddr es R.PSC_GAIN_ADDR_LO R.PSC_GAIN_ADDR_HI
  let lA := s.oSparse es
  let cellB := fun f => if f = 2 then 128 else if f = 1 then 64 else 0
  let gcellB := fun f => if f = 2 then 128 else if f = 1 then 8 else 0
  if s.ob es R.PSC_CFG 0 then none
  else refuse1 R.PSC_REJ_CAUSE [
    (decide (120 * 8 * s.oPeriod es < s.pscDemand8 es count), 1),
    (decide (1572864 < s.oWidth es * n), 2),
    (decide (dark = 3) || decide (gain = 3) || decide (8 < s.of es R.PSC_DARK_CFG 4 4), 3),
    (decide (dark ≠ 0) && (decide (dA % 4096 ≠ 0) || !s.inPart 0 dA (s.planeBytes es (cellB dark))), 3),
    (decide (gain ≠ 0) && (decide (gA % 4096 ≠ 0) || !s.inPart 0 gA (s.planeBytes es (gcellB gain))), 3),
    (sp && (decide (lA % 4096 ≠ 0) || (if spd then !s.spdOwned lA (256 + 8 * count) else !s.inPart 0 lA (256 + 8 * count))), 3),
    (sp && (decide (8388608 < count) || decide (first 0 ≠ 0) || !hdr.2 ||
      (List.range n).any (fun i => decide (count < first i) || (decide (0 < i) && decide (first i < first (i - 1))))), 4),
    (decide (s.of es R.PSC_PLANE_PITCH 0 11 < s.of es R.PSC_PLANE_ORIGIN 0 11 + s.of es R.SLK_FRAME_CFG 0 11), 5)]

/-! ### Bucking coder (R208, R209, R222, R223) -/

/-- Bytes per cell, C, of a budget code (Table 8-1). -/
def cellBytes (code : Nat) : Nat :=
  match code with
  | 0 => 56 | 1 => 40 | 2 => 28 | 3 => 20 | 4 => 16 | _ => 0

/-- Coded bytes of a frame (R209). -/
def State.oFrameBytes (s : State) (es : Over) : Nat :=
  if s.ob es R.BKC_CFG 0 then 64 * s.oS es + s.oWidth es * s.oHeight es / 64 * cellBytes (s.of es R.BKC_CFG 1 3) else 0

/-- P of R215: the coded frame rounded up to 4 KiB. -/
def round4K (n : Nat) : Nat := (n + 4095) / 4096 * 4096

/-- The coder checks. -/
def State.chkBkc (s : State) (es : Over) : Option (Nat × Nat) :=
  let a := s.oAddr es R.BKC_REF_ADDR_LO R.BKC_REF_ADDR_HI
  if !s.ob es R.BKC_CFG 0 then none
  else refuse1 R.BKC_REJ_CAUSE [
    (decide (3 < s.of es R.BKC_CFG 4 3), 1),
    (decide (4 < s.of es R.BKC_CFG 1 3), 2),
    (s.ob es R.BKC_CFG 7 && (decide (a % 4096 ≠ 0) || !s.inPart 0 a (2 * round4K (s.oFrameBytes es))), 3)]

/-! ### Host link (R452, R458) -/

/-- The host-link checks. -/
def State.chkHlk (s : State) (es : Over) : Option (Nat × Nat) :=
  let sz := s.of es R.HLK_STAGE_SIZE 0 13
  let a := s.oAddr es R.HLK_STAGE_ADDR_LO R.HLK_STAGE_ADDR_HI
  let en := fun i => s.ob es (R.HLK_STREAM_CFG i) 0
  let ring := fun i => s.of es (R.HLK_STREAM_CFG i) 16 14
  let resO := fun o => s.of es (R.CTX_RES_OWN (o / 4)) (8 * (o % 4)) 6
  let own := fun i => if i < 2 then 0 else resO (i - 2)
  refuse1 R.HLK_REJ_CAUSE [
    (decide (sz ≠ 0) && (decide (sz < 64) || decide (4096 < sz) || decide (a % 4096 ≠ 0) || !s.inPart 0 a (sz * 0x100000)), 1),
    ((List.range 10).any (fun i => en i && (!s.owns (own i) (ring i / 4) || s.bt (R.HLK_RING_CTRL (ring i)) 1)), 2),
    ((List.range 10).any (fun i => decide (2 ≤ i) && en i && !s.ob es (R.CPL_SC_CFG (i - 2)) 13), 3)]

end Sys2Proof.Machine
end

