-- ==== Sys2Proof/Machine/Crc.lean ====
section
/-!
DEFINITION. The check codes of the spec: CRC-16 and CRC-32 of R161, CRC-8 and SHA-256 where other chapters name them, and
the line-code scrambler of R138.
-/

set_option Elab.async false

namespace Sys2Proof.Machine

/-- CRC-16, polynomial 0x1021, most significant bit first: one byte. -/
def crc16Byte (c : Nat) (b : Byte) : Nat :=
  (List.range 8).foldl (fun c _ => if c / 0x8000 % 2 = 1 then Nat.xor (c * 2 % 65536) 0x1021 else c * 2 % 65536)
    (Nat.xor c (b.toNat * 256))

/-- CRC-16 of R161 over bytes: initial value 0xFFFF, no final XOR. -/
def crc16 (bs : List Byte) : Nat := bs.foldl crc16Byte 0xFFFF

/-- CRC-32 of IEEE 802.3, reflected: one byte. -/
def crc32Byte (c : Nat) (b : Byte) : Nat :=
  (List.range 8).foldl (fun c _ => if c % 2 = 1 then Nat.xor (c / 2) 0xEDB88320 else c / 2) (Nat.xor c b.toNat)

/-- CRC-32 of R161 over bytes: initial value and final XOR 0xFFFFFFFF. -/
def crc32 (bs : List Byte) : Nat := Nat.xor (bs.foldl crc32Byte 0xFFFFFFFF) 0xFFFFFFFF

/-- One bit through the additive scrambler (R138): the output bit and the next state. -/
def scrambleBit (st : Nat) (d : Bool) : Bool × Nat :=
  let k := (st / 2 ^ 30 % 2 + st / 2 ^ 27 % 2) % 2
  (xor d (decide (k = 1)), (st * 2 + k) % 2 ^ 31)

/-- SEED(n) of R138. -/
def scrambleSeed (lane : Nat) : Nat := 0x35A71C00 + lane

/-- One byte through the scrambler, least significant bit first (R136, R138). -/
def scrambleByte (st : Nat) (b : Byte) : Byte × Nat :=
  let (v, st) := (List.range 8).foldl (fun (a : Nat × Nat) i =>
    let (o, st) := scrambleBit a.2 (decide (b.toNat / 2 ^ i % 2 = 1))
    (a.1 + b2n o * 2 ^ i, st)) (0, st)
  (BitVec.ofNat 8 v, st)

/-- The payload of a data block through the scrambler. -/
def scrambleBlock (st : Nat) (bs : List Byte) : List Byte × Nat :=
  bs.foldl (fun (a : List Byte × Nat) b => let (o, st) := scrambleByte a.2 b; (a.1 ++ [o], st)) ([], st)

/-- The scrambler's state `n` data blocks after it was loaded with a seed. -/
def scrambleAfter (seed : Nat) : Nat → Nat
  | 0 => seed
  | n + 1 => (scrambleBlock (scrambleAfter seed n) (List.replicate 32 0)).2

/-- Taps of the patterns of Table 5-7. -/
def prbsTaps (pattern : Nat) : Nat × Nat :=
  match pattern with
  | 0 => (7, 6) | 1 => (9, 5) | 2 => (15, 14) | 3 => (23, 18) | _ => (31, 28)

/-- The bit of a pattern that follows the 31 bits in `reg`, the newest at bit 0 (Table 5-7). -/
def prbsNext (pattern reg : Nat) : Bool :=
  if pattern = 5 then decide (reg % 2 = 0)
  else
    let (a, b) := prbsTaps pattern
    decide ((reg / 2 ^ (a - 1) % 2 + reg / 2 ^ (b - 1) % 2) % 2 = 1)

/-- A bit shifts into a pattern's register. -/
def prbsShift (reg : Nat) (v : Bool) : Nat := (reg * 2 + b2n v) % 2 ^ 31

/-- The next `n` bits of a pattern, and its register after them. -/
def prbsBits (pattern : Nat) : Nat → Nat → List Bool × Nat
  | 0, reg => ([], reg)
  | n + 1, reg =>
    let v := prbsNext pattern reg
    let (l, r) := prbsBits pattern n (prbsShift reg v)
    (v :: l, r)

end Sys2Proof.Machine
end

