-- ==== Sys2Proof/Machine/Operands.lean ====
section
/-!
DEFINITION. The operand forms of the Kilel commands: the request header and payload of a slot (R56, Table 2-11,
Table 2-15), the opcode table (Table 2-14), the checks of R531, and the response (R57, R53, R75).
-/

set_option Elab.async false

namespace Sys2Proof.Machine

/-- One row of Table 2-14. `dma`: 0 none, 1 always, 2 either. `masks`: the defined bits of each word of a fixed payload
(after the DMA block), `none` where the length follows from the arguments or the spec gives no layout (log entry 9).
`resp`: words of the normal response. -/
structure Op where
  code : Nat
  urgent : Bool
  wait : Bool
  pf : Bool
  camp : Bool
  dma : Nat
  masks : Option (List Nat)
  resp : Nat
deriving DecidableEq, Repr

def m32 : Nat := 0xFFFFFFFF

/-- Table 2-14, with the payload layouts of Table 2-15 and of the subject chapters. -/
def opTable : List Op := [
  -- NOP
  ⟨0x0100, true, false, false, true, 0, some [], 0⟩,
  -- SYS_INFO
  ⟨0x0101, false, false, false, true, 0, some [], 6⟩,
  -- REG_READ
  ⟨0x0102, true, false, false, true, 0, none, 2⟩,
  -- REG_WRITE
  ⟨0x0103, false, false, false, false, 0, none, 0⟩,
  -- BAR2_ENABLE
  ⟨0x0104, false, false, true, false, 0, some [0x1], 0⟩,
  -- FW_LOG_READ
  ⟨0x0105, false, false, true, false, 1, none, 1⟩,
  -- MEM_ALLOC
  ⟨0x0106, false, false, false, false, 0, none, 2⟩,
  -- MEM_FREE
  ⟨0x0107, false, false, false, false, 0, none, 0⟩,
  -- MEM_WRITE
  ⟨0x0108, false, false, false, false, 1, none, 0⟩,
  -- MEM_READ
  ⟨0x0109, false, false, false, false, 1, none, 1⟩,
  -- SETTINGS_STAGE
  ⟨0x0201, false, false, false, false, 2, none, 2⟩,
  -- EPOCH_COMMIT
  ⟨0x0202, false, true, false, false, 0, some [0xFFFFFFFF, 0xFF], 2⟩,
  -- EPOCH_DISCARD
  ⟨0x0203, false, false, false, false, 0, some [], 0⟩,
  -- STATUS_SNAPSHOT
  ⟨0x0204, false, false, false, false, 1, some [0xFFFFFFFF, 0xFFFF, 0x1], 1⟩,
  -- SETTINGS_READ
  ⟨0x0205, false, false, false, false, 0, some [0xFFFFFFFF, 0xFF], 2⟩,
  -- EPOCH_STATUS
  ⟨0x0206, true, false, false, false, 0, some [], 11⟩,
  -- CTX_ALLOC
  ⟨0x0301, false, false, true, false, 0, some [0x3F0FFF, 0x1FFF], 2⟩,
  -- CTX_FREE
  ⟨0x0302, false, false, true, false, 0, some [0xFFF, 0x1FFF], 2⟩,
  -- CTX_CONFIG
  ⟨0x0303, false, false, false, false, 0, some [0x7, 0xFFFFFFFF, 0xFFFFFFFF, 0xFFFFFFFF], 2⟩,
  -- PART_CONFIG
  ⟨0x0304, false, false, true, false, 0, some [0x3F, 0x3F, 0xFFFFFFFF, 0xFFFFFFFF, 0xFFFFFFFF, 0xFFFFFFFF, 0xFFFFFFFF, 0xFFFF], 2⟩,
  -- RESET
  ⟨0x0305, false, true, false, false, 0, some [0xFFF3F07], 0⟩,
  -- VIOLATION_READ
  ⟨0x0306, false, false, false, false, 0, some [0x7F], 20⟩,
  -- EVQ_CONFIG
  ⟨0x0307, false, false, false, false, 0, some [0xFFFFFFFF, 0xFFFFFFFF, 0xF], 0⟩,
  -- LINK_START
  ⟨0x0401, false, true, true, false, 0, some [], 1⟩,
  -- LINK_STOP
  ⟨0x0402, false, false, true, false, 0, some [], 0⟩,
  -- LINK_STATUS
  ⟨0x0403, true, false, false, false, 0, some [], 15⟩,
  -- SENSOR_CMD
  ⟨0x0404, false, false, true, false, 0, some [0xFFFF, 0xFFFFFFFF, 0xFFFFFFFF, 0xFFFFFFFF, 0xFFFFFFFF, 0xFFFFFFFF], 8⟩,
  -- SPARE_MAP
  ⟨0x0405, false, false, true, false, 0, some [0x7, 0x3F3F3F3F], 2⟩,
  -- TAKE_CONFIG
  ⟨0x0501, false, false, false, false, 0, some [0x7F01FF, 0x3FFFF, 0xFFFFFFFF, 0xFFFFFFFF, 0xFFFFFFFF, 0xFFFFFFFF], 0⟩,
  -- TAKE_DIR_READ
  ⟨0x0502, false, false, false, false, 1, some [], 1⟩,
  -- TAKE_ARM
  ⟨0x0503, true, false, false, false, 0, some [0xF], 3⟩,
  -- TAKE_DISARM
  ⟨0x0504, true, false, false, false, 0, some [0xF], 0⟩,
  -- TAKE_START
  ⟨0x0505, true, false, false, false, 0, some [0xF, 0x3FFFFFFF, 0xFFFFFFFF, 0xFFFF], 0⟩,
  -- TAKE_STOP
  ⟨0x0506, true, false, false, false, 0, some [0xF, 0x3FFFFFFF, 0xFFFFFFFF, 0xFFFF], 0⟩,
  -- TAKE_TRIGGER
  ⟨0x0507, true, false, false, false, 0, some [0xF, 0x3FFFFFFF, 0xFFFFFFFF, 0xFFFF], 0⟩,
  -- TAKE_DELETE
  ⟨0x0508, false, false, false, false, 0, some [0xF], 0⟩,
  -- TAKE_READ
  ⟨0x0509, false, false, false, false, 0, some [0xFFFF000F, 0xFFFFFFFF, 0xFFFFFFFF], 0⟩,
  -- LANDING_STATUS
  ⟨0x050A, true, false, false, false, 0, some [], 19⟩,
  -- STREAM_OPEN
  ⟨0x0601, false, false, false, false, 0, some [0xFFFF000F], 2⟩,
  -- STREAM_CLOSE
  ⟨0x0602, false, false, false, false, 0, some [0xF], 2⟩,
  -- PIPE_STATUS
  ⟨0x0603, true, false, false, false, 0, some [], 0⟩,
  -- STATS_ROUTE
  ⟨0x0604, false, false, false, false, 0, none, 2⟩,
  -- VC_SESSION_OPEN
  ⟨0x0701, false, false, false, false, 0, some [0xFF071F, 0xFFFFFFFF, 0xFFFFFFFF, 0x3FF07FF, 0xFFFF03FF, 0xFFFFFFFF, 0xFFFFFF, 0xFFFFFFFF, 0xFFFFFFFF, 0xFF], 2⟩,
  -- VC_SESSION_CLOSE
  ⟨0x0702, false, false, false, false, 0, none, 0⟩,
  -- VC_ENCODE
  ⟨0x0703, false, false, false, false, 0, some [0xFFFF003F, 0xFFFFFFFF, 0xFF, 0xFFFFFFFF, 0xFFFFFFFF, 0xFF, 0xFFFFFFFF, 0xFFFFFFFF], 0⟩,
  -- VC_DECODE
  ⟨0x0704, false, false, false, false, 0, some [0xFFFF003F, 0xFFFFFFFF, 0xFF, 0xFFFFFFFF, 0xFFFFFFFF, 0xFF, 0xFFFFFFFF, 0xFFFFFFFF], 0⟩,
  -- VC_POOL_ALLOC
  ⟨0x0705, false, false, false, false, 0, some [0xFFFF003F], 0⟩,
  -- VC_MARK
  ⟨0x0706, false, false, false, false, 0, none, 0⟩,
  -- VC_ABORT
  ⟨0x0707, true, false, false, false, 0, some [0xFFFF003F], 0⟩,
  -- MON_OUTPUT_CONFIG
  ⟨0x0801, false, false, false, false, 0, none, 2⟩,
  -- MON_PUSH
  ⟨0x0802, true, false, false, false, 0, some [0xFF3F, 0xFFFFFFFF, 0xFFFFFFFF], 1⟩,
  -- MON_FB_ALLOC
  ⟨0x0803, false, false, false, false, 0, some [0xFFFF003F, 0xFFFFFFFF, 0xFFFFFFFF, 0xFFFFFFFF, 0xFFFFFFFF, 0xFFFFFFFF, 0xFFFFFFFF, 0xFFFFFFFF, 0xFFFFFFFF], 8⟩,
  -- MON_STATUS
  ⟨0x0804, true, false, false, false, 0, some [], 0⟩,
  -- TIME_READ
  ⟨0x0901, true, false, false, false, 0, some [], 5⟩,
  -- TIME_SET
  ⟨0x0902, false, false, true, false, 0, none, 0⟩,
  -- PTP_CONFIG
  ⟨0x0903, false, false, true, false, 0, none, 2⟩,
  -- TRIG_SCHEDULE
  ⟨0x0904, true, false, false, false, 0, some [0xF, 0xFFFFFFFF], 0⟩,
  -- GENLOCK_CONFIG
  ⟨0x0905, false, false, true, false, 0, none, 2⟩,
  -- TIMECODE_SET
  ⟨0x0906, false, false, true, false, 0, some [0xFFFFFFFF, 0x3FFFFFFF, 0xFFFFFFFF, 0xFFFF, 0x1], 0⟩,
  -- PTP_STATUS
  ⟨0x0907, true, false, false, false, 0, some [], 6⟩,
  -- AUD_PORT_CONFIG
  ⟨0x0A01, false, false, false, false, 0, none, 2⟩,
  -- AUD_START
  ⟨0x0A02, false, false, false, false, 0, some [0xFF, 0xFFFFFFFF], 0⟩,
  -- AUD_STOP
  ⟨0x0A03, false, false, false, false, 0, some [0xFF], 0⟩,
  -- AUD_MUTE
  ⟨0x0A04, true, false, false, false, 0, some [0xF], 0⟩,
  -- AUD_STATUS
  ⟨0x0A05, true, false, false, false, 0, some [], 0⟩,
  -- SQ_CREATE
  ⟨0x0B01, false, false, false, false, 0, some [0xFF0F, 0xFFFFFFFF, 0xFFFFFFFF, 0xFFFFFFFF, 0xFFFFFFFF, 0xFFFFFFFF, 0xFFFFFFFF], 1⟩,
  -- SQ_DELETE
  ⟨0x0B02, false, false, false, false, 0, none, 0⟩,
  -- SQ_ABORT
  ⟨0x0B03, true, false, false, false, 0, none, 0⟩,
  -- SQ_STATUS
  ⟨0x0B04, true, false, false, false, 0, none, 2⟩,
  -- MAINT_START
  ⟨0x0C01, false, true, true, false, 2, none, 1⟩,
  -- MAINT_STATUS
  ⟨0x0C02, true, false, true, false, 0, none, 0⟩,
  -- MAINT_CANCEL
  ⟨0x0C03, false, false, true, false, 0, none, 0⟩,
  -- PRBS_CONFIG
  ⟨0x0C04, false, false, true, false, 0, none, 0⟩,
  -- ERR_INJECT
  ⟨0x0C05, false, false, true, false, 0, none, 0⟩,
  -- LOOPBACK_SET
  ⟨0x0C06, false, false, true, false, 0, none, 0⟩,
  -- NV_IMAGE_BEGIN
  ⟨0x0D01, false, false, true, true, 0, some [], 1⟩,
  -- NV_IMAGE_WRITE
  ⟨0x0D02, false, false, true, true, 1, some [0xFFFFFFFF], 0⟩,
  -- NV_IMAGE_COMMIT
  ⟨0x0D03, false, false, true, true, 0, some [0x3], 0⟩,
  -- NV_IMAGE_STATUS
  ⟨0x0D04, true, false, true, true, 0, some [], 3⟩,
  -- NV_IMAGE_SELECT
  ⟨0x0D05, false, false, true, true, 0, none, 0⟩,
  -- NV_LOG_READ
  ⟨0x0D06, false, false, true, true, 1, none, 1⟩,
  -- POWER_STATE
  ⟨0x0E01, false, false, true, false, 0, some [0x3], 0⟩,
  -- THERMAL_READ
  ⟨0x0E02, true, false, false, true, 0, some [], 4⟩,
  -- THERMAL_CONFIG
  ⟨0x0E03, false, false, true, false, 0, none, 2⟩,
  -- BACKUP_STATUS
  ⟨0x0E04, true, false, true, false, 0, some [], 2⟩,
  -- BOOT_INFO
  ⟨0x0E05, true, false, true, true, 0, some [], 2⟩
  ]

/-- The row of an opcode. -/
def opRow (code : Nat) : Option Op := opTable.find? (fun o => o.code = code)

/-! ### The request -/

/-- Word `i` of the request area of a slot. -/
def State.reqWord (s : State) (p slot i : Nat) : Word := s.rd (R.MBX p (0x1000 + 0x100 * slot + 4 * i))

/-- The state of a slot (Table 2-7). -/
def State.slotState (s : State) (p slot : Nat) : Nat := s.fd (R.MBX p 0x0C) (2 * slot) 2

/-- A slot changes state. -/
def State.setSlot (s : State) (p slot st : Nat) : State := s.wrF (R.MBX p 0x0C) (2 * slot) 2 st

/-- A request as its opcode's meaning sees it. `pay` is the payload after any DMA block. -/
structure Req where
  part : Nat
  slot : Nat
  op : Nat
  ctx : Nat
  wait : Bool
  dma : Bool
  len : Nat
  pay : List Word
  inAddr : Nat
  inLen : Nat
  outAddr : Nat
  outLen : Nat
  rsvd : Bool
  inp : Option (List Byte)
  outOk : Bool
deriving DecidableEq, Repr

/-- Word `i` of the payload. -/
def Req.w (r : Req) (i : Nat) : Word := r.pay.getD i 0

/-- Field of payload word `i`. -/
def Req.f (r : Req) (i lo n : Nat) : Nat := fld (r.w i) lo n

/-- A 64-bit value in payload words `i` and `i + 1`. -/
def Req.w64 (r : Req) (i : Nat) : Nat := (r.w i).toNat + (r.w (i + 1)).toNat * 2 ^ 32

/-- A 40-bit address in payload words `i` and `i + 1`. -/
def Req.addr (r : Req) (i : Nat) : Nat := (r.w i).toNat + r.f (i + 1) 0 8 * 2 ^ 32

/-- The request that stands in a slot (Tables 2-8 and 2-11). -/
def State.request (s : State) (p slot : Nat) (inp : Option (List Byte)) (outOk : Bool) : Req :=
  let h0 := s.reqWord p slot 0
  let h1 := s.reqWord p slot 1
  let len := fld h1 16 8
  let dma := bit h0 26
  let words := (List.range len).map (fun i => s.reqWord p slot (4 + i))
  let b := fun i => (words.getD i 0).toNat
  { part := p, slot := slot, op := fld h0 0 16, ctx := fld h1 0 12, wait := bit h0 25, dma := dma, len := len
    pay := if dma then words.drop 8 else words
    inAddr := if dma then b 0 + b 1 * 2 ^ 32 else 0
    inLen := if dma then b 2 else 0
    outLen := if dma then b 3 else 0
    outAddr := if dma then b 4 + b 5 * 2 ^ 32 else 0
    rsvd := dma && (decide (b 6 ≠ 0) || decide (b 7 ≠ 0))
    inp := inp, outOk := outOk }

/-! ### The response -/

/-- Bits of MBX_INT_STAT set; the mailbox vector is raised when the condition of R49 becomes true (log entry 10). -/
def State.intSet (s : State) (p bits : Nat) : State :=
  let en := s.rd (R.MBX p 0x18)
  let old := s.rd (R.MBX p 0x14)
  let s := s.wr (R.MBX p 0x14) (old ||| w32 bits)
  if (old &&& en) = 0 ∧ ((old ||| w32 bits) &&& en) ≠ 0 then s.msix p 0 else s

/-- The response to the request in a slot (Table 2-9). -/
def State.response (s : State) (p slot status : Nat) (payload : List Word) : Cached :=
  let h0 := s.reqWord p slot 0
  { part := p, seq := fld h0 16 8, op := fld h0 0 16, ctx := fld (s.reqWord p slot 1) 0 12, cookie := s.reqWord p slot 2
    status := status, payload := payload }

/-- The words of a response go to the response area, the slot becomes DONE and SLOT_DONE is set (R53). -/
def State.writeResponse (s : State) (slot : Nat) (c : Cached) (replayed : Bool) : State :=
  let a := R.MBX c.part (0x2000 + 0x100 * slot)
  let s := s.wrs [(a, w32 (c.op + c.seq * 2 ^ 16 + c.status * 2 ^ 24)),
    (a + 4, w32 (c.ctx + c.payload.length * 2 ^ 16 + b2n replayed * 2 ^ 24)), (a + 8, c.cookie), (a + 12, w32 s.short)]
  let s := s.wrs ((List.range c.payload.length).map (fun i => (a + 16 + 4 * i, c.payload.getD i 0)))
  (s.setSlot c.part slot Slot.DONE).intSet c.part (2 ^ slot)

/-- A response is kept for retries: the 64 most recent of each function (R75). -/
def State.keep (s : State) (e : Cached) : State :=
  let mine := (e :: s.mbx.cache.filter (fun c => c.part = e.part)).take 64
  { s with mbx := { s.mbx with cache := mine ++ s.mbx.cache.filter (fun c => c.part ≠ e.part) } }

/-- A command is answered. -/
def State.answer (s : State) (p slot status : Nat) (payload : List Word) : State :=
  let e := s.response p slot status payload
  (s.keep e).writeResponse slot e false

/-! ### The checks of R531 -/

/-- What the front end makes of a request. -/
inductive Gate where
  | answer (status : Nat) (zeros : Option Nat) | replay (c : Cached) | duplicate | run
deriving DecidableEq, Repr

/-- The device is in Base camp mode (R63). -/
def State.camp (s : State) : Bool := s.bt (R.MBX 0 0x04) 1

/-- How many of the resources of Table 3-9 at the offsets `l` partition `p` owns. -/
def State.ownedOf (s : State) (p : Nat) (l : List Nat) : Nat := (l.filter (fun o => decide (s.resOwner o = p))).length

/-- Length in words of the normal response of a suppressed command (R59). A `REG_READ` whose COUNT is out of range has none:
the model takes 1 + min 59 COUNT words (log entry 94). -/
def State.zerosLen (s : State) (o : Op) (r : Req) : Nat :=
  if o.code = 0x0102 then 1 + min 59 (r.f 1 8 8)
  else if o.code = 0x0202 && r.wait then 5
  else if o.code = 0x0603 then 3 + 3 * s.ownedOf r.part (List.range 8)
  else if o.code = 0x0804 then 4 * s.ownedOf r.part ((List.range 6).map outputRes)
  else if o.code = 0x0A05 then 3 * s.ownedOf r.part ((List.range 8).map (0x18 + ·))
  else if o.code = 0x0C02 then s.pwr.acts.length
  else o.resp

/-- Steps 1 to 8 of R531, for the request in slot `slot` of function `p`. -/
def State.gate (s : State) (p slot : Nat) : Gate :=
  let h0 := s.reqWord p slot 0
  let h1 := s.reqWord p slot 1
  let r := s.request p slot none true
  if fld h0 28 4 ≠ 1 || decide (60 < fld h1 16 8) || decide (fld h0 24 1 ≠ b2n (decide (14 ≤ slot))) ||
      decide (fld h1 12 4 ≠ 0) || decide (fld h1 24 8 ≠ 0) || decide (s.reqWord p slot 3 ≠ 0) then
    .answer St.MALFORMED none
  else match opRow r.op with
    | none => .answer St.UNKNOWN_OPCODE none
    | some o =>
      if r.wait && !o.wait then .answer St.MALFORMED none
      else
        let retry := bit h0 27
        let seq := fld h0 16 8
        match (if retry then s.mbx.cache.find? (fun c => c.part = p && c.seq = seq && c.op = r.op) else none) with
        | some c => .replay c
        | none =>
          let same := fun q => decide (q ≠ slot) && decide (fld (s.reqWord p q 0) 16 8 = seq) &&
            decide (fld (s.reqWord p q 0) 0 16 = r.op)
          if retry && (s.mbx.posted.any (fun x => x.part = p && same x.slot) ||
              s.mbx.waits.any (fun x => x.part = p && same x.slot)) then .duplicate
          else if decide (14 ≤ slot) && !o.urgent then .answer St.CLASS_INVALID none
          else if s.camp && !o.camp then .answer St.BASE_CAMP none
          else if o.pf && decide (p ≠ 0) then .answer St.NOT_PERMITTED none
          else if !s.owns p r.ctx then .answer St.OK (some (s.zerosLen o r))
          else .run

/-- A request that the front end answers without running it (R58, R59, R75). -/
def State.refuse (s : State) (p slot : Nat) (g : Gate) : State :=
  match g with
  | .run => s
  | .answer st none =>
    let s := if st = St.MALFORMED then s.bump (R.MBX p 0x1C) 16 8 1 else s
    s.answer p slot st []
  | .answer st (some n) =>
    let ctx := fld (s.reqWord p slot 1) 0 12
    (s.viol p Viol.ctx ctx ctx).answer p slot st (List.replicate n 0)
  | .replay c => s.writeResponse slot c true
  | .duplicate => s.writeResponse slot (s.response p slot St.DUPLICATE_PENDING []) false

/-! ### Running a command -/

/-- How a meaning answers: at once, or when an event occurs (R62). -/
inductive Ans where
  | done (status : Nat) (payload : List Word) (s : State)
  | wait (kind : WaitKind) (s : State)

/-- `x` is taken before `y`: urgent slots first, then by arrival, then by partition and slot (R54). -/
def Posted.before (x y : Posted) : Bool :=
  let u := fun (z : Posted) => b2n (decide (z.slot < 14))
  if u x ≠ u y then decide (u x < u y)
  else if x.at_ ≠ y.at_ then decide (x.at_ < y.at_)
  else if x.part ≠ y.part then decide (x.part < y.part)
  else decide (x.slot < y.slot)

/-- The pool that a posted command asks for (R89): VC_POOL_ALLOC, MON_FB_ALLOC, SQ_CREATE; 0, none. -/
def State.poolOf (s : State) (x : Posted) : Nat :=
  let op := fld (s.reqWord x.part x.slot 0) 0 16
  if [0x0705, 0x0803, 0x0B01].contains op then op else 0

/-- The context a posted command acts for, as its place in the grants of one cycle: PRIO, highest first, then number (R89). -/
def State.poolRank (s : State) (x : Posted) : Nat :=
  let c := fld (s.reqWord x.part x.slot 1) 0 12
  (7 - s.fd (R.CTX_ENT_IRQ c) 12 3) * 4096 + c

/-- `x` is granted before `y` of the same cycle and pool (R89). -/
def State.granted (s : State) (x y : Posted) : Bool :=
  if s.poolRank x = s.poolRank y then x.before y else decide (s.poolRank x < s.poolRank y)

/-- The request of `x`'s cycle and pool that is granted first; `x` where it asks for none. -/
def State.poolHead (s : State) (x : Posted) : Posted :=
  if s.poolOf x = 0 then x
  else
    let l := s.mbx.posted.filter (fun y => decide (y.at_ = x.at_) && decide (s.poolOf y = s.poolOf x))
    l.foldl (fun b y => if s.granted y b then y else b) x

/-- The command in (part, slot) is POSTED and is the next the management core takes: the first in the order of R54, but
requests of one cycle for one pool take their places in the order of R89. -/
def State.isNext (s : State) (p slot : Nat) : Bool :=
  match s.mbx.posted.find? (fun x => s.mbx.posted.all (fun y => y = x || x.before y)) with
  | none => false
  | some x => decide ((s.poolHead x).part = p) && decide ((s.poolHead x).slot = slot)

/-- The arguments keep the general rules: DMA only where the opcode uses it, the DMA block of R64 and R65, LENGTH
(R532) and reserved bits (R58). -/
def Req.wellFormed (o : Op) (r : Req) : Bool :=
  (if o.dma = 0 then !r.dma else if o.dma = 1 then r.dma else true) &&
  (!r.dma || (decide (8 ≤ r.len) && decide (r.inAddr % 4 = 0) && decide (r.outAddr % 4 = 0) && decide (r.inLen % 4 = 0) &&
    decide (r.outLen % 4 = 0) && decide (r.inLen ≤ 2 ^ 24) && decide (r.outLen ≤ 2 ^ 24) && !r.rsvd)) &&
  (match o.masks with
   | none => true
   | some ms => decide (r.pay.length = ms.length) &&
     (List.range ms.length).all (fun i => r.w i &&& ~~~(w32 (ms.getD i 0)) = 0))

/-- The input read of the command came back whole, or there is none (R66, R67). While BME is 0 a command with a DMA
block is answered DMA_ERROR (R443). -/
def State.inputOk (s : State) (r : Req) : Bool :=
  !r.dma || (s.bme r.part && (decide (r.inLen = 0) || (match r.inp with
    | some d => decide (d.length = r.inLen)
    | none => false)))

/-- The input data. -/
def Req.input (r : Req) : List Byte := r.inp.getD []

/-- The slot holds the opcode and the management core takes it now. -/
def State.takes (s : State) (code : Nat) (c : Call) : Bool :=
  s.isNext c.part c.slot && decide (fld (s.reqWord c.part c.slot 0) 0 16 = code)

/-- The slot leaves the posted ones. -/
def State.unpost (s : State) (p slot : Nat) : State :=
  { s with mbx := { s.mbx with posted := s.mbx.posted.filter (fun x => !(x.part = p && x.slot = slot)) } }

/-- A request that the front end lets run: `args` are the opcode's own argument checks (BAD_ARGUMENT), `body` the rest. -/
def serve (o : Op) (args : Req → State → Bool) (body : Req → State → Ans) (r : Req) (s : State) : State :=
  if !(r.wellFormed o && args r s) then s.answer r.part r.slot St.BAD_ARGUMENT []
  else if !s.inputOk r then s.answer r.part r.slot St.DMA_ERROR []
  else match body r (s.setSlot r.part r.slot Slot.EXECUTING) with
    | .done st pay s => s.answer r.part r.slot st pay
    | .wait k s => { s with mbx := { s.mbx with waits := s.mbx.waits ++ [{ part := r.part, slot := r.slot, kind := k }] } }

/-- One Kilel command is taken and served. Where the slot does not hold this opcode, or is not the next in the order of R54,
nothing happens (log entry 7). -/
def kilel (code : Nat) (args : Req → State → Bool) (body : Req → State → Ans) (dt : Nat) (c : Call) (s : State) : State :=
  let s := s.tick dt
  if s.takes code c then
    let g := s.gate c.part c.slot
    let s := s.unpost c.part c.slot
    match g, opRow code with
    | .run, some o => serve o args body (s.request c.part c.slot c.inp c.outOk) s
    | g, _ => s.refuse c.part c.slot g
  else s

/-- The output of a command goes to its host buffer (R66 to R68): `s'` is the state after the command took effect. -/
def dmaOut (r : Req) (bs : List Byte) (s s' : State) : Ans :=
  if r.outLen < bs.length then .done St.BUFFER_SMALL [w32 bs.length] s
  else if !r.outOk then .done St.DMA_ERROR [] s'
  else .done St.OK [w32 bs.length] (if bs.isEmpty then s' else s'.emit (.host r.part r.outAddr bs))

/-- Every slot that waits on `k` is answered. -/
def State.finish (s : State) (k : WaitKind → Bool) (status : Nat) (payload : List Word) : State :=
  let ws := s.mbx.waits.filter (fun w => k w.kind)
  let s := { s with mbx := { s.mbx with waits := s.mbx.waits.filter (fun w => !k w.kind) } }
  ws.foldl (fun s w => s.answer w.part w.slot status payload) s

end Sys2Proof.Machine
end

