-- ==== Sys2Proof/Machine/LinkOps.lean ====
section
/-!
DEFINITION. Shared operations of the lane array and the sensor link: lane states (Table 5-5), lane loss (R172), the
back-channel (R177 to R179) and exposure commands (R180, R181).
-/

set_option Elab.async false

namespace Sys2Proof.Machine

/-! ### Lanes -/

/-- State of physical lane `n` (Table 5-5). -/
def State.laneSt (s : State) (n : Nat) : Nat := s.fd (R.LNA_LANE_STAT n) 0 4

/-- Lane `n` moves to a state. -/
def State.setLane (s : State) (n st : Nat) : State := s.wrF (R.LNA_LANE_STAT n) 0 4 st

/-- Logical number that physical lane `n` carries. -/
def State.logical (s : State) (n : Nat) : Nat := s.fd (R.LNA_LANE_STAT n) 5 6

/-- REVERSED of lane `n`'s quad as its lanes stand: four consecutive logical lanes in descending physical order (R144). -/
def State.reversedNow (s : State) (n : Nat) : State :=
  let q := n / 4
  let ls := (List.range 4).map (fun k => s.logical (4 * q + k))
  let up := (List.range 4).all (fun k => decide (4 ≤ s.laneSt (4 * q + k)) && decide (s.laneSt (4 * q + k) ≤ 7))
  s.wrF (R.LNA_QUAD_STAT q) 1 1 (b2n (up && decide (s.fd (R.LNA_QUAD_CFG q) 0 2 = 1) && decide (nth ls 0 = nth ls 1 + 1) &&
    decide (nth ls 1 = nth ls 2 + 1) && decide (nth ls 2 = nth ls 3 + 1)))

/-- Lane `n` goes to FAILED with a cause (Table 5-14), and LNA reports LANE_FAILED (R155). -/
def State.failLane (s : State) (n cause : Nat) : State :=
  (((s.setLane n 15).wrF (R.LNA_LANE_STAT n) 24 4 cause).reversedNow n).faultItem Src.LNA 2 n cause []

/-- The physical lane that carries logical lane `l`: identity resolved and not FAILED. -/
def State.physOf (s : State) (l : Nat) : Option Nat :=
  (List.range 64).find? (fun n => decide (4 ≤ s.laneSt n) && decide (s.laneSt n ≤ 7) && decide (s.logical n = l) &&
    decide (s.fd (R.LNA_QUAD_CFG (n / 4)) 0 2 = 1))

/-- Function of lane `n`'s quad: 0 OFF, 1 SENSOR, 2 SDI, 3 ETH. -/
def State.laneFunc (s : State) (n : Nat) : Nat := s.fd (R.LNA_QUAD_CFG (n / 4)) 0 2

/-- Role in use of logical lane `l`: 0 unused, 1 data, 2 spare (Table 6-11). -/
def State.role (s : State) (l : Nat) : Nat := s.fd (R.SLK_LANE_STAT l) 12 2

/-- Group in use of logical lane `l`. -/
def State.groupOf (s : State) (l : Nat) : Nat := s.fd (R.SLK_LANE_STAT l) 0 6

/-- Logical lane `l` is ACTIVE. -/
def State.laneActive (s : State) (l : Nat) : Bool :=
  match s.physOf l with
  | some n => s.laneSt n = 5
  | none => false

/-- The data lanes in use. -/
def State.dataLanes (s : State) : List Nat := selIdx 64 (fun l => decide (s.role l = 1))

/-- The data lanes of group `g` in use. -/
def State.groupLanes (s : State) (g : Nat) : List Nat := s.dataLanes.filter (fun l => s.groupOf l = g)

/-- Every lane of group `g` is ACTIVE, so its stream exists (R158). -/
def State.groupUp (s : State) (g : Nat) : Bool := !(s.groupLanes g).isEmpty && (s.groupLanes g).all s.laneActive

/-- Spares in STANDBY. -/
def State.standby (s : State) : List Nat :=
  selIdx 64 (fun l => decide (s.role l = 2) && (match s.physOf l with | some n => s.laneSt n = 6 | none => false))

/-- SLK_LINK_STAT's counts as the lanes stand (Table 6-9). -/
def State.linkCounts (s : State) : State :=
  (s.wrF R.SLK_LINK_STAT 2 6 (s.dataLanes.filter s.laneActive).length).wrF R.SLK_LINK_STAT 8 3 s.standby.length

/-- The link's state: 0 STOPPED, 1 STARTING, 2 RUNNING, 3 DEGRADED. -/
def State.linkSt (s : State) : Nat := s.fd R.SLK_LINK_STAT 0 2

/-- The link is active: RUNNING or DEGRADED (R37). -/
def State.linkOn (s : State) : Bool := decide (2 ≤ s.linkSt)

/-- Group `g` has met a FILL (R162). -/
def State.fillSeen (s : State) (g : Nat) : State :=
  { s with lnk := { s.lnk with grpSkip := s.lnk.grpSkip.filter (fun x => decide (x ≠ g)) } }

/-- A write of LNA_PRBS_CTRL: CHK_LOCK is read-only; setting CHK_EN clears the bit count; a checker newly
on, or on another pattern, synchronises anew (R150). -/
def State.prbsWrite (s : State) (n : Nat) (v : Word) : State :=
  let a := R.LNA_PRBS_CTRL n
  let old := s.rd a
  let on := bit v 4 && !bit old 4
  let same := bit v 4 && bit old 4 && fld v 0 3 = fld old 0 3 && bit v 5 = bit old 5
  let s := if on then s.wrs [(R.LNA_PRBS_BITS_LO n, 0), (R.LNA_PRBS_BITS_HI n, 0)] else s
  let s : State := if same then s else { s with lnk := { s.lnk with prbs := tabSet (fun _ => (0, 0)) s.lnk.prbs n (0, 0) } }
  s.wr a ((v &&& 0x3F#32) ||| (if same then old &&& 0x40#32 else 0))

/-- The lost lanes whose handling ended without a spare (R175). -/
def State.degraded (s : State) : List Nat := selIdx 64 (fun l => decide (tabGet (fun _ => 0) s.lnk.act l = 2))

/-- RUNNING or DEGRADED as the lost lanes stand; STOPPED and STARTING stay. -/
def State.linkMode (s : State) : State :=
  if s.linkSt < 2 then s else s.wrF R.SLK_LINK_STAT 0 2 (if s.degraded.isEmpty then 2 else 3)

/-- Handling of a lost lane: 0 waiting, 1 swap sent, 2 degraded. -/
def State.setAct (s : State) (l v : Nat) : State :=
  { s with lnk := { s.lnk with act := tabSet (fun _ => 0) s.lnk.act l v } }

/-- The link becomes degraded for lost lane `l` (R175). -/
def State.degrade (s : State) (l : Nat) : State :=
  ((s.setAct l 2).linkMode).raise 0 0x0404 St.OK Src.SLK l

/-- When every data lane is ACTIVE a STARTING link is RUNNING, and `LINK_START` with WAIT is answered. -/
def State.linkReady (s : State) : State :=
  let s := s.linkCounts
  if s.linkSt = 1 && !s.dataLanes.isEmpty && s.dataLanes.all s.laneActive then
    let s := s.wrF R.SLK_LINK_STAT 0 2 2
    s.finish (fun k => k = .link) St.OK [s.rd R.SLK_LINK_STAT]
  else s

/-- Lanes 56 and 57 start where quad 14 serves Ethernet and they are enabled (Table 5-1). -/
def State.ethStart (s : State) : State :=
  [56, 57].foldl (fun s n => if s.laneFunc n = 3 && s.bt (R.LNA_LANE_CTRL n) 0 then s.setLane n 1 else s) s

/-- The PLL of quad `q` may lock again: the lane array serves the contexts whose work the quad carries, ctx 0 and, of quad 15, those
of the SDI outputs (R120, Table 5-1). -/
def State.pllMay (s : State) (q : Nat) : Bool :=
  s.serves Src.LNA 0 && (decide (q ≠ 15) || (List.range 4).all (fun k =>
    s.serves Src.LNA (s.fd (R.MON_OUT_CTRL (2 + k)) 8 12)))

/-- At a boundary: the lanes of quads whose settings changed from `old` start again from OFF, SDI lanes are ACTIVE with
their outputs, PLLs of quads in use lock, but for those that a fault of class UNIT stopped (R133, Tables 4-5, 5-5). -/
def State.lnaBoundary (s : State) (old : Nat → Word) : State :=
  let s := (List.range 16).foldl (fun (s : State) q =>
    s.wrF (R.LNA_QUAD_STAT q) 0 1 (b2n (decide (s.fd (R.LNA_QUAD_CFG q) 0 2 ≠ 0) && (s.bt (R.LNA_QUAD_STAT q) 0 || s.pllMay q)))) s
  let s := (List.range 64).foldl (fun (s : State) n =>
    let f := s.laneFunc n
    let on := s.bt (R.LNA_LANE_CTRL n) 0
    let sdi := f = 2 && on && decide (60 ≤ n) && s.bt (R.MON_OUT_CTRL (n - 60 + 2)) 0
    let new := decide (old (R.LNA_QUAD_CFG (n / 4)) ≠ s.rd (R.LNA_QUAD_CFG (n / 4))) ||
      decide (bit (old (R.LNA_LANE_CTRL n)) 0 ≠ on)
    if f = 2 then s.wr (R.LNA_LANE_STAT n) (if sdi then 5 else 0)
    else if new then s.wr (R.LNA_LANE_STAT n) (if f = 3 && on && decide (n < 58) then 1 else 0)
    else s) s
  (List.range 16).foldl (fun (s : State) q => s.reversedNow (4 * q)) s

/-! ### Frames that a loss touches -/

/-- The stripes of group `g` under epoch `e`. -/
def State.stripesOf (s : State) (e g : Nat) : List Nat :=
  (List.range (s.cf e R.SLK_STRIPE_COUNT 0 6)).filter (fun i => s.cf e (R.SLK_STRIPE_CFG i) 16 6 = g)

/-- Rows of stripe `i` under epoch `e`. -/
def State.stripeRows (s : State) (e i : Nat) : Nat := s.cf e (R.SLK_STRIPE_CFG i) 0 16

/-- First row of stripe `i` under epoch `e` (R13). -/
def State.stripeTop (s : State) (e i : Nat) : Nat := ((List.range i).map (s.stripeRows e)).sum

/-- Width in photosites under epoch `e`. -/
def State.frameWidth (s : State) (e : Nat) : Nat := 32 * s.cf e R.SLK_FRAME_CFG 0 11

/-- Rows of the frame under epoch `e`. -/
def State.frameHeight (s : State) (e : Nat) : Nat := s.cf e R.SLK_FRAME_CFG 12 16

/-- Sample depth under epoch `e`. -/
def State.frameDepth (s : State) (e : Nat) : Nat := 10 + 2 * s.cf e R.SLK_FRAME_CFG 28 2

/-- Stripe `i` of a frame has received all its rows. -/
def State.complete (s : State) (f : Frame) (i : Nat) : Bool :=
  decide ((f.stripes.getD i {}).rows.length = s.stripeRows f.epoch i)

/-- The frame SLK has open, if any. -/
def State.openFrame (s : State) : Option Frame := s.ing.frames.find? (fun f => !f.closed)

/-- The frame `f` replaces the one of its number. -/
def State.putFrame (s : State) (f : Frame) : State :=
  { s with ing := { s.ing with frames := s.ing.frames.map (fun x => if x.no = f.no then f else x) } }

/-- The stripes listed are lost in `f` unless complete. -/
def State.loseStripes (s : State) (f : Frame) (is : List Nat) : Frame :=
  { f with stripes := (List.range f.stripes.length).map (fun i =>
      let st := f.stripes.getD i {}
      if is.contains i && !s.complete f i then { st with lost := true, drop := true } else st) }

/-- Stripes lost in a frame. -/
def Frame.lostCount (f : Frame) : Nat := (f.stripes.filter (·.lost)).length

/-- The mask of lost stripes (Table 1-8). -/
def Frame.lostMask (f : Frame) : Nat := maskOf f.stripes.length (fun i => (f.stripes.getD i {}).lost)

/-- A data lane leaves ACTIVE (R172): its group's incomplete stripes are lost in the open frame, STRIPE_LOST is raised
once, and a swapped-in spare that is lost degrades the link at once (R175). -/
def State.laneLoss (s : State) (l : Nat) : State :=
  let g := s.groupOf l
  let s := match s.openFrame with
    | some f => s.putFrame (s.loseStripes f (s.stripesOf f.epoch g))
    | none => s
  let none_ := s.openFrame.isNone
  let lossFrame := match s.openFrame with | some f => f.no | none => s.ep.frame + 1
  let swapped := s.lnk.swapped.contains l
  let s := { s with lnk := { s.lnk with lossAt := tabSet (fun _ => 0) s.lnk.lossAt l lossFrame
                                        act := tabSet (fun _ => 0) s.lnk.act l 0
                                        grpPos := tabSet (fun _ => 0) s.lnk.grpPos g 0
                                        lossNext := if none_ then g :: s.lnk.lossNext else s.lnk.lossNext } }
  let s := (s.wrF (R.SLK_LANE_STAT l) 14 1 1).wrF (R.SLK_LANE_STAT l) 16 8 0
  let s := s.raise 0 0x0401 St.OK Src.SLK (l + g * 256)
  if swapped then s.degrade l else s

/-- Physical lane `n` loses lock or signal (R137, R141, R146): only a locked lane has a lock to lose, and its loss is counted; a
lane in service retrains from CDR, a lane that was still coming up hunts again. `toCdr`: the CDR's lock or the signal went. -/
def State.dropLane (s : State) (n : Nat) (toCdr : Bool) : State :=
  let st := s.laneSt n
  if st < 2 ∨ st = 15 then s
  else if st = 2 then (if toCdr then s.setLane n 1 else s)
  else
    let s := s.bump (R.LNA_LANE_LOSS n) 0 16 1
    let l := s.logical n
    let sensor := decide (s.laneFunc n = 1)
    let wasData := st = 5 && sensor && s.role l = 1
    let s := if 5 ≤ st ∧ st ≤ 7 ∧ sensor = true then { s with lnk := { s.lnk with
        wasLane := tabSet (fun _ => 0) s.lnk.wasLane n (128 + l + 64 * b2n (s.bt (R.LNA_LANE_STAT n) 4)) } } else s
    let s := { s with lnk := { s.lnk with alignRun := tabSet (fun _ => 0) s.lnk.alignRun n 0
                                          alignBad := tabSet (fun _ => 0) s.lnk.alignBad n 0
                                          hdrBad := tabSet (fun _ => []) s.lnk.hdrBad n [] } }
    let s := if wasData then s.laneLoss l else s
    let s := (s.setLane n (if toCdr || decide (4 ≤ st) then 1 else 2)).reversedNow n
    s.linkCounts

/-- UI of lane `n`'s line rate in `dt` ns. -/
def State.laneUi (s : State) (n dt : Nat) : Nat := laneRate (s.fd (R.LNA_QUAD_CFG (n / 4)) 4 4) * dt / 1000

/-- A locked lane received an invalid header, and the block is neither data nor control (R136): it is counted, and the 16th of
64 consecutive headers loses the lock (R137). -/
def State.badHeader (s : State) (n : Nat) : State :=
  let s := s.bump (R.LNA_LANE_ERR n) 0 16 1
  let l := s.now :: (tabGet (fun _ => []) s.lnk.hdrBad n).filter (fun t => decide (s.laneUi n (s.now - t) < 64 * 258))
  let s : State := { s with lnk := { s.lnk with hdrBad := tabSet (fun _ => []) s.lnk.hdrBad n l } }
  if 16 ≤ l.length then s.dropLane n false else s

/-! ### ALIGN blocks (R139, R143 to R145) -/

/-- Byte `j` of a block payload. -/
def blkByte (p : BitVec 256) (j : Nat) : Nat := p.toNat / 2 ^ (8 * j) % 256

/-- The payload is a normal ALIGN of Table 5-3: LANE below 64, its complement, and 0x55 elsewhere. -/
def isAlign (p : BitVec 256) : Bool :=
  decide (blkByte p 0 = 0x4B) && decide (blkByte p 1 = 0xB4) && decide (blkByte p 2 < 64) &&
    decide (blkByte p 3 = 255 - blkByte p 2) && (List.range 26).all (fun i => blkByte p (6 + i) = 0x55)

/-- The payload is a FILL of Table 5-3. -/
def isFill (p : BitVec 256) : Bool :=
  decide (blkByte p 0 = 0x1E) && decide (blkByte p 1 = 0xE1) && (List.range 30).all (fun i => blkByte p (2 + i) = 0x55)

/-- The next value of a 16-bit sequence. -/
def seqNext (n : Nat) : Nat := (n + 1) % 65536

/-! ### Back-channel (R177 to R179) -/

/-- The 32 bytes of a command block (Table 6-3). -/
def BcCmd.bytes (b : BcCmd) : List Byte :=
  let body := leBytes 1 b.type ++ leBytes 1 b.tag ++ leBytes 1 b.count ++ leBytes 1 (b2n b.last) ++
    (if b.kind = 2 then leBytes 1 b.from_ ++ leBytes 1 b.to_ ++ leBytes 2 0 else leBytes 4 b.addr) ++
    (List.range 4).flatMap (fun i => leBytes 4 (b.vals.getD i 0).toNat) ++ leBytes 4 (if b.last then b.epoch else 0)
  body ++ leBytes 4 (crc32 body)

/-- A command joins the queue with the next TAG; answers the TAG. -/
def State.bcPush (s : State) (b : BcCmd) : Nat × State :=
  let t := s.lnk.bcTag
  (t, { s with lnk := { s.lnk with bcTag := (t + 1) % 256, bcq := s.lnk.bcq ++ [{ b with tag := t }] } })

/-- An EXPOSE is on the wire, or on its way to the balls (R181; log entry 17). -/
def State.exposeBusy (s : State) : Bool :=
  match s.lnk.exposes.head? with
  | some x => decide (10 * s.now < 10 * x.at_ + 2064)
  | none => false

/-- The sensor acknowledged the writes of epoch `e` at device time `t`: later epochs without writes follow, up to the
next with writes (R179). -/
def ackEpochs (l : List SensorEpoch) (e t : Nat) : List SensorEpoch :=
  (l.foldl (fun (a : Bool × List SensorEpoch) (x : SensorEpoch) =>
    if x.epoch = e then (true, a.2 ++ [{ x with ack := some t }])
    else if a.1 && !x.writes then (true, a.2 ++ [if x.ack.isNone then { x with ack := some t } else x])
    else (false, a.2 ++ [x])) (false, [])).2

/-- The latest epoch acknowledged before device time `t` (R35). -/
def State.sensorEpochAt (s : State) (t : Nat) : Nat :=
  (s.ep.sensor.filter (fun x => match x.ack with | some u => decide (u < t) | none => false)).foldl (fun _ x => x.epoch) 0

/-- A command's answer ended: the waiting `SENSOR_CMD`, the epoch, or the swap it stood for (R178, R174, R175). -/
def State.bcFail (s : State) (b : BcCmd) : State :=
  match b.kind with
  | 0 => s.finish (fun k => k = .sensor b.tag) St.TIMEOUT []
  | 1 =>
    let other := fun (x : BcCmd) => !(x.kind = 1 && x.epoch = b.epoch)
    let s := { s with lnk := { s.lnk with bcq := s.lnk.bcq.filter other, bcOut := s.lnk.bcOut.filter other }
                      ep := { s.ep with sensor := s.ep.sensor.map (fun (x : SensorEpoch) =>
                        if x.epoch = b.epoch then { x with failed := true } else x) } }
    s.raise 0 0x0406 St.OK Src.SLK b.epoch
  | _ => s.degrade b.from_

/-- The reply of a command (Table 6-6). -/
def State.bcReply (s : State) (b : BcCmd) (bs : List Byte) : State :=
  let ok := ofBytes ((bs.drop 1).take 1) = 0
  match b.kind with
  | 0 => s.finish (fun k => k = .sensor b.tag) St.OK (bytesWords 8 bs)
  | 1 =>
    if !ok then s.bcFail b
    else if b.last && !s.ep.sensor.any (fun x => decide (x.epoch = b.epoch) && x.failed) then
      { s with ep := { s.ep with sensor := ackEpochs s.ep.sensor b.epoch s.dev } }
    else s
  | _ =>
    if ok then { s with lnk := { s.lnk with swaps := s.lnk.swaps ++
      [{ lost := b.from_, spare := b.to_, frame := ofBytes ((bs.drop 4).take 4) }] } }
    else s.bcFail b

/-! ### Exposure commands (R180, R181) -/

/-- The 32 bytes of an EXPOSE block (R180). -/
def exposeBytes (tag dur : Nat) : List Byte :=
  let body := leBytes 1 tag ++ leBytes 1 (255 - tag % 256) ++ leBytes 4 dur
  [0x2D, 0xD2, 0x2D, 0xD2, 0x87, 0x78, 0x87, 0x78] ++ body ++ leBytes 2 (crc16 body) ++ List.replicate 16 0x55

/-- The lane that carries the back-channel (R132). -/
def State.backLane (s : State) : Nat := 4 * (s.oSensorQuads []).headD 16

/-- The payload of an ALIGN of logical lane 0 with a SEQ (Table 5-3). -/
def alignBytes (seq : Nat) : List Byte := [0x4B, 0xB4, 0, 0xFF] ++ leBytes 2 seq ++ List.replicate 26 0x55

/-- Device time in ns of an instant given in tenths of a ns of monotonic time, now or to come. -/
def State.devAt (s : State) (t : Nat) : Nat := s.dev + (t - 10 * s.now) / 10

/-- The first block of the back-channel that a command may take: free, still to come, and none of the ALIGNs that stand every
256 blocks (R142). -/
def State.bcBlock (s : State) : Nat :=
  let k := max s.lnk.bcNext ((10 * s.now - s.lnk.bcAt + 2063) / 2064)
  if k % 256 = 0 then k + 1 else k

/-- The channel is free for a command now. -/
def State.bcMay (s : State) : Bool := decide (s.lnk.bcAt + 2064 * s.lnk.bcNext ≤ 10 * s.now + 2064)

/-- The ALIGN of interval `i` leaves. Between commands the channel sends FILL blocks, and the ALIGNs of intervals without a command;
the trace shows those only that come before a command or after an EXPOSE. -/
def State.bcAlign (s : State) (i : Nat) : State :=
  s.emit (.backchannel s.backLane 2 (alignBytes (s.lnk.bcSeq + i)) (s.devAt (s.lnk.bcAt + 2064 * 256 * i)))

/-- A data block of the back-channel leaves as block `k`, scrambled from the ALIGN before it on (R138); one FILL follows (R177). -/
def State.bcData (s : State) (k : Nat) (bs : List Byte) : State :=
  let i := k / 256
  let n := if i = s.lnk.bcIvl then s.lnk.bcData else 0
  let s := if i = s.lnk.bcIvl then s else s.bcAlign i
  let wire := (scrambleBlock (scrambleAfter (scrambleSeed 0) n) bs).1
  let s : State := { s with lnk := { s.lnk with
    bcIvl := i
    bcData := n + 1
    bcNext := k + 2 } }
  s.emit (.backchannel s.backLane 1 wire (s.devAt (s.lnk.bcAt + 2064 * k)))

/-- The cadence begins anew with an ALIGN at `t` tenths of a ns, which reseeds the scrambler (R181). -/
def State.bcRestart (s : State) (t seq : Nat) : State :=
  let s : State := { s with lnk := { s.lnk with
    bcAt := t
    bcSeq := seq % 65536
    bcNext := 1
    bcIvl := 0
    bcData := 0 } }
  s.bcAlign 0

/-- An exposure request whose EXPOSE would leave the balls at device time `leave`, `ahead` ns from now; `req` is the
short time that EXPOSE_DROPPED reports. The EXPOSE is a control block, cuts the block on the wire, and an ALIGN follows it
(R180, R181). Nothing is sent while the link is stopped (log entry 17), or while a fault of class UNIT keeps it from serving
ctx 0 (Table 4-5). -/
def State.expose (s : State) (leave ahead req : Nat) : State :=
  if s.linkSt = 0 || !s.serves Src.SLK 0 then s
  else if s.exposeBusy then
    (s.bump R.SLK_EXP_DROP 0 32 1).raise 0 0x0408 St.OK Src.SLK req
  else
    let tag := s.fd R.SLK_EXP_NEXT 0 8
    let s := s.wrF R.SLK_EXP_NEXT 0 8 (tag + 1)
    let t := 10 * (s.now + ahead)
    let x : Expose := { tag := tag, at_ := s.now + ahead, time := leave + s.fd R.SLK_EXP_LAT 0 20 }
    let cut := s.lnk.bcOut.filter (fun b => match b.sentAt with
      | some u => decide (t < u + 2064)
      | none => false)
    let seq := s.lnk.bcSeq + (t - s.lnk.bcAt) / 2064 / 256 + 1
    let s := { s with lnk := { s.lnk with
        exposes := (x :: s.lnk.exposes).take 256
        bcOut := s.lnk.bcOut.filter (fun b => !cut.contains b)
        bcq := cut.map (fun (b : BcCmd) => { b with sentAt := none }) ++ s.lnk.bcq } }
    (s.emit (.backchannel s.backLane 2 (exposeBytes tag (s.rd R.SLK_EXP_DUR).toNat) leave)).bcRestart (t + 2064) seq

end Sys2Proof.Machine
end

