-- ==== Sys2Proof/Machine/RingOps.lean ====
section
/-!
DEFINITION. Shared operations of the host rings (R445 to R460): completion entries, drops, staging, the start of an item
and its delivery into buffers, stopping a ring, and the holds on scaler buffers (R258, R454).
-/

set_option Elab.async false

namespace Sys2Proof.Machine

/-- The first occurrence of `a` in a list becomes `b`. -/
def repl1 {α : Type} [DecidableEq α] (a b : α) : List α → List α
  | [] => []
  | x :: xs => if x = a then b :: xs else x :: repl1 a b xs

/-- Ring `r`. -/
def State.ring (s : State) (r : Nat) : Ring := tabGet (fun _ => {}) s.rings r

/-- Ring `r` replaced. -/
def State.setRing (s : State) (r : Nat) (x : Ring) : State := { s with rings := tabSet (fun _ => {}) s.rings r x }

/-- The function whose Requester ID ring `r` carries (R444, R445). -/
def State.ringFn (s : State) (r : Nat) : Nat := (s.ctxOwner (r / 4)).getD 0

/-- Ring `r` is running. -/
def State.ringOn (s : State) (r : Nat) : Bool := s.bt (R.HLK_RING_CTRL r) 0

/-- Ring `r` is host-to-device. -/
def State.ringIn (s : State) (r : Nat) : Bool := s.bt (R.HLK_RING_CTRL r) 1

/-- log2 of the size of ring `r`. -/
def State.ringN (s : State) (r : Nat) : Nat := s.fd (R.HLK_RING_CTRL r) 2 4

/-- A 64-bit address from a register pair. -/
def State.addr64 (s : State) (lo hi : Nat) : Nat := (s.rd lo).toNat + (s.rd hi).toNat * 2 ^ 32

/-! ### Holds on scaler buffers -/

/-- CPL_SC_STAT's held bits as the holds stand (Table 9-9). -/
def State.holdRegs (s : State) (sc : Nat) : State :=
  s.wrF (R.CPL_SC_STAT sc) 2 4 (maskOf 4 (fun b => s.cpl.holds.any (fun h => decide (h.sc = sc) && decide (h.buf = b))))

/-- A consumer takes a buffer. -/
def State.hold (s : State) (h : Hold) : State :=
  ({ s with cpl := { s.cpl with holds := h :: s.cpl.holds } }).holdRegs h.sc

/-- A consumer releases a buffer. -/
def State.release (s : State) (h : Hold) : State :=
  ({ s with cpl := { s.cpl with holds := s.cpl.holds.erase h } }).holdRegs h.sc

/-! ### Completion entries and the device word -/

/-- RING_CPL for an entry, subject to IRQ and CPL_MOD (R459). -/
def State.ringEvent (s : State) (r : Nat) : State :=
  if !s.bt (R.HLK_RING_CTRL r) 13 then s
  else
    let x := s.ring r
    let gap := s.fd (R.HLK_RING_CTRL r) 16 8 * 1000
    match x.lastCpl with
    | some t => if s.now < t + gap then s.setRing r { x with cplPend := true }
      else (s.setRing r { x with lastCpl := some s.now }).raise (r / 4) 0x06C0 St.OK Src.HLK r
    | none => (s.setRing r { x with lastCpl := some s.now }).raise (r / 4) 0x06C0 St.OK Src.HLK r

/-- A posted write of ring `r` goes, or waits for Bus Master Enable (R443); `event`: a RING_CPL goes with it. -/
def State.hostWrite (s : State) (r addr : Nat) (bs : List Byte) (event : Bool) : State :=
  let fn := s.ringFn r
  if s.bme fn then
    let s := s.emit (.host fn addr bs)
    if event then s.ringEvent r else s
  else { s with mbx := { s.mbx with held := s.mbx.held ++ [{ ring := r, fn := fn, addr := addr, bytes := bs, event := event }] } }

/-- What waited for Bus Master Enable of function `fn` goes, oldest first (R443). -/
def State.hostFlush (s : State) (fn : Nat) : State :=
  let l := s.mbx.held.filter (fun h => decide (h.fn = fn))
  l.foldl (fun s h =>
    let s := s.emit (.host fn h.addr h.bytes)
    if h.event then s.ringEvent h.ring else s)
    { s with mbx := { s.mbx with held := s.mbx.held.filter (fun h => decide (h.fn ≠ fn)) } }

/-- The device word of ring `r` (Table 17-4); `event`: it follows a completion entry. -/
def State.devWord (s : State) (r : Nat) (event : Bool) : State :=
  let x := s.ring r
  s.hostWrite r (s.addr64 (R.HLK_RING_IDX_LO r) (R.HLK_RING_IDX_HI r) + 8) (leBytes 8 (x.subHead + x.cplProd * 2 ^ 32)) event

/-- The bytes of a completion entry (Table 17-3). -/
def cplEntry (cookie bytes status cflags kind phase item : Nat) : List Byte :=
  leBytes 4 cookie ++ leBytes 4 bytes ++ leBytes 1 status ++ leBytes 1 cflags ++ leBytes 1 kind ++ leBytes 1 phase ++
    leBytes 4 item

/-- The PHASE of the entry at free-running index `i` of a ring of 2^n entries. -/
def phaseOf (n i : Nat) : Nat := 1 - i / 2 ^ n % 2

/-- The first taken descriptor completes: its entry, then the device word (R447, R448). -/
def State.complete1 (s : State) (r bytes status cflags kind item : Nat) : State :=
  let x := s.ring r
  match x.taken with
  | [] => s
  | t :: ts =>
    let n := s.ringN r
    let a := s.addr64 (R.HLK_RING_CPL_LO r) (R.HLK_RING_CPL_HI r) + 16 * (x.cplProd % 2 ^ n)
    let s := s.hostWrite r a (cplEntry t.desc.cookie.toNat bytes status cflags kind (phaseOf n x.cplProd) item) false
    (s.setRing r { x with taken := ts, bufPos := 0, frontAt := s.now, cplProd := (x.cplProd + 1) % 65536 }).devWord r true

/-- Bad descriptors at the front complete BAD_ARGUMENT (R447); `n` bounds their number. -/
def State.popBad (s : State) (r : Nat) : Nat → State
  | 0 => s
  | n + 1 =>
    match (s.ring r).taken with
    | t :: _ => if t.bad then (s.complete1 r 0 St.BAD_ARGUMENT 0 0 (s.ring r).item).popBad r n else s
    | [] => s

/-! ### Items -/

/-- MiB of staging held, rounded up. -/
def State.stageRegs (s : State) : State :=
  s.wrF R.HLK_STAGE_USED 0 13 (unitsUp ((s.items.filter (·.staged)).map (·.size)).sum 0x100000 13)

/-- Runs of memory without their first `n` bytes. -/
def skipRuns : Nat → List (Nat × Nat) → List (Nat × Nat)
  | _, [] => []
  | n, (a, l) :: r => if l ≤ n then skipRuns (n - l) r else (a + n, l - n) :: r

/-- The first `n` bytes of runs of memory. -/
def headRuns : Nat → List (Nat × Nat) → List (Nat × Nat)
  | _, [] => []
  | n, (a, l) :: r => if n = 0 then [] else if l ≤ n then (a, l) :: headRuns (n - l) r else [(a, n)]

/-- The runs of `lo` to `hi` that runs in rising order leave free. -/
def freeRuns (lo hi : Nat) : List (Nat × Nat) → List (Nat × Nat)
  | [] => if lo < hi then [(lo, hi - lo)] else []
  | (a, l) :: r => (if lo < min a hi then [(lo, min a hi - lo)] else []) ++ freeRuns (max lo (a + l)) hi r

/-- The runs of the staging area of epoch `e` that no item holds (R455). -/
def State.stageFree (s : State) (e : Nat) : List (Nat × Nat) :=
  let lo := (s.cfg e R.HLK_STAGE_ADDR_LO).toNat + (s.cfg e R.HLK_STAGE_ADDR_HI).toNat * 2 ^ 32
  freeRuns lo (lo + s.cf e R.HLK_STAGE_SIZE 0 13 * 0x100000)
    (((s.items.filter (·.staged)).flatMap (·.runs)).insertionSort (fun a b => a.1 ≤ b.1))

/-- The next `k` bytes of an item where they lie: staging, a scaler buffer or a take's store (R455). -/
def Item.next (it : Item) (k : Nat) : List (Nat × Nat) := headRuns k (skipRuns it.pos it.runs)

/-- Those bytes. -/
def State.itemBytes (s : State) (it : Item) (k : Nat) : List Byte := (it.next k).flatMap (fun e => s.bytes e.1 e.2)

/-- They are read through port 9: the item is POISONED from the first uncorrectable word on, and reported then (R298, R444,
R460). -/
def State.itemRead (s : State) (it : Item) (k : Nat) : Item × State :=
  let ps := it.next k
  let bad := it.ue || ps.any (fun e => s.poisoned e.1 e.2)
  let s := s.dmaGets Port.hlk it.ctx ps
  if !bad || it.poisoned then (it, s)
  else
    ({ it with poisoned := true }, match it.take with
      | some (slot, _) => s.faultItem Src.LND 1 slot it.unit [Fin.ofNat 4096 it.ctx]
      | none => if it.staged then s.faultItem Src.HLK 1 0 it.ring [Fin.ofNat 4096 it.ctx] else s)

/-- An item ended, delivered or not: its staging or its scaler buffer is free, a take unit is counted (R298). -/
def State.itemEnd (s : State) (it : Item) (whole : Bool) : State :=
  let s := ({ s with items := s.items.erase it }).stageRegs
  let s := match it.scaler with
    | some (sc, b) => s.release { sc := sc, buf := b, who := 2, what := 0 }
    | none => s
  match it.take with
  | none => s
  | some (k, id) =>
    let t := tabGet (fun _ => {}) s.lnd.slots k
    match t.reads.find? (fun x => x.id = id) with
    | none => s
    | some x =>
      let x' := { x with left := x.left - 1, done := x.done + b2n whole, bad := x.bad || !whole }
      let rs := if x'.left = 0 then t.reads.erase x else repl1 x x' t.reads
      let s := { s with lnd := { s.lnd with slots := tabSet (fun _ => {}) s.lnd.slots k { t with reads := rs } } }
      if x'.left = 0 then
        s.raiseRes (s.fd (R.LND_SLOT_OWN k) 0 6) t.ctx 0x0506 (if x'.bad then St.ABORTED else St.OK) Src.LND
          (k + min (2 ^ 28 - 1) x'.done * 16)
      else s

/-- An item of ring `r` is dropped or truncated for reason 0 to 3 (R456, Table 17-8). -/
def State.countDrop (s : State) (r reason : Nat) : State :=
  let x := s.ring r
  let s := s.bump (R.HLK_RING_DROP r) (if reason = 0 then 0 else 16) 16 1
  if x.dropRun then s
  else (s.setRing r { x with dropRun := true }).raise (r / 4) 0x06C1 St.OK Src.HLK (r + reason * 0x4000)

/-- Room in the buffers taken and not used. -/
def Ring.room (x : Ring) : Nat := ((x.taken.filter (fun t => !t.bad)).map (fun t => t.desc.len.toNat)).sum - x.bufPos

/-- The ring can take `it` now (R449, R443): all of it when its size is known, any buffer otherwise. -/
def State.canTake (s : State) (r : Nat) (it : Item) : Bool :=
  s.bme (s.ringFn r) && (if it.known then decide (it.size ≤ (s.ring r).room) else decide (0 < (s.ring r).room))

/-- The first item of ring `r` starts, is dropped, or waits; `n` bounds how many items are looked at (R449, R452). -/
def State.startNext (s : State) (r : Nat) : Nat → State
  | 0 => s
  | n + 1 =>
    match s.items.find? (fun i => i.ring = r) with
    | none => s
    | some it =>
      if it.started then s
      else if !s.ringOn r then ((s.itemEnd it false).countDrop r 2).startNext r n
      else if s.ringIn r then ((s.itemEnd it false).countDrop r 3).startNext r n
      else if s.canTake r it then
        { s.setRing r { s.ring r with dropRun := false } with
          items := repl1 it { it with started := true, startAt := s.now } s.items }
      else if it.take.isSome then s
      else ((s.itemEnd it false).countDrop r 0).startNext r n

/-- An item arrives for ring `r`; an idle ring starts it at once. -/
def State.arrive (s : State) (it : Item) : State :=
  (({ s with items := s.items ++ [it] }).stageRegs).startNext it.ring (s.items.length + 1)

/-- The bytes of an item are written to runs of memory through port 9 (R455). -/
def State.putRuns (s : State) (ctx : Nat) : List (Nat × Nat) → List Byte → State
  | [], _ => s
  | (a, l) :: r, bs => State.putRuns (s.dmaPut Port.hlk ctx a (bs.take l)) ctx r (bs.drop l)

/-- An item of a staged source arrives with the bytes `bs` (R455): it is dropped where it finds no room, a video packet of unknown
size is cut to the room there is. Where in the free part of the area it is put the spec leaves open. -/
def State.stage (s : State) (it : Item) (bs : List Byte) : State :=
  let free := s.stageFree it.epoch
  let room := (free.map (·.2)).sum
  let n := if bs.length ≤ room then bs.length else if it.known then 0 else room
  if n = 0 then s.countDrop it.ring 1
  else
    let (v, s) := s.fresh
    let runs := headRuns n (skipRuns (v % room) free ++ headRuns (v % room) free)
    (s.putRuns it.ctx runs bs).arrive { it with size := n, runs := runs, trunc := decide (n < bs.length) }

/-- CFLAGS of the entry of a buffer (Table 17-3). -/
def cflags (first last trunc poison : Bool) : Nat := b2n first + 2 * b2n last + 4 * b2n trunc + 8 * b2n poison

/-- `n` bytes of the item in delivery go to the buffers of ring `r`; `f` bounds the buffers touched (R448, R449). -/
def State.fill (s : State) (r : Nat) : Nat → Nat → State
  | 0, _ => s
  | f + 1, n =>
    let s := s.popBad r (s.ring r).taken.length
    match s.items.find? (fun i => i.ring = r), (s.ring r).taken with
    | some it, t :: ts =>
      if !it.started || n = 0 then s
      else
        let x := s.ring r
        let k := min n (min (t.desc.len.toNat - x.bufPos) (it.size - it.pos))
        let s := s.emit (.host (s.ringFn r) (t.desc.addr.toNat + x.bufPos) (s.itemBytes it k))
        let (itR, s) := s.itemRead it k
        let it' := { itR with pos := it.pos + k }
        let s := { s.setRing r { x with bufPos := x.bufPos + k } with
          items := repl1 it it' s.items }
        let first := decide (it'.pos = x.bufPos + k)
        if it'.pos = it.size then
          let s := s.complete1 r (x.bufPos + k) St.OK (cflags first true it.trunc it'.poisoned) it.kind x.item
          let s := s.setRing r { s.ring r with item := (x.item + 1) % 2 ^ 32 }
          let s := s.itemEnd it' true
          let s := if it.trunc then s.countDrop r 1 else s
          ((s.popBad r (s.ring r).taken.length).startNext r (s.items.length + 1)).fill r f (n - k)
        else if x.bufPos + k = t.desc.len.toNat then
          if (ts.filter (fun t => !t.bad)).isEmpty && !it.known then
            let s := s.complete1 r (x.bufPos + k) St.OK (cflags first true true it'.poisoned) it.kind x.item
            let s := s.setRing r { s.ring r with item := (x.item + 1) % 2 ^ 32 }
            let s := (s.itemEnd it' false).countDrop r 0
            ((s.popBad r (s.ring r).taken.length).startNext r (s.items.length + 1)).fill r f (n - k)
          else
            (s.complete1 r (x.bufPos + k) St.OK (cflags first false false it'.poisoned) it.kind x.item).fill r f (n - k)
        else s
    | _, _ => s

/-! ### Stopping a ring -/

/-- The remaining taken descriptors complete with BYTES 0 and the status. -/
def State.abortTaken (s : State) (r status : Nat) : Nat → State
  | 0 => s
  | n + 1 =>
    match (s.ring r).taken with
    | [] => s
    | t :: _ => (s.complete1 r 0 (if t.bad then St.BAD_ARGUMENT else status) 0 0 (s.ring r).item).abortTaken r status n

/-- Ring `r` stops (R451): `cut` is the status of the buffer being written, `rest` of the descriptors not started,
`state` and `cause` what HLK_RING_STAT shows after. Up to `more` bytes of the current buffer were written before the
stop, none of them without Bus Master Enable (R443). -/
def State.stopRing (s : State) (r cut rest state cause more : Nat) : State :=
  let x := s.ring r
  let s := match s.items.find? (fun i => i.ring = r), x.taken with
    | some it, t :: _ =>
      if it.started && decide (it.startAt ≠ s.now || 0 < it.pos) && !t.bad then
        let k := if s.bme (s.ringFn r) then min more (min (t.desc.len.toNat - x.bufPos) (it.size - it.pos)) else 0
        let (itR, s) := if k = 0 then (it, s)
          else (s.emit (.host (s.ringFn r) (t.desc.addr.toNat + x.bufPos) (s.itemBytes it k))).itemRead it k
        let s := { s with items := repl1 it itR s.items }
        s.complete1 r (x.bufPos + k) cut (cflags (decide (it.pos = x.bufPos)) true true itR.poisoned) it.kind x.item
      else s
    | none, t :: _ =>
      if s.ringIn r && !t.bad && decide (x.frontAt ≠ s.now) then
        s.complete1 r (min more t.desc.len.toNat) cut (cflags true true true false) 0 x.item
      else s
    | _, _ => s
  let s := s.abortTaken r rest (s.ring r).taken.length
  let s := (s.items.filter (fun i => i.ring = r)).foldl (fun s it => (s.itemEnd it false).countDrop r 2) s
  let s := (s.wrF (R.HLK_RING_CTRL r) 0 1 0).wrs
    [(R.HLK_RING_STAT r, w32 (state + cause * 4 + (s.ring r).subHead * 0x10000))]
  s.devWord r false

/-- A ring binding names a ring of a context that `p` owns, with the direction `dirIn` (R452). -/
def State.bindOk (s : State) (p r : Nat) (dirIn : Bool) : Bool :=
  decide (r < 16384) && s.owns p (r / 4) && decide (s.ringIn r = dirIn)

/-- The registers of ring `r` clear (R445, R451). -/
def State.clearRing (s : State) (r : Nat) : State :=
  (s.regClear (R.HLK_RING_SUB_LO r) (R.HLK_RING_SUB_LO (r + 1))).setRing r {}

/-- A context's rings are stopped by a reset (R103, R451); levels 1 and 2 keep the registers with EN clear. -/
def State.resetRings (s : State) (cs : List Nat) (level : Nat) : State :=
  (cs.flatMap (fun c => [4 * c, 4 * c + 1, 4 * c + 2, 4 * c + 3])).foldl (fun s r =>
    let s := if s.ringOn r then s.stopRing r St.ABORTED St.RESET_DISCARDED 0 0 0 else s
    let s := s.setRing r { s.ring r with blocks := [] }
    if 3 ≤ level then s.clearRing r else s) s

/-- Item of stream `i` under epoch `e`: staged when the stream is enabled (R453, R455). -/
def State.streamItem (s : State) (e i kind : Nat) (bs : List Byte) : State :=
  if s.cf e (R.HLK_STREAM_CFG i) 0 1 = 1 then
    let r := s.cf e (R.HLK_STREAM_CFG i) 16 14
    s.stage { ring := r, kind := kind, epoch := e, ctx := r / 4 } bs
  else s

end Sys2Proof.Machine
end

