-- ==== Sys2Proof/Machine/CplOps.lean ====
section
/-!
DEFINITION. Shared operations of the colour pipeline and cruise statistics: the tap buffer (R240 to R243), development
from it (R244 to R249), output buffers (R257 to R259), and the statistics of R266 to R274.
-/

set_option Elab.async false

namespace Sys2Proof.Machine

/-! ### The tap -/

/-- Device frame `F` is selected for development under epoch `e` (R240). -/
def State.selected (s : State) (e no : Nat) : Bool :=
  let n := s.cf e R.CPL_DEC 0 16
  decide (n ≠ 0) && decide ((no + n - s.cf e R.CPL_DEC 16 16) % n = 0)

/-- T of R241 for a frame of `w` × `h`. -/
def tapBytes (w h : Nat) : Nat := (w * h * 2 + w * h / 8 + 4095) / 4096 * 4096

/-- Address of tap slot `j` under epoch `e`. -/
def State.tapBase (s : State) (e j : Nat) : Nat :=
  s.cfAddr e R.CPL_TAP_ADDR_LO R.CPL_TAP_ADDR_HI + j * tapBytes (s.frameWidth e) (s.frameHeight e)

/-- One row of samples and flags goes to the tap buffer (R241). -/
def State.tapRow (s : State) (e slot y : Nat) (row : List (Nat × Bool)) : State :=
  let w := s.frameWidth e
  let base := s.tapBase e slot
  let flags := (List.range (w / 8)).map (fun i =>
    BitVec.ofNat 8 (((List.range 8).map (fun b => b2n (row.getD (8 * i + b) (0, false)).2 * 2 ^ b)).sum))
  (s.dmaPut Port.tapWr 0 (base + 2 * y * w) ((List.range w).flatMap (fun x => leBytes 2 (row.getD x (0, false)).1))).dmaPut
    Port.tapWr 0 (base + 2 * w * s.frameHeight e + y * w / 8) flags

/-- A frame's first corrected samples reach the tap: it takes the slot the previous selected frame did not use, or is
skipped (R242). -/
def State.tapFirst (s : State) (f : Frame) : State :=
  if f.tapSeen then s
  else if s.cf f.epoch R.CPL_CFG 0 1 = 0 || !s.selected f.epoch f.no then s.putFrame { f with tapSeen := true }
  else
    let slot := match s.cpl.lastSlot with | some j => 1 - j | none => 0
    if s.ing.frames.any (fun g => decide (g.tap = some slot)) then
      ((s.putFrame { f with tapSeen := true }).bump R.CPL_SKIP_CNT 0 32 1).raiseOf f.epoch f.no 0 0x06A0 St.OK Src.CPL 0
    else
      ({ s.putFrame { f with tapSeen := true, tap := some slot } with
        cpl := { s.cpl with lastSlot := some slot } }).wrF R.CPL_STAT 2 1 slot

/-- Row `y` of frame `f` has been corrected. -/
def State.corrected (s : State) (f : Frame) (y : Nat) : Bool :=
  (List.range f.stripes.length).any (fun i =>
    let t := s.stripeTop f.epoch i
    decide (t ≤ y) && decide (y - t < (f.stripes.getD i {}).cor.length))

/-- Every stripe of `f` is corrected. -/
def State.allCorrected (s : State) (f : Frame) : Bool :=
  (List.range f.stripes.length).all (fun i => decide ((f.stripes.getD i {}).cor.length = s.stripeRows f.epoch i))

/-! ### Development -/

/-- The frame is monochrome under epoch `e` (PSC_CFG.CFA). -/
def State.mono (s : State) (e : Nat) : Bool := s.cf e R.PSC_CFG 1 1 = 1

/-- trim[k] (Table 9-9). -/
def State.trim (s : State) (e k : Nat) : Int := sx 16 (s.cf e (if k < 2 then R.CPL_TRIM_01 else R.CPL_TRIM_23) (16 * (k % 2)) 16)

/-- wb[k]. -/
def State.wb (s : State) (e k : Nat) : Nat := s.cf e (if k < 2 then R.CPL_WB_01 else R.CPL_WB_23) (16 * (k % 2)) 16

/-- A sample of the tap buffer; a run that read uncorrectable gives zero (R264). -/
def State.tapSample (s : State) (e slot : Nat) (ue : List (Nat × Nat × Nat)) (x y : Nat) : Nat :=
  if ue.any (fun u => decide (u.1 = y) && decide (u.2.1 ≤ x) && decide (x < u.2.1 + u.2.2)) then 0
  else s.num (s.tapBase e slot + 2 * (y * s.frameWidth e + x)) 2

/-- The beats of the tap slot whose stored samples read uncorrectable (R264, R327): row, first column, samples. -/
def State.tapHurt (s : State) (e slot : Nat) : List (Nat × Nat × Nat) :=
  let w := s.frameWidth e
  let base := s.tapBase e slot
  ((s.hurt base (2 * w * s.frameHeight e)).filter (fun u => decide (2 ≤ u.2))).map (fun u =>
    let i := (u.1 - base) / 2
    (i / w, i % w / 96 * 96, 96))

/-- A flag of the tap buffer. -/
def State.tapFlag (s : State) (e slot x y : Nat) : Bool :=
  let w := s.frameWidth e
  let i := y * w + x
  decide (s.num (s.tapBase e slot + 2 * w * s.frameHeight e + i / 8) 1 / 2 ^ (i % 8) % 2 = 1)

/-- Output of white balance, before flag repair (R244). -/
def State.devLinear (s : State) (f : Frame) (d : Dev) : Plane :=
  let e := f.epoch
  let ped := s.cf e R.PSC_LEVEL 0 16
  mkPlane (s.frameWidth e) (s.frameHeight e) (fun x y =>
    let k := cfaPhase x y
    cplLinear (s.frameDepth e) (s.tapSample e d.slot d.tapUe x y) ped (s.trim e k) (s.wb e k))

/-- The developed frame after the colour matrix (R245 to R249). -/
def State.devPicture (s : State) (f : Frame) (d : Dev) : Rgb :=
  let e := f.epoch
  let w := s.frameWidth e
  let h := s.frameHeight e
  let l := s.devLinear f d
  let bad := fun y => (List.range f.stripes.length).any (fun i =>
    (f.stripes.getD i {}).lost && decide (s.stripeTop e i ≤ y) && decide (y < s.stripeTop e (i + 1)))
  let l := if s.cf e R.CPL_CFG 5 1 = 1 then
      flagFix w h (if s.mono e then 1 else 2) l (mkPlane w h (fun x y => s.tapFlag e d.slot x y)) bad
    else l
  let rows := (List.range 3).map (fun r =>
    ([sx 16 (s.cf e (R.CPL_MTX_A r) 0 16), sx 16 (s.cf e (R.CPL_MTX_A r) 16 16), sx 16 (s.cf e (R.CPL_MTX_B r) 0 16)],
     sx 18 (s.cf e (R.CPL_MTX_OFF r) 0 18)))
  matrix rows (demosaic w h (s.cf e R.CPL_CFG 3 2) (s.cf e R.CPL_CFG 1 2) (s.mono e) l)

/-- Width and height of the developed frame (Table 9-2). -/
def State.devSize (s : State) (e : Nat) : Nat × Nat :=
  let k := if s.cf e R.CPL_CFG 1 2 = 2 then 2 else 1
  (s.frameWidth e / k, s.frameHeight e / k)

/-- The scaled and tone-mapped picture of scaler `o` (R250 to R253). -/
def State.scaled (s : State) (e o : Nat) (lut : List (List Nat)) (p : Rgb) : Rgb :=
  let (dw, dh) := s.devSize e
  let xy := s.cfg e (R.CPL_SC_CROP_XY o)
  let wh := s.cfg e (R.CPL_SC_CROP_WH o)
  let out := s.cfg e (R.CPL_SC_OUT_WH o)
  let ch := fun (k : Nat × Nat × Nat → Nat) => scaleChannel (fld xy 0 16) (fld xy 16 16) (fld wh 0 16) (fld wh 16 16)
    (fld out 0 16) (fld out 16 16) (s.cf e (R.CPL_SC_CFG o) 1 1) (fun x y => if x < dw ∧ y < dh then k (px p x y) else 0)
  let r := ch (·.1)
  let g := ch (·.2.1)
  let b := ch (·.2.2)
  toneMap lut (mkPlane (fld out 0 16) (fld out 16 16) (fun x y => (at2 r x y, at2 g x y, at2 b x y)))

/-- Base of buffer `b` of scaler `o` under epoch `e`. -/
def State.scBuf (s : State) (e o b : Nat) : Nat := s.cfAddr e (R.CPL_SC_BUF_LO o b) (R.CPL_SC_BUF_HI o b)

/-- The tone curves of scaler `o` (R253): empty when LUT_EN is clear. -/
def State.readLut (s : State) (e o : Nat) : List (List Nat) :=
  let base := s.cfAddr e (R.CPL_SC_LUT_LO o) (R.CPL_SC_LUT_HI o)
  if s.cf e (R.CPL_SC_CFG o) 5 1 = 0 then []
  else (List.range (if s.cf e (R.CPL_SC_CFG o) 6 1 = 1 then 1 else 3)).map (fun c =>
    (List.range 1025).map (fun i => s.num (base + 0xA00 * c + 2 * i) 2))

/-- Scaler `o`. -/
def State.scaler (s : State) (o : Nat) : ScalerSt := tabGet (fun _ => {}) s.cpl.scalers o

/-- Scaler `o` replaced. -/
def State.setScaler (s : State) (o : Nat) (x : ScalerSt) : State :=
  { s with cpl := { s.cpl with scalers := tabSet (fun _ => {}) s.cpl.scalers o x } }

/-- A buffer of scaler `o` is held by some consumer. -/
def State.held (s : State) (o b : Nat) : Bool := s.cpl.holds.any (fun h => decide (h.sc = o) && decide (h.buf = b))

/-- A live session is about to hold buffer `b` of scaler `o`, whose record has been written (R352, R259; log entry 98). -/
def State.claimed (s : State) (o b : Nat) : Bool :=
  s.vcd.pend.any (fun v => v.dest && decide (v.sc = o) && decide (v.out.buf = b))

/-- The buffer of the oldest output among those nobody holds; a buffer never written counts as older than any other, the
lowest number first (R258). -/
def State.pickBuf (s : State) (e o : Nat) : Option Nat :=
  let free := selIdx (2 + s.cf e (R.CPL_SC_CFG o) 9 2) (fun b => !s.held o b && !s.claimed o b)
  let done := (s.scaler o).done.map (·.buf)
  match free.find? (fun b => !done.contains b) with
  | some b => some b
  | none => done.find? (fun b => free.contains b)

/-- An event of scaler `o` about frame `no` of epoch `e`, under the ownership of that epoch (R261, R40). -/
def State.scEvent (s : State) (e no o code arg : Nat) : State :=
  let p := s.resOwnerAt e o
  let c := s.cf e (R.CPL_SC_CTX o) 0 12
  s.raiseIf (s.ownsAt e p c) p (s.evOf e no c code St.OK Src.CPL arg)

/-- Scaler `o` outputs developed frame `no` under epoch `e` (R260). -/
def State.outputs (s : State) (e o no : Nat) : Bool :=
  let n := s.cf e R.CPL_DEC 0 16
  let d := s.cf e (R.CPL_SC_CTX o) 16 8
  decide (s.cf e (R.CPL_SC_CFG o) 0 1 = 1) && decide (d ≠ 0) && decide ((no - s.cf e R.CPL_DEC 16 16) / n % d = 0)

/-! ### Statistics -/

/-- A counted point: column, row, and its channel values. -/
abbrev Pt := Nat × Nat × List (Nat × Nat)

/-- HIST body (R269). -/
def histBody (channels bl : Nat) (pts : List Pt) : List Byte :=
  (List.range channels).flatMap (fun c =>
    let vs := pts.flatMap (fun p => (p.2.2.filter (fun e => e.1 = c)).map (fun e => e.2 / 2 ^ (16 - bl)))
    (List.range (2 ^ bl)).flatMap (fun b => leBytes 4 (min 0xFFFFFFFF (vs.filter (· = b)).length)))

/-- A zone grid (R270). -/
structure Zones where
  x0 : Nat
  y0 : Nat
  w : Nat
  h : Nat
  zx : Nat
  zy : Nat
deriving DecidableEq, Repr

/-- Nominal zone width. -/
def Zones.zw (z : Zones) : Nat := z.w / z.zx / 2 * 2

/-- Nominal zone height. -/
def Zones.zh (z : Zones) : Nat := z.h / z.zy / 2 * 2

/-- The zone of a point in the region; the last column and row of zones extend to the region's end (R270). -/
def Zones.zone (z : Zones) (x y : Nat) : Option (Nat × Nat) :=
  if x < z.x0 || y < z.y0 || z.x0 + z.w ≤ x || z.y0 + z.h ≤ y then none
  else some (min (z.zx - 1) ((x - z.x0) / z.zw), min (z.zy - 1) ((y - z.y0) / z.zh))

/-- The points of zone (i, j). -/
def Zones.pts (z : Zones) (pts : List Pt) (i j : Nat) : List Pt := pts.filter (fun p => z.zone p.1 p.2.1 = some (i, j))

/-- One body entry for every zone in row-major order. -/
def Zones.body (z : Zones) (entry : Nat → Nat → List Byte) : List Byte :=
  (List.range z.zy).flatMap (fun j => (List.range z.zx).flatMap (fun i => entry i j))

/-- ZONE body (R271). -/
def zoneBody (z : Zones) (clip : Nat) (pts : List Pt) : List Byte :=
  z.body (fun i j =>
    let ps := z.pts pts i j
    (List.range 4).flatMap (fun c =>
      let vs := ps.flatMap (fun p => (p.2.2.filter (fun e => e.1 = c)).map (·.2))
      leBytes 8 (vs.sum % 2 ^ 48 + min 0xFFFF (vs.filter (fun v => clip ≤ v)).length * 2 ^ 48)))

/-- FOCUS body (R272): `pts` are the counted G photosites, `k` the pair distance. -/
def focusBody (z : Zones) (k : Nat) (pts : List Pt) : List Byte :=
  z.body (fun i j =>
    let ps := z.pts pts i j
    let val := fun x y => (ps.find? (fun p => decide (p.1 = x) && decide (p.2.1 = y))).map (fun p => (p.2.2.headD (0, 0)).2)
    let diffs := fun dx dy => ps.filterMap (fun p => (val (p.1 + dx) (p.2.1 + dy)).map (fun v =>
      ((v : Int) - ((p.2.2.headD (0, 0)).2 : Nat)).natAbs))
    let word := fun (ds : List Nat) => leBytes 8 (ds.sum % 2 ^ 48 + ds.foldl max 0 * 2 ^ 48)
    word (diffs k 0) ++ word (diffs 0 k))

/-- The Y channel of R267. -/
def lumaOf (p : Nat × Nat × Nat) : Nat := (3483 * p.1 + 11718 * p.2.1 + 1183 * p.2.2 + 8192) / 16384

/-- What follows the tag in a statistics record (Table 10-2). -/
def statRest (kind point scaler channels bl : Nat) (z : Option Zones) (samples : Nat) (body : List Byte) : List Byte :=
  let g := fun (f : Zones → Nat) => match z with | some z => f z | none => 0
  leBytes 4 (64 + body.length) ++ leBytes 1 kind ++ leBytes 1 (point + scaler * 4) ++ leBytes 1 channels ++ leBytes 1 bl ++
    leBytes 1 (g (·.zx)) ++ leBytes 1 (g (·.zy)) ++ leBytes 2 0 ++
    leBytes 2 (g (·.x0)) ++ leBytes 2 (g (·.y0)) ++ leBytes 2 (g (·.w)) ++ leBytes 2 (g (·.h)) ++
    leBytes 2 (g (·.zw)) ++ leBytes 2 (g (·.zh)) ++ leBytes 8 samples ++ leBytes 8 0 ++ body

/-- The zone grid of a point under epoch `e`. -/
def State.zones (s : State) (e p : Nat) : Zones :=
  { x0 := s.cf e (R.CRS_Z_XY p) 0 16, y0 := s.cf e (R.CRS_Z_XY p) 16 16, w := s.cf e (R.CRS_Z_WH p) 0 16
    h := s.cf e (R.CRS_Z_WH p) 16 16, zx := s.cf e (R.CRS_Z_GRID p) 0 7, zy := s.cf e (R.CRS_Z_GRID p) 8 6 }

/-- FLAGS of frame `f` as its rows stand: PARTIAL once a stripe of it is lost (Table 1-7). -/
def Frame.flagsNow (f : Frame) : Nat :=
  if f.stripes.any (·.lost) && decide (f.flags / Fl.PARTIAL % 2 = 0) then f.flags + Fl.PARTIAL else f.flags

/-- A record becomes due (R275): a destination that `owner` does not own in the frame's epoch discards it. -/
def State.statDue (s : State) (f : Frame) (owner ctx point scaler kind : Nat) (rest : List Byte) : State :=
  if s.ownsAt f.epoch owner ctx then
    { s with crs := { s.crs with due := s.crs.due ++ [{ ctx := ctx, owner := owner, point := point, scaler := scaler
                                                        kind := kind, frame := f.no, epoch := f.epoch, flags := f.flagsNow
                                                        rest := rest }] } }
  else s.noQueue owner

/-- Row `y` of `f` counts in statistics: it is not in a lost stripe nor after an ingest drop (R268). -/
def State.rowCounts (s : State) (f : Frame) (y : Nat) : Bool :=
  (List.range f.stripes.length).any (fun i =>
    let t := s.stripeTop f.epoch i
    let st := f.stripes.getD i {}
    decide (t ≤ y) && decide (y < t + s.stripeRows f.epoch i) && !st.lost &&
      (!st.drop || decide (y - t < st.rows.length)))

/-- The statistics of point `p` that are enabled: HIST, ZONE, FOCUS in that order, over the counted points. -/
def State.pointStats (s : State) (f : Frame) (p channels : Nat) (pts : List Pt) (focus : List Pt) : State :=
  let e := f.epoch
  let bl := if s.cf e R.CRS_CFG p 1 = 1 then 10 else 8
  let z := s.zones e p
  let route := fun j => s.cfg e (R.CRS_ROUTE j)
  let j0 := nth [0, 2, 5] p
  let inZ := fun (l : List Pt) => (l.filter (fun q => (z.zone q.1 q.2.1).isSome)).length
  let s := if bit (route j0) 12 then
      s.statDue f 0 (fld (route j0) 0 12) p 0 1 (statRest 1 p 0 channels bl none pts.length (histBody channels bl pts))
    else s
  let s := if bit (route (j0 + 1)) 12 then
      s.statDue f 0 (fld (route (j0 + 1)) 0 12) p 0 2
        (statRest 2 p 0 channels 0 (some z) (inZ pts) (zoneBody z (s.cf e R.CRS_CLIP 0 16) pts))
    else s
  if p = 1 && bit (route 4) 12 then
    s.statDue f 0 (fld (route 4) 0 12) p 0 3
      (statRest 3 p 0 channels 0 (some z) (inZ focus) (focusBody z (if s.mono e then 1 else 2) focus))
  else s

/-- TAP statistics of a selected frame, from the stream that feeds the tap (R266). -/
def State.tapStats (s : State) (f : Frame) : State :=
  let e := f.epoch
  let mono := s.mono e
  let excl := s.cf e R.CRS_CFG 3 1 = 1
  let pts := (List.range f.stripes.length).flatMap (fun i =>
    let t := s.stripeTop e i
    let st := f.stripes.getD i {}
    (List.range st.cor.length).flatMap (fun k =>
      if s.rowCounts f (t + k) then
        let row := st.cor.getD k []
        (List.range row.length).filterMap (fun x =>
          let q := row.getD x (0, false)
          if excl && q.2 then none
          else some (x, t + k, [(if mono then 0 else cfaPhase x (t + k), q.1 * 2 ^ (16 - s.frameDepth e))]))
      else []))
  s.pointStats f 0 (if mono then 1 else 4) pts []

/-- WB and MTX statistics of a developed frame (R266, R267, R272). -/
def State.devStats (s : State) (f : Frame) (d : Dev) : State :=
  let e := f.epoch
  let mono := s.mono e
  let w := s.frameWidth e
  let h := s.frameHeight e
  let excl := s.cf e R.CRS_CFG 3 1 = 1
  let l := s.devLinear f d
  let wb := (List.range h).flatMap (fun y => if s.rowCounts f y then
      (List.range w).filterMap (fun x => if excl && s.tapFlag e d.slot x y then none
        else some (x, y, [(if mono then 0 else cfaPhase x y, at2 l x y)]))
    else [])
  let green := wb.filter (fun p => mono || decide (cfaColour (s.cf e R.CPL_CFG 3 2) (cfaPhase p.1 p.2.1) = 1))
  let s := s.pointStats f 1 (if mono then 1 else 4) wb green
  let pic := s.devPicture f d
  let k := if s.cf e R.CPL_CFG 1 2 = 2 then 2 else 1
  let mtx := (List.range (h / k)).flatMap (fun y =>
    if (List.range k).all (fun i => s.rowCounts f (k * y + i)) then
      (List.range (w / k)).map (fun x =>
        let q := px pic x y
        (x, y, [(0, q.1), (1, q.2.1), (2, q.2.2), (3, lumaOf q)]))
    else [])
  s.pointStats f 2 4 mtx []

/-- Row `j` of scaler `o` draws on no row of the frame that R268 leaves out (log entry 80); rows beyond the developed frame
are black and no photosites (R251). -/
def State.scaledRowCounts (s : State) (f : Frame) (o j : Nat) : Bool :=
  let e := f.epoch
  let k := if s.cf e R.CPL_CFG 1 2 = 2 then 2 else 1
  let y0 := s.cf e (R.CPL_SC_CROP_XY o) 16 16
  let n := s.cf e (R.CPL_SC_CROP_WH o) 16 16
  (scaleSpan (scaleRatio n (s.cf e (R.CPL_SC_OUT_WH o) 16 16)) n (s.cf e (R.CPL_SC_CFG o) 1 1) j).all (fun r =>
    decide ((s.devSize e).2 ≤ y0 + r) || (List.range k).all (fun i => s.rowCounts f (k * (y0 + r) + i)))

/-- The histogram of scaler `o` for a frame it output (R266, R267, R268, R275). -/
def State.scalerStats (s : State) (f : Frame) (o : Nat) (lut : List (List Nat)) (pic : Rgb) : State :=
  let e := f.epoch
  if s.cf e (R.CRS_SC_CFG o) 0 1 = 0 then s
  else
    let bl := if s.cf e (R.CRS_SC_CFG o) 1 1 = 1 then 10 else 8
    let q := s.scaled e o lut pic
    let rows := (List.range q.length).filter (s.scaledRowCounts f o)
    let pts := rows.flatMap (fun y => (List.range (q.getD y []).length).map (fun x =>
      let v := px q x y
      (x, y, [(0, v.1), (1, v.2.1), (2, v.2.2), (3, lumaOf v)])))
    s.statDue f (s.resOwnerAt e o) (s.cf e (R.CRS_SC_ROUTE o) 0 12) 3 o 1 (statRest 1 3 o 4 bl none pts.length (histBody 4 bl pts))

/-- Development ends once the whole frame is in the tap buffer and every output is written: the statistics of the
developed frame become due in the order of R274, and the slot is free. -/
def State.devSettle (s : State) : State :=
  match s.cpl.dev with
  | none => s
  | some d =>
    match s.ing.frames.find? (fun f => f.no = d.no) with
    | none => s
    | some f =>
      if !d.todo.isEmpty || !f.tapDone || !f.closed then s
      else
        let pic := s.devPicture f d
        let s := s.devStats f d
        let s := d.outs.foldl (fun s o => s.scalerStats f o.sc o.lut pic) s
        let s := s.putFrame { f with tap := none }
        let s := { s with cpl := { s.cpl with dev := none } }
        (s.wrF R.CPL_STAT 0 1 0).wrs [(R.CPL_DEV_FRAME_LO, w32 f.no), (R.CPL_DEV_FRAME_HI, w32 (f.no / 2 ^ 32 % 256))]

end Sys2Proof.Machine
end

