-- ==== Sys2Proof/Machine/StageOps.lean ====
section
/-!
DEFINITION. Staging sets (R15 to R18, R93): entries, their checks, and the answer of every command that stages.
-/

set_option Elab.async false

namespace Sys2Proof.Machine

/-- Key of a staged entry. -/
def stageKey (p a : Nat) : Nat := p * 2 ^ 40 + a

/-- The value partition `p` has staged for the register at `a`. -/
def State.staged (s : State) (p a : Nat) : Option Word := tabGet (fun _ => none) s.ep.stage (stageKey p a)

/-- The staging set of partition `p`, lowest address first. -/
def State.stageSet (s : State) (p : Nat) : Over :=
  (s.ep.stage.filter (fun e => decide (e.1 / 2 ^ 40 = p))).filterMap (fun e => e.2.map (fun v => (e.1 % 2 ^ 40, v)))

/-- The staged value, or else the active one. -/
def State.stagedOr (s : State) (p a : Nat) : Word := (s.staged p a).getD (s.rd a)

/-- One entry of partition `p`, with the context a violation is charged to: answers whether it was suppressed (R17). -/
def State.stage1 (s : State) (p ctx a : Nat) (v : Word) : Bool × State :=
  if s.where_ a = .nowhere then (true, s.viol p Viol.noWindow ctx a)
  else if s.where_ a ≠ .window || !isSetting a then (true, s)
  else match regRow a with
    | none => (true, s)
    | some r =>
      if s.owner r a ≠ p then (true, s.viol p Viol.reg ctx a)
      else
        let set := tabSet (fun _ => none) s.ep.stage (stageKey p a) (some (v &&& w32 (regMask a)))
        (false, { s with ep := { s.ep with stage := set } })

/-- Entries in order: how many were suppressed. -/
def State.stageAll (s : State) (p ctx : Nat) : Over → Nat × State
  | [] => (0, s)
  | (a, v) :: r =>
    let (b, s) := s.stage1 p ctx a v
    let (n, s) := State.stageAll s p ctx r
    (b2n b + n, s)

/-- The answer of a command that stages `es` (R16, R93). -/
def stageAnswer (r : Req) (es : Over) (s : State) : Ans :=
  let (sup, s') := s.stageAll r.part r.ctx es
  let n := (s'.stageSet r.part).length
  if s.fd (R.PART_STAGE_QUOTA r.part) 0 15 < n then .done St.QUOTA_EXCEEDED [] s
  else .done St.OK [w32 n, w32 sup] s'

end Sys2Proof.Machine
end

