-- ==== Sys2Proof/Machine/MonOps.lean ====
section
/-!
DEFINITION. Shared operations of the monitor outputs (R372 to R391): the settings an output runs, rasters, layers and their
sources, composition, the frame start, events, the buffer pool, and the commit checks of Table 14-3.
-/

set_option Elab.async false

namespace Sys2Proof.Machine

/-! ### Outputs and their settings -/

/-- Output `o`. -/
def State.monOut (s : State) (o : Nat) : MonOut := tabGet (fun _ => {}) s.mon.outs o

/-- Output `o` replaced. -/
def State.setMon (s : State) (o : Nat) (m : MonOut) : State :=
  { s with mon := { s.mon with outs := tabSet (fun _ => {}) s.mon.outs o m } }

/-- Layer `l` of an output. -/
def MonOut.layer (m : MonOut) (l : Nat) : MonLayer := tabGet (fun _ => {}) m.layers l

/-- Layer `l` replaced. -/
def MonOut.setLayer (m : MonOut) (l : Nat) (x : MonLayer) : MonOut :=
  { m with layers := tabSet (fun _ => {}) m.layers l x }

/-- The setting at `a` as the output runs it. -/
def MonOut.rd (m : MonOut) (a : Nat) : Word := tabGet regReset m.regs a

/-- A field of it. -/
def MonOut.fd (m : MonOut) (a lo n : Nat) : Nat := fld (m.rd a) lo n

/-- The settings MON keeps of an epoch: its own and resource ownership. -/
def monSettings (t : Tab Word) : Tab Word :=
  t.filter (fun e => decide (e.1 / 0x100000000 = 0x28) ||
    (decide (R.CTX_RES_OWN 0 ≤ e.1) && decide (e.1 < R.CTX_RES_OWN 17)))

/-- Output `o` is on under a set of settings. -/
def monOn (t : Tab Word) (o : Nat) : Bool := bit (tabGet regReset t (R.MON_OUT_CTRL o)) 0

/-- The owner of a resource byte under the settings the output runs. -/
def MonOut.resOwner (m : MonOut) (b : Nat) : Nat := m.fd (R.CTX_RES_OWN (b / 4)) (8 * (b % 4)) 6

/-- The owner of output `o` in the epoch it runs. -/
def MonOut.owner (m : MonOut) (o : Nat) : Nat := m.resOwner (outputRes o)

/-- Active size of an SDI format (Table 14-1). -/
def sdiSize (fmt : Nat) : Nat × Nat := if fmt ≤ 2 then (1920, 1080) else if fmt ≤ 10 then (3840, 2160) else (4096, 2160)

/-- Frame rate of an SDI format as NUM ÷ DEN. -/
def sdiRate (fmt : Nat) : Nat × Nat :=
  match fmt with
  | 0 | 8 | 12 => (50, 1) | 1 | 9 => (60000, 1001) | 2 | 10 | 13 => (60, 1) | 3 => (24000, 1001) | 4 | 11 => (24, 1)
  | 5 => (25, 1) | 6 => (30000, 1001) | 7 => (30, 1) | _ => (0, 1)

/-- Width and height of output `o`. -/
def MonOut.size (m : MonOut) (o : Nat) : Nat × Nat :=
  if o < 2 then (m.fd (R.MON_OUT_SIZE o) 0 16, m.fd (R.MON_OUT_SIZE o) 16 16) else sdiSize (m.fd (R.MON_OUT_CTRL o) 4 4)

/-- An event of output `o` (R388), tagged with the epoch the output runs (R40). -/
def State.monEvent (s : State) (o code arg : Nat) : State :=
  let m := s.monOut o
  let ctx := m.fd (R.MON_OUT_CTRL o) 8 12
  if s.owns (m.owner o) ctx then
    s.raiseEv { s.evNow ctx code St.OK Src.MON arg with epoch := (s.rd (R.MON_OUT_EPOCH o)).toNat }
  else ((s.seqOf Src.MON).2).noQueue (m.owner o)

/-! ### Rectangles -/

/-- Nothing in it. -/
def Rect.empty (r : Rect) : Bool := decide (r.x1 ≤ r.x0) || decide (r.y1 ≤ r.y0)

/-- The part within `w` × `h`. -/
def Rect.clip (r : Rect) (w h : Nat) : Rect := ⟨r.x0, r.y0, min r.x1 w, min r.y1 h⟩

/-- The smallest rectangle with both in it. -/
def Rect.join (a b : Rect) : Rect :=
  if a.empty then b else if b.empty then a
  else ⟨min a.x0 b.x0, min a.y0 b.y0, max a.x1 b.x1, max a.y1 b.y1⟩

/-- Even edges around it. -/
def Rect.even (r : Rect) : Rect := ⟨r.x0 / 2 * 2, r.y0 / 2 * 2, (r.x1 + 1) / 2 * 2, (r.y1 + 1) / 2 * 2⟩

/-- `a` lies wholly within `b`. -/
def Rect.within (a b : Rect) : Bool :=
  decide (b.x0 ≤ a.x0) && decide (b.y0 ≤ a.y0) && decide (a.x1 ≤ b.x1) && decide (a.y1 ≤ b.y1)

/-- The point is in it. -/
def Rect.has (r : Rect) (x y : Nat) : Bool := decide (r.x0 ≤ x) && decide (x < r.x1) && decide (r.y0 ≤ y) && decide (y < r.y1)

/-! ### Composition (R379) -/

/-- `v` in `n` bits; what comes of a value that does not fit the spec does not say: an open value. -/
def fitBits (n v : Nat) : Nat := if v < 2 ^ n then v else (Config.tooWide n v).toNat % 2 ^ n

/-- Three components. -/
abbrev Px := Nat × Nat × Nat

/-- A function on every component. -/
def Px.map (f : Nat → Nat) (p : Px) : Px := (f p.1, f p.2.1, f p.2.2)

/-- A pixel of a layer's source, 12 bits per component. -/
def State.srcPx (s : State) (black : Px) (src : MonSrc) (x y : Nat) : Px :=
  match src with
  | .none | .black => black
  | .planes addr fmt _ h sy sc =>
    let off := fun k => addr + nth (planeOffsets (planeShapes fmt h sy sc)).1 k
    let ten := fun a => s.num a 2 % 1024 * 4
    match fmt with
    | 0 =>
      let v := s.num (off 0 + sy * y + 4 * x) 4
      (v % 1024 * 4, v / 1024 % 1024 * 4, v / 1048576 % 1024 * 4)
    | 1 => Px.map (fun v => fitBits 12 ((v + 8) / 16)) (s.num (off 0 + sy * y + 6 * x) 2, s.num (off 0 + sy * y + 6 * x + 2) 2,
        s.num (off 0 + sy * y + 6 * x + 4) 2)
    | 2 => (ten (off 0 + sy * y + 2 * x), ten (off 1 + sc * y + 2 * (x / 2)), ten (off 2 + sc * y + 2 * (x / 2)))
    | 3 => (ten (off 0 + sy * y + 2 * x), ten (off 1 + sc * (y / 2) + 4 * (x / 2)), ten (off 1 + sc * (y / 2) + 4 * (x / 2) + 2))
    | _ => Px.map (fun a => s.num a 2 % 4096) (off 0 + sy * y + 2 * x, off 1 + sc * y + 2 * x, off 2 + sc * y + 2 * x)

/-- Black of an output: RGB zero, or Y'CbCr narrow range. -/
def monBlack (o : Nat) : Px := if o < 2 then (0, 0, 0) else (256, 2048, 2048)

/-- One pixel of output `o`: BG, then layers 0 to 3 (R379). -/
def State.monPx (s : State) (o : Nat) (m : MonOut) (x y : Nat) : Px :=
  let bg := m.rd (R.MON_OUT_BG o)
  (List.range 4).foldl (fun (out : Px) l =>
    let y1 := m.layer l
    if y1.src = .none || y1.skip || !y1.rect.has x y then out
    else
      let p := s.srcPx (monBlack o) y1.src (x - y1.rect.x0) (y - y1.rect.y0)
      let mix := fun (a b : Nat) => (y1.alpha * a + (255 - y1.alpha) * b + 127) / 255
      (mix p.1 out.1, mix p.2.1 out.2.1, mix p.2.2 out.2.2))
    (fld bg 0 10 * 4, fld bg 10 10 * 4, fld bg 20 10 * 4)

/-- Three components as one number. -/
def packPx (p : Px) : Nat := p.1 + p.2.1 * 2 ^ 10 + p.2.2 * 2 ^ 20

/-- The pixel an output sends: SDI takes chroma from the even column (R379). -/
def State.monSend (s : State) (o : Nat) (m : MonOut) (x y : Nat) : Nat :=
  let ten := fun v => fitBits 10 ((v + 2) / 4)
  if o < 2 then
    packPx (Px.map (if m.fd (R.MON_OUT_DSI o) 14 1 = 0 then fun v => fitBits 8 ((v + 8) / 16) else ten) (s.monPx o m x y))
  else
    let c := s.monPx o m (x / 2 * 2) y
    packPx (Px.map ten ((s.monPx o m x y).1, c.2.1, c.2.2))

/-- The coding of output `o`'s lane, as its format demands (R134, Table 14-1); none for a DSI port. -/
def State.sdiCoding (o : Nat) (m : MonOut) : Option SdiCoding :=
  if o < 2 then none
  else
    let fmt := m.fd (R.MON_OUT_CTRL o) 4 4
    let g := if fmt ≤ 2 then (297, 424) else if fmt ≤ 7 || fmt = 11 then (594, 2081) else (1188, 2082)
    some { lane := 60 + (o - 2), rate := g.1, per1001 := decide ((sdiRate fmt).2 = 1001), standard := g.2 }

/-- Where the pixels of line `y` that output `o` composes lie, layer by layer. -/
def MonOut.spans (m : MonOut) (y : Nat) : List (Nat × Nat) :=
  (List.range 4).flatMap (fun l =>
    let z := m.layer l
    match z.src with
    | .planes addr fmt w h sy sc =>
      if z.skip || y < z.rect.y0 || z.rect.y1 ≤ y then [] else pictureSpans addr fmt w h sy sc (y - z.rect.y0) (y - z.rect.y0 + 1)
    | .none | .black => [])

/-- Output `o` fetches line `y` for its context (R328). Answers whether a word came poisoned (R389, R327). -/
def State.monFetch (s : State) (o y : Nat) : Bool × State :=
  let m := s.monOut o
  let l := m.spans y
  (l.any (fun e => s.poisoned e.1 e.2), s.dmaGets Port.monRd (m.fd (R.MON_OUT_CTRL o) 8 12) l)

/-- Columns `x0` to `x1` of line `y` as they go out; from column `miss` on the last pixel sent repeats (R386). -/
def State.monLine (s : State) (o y x0 x1 : Nat) (miss : Option Nat) : List Nat × State :=
  let m := s.monOut o
  let good := match miss with | some c => min x1 (max c x0) | none => x1
  let sent := (List.range (good - x0)).map (fun i => s.monSend o m (x0 + i) y)
  let last := sent.getLastD m.lastPx
  let all := sent ++ List.replicate (x1 - good) last
  (all, s.setMon o { m with lastPx := all.getLastD m.lastPx })

/-- Pixel data of a DSI port: RGB888 as three bytes; RGB101010 as 30 bits a pixel, R lowest, without gaps (log entry 84). -/
def dsiBytes (ten : Bool) (px : List Nat) : List Byte :=
  if ten then leBytes (ceilDiv (30 * px.length) 8) ((List.range px.length).map (fun i => nth px i % 2 ^ 30 * 2 ^ (30 * i))).sum
  else px.flatMap (fun v => [BitVec.ofNat 8 v, BitVec.ofNat 8 (v / 2 ^ 10), BitVec.ofNat 8 (v / 2 ^ 20)])

/-- write_memory_continue packets of at most MAX_PKT bytes of pixel data (R375). -/
def State.dsiPackets (s : State) (o : Nat) (px : List Nat) : State :=
  let d := (s.monOut o).rd (R.MON_OUT_DSI o)
  let bs := dsiBytes (bit d 14) px
  let n := max 1 (16 * fld d 21 11)
  (List.range (ceilDiv bs.length n)).foldl (fun s i => s.emit (.dsi o 0x3C ((bs.drop (n * i)).take n))) s

/-- A line with a repeated pixel is counted; the first of a frame raises UNDERRUN (R386). -/
def State.monUnder (s : State) (o y : Nat) : State :=
  let m := s.monOut o
  let s := s.bump (R.MON_OUT_UNDER o) 0 32 1
  if m.under then s else (s.setMon o { m with under := true }).monEvent o 0x0804 (o + y * 65536)

/-- SCAN_READ_UE on a line (R389). -/
def State.monUe (s : State) (o y : Nat) : State :=
  s.faultItem Src.MON 1 o y [Fin.ofNat 4096 ((s.monOut o).fd (R.MON_OUT_CTRL o) 8 12)]

/-- FRAME_DONE of output `o`, with DONE_EN (R388). -/
def State.monDone (s : State) (o : Nat) : State :=
  let m := s.monOut o
  if m.fd (R.MON_OUT_LINE o) 18 1 = 0 then s
  else s.monEvent o 0x0803 (o + b2n m.late * 8 + b2n m.under * 16 + (s.rd (R.MON_OUT_FRAMES o)).toNat % 2 ^ 24 * 256)

/-- BLANK_START, with BLANK_EN. -/
def State.monBlank (s : State) (o : Nat) : State :=
  if (s.monOut o).fd (R.MON_OUT_LINE o) 17 1 = 0 then s else s.monEvent o 0x0801 o

/-- LINE_MATCH when line `y` is LINE and LM_EN is set. -/
def State.monMatch (s : State) (o y : Nat) : State :=
  let m := s.monOut o
  if m.fd (R.MON_OUT_LINE o) 16 1 = 1 && decide (m.fd (R.MON_OUT_LINE o) 0 16 = y) then s.monEvent o 0x0802 (o + y * 65536)
  else s

/-! ### The buffer pool (R382) -/

/-- Partition `p` holds pool buffer `b`. -/
def State.fbHeld (s : State) (p b : Nat) : Bool := decide (tabGet (fun _ => 0) s.mon.fb b = p + 1)

/-- Pool buffers nobody holds. -/
def State.fbFree (s : State) : List Nat := selIdx (s.fd R.MON_FB_CFG 16 8) (fun b => decide (tabGet (fun _ => 0) s.mon.fb b = 0))

/-- Pool buffers of partition `p`. -/
def State.fbOf (s : State) (p : Nat) : List Nat := selIdx 255 (s.fbHeld p)

/-- MON_FB_FREE and PART_POOL_USED as the pool stands. -/
def State.fbRegs (s : State) (p : Nat) : State :=
  (s.wr R.MON_FB_FREE (w32 s.fbFree.length)).wrF (R.PART_POOL_USED p) 8 8 (s.fbOf p).length

/-- Pool buffer `b` becomes partition `p`'s, or free. -/
def State.setFb (s : State) (b : Nat) (p : Option Nat) : State :=
  { s with mon := { s.mon with fb := tabSet (fun _ => 0) s.mon.fb b (match p with | some p => p + 1 | none => 0) } }

/-- `n` free buffers become partition `p`'s; which, the spec leaves open. -/
def State.fbTake (s : State) (p : Nat) : Nat → State
  | 0 => s
  | n + 1 =>
    let free := s.fbFree
    let (v, s) := s.fresh
    (s.setFb (nth free (v % max 1 free.length)) (some p)).fbTake p n

/-- Pool buffer `b` is shown by a layer. -/
def State.fbShown (s : State) (b : Nat) : Bool :=
  (List.range 6).any (fun o =>
    let m := s.monOut o
    monOn m.regs o && (List.range 4).any (fun l =>
      m.fd (R.MON_LY_CFG o l) 0 2 = 3 && (m.layer l).src ≠ .none && (m.layer l).src ≠ .black && decide ((m.layer l).buf = b)))

/-- Every pool buffer of partition `p` is free (R101, R383). -/
def State.fbDrop (s : State) (p : Nat) : State := ((s.fbOf p).foldl (fun s b => s.setFb b none) s).fbRegs p

/-! ### The output frame start (R377 to R385) -/

/-- Layer `l` takes, keeps or lets go of a scaler buffer (R381). Answers whether it took a new one. -/
def State.monTake (s : State) (o l : Nat) : Bool × State :=
  let m := s.monOut o
  let x := m.layer l
  let sc := m.fd (R.MON_LY_CFG o l) 2 3
  let wanted := monOn m.regs o && decide (m.fd (R.MON_LY_CFG o l) 0 2 = 1)
  let holdOf := fun (t : Nat × OutBuf) => ({ sc := t.1, buf := t.2.buf, who := 0, what := 4 * o + l } : Hold)
  let drop := fun (s : State) => match x.take with | some t => s.release (holdOf t) | none => s
  if !wanted then (false, (drop s).setMon o (m.setLayer l { x with take := none }))
  else
    let (x, s) := match x.take with
      | some t => if t.1 = sc then (x, s) else ({ x with take := none }, drop s)
      | none => (x, s)
    match ((s.scaler sc).done.filter (fun b =>
        b.destMon && decide (b.owner = m.owner o) && decide (b.at_ + 2000 ≤ s.now))).getLast? with
    | none => (false, s.setMon o (m.setLayer l x))
    | some b =>
      match x.take with
      | some t =>
        if t.2 = b then (false, s.setMon o (m.setLayer l x))
        else
          let s := (s.release (holdOf t)).hold (holdOf (sc, b))
          (true, s.setMon o (m.setLayer l { x with take := some (sc, b) }))
      | none => (true, (s.hold (holdOf (sc, b))).setMon o (m.setLayer l { x with take := some (sc, b) }))

/-- An output takes layers of this format (R378). -/
def monFormat (o fmt : Nat) : Bool := if o < 2 then decide (fmt ≤ 1) else decide (2 ≤ fmt) && decide (fmt ≤ 4)

/-- What layer `l` shows in the frame that starts (R378, R383, R387). -/
def State.monShow (s : State) (o l : Nat) : MonLayer :=
  let m := s.monOut o
  let x := m.layer l
  let (w, h) := m.size o
  let cfg := m.rd (R.MON_LY_CFG o l)
  let pos := m.rd (R.MON_LY_POS o l)
  let place := fun a b => (⟨fld pos 0 16, fld pos 16 16, fld pos 0 16 + a, fld pos 16 16 + b⟩ : Rect).clip w h
  let none_ : MonLayer := { x with src := .none, skip := false, buf := 0 }
  if !bit cfg 0 then none_
  else if bit cfg 1 then
    let b := x.flip.getD (fld cfg 16 8)
    let sz := m.rd (R.MON_LY_SIZE o l)
    let st := m.rd (R.MON_LY_STRIDE o l)
    let base := (m.rd R.MON_FB_ADDR_LO).toNat + m.fd R.MON_FB_ADDR_HI 0 8 * 2 ^ 32 + m.fd R.MON_FB_CFG 0 9 * 0x100000 * b
    let held := s.fbHeld (m.owner o) b
    { x with rect := place (fld sz 0 16) (fld sz 16 16), buf := b, skip := false
             alpha := if held then fld cfg 8 8 else 255
             src := if held then .planes base (fld cfg 5 3) (fld sz 0 16) (fld sz 16 16) (fld st 0 16) (fld st 16 16) else .black }
  else match x.take with
    | some (_, b) =>
      if monFormat o b.fmt then
        { x with rect := place b.w b.h, buf := b.buf, skip := false, alpha := fld cfg 8 8
                 src := .planes b.addr b.fmt b.w b.h b.strideY b.strideC }
      else none_
    | none => none_

/-- Layer `l` is hidden by an opaque layer above it (R380). -/
def MonOut.hidden (m : MonOut) (l : Nat) : Bool :=
  let x := m.layer l
  decide (x.src ≠ .none) && (List.range 4).any (fun k => decide (l < k) && decide ((m.layer k).src ≠ .none) && decide ((m.layer k).alpha = 255) &&
    !(m.layer k).rect.empty && x.rect.within (m.layer k).rect)

/-- MON_OUT_STAT and the layers' status as the output stands. -/
def State.monStat (s : State) (o : Nat) : State :=
  let m := s.monOut o
  let on := monOn m.regs o
  let shows := (List.range 4).any (fun l => decide ((m.layer l).src ≠ .none))
  let s := (s.wrF (R.MON_OUT_STAT o) 0 1 (b2n on)).wrF (R.MON_OUT_STAT o) 2 1 (b2n (on && !shows))
  (List.range 4).foldl (fun (s : State) l =>
    let x := m.layer l
    s.wr (R.MON_LY_STAT o l) (w32 (x.buf + b2n (decide (x.src ≠ .none)) * 256 + b2n x.skip * 512))) s

/-- The pushes that apply at this frame start: flips, in order of acceptance, and the regions (R384). -/
def State.monPushes (s : State) (o : Nat) : Rect × List Nat × State :=
  let now := s.mon.pushes.filter (fun p => decide (p.output = o) && decide (p.at_ + 50000 ≤ s.now))
  let s := { s with mon := { s.mon with pushes := s.mon.pushes.filter (fun p => !now.contains p) } }
  let r := now.foldl (fun (r : Rect) p => match p.rect with | some q => r.join q | none => r) ⟨0, 0, 0, 0⟩
  let s := now.foldl (fun (s : State) p => match p.flip with
    | some b => s.setMon o ((s.monOut o).setLayer p.layer { (s.monOut o).layer p.layer with flip := some b })
    | none => s) s
  (r, (now.filter (fun p => p.flip.isSome)).map (·.layer), s)

/-- The settings of layer `l` of output `o`, for the test of a change (R377). -/
def MonOut.layerCfg (m : MonOut) (o l : Nat) : List Word :=
  [m.rd (R.MON_LY_CFG o l), m.rd (R.MON_LY_POS o l), m.rd (R.MON_LY_SIZE o l), m.rd (R.MON_LY_STRIDE o l)]

/-- The settings of the epoch `e` apply on output `o`; a commit that changes a layer's BUF ends its flip. -/
def State.monApply (s : State) (o : Nat) (e : MonEpoch) (late : Bool) : State :=
  let m := s.monOut o
  let m' := { m with regs := e.regs, ord := e.ord, late := late }
  let m' := (List.range 4).foldl (fun (m' : MonOut) l =>
    if m.fd (R.MON_LY_CFG o l) 16 8 ≠ m'.fd (R.MON_LY_CFG o l) 16 8 then
      m'.setLayer l { m'.layer l with flip := none }
    else m') m'
  let s := (s.setMon o m').wr (R.MON_OUT_EPOCH o) (w32 e.epoch)
  if late then s.bump (R.MON_OUT_LATE o) 0 32 1 else s

/-- Epochs that every output has passed are forgotten. -/
def State.monPrune (s : State) : State :=
  { s with mon := { s.mon with hist := s.mon.hist.filter (fun e => (List.range 6).any (fun o => decide ((s.monOut o).ord < e.ord))) } }

/-- The latest tick of cadence `k` at or before now, on device time (R409); with REF SENSOR the moment is the sender's (log entry
84). -/
def State.cadLast (s : State) (k : Nat) : Option Int :=
  let ref := s.fd (R.TIM_CAD_CFG k) 0 2
  if ref = 0 then none
  else if ref = 3 then some s.dev
  else
    let num := s.fd (R.TIM_CAD_RATE k) 0 20
    let den := s.fd (R.TIM_CAD_RATE k) 20 12
    let ph := sx 32 (s.rd (R.TIM_CAD_PHASE k)).toNat + (if ref = 2 then (tabGet (fun _ => {}) s.tim.gen k).phase else 0)
    some (tickAt num den (tickIdx num den (s.dev + 1 - ph) - 1) + ph)

/-- The latest tick at or before now of the cadence that starts the frames of output `o`: TIM_OUT_CAD's for an SDI output (R411),
the port's own of PERIOD for a DSI port (R376). -/
def State.monTick (s : State) (o : Nat) : Option Int :=
  if o < 2 then
    let p := max 1 ((s.monOut o).fd (R.MON_OUT_DSI_T o) 16 16 * 10000)
    some ((s.dev / p * p : Nat) : Int)
  else s.cadLast (s.fd R.TIM_OUT_CAD (2 * (o - 2)) 2)

/-- A tick `t` has come that is later than the last one taken. -/
def newTick (last t : Option Int) : Bool :=
  match last, t with
  | _, none => false
  | none, some _ => true
  | some a, some b => decide (a < b)

/-- After a step of device time the next tick is the first computed one later than the step (R393). -/
def State.reTick (s : State) : State :=
  let s := { s with tim := { s.tim with
    ticks := (List.range 4).foldl (fun t k => tabSet (fun _ => none) t k (s.cadLast k)) s.tim.ticks } }
  (selIdx 6 (fun o => monOn (s.monOut o).regs o)).foldl (fun s o => s.setMon o { s.monOut o with tick := s.monTick o }) s

/-- An output frame start of output `o` (R377 to R385). -/
def State.monStart (s : State) (o : Nat) : State :=
  let m := s.monOut o
  let newer := s.mon.hist.filter (fun e => decide (m.ord < e.ord))
  let ready := newer.filter (fun e => decide (e.at_ + 50000 ≤ s.now))
  let wasOn := monOn m.regs o
  let was := m
  let s := s.setMon o { m with late := false, under := false }
  let s := match ready.getLast? with
    | some e => s.monApply o e (wasOn && m.miss)
    | none => s
  let m := s.monOut o
  let on := monOn m.regs o
  let s := s.setMon o { m with miss := on && newer.any (fun e => decide (s.now < e.at_ + 50000)) }
  let s := s.monPrune
  if !on then
    let s := (List.range 4).foldl (fun (s : State) l => (s.monTake o l).2) s
    let s := s.setMon o { s.monOut o with layers := [], line := none, dirty := none, startAt := none, teDue := none, tick := none }
    (s.wrF (R.MON_OUT_STAT o) 1 1 0).monStat o
  else
    let s := if wasOn then s else s.setMon o { s.monOut o with teAt := some s.now }
    let (pushed, flipped, s) := s.monPushes o
    let (taken, s) := (List.range 4).foldl (fun (a : List Nat × State) l =>
      let (t, s) := a.2.monTake o l
      (if t then a.1 ++ [l] else a.1, s)) ([], s)
    let s := s.setMon o ((List.range 4).foldl (fun (m : MonOut) l => m.setLayer l (s.monShow o l)) (s.monOut o))
    let m := s.monOut o
    let s := s.setMon o ((List.range 4).foldl (fun (m' : MonOut) l => m'.setLayer l { m'.layer l with skip := m.hidden l }) m)
    let m := s.monOut o
    let (w, h) := m.size o
    let changed := (List.range 4).filter (fun l => decide (was.layerCfg o l ≠ m.layerCfg o l))
    let rects := (taken ++ flipped).map (fun l => (m.layer l).rect) ++
      changed.flatMap (fun l => [if (was.layer l).src = .none then ⟨0, 0, 0, 0⟩ else (was.layer l).rect,
        if (m.layer l).src = .none then ⟨0, 0, 0, 0⟩ else (m.layer l).rect])
    let dirty := if wasOn then ((rects.foldl Rect.join pushed).clip w h) else ⟨0, 0, w, h⟩
    let dirty := if dirty.empty then dirty else dirty.even.clip w h
    let s := s.wr (R.MON_OUT_FRAMES o) (s.rd (R.MON_OUT_FRAMES o) + 1)
    let m := { m with startAt := some s.now, teDue := none, tick := s.monTick o }
    let s :=
      if o < 2 then
        let all := match m.dirty with | some d => d.join dirty | none => dirty
        if all.empty then s.setMon o { m with dirty := none }
        else
          let be := fun (v : Nat) => [BitVec.ofNat 8 (v / 256), BitVec.ofNat 8 v]
          (((s.setMon o { m with dirty := some all }).emit (.dsi o 0x2A (be all.x0 ++ be (all.x1 - 1)))).emit
            (.dsi o 0x2B (be all.y0 ++ be (all.y1 - 1))))
      else s.setMon o { m with line := some 0 }
    s.monStat o

/-- A new epoch's settings reach MON at its first boundary (R385). An output that is off in them and in the settings it
runs follows at once. -/
def State.monBoundary (s : State) (epoch : Nat) : State :=
  let e : MonEpoch := { ord := s.mon.ord + 1, epoch := epoch, at_ := s.now, regs := monSettings s.regs }
  let s := { s with mon := { s.mon with ord := e.ord, hist := s.mon.hist ++ [e] } }
  let s := (List.range 6).foldl (fun (s : State) o =>
    let m := s.monOut o
    let between := s.mon.hist.filter (fun x => decide (m.ord < x.ord))
    if monOn m.regs o || between.any (fun x => monOn x.regs o) then s else s.monApply o e false) s
  (s.monPrune).wr R.MON_FB_FREE (w32 s.fbFree.length)

/-- The first tick at or after device time `t` of a cadence of NUM ÷ DEN Hz with a phase (R409). -/
def cadenceTick (num den : Nat) (phase t : Int) : Int := tickAt num den (tickIdx num den (t - phase)) + phase

/-- The device time of output `o`'s first frame start at least 50 µs from now, as its cadence gives it (R384, R411); where
it does not (SENSOR cadences, a panel's TE edge) an open value. -/
def State.monNext (s : State) (o : Nat) : Nat × State :=
  let m := s.monOut o
  if o < 2 then
    let p := max 1 (m.fd (R.MON_OUT_DSI_T o) 16 16 * 10000)
    match m.fd (R.MON_OUT_DSI o) 15 1, m.startAt with
    | 0, some t =>
      let n := ceilDiv (s.now + 50000 - t) p
      (s.dev + (t + n * p - s.now), s)
    | _, _ => s.fresh
  else
    let k := s.fd R.TIM_OUT_CAD (2 * (o - 2)) 2
    let ref := s.fd (R.TIM_CAD_CFG k) 0 2
    if ref = 1 || ref = 2 then
      let steer := if ref = 2 then (tabGet (fun _ => {}) s.tim.gen k).phase else 0
      ((cadenceTick (s.fd (R.TIM_CAD_RATE k) 0 20) (s.fd (R.TIM_CAD_RATE k) 20 12)
        (sx 32 (s.rd (R.TIM_CAD_PHASE k)).toNat + steer) (s.dev + 50000)).toNat, s)
    else s.fresh

/-! ### Commit checks (Table 14-3) -/

/-- The monitor checks; the cause register also takes the output. Formats, strides, pool indices and panel sizes are those of
enabled outputs and layers, whose reset values would not pass (log entry 83). -/
def State.chkMon (s : State) (es own : Over) : Option (Nat × Nat) :=
  let on := selIdx 6 (fun o => s.ob es (R.MON_OUT_CTRL o) 0)
  let ly := fun o => (selIdx 4 (fun l => s.ob es (R.MON_LY_CFG o l) 0)).map (fun l => (o, l))
  let pool := fun (e : Nat × Nat) => s.ob es (R.MON_LY_CFG e.1 e.2) 1
  let fmt := fun (e : Nat × Nat) => if pool e then s.of es (R.MON_LY_CFG e.1 e.2) 5 3
    else s.of es (R.CPL_SC_CFG (s.of es (R.MON_LY_CFG e.1 e.2) 2 3)) 2 3
  let odd := fun a => decide (s.of es a 0 16 % 2 = 1) || decide (s.of es a 16 16 % 2 = 1)
  let side := fun n => decide (n < 64) || decide (4096 < n)
  let count := s.of es R.MON_FB_CFG 16 8
  let mib := s.of es R.MON_FB_CFG 0 9
  let a := s.oAddr es R.MON_FB_ADDR_LO R.MON_FB_ADDR_HI
  let resO := fun b => s.of es (R.CTX_RES_OWN (b / 4)) (8 * (b % 4)) 6
  let changes := own.any (fun e => (decide (e.1 = R.MON_FB_CFG) || decide (e.1 = R.MON_FB_ADDR_LO) ||
    decide (e.1 = R.MON_FB_ADDR_HI)) && decide (e.2 ≠ s.rd e.1))
  let dsiBad := fun o =>
    let d := s.ov es (R.MON_OUT_DSI o)
    let t := s.of es (R.MON_OUT_DSI_T o) 16 16
    decide (fld d 2 12 < 80) || decide (2500 < fld d 2 12) || decide (fld d 21 11 < 4) || decide (t < 100) ||
      decide (10000 < t) || (bit d 15 && decide (resO (0x24 + fld d 16 5) ≠ resO (outputRes o)))
  if decide (mib = 0) || decide (256 < mib) then some (0, 0)
  else refuse1 R.MON_REJ_CAUSE (
    [2, 3, 4, 5].map (fun o => ((on.contains o && decide (s.of es (R.LNA_QUAD_CFG 15) 0 2 ≠ 2)) ||
      decide (14 ≤ s.of es (R.MON_OUT_CTRL o) 4 4), 1 + 256 * o)) ++
    (List.range 6).map (fun o => ((List.range 4).any (fun l => odd (R.MON_LY_POS o l) || odd (R.MON_LY_SIZE o l)) ||
      (on.contains o && (ly o).any (fun e => !monFormat o (fmt e))), 2 + 256 * o)) ++
    (on.filter (fun o => decide (o < 2))).map (fun o => (side (s.of es (R.MON_OUT_SIZE o) 0 16) ||
      side (s.of es (R.MON_OUT_SIZE o) 16 16), 2 + 256 * o)) ++
    ((on.flatMap ly).filter pool).map (fun e =>
      let low := minStride (fmt e) (s.of es (R.MON_LY_SIZE e.1 e.2) 0 16)
      let sy := s.of es (R.MON_LY_STRIDE e.1 e.2) 0 16
      let sc := s.of es (R.MON_LY_STRIDE e.1 e.2) 16 16
      let b := s.of es (R.MON_LY_CFG e.1 e.2) 16 8
      (decide (sy < low.1) || decide (sy % 256 ≠ 0) || (decide (low.2 ≠ 0) && (decide (sc < low.2) || decide (sc % 256 ≠ 0))) ||
        decide (b = 255) || decide (count ≤ b), 3 + 256 * e.1)) ++
    [(decide (count ≠ 0) && (decide (a % 4096 ≠ 0) || !s.inPart 0 a (count * mib * 0x100000)), 4),
     (decide (s.mon.fb ≠ []) && changes, 4)] ++
    [0, 1].map (fun o => (dsiBad o, 5 + 256 * o)))

end Sys2Proof.Machine
end

