-- ==== Sys2Proof/Machine/DramOps.lean ====
section
/-!
DEFINITION. DRAM allocation (R91, R92) and the records kept in two NV copies (R490).
-/

set_option Elab.async false

namespace Sys2Proof.Machine

/-! ### Allocation -/

/-- Insert by address. -/
def insAlloc (x : Alloc) : List Alloc → List Alloc
  | [] => [x]
  | y :: r => if x.addr ≤ y.addr then x :: y :: r else y :: insAlloc x r

/-- The free ranges of DRAM below the firmware reservation, from `lo` on: first byte and end. -/
def gapsFrom (lo hi : Nat) : List Alloc → List (Nat × Nat)
  | [] => if lo < hi then [(lo, hi)] else []
  | x :: r => (if lo < x.addr then [(lo, x.addr)] else []) ++ gapsFrom (max lo (x.addr + x.size)) hi r

/-- The free ranges of DRAM. -/
def State.gaps (s : State) : List (Nat × Nat) :=
  gapsFrom 0x8000000000 s.fwBase (s.allocs.foldl (fun l x => insAlloc x l) [])

/-- The 4 KiB-aligned places that a range of `n` bytes may take, counted gap by gap: the `v`-th of them. -/
def placeAt (n : Nat) : List (Nat × Nat) → Nat → Option Nat
  | [], _ => none
  | (lo, hi) :: r, v =>
    let cnt := if lo + n ≤ hi then (hi - lo - n) / 4096 + 1 else 0
    if v < cnt then some (lo + 4096 * v) else placeAt n r (v - cnt)

/-- How many places there are. -/
def placeCount (n : Nat) (l : List (Nat × Nat)) : Nat :=
  (l.map (fun g => if g.1 + n ≤ g.2 then (g.2 - g.1 - n) / 4096 + 1 else 0)).sum

/-- A free contiguous range of `n` bytes (R92); which one the spec leaves open. `none`: there is none. -/
def State.findRange (s : State) (n : Nat) : Option Nat × State :=
  let gs := s.gaps
  let cnt := placeCount n gs
  if cnt = 0 then (none, s)
  else
    let (v, s) := s.fresh
    (placeAt n gs (v % cnt), s)

/-- PART_DRAM_USED and CTX_ST_USED as the allocations stand, for partition `p` and context `c`. The store of a take slot
counts in CTX_ST_USED of the slot's context, as it does against its quota (R92, log entry 95). -/
def State.usedRegs (s : State) (p : Nat) (c : Option Nat) : State :=
  let s := s.wr (R.PART_DRAM_USED p) (w32 (unitsUp (s.heldPart p) 0x100000 18))
  match c with
  | some c => s.wr (R.CTX_ST_USED c) (w32 (unitsUp (s.heldCtx c) 0x100000 18))
  | none => s

/-- The same for every partition and every context that holds memory. -/
def State.usedAll (s : State) : State :=
  let s := (List.range 64).foldl (fun s p => s.usedRegs p none) s
  s.allocs.foldl (fun s x => s.usedRegs x.part x.ctx) s

/-- An allocation is added. -/
def State.addAlloc (s : State) (x : Alloc) : State := ({ s with allocs := insAlloc x s.allocs }).usedRegs x.part x.ctx

/-- An allocation is freed. -/
def State.dropAlloc (s : State) (x : Alloc) : State := ({ s with allocs := s.allocs.erase x }).usedRegs x.part x.ctx

/-- `n` more bytes exceed the quota of context `c` or of partition `p` (R92). -/
def State.overQuota (s : State) (p : Nat) (c : Option Nat) (n : Nat) : Bool :=
  decide (s.fd (R.PART_DRAM_QUOTA p) 0 18 * 0x100000 < s.heldPart p + n) ||
    (match c with
     | some c =>
       let q := s.fd (R.CTX_ENT_MEM c) 0 18
       decide (q ≠ 0) && decide (q * 0x100000 < s.heldCtx c + n)
     | none => false)

/-! ### NV records -/

/-- A record's copy with its CRC. -/
def nvWhole (body : List Byte) : List Byte := body ++ leBytes 4 (crc32 body)

/-- The copy of `len` bytes at `a` when its CRC holds. -/
def State.nvCopy (s : State) (a len : Nat) : Option (List Byte) :=
  let b := s.nvBytes a len
  if ofBytes (b.drop (len - 4)) = crc32 (b.take (len - 4)) then some b else none

/-- SEQ of a copy. -/
def seqIn (b : List Byte) (off : Nat) : Nat := ofBytes ((b.drop off).take 4)

/-- The valid copy with the higher SEQ (R490). -/
def State.nvRead (s : State) (a0 a1 len off : Nat) : Option (List Byte) :=
  match s.nvCopy a0 len, s.nvCopy a1 len with
  | some x, some y => if seqIn x off < seqIn y off then some y else some x
  | some x, none => some x
  | none, y => y

/-- The update goes to the copy with the lower SEQ or the failing CRC, with SEQ + 1 (R490). -/
def State.nvApply (s : State) (u : NvUpd) : State :=
  let len := u.body.length + 4
  let c0 := s.nvCopy u.a0 len
  let c1 := s.nvCopy u.a1 len
  let q : Option (List Byte) → Nat := fun c => match c with | some b => seqIn b u.seqOff | none => 0
  let seq := (max (q c0) (q c1) + 1) % 2 ^ 32
  let body := u.body.take u.seqOff ++ leBytes 4 seq ++ u.body.drop (u.seqOff + 4)
  let a := if c0.isNone then u.a0 else if c1.isNone then u.a1 else if q c0 ≤ q c1 then u.a0 else u.a1
  s.nvStore a (nvWhole body)

/-- A two-copy record is updated, or the update is held in AON while Tj is outside the NV write range (R490). -/
def State.nvUpdate (s : State) (u : NvUpd) : State :=
  if s.nvRange && s.nvHeld.isEmpty then s.nvApply u else { s with nvHeld := s.nvHeld ++ [u] }

/-- The machine as it will be when the held updates are written: what a reader of a record sees meanwhile (R490, R299). -/
def State.nvAhead (s : State) : State := s.nvHeld.foldl (fun s u => s.nvApply u) s

/-- Held updates are written in order once Tj is in range. -/
def State.nvFlush (s : State) : State :=
  if s.nvRange then
    let l := s.nvHeld
    l.foldl (fun s u => s.nvApply u) { s with nvHeld := [] }
  else s

end Sys2Proof.Machine
end

