-- ==== Sys2Proof/Machine/BkcCore.lean ====
section
/-!
DEFINITION. The Bucking coder's cells (R208 to R214, R220, R221): the decoding process, and an encoder that keeps, of the
choices it tries, the one with the least squared error. Where the spec leaves a choice open (Q where fewer than 16 are
tried, and the group widths) the choice is an open value, held to the budget (log entry 16). State records and the decoding of
whole packets stand here too (R227, R234).
-/

set_option Elab.async false

namespace Sys2Proof.Machine

/-- Fields written least significant bit first into one bit stream (R210): (value, width). -/
def packBits : List (Nat × Nat) → Nat
  | [] => 0
  | (v, w) :: r => v % 2 ^ w + 2 ^ w * packBits r

/-- Parameters of a stripe's coding: depth, neighbour distance k, budget bits B. -/
structure CellP where
  d : Nat
  k : Nat
  b : Nat
deriving DecidableEq, Repr

/-- The zigzag residual of a code `u` (R212). -/
def residual (u : Nat) : Int := if u % 2 = 0 then (u / 2 : Nat) else -(((u + 1) / 2 : Nat) : Int)

/-- The code of a residual. -/
def zigzag (r : Int) : Nat := if 0 ≤ r then 2 * r.toNat else 2 * (-r).toNat - 1

/-- Sample `x` of row `y` in a list of rows. -/
def pix (rows : List (List Nat)) (x y : Nat) : Nat := nth (rows.getD y []) x

/-- INTRA prediction of sample `i` of the cell at column `x0` (R213): `done` are the rows of the stripe already
complete, `part` the two rows of the present cell row up to `x0`, `cell` the samples of the cell so far. -/
def predIntra (p : CellP) (done part : List (List Nat)) (cell : List Nat) (x0 i : Nat) : Nat :=
  let c := i % 32
  let r := i / 32
  if p.k ≤ c then nth cell (i - p.k)
  else if p.k ≤ x0 + c then nth (part.getD r []) (x0 + c - p.k)
  else if 2 ≤ done.length then pix done (x0 + c) (done.length - 2 + r)
  else 2 ^ (p.d - 1)

/-- A coordinate clamped to the values of its parity class below `n` (R213). -/
def clampPhase (n step : Nat) (v orig : Int) : Nat :=
  let ph := (orig % step).toNat
  let top := ph + (n - 1 - ph) / step * step
  if v < 0 then ph else if (top : Int) < v then top else v.toNat

/-- MATCH prediction (R213). `ref` is the reconstruction of the same stripe in the reference frame, `w` its width. -/
def predMatch (p : CellP) (ref : List (List Nat)) (w x0 y0 : Nat) (dx dy : Int) (i : Nat) : Nat :=
  let x : Int := (x0 + i % 32 : Nat)
  let y : Int := (y0 + i / 32 : Nat)
  pix ref (clampPhase w p.k (x + p.k * dx) x) (clampPhase ref.length 2 (y + 2 * dy) y)

/-- The 64 samples rebuilt from a prediction and residuals. `pr cell i` predicts sample `i`. -/
def rebuild (p : CellP) (q : Nat) (pr : List Nat → Nat → Nat) (rs : List Int) : List Nat :=
  (List.range 64).foldl (fun cell i =>
    cell ++ [(clampI 0 (2 ^ p.d - 1) ((pr cell i : Int) + rs.getD i 0 * (2 ^ q : Nat))).toNat]) []

/-- Bits taken from a stream: the value, and the rest. -/
def takeBits (v w : Nat) : Nat × Nat := (v % 2 ^ w, v / 2 ^ w)

/-- The 64 residual codes of a cell in order (R211). -/
def takeResiduals (v : Nat) (ws : List Nat) : List Int :=
  ((List.range 64).foldl (fun (a : List Int × Nat) i =>
    let w := nth ws (i / 16)
    let (u, r) := takeBits a.2 w
    (a.1 ++ [residual u], r)) ([], v)).1

/-- Four 4-bit widths. -/
def takeWidths (v : Nat) : List Nat := [v % 16, v / 16 % 16, v / 256 % 16, v / 4096 % 16]

/-- The decoding of one cell (R212, R214): its samples, and whether it is corrupt. `ref` is `none` where the reference
stripe is not available. -/
def decodeCell (p : CellP) (done part : List (List Nat)) (ref : Option (List (List Nat))) (w x0 : Nat) (bits : Nat) :
    List Nat × Bool :=
  let bad := (List.replicate 64 (2 ^ (p.d - 1)), true)
  let (mode, v) := takeBits bits 2
  match mode with
  | 2 =>
    let n := (p.b - 2) / 64
    ((List.range 64).map (fun i => v / 2 ^ (n * i) % 2 ^ n * 2 ^ (p.d - n) + 2 ^ (p.d - n - 1)), false)
  | 0 =>
    let (q, v) := takeBits v 4
    let ws := takeWidths v
    if p.b < 22 + 16 * ws.sum then bad
    else (rebuild p q (fun cell i => predIntra p done part cell x0 i) (takeResiduals (v / 65536) ws), false)
  | 1 =>
    let (q, v) := takeBits v 4
    let (dx, v) := takeBits v 4
    let (dy, v) := takeBits v 2
    let ws := takeWidths v
    match ref with
    | none => bad
    | some rf =>
      if dy = 2 || p.b < 28 + 16 * ws.sum then bad
      else (rebuild p q (fun _ i => predMatch p rf w x0 done.length (sx 4 dx) (sx 2 dy) i) (takeResiduals (v / 65536) ws),
        false)
  | _ => bad

/-- One choice of the encoder. -/
structure Choice where
  mode : Nat
  q : Nat
  dx : Int
  dy : Int
deriving DecidableEq, Repr

/-- The MATCH vectors an effort level tries, DY from low to high, then DX (Table 8-3, R221). -/
def matchVectors (effort : Nat) : List (Int × Int) :=
  if effort = 0 then []
  else if effort = 1 then [(0, 0)]
  else if effort = 2 then [-2, -1, 0, 1, 2].map (fun x => (x, 0))
  else [-1, 0, 1].flatMap (fun y => (List.range 16).map (fun x => ((x : Int) - 8, (y : Int))))

/-- The values of Q an effort level tries: all 16 from effort 5, else open ones (Table 8-3). -/
def qTrials (effort : Nat) (fv : Nat → Nat) : List Nat :=
  if 5 ≤ effort then List.range 16
  else if effort = 4 then [min (fv 0 % 16) (fv 1 % 16), max (fv 0 % 16) (fv 1 % 16)]
  else [fv 0 % 16]

/-- The choices tried, in tie order: INTRA, MATCH, TRUNC; lower Q; DY then DX from low to high (R221). -/
def choices (effort : Nat) (useMatch truncOnly : Bool) (fv : Nat → Nat) : List Choice :=
  let qs := qTrials effort fv
  (if truncOnly then [] else qs.map (fun q => ⟨0, q, 0, 0⟩)) ++
  (if useMatch && !truncOnly then qs.flatMap (fun q => (matchVectors effort).map (fun v => ⟨1, q, v.1, v.2⟩)) else []) ++
  [⟨2, 0, 0, 0⟩]

/-- The group widths of a choice: open values, all 0 where they would not fit the budget (R211). -/
def openWidths (b head : Nat) (v : Nat) : List Nat :=
  let ws := takeWidths v
  if b < head + 16 * ws.sum then [0, 0, 0, 0] else ws

/-- The nearest residual of `w` bits for a difference at step 2^q. -/
def nearestResidual (w q : Nat) (diff : Int) : Int :=
  if w = 0 then 0 else clampI (-(2 ^ (w - 1) : Nat)) ((2 ^ (w - 1) : Nat) - 1) (roundDiv diff (2 ^ q))

/-- The samples rebuilt while encoding, with the residuals chosen. -/
def encodeWith (p : CellP) (q : Nat) (ws : List Nat) (pr : List Nat → Nat → Nat) (src : List Nat) : List Nat × List Int :=
  (List.range 64).foldl (fun (a : List Nat × List Int) i =>
    let pd := pr a.1 i
    let r := nearestResidual (nth ws (i / 16)) q ((nth src i : Int) - pd)
    (a.1 ++ [(clampI 0 (2 ^ p.d - 1) ((pd : Int) + r * (2 ^ q : Nat))).toNat], a.2 ++ [r])) ([], [])

/-- The sum of squared errors over a cell (R221). -/
def sse (a b : List Nat) : Nat := ((List.range 64).map (fun i => (((nth a i : Int) - nth b i) ^ 2).toNat)).sum

/-- The bits and the reconstruction of a cell under one choice. -/
def encodeChoice (p : CellP) (done part : List (List Nat)) (ref : List (List Nat)) (w x0 : Nat) (src : List Nat)
    (c : Choice) (fv : Nat) : Nat × List Nat :=
  if c.mode = 2 then
    let n := (p.b - 2) / 64
    let vs := (List.range 64).map (fun i => nth src i / 2 ^ (p.d - n))
    (packBits ((2, 2) :: vs.map (fun v => (v, n))), vs.map (fun v => v * 2 ^ (p.d - n) + 2 ^ (p.d - n - 1)))
  else
    let ws := openWidths p.b (if c.mode = 0 then 22 else 28) fv
    let pr := if c.mode = 0 then fun cell i => predIntra p done part cell x0 i
      else fun _ i => predMatch p ref w x0 done.length c.dx c.dy i
    let (rec', rs) := encodeWith p c.q ws pr src
    (packBits ([(c.mode, 2), (c.q, 4)] ++ (if c.mode = 1 then [(unsx 4 c.dx, 4), (unsx 2 c.dy, 2)] else []) ++
      ws.map (fun x => (x, 4)) ++ (List.range 64).map (fun i => (zigzag (rs.getD i 0), nth ws (i / 16)))), rec')

/-- The cell the encoder produces: C bytes and their reconstruction. Its open picks depend on its input, its settings and its
reference alone (R221). -/
def encodeCell (p : CellP) (done part : List (List Nat)) (ref : List (List Nat)) (w x0 : Nat) (src : List Nat)
    (effort : Nat) (useMatch truncOnly : Bool) : List Byte × List Nat :=
  let key := [p.d, p.k, p.b, w, x0, done.length, effort, b2n useMatch, b2n truncOnly] ++ src ++ part.flatten ++
    (done.drop (done.length - 2)).flatten ++ (if useMatch then ref.flatten else [])
  let fv := fun n => (Config.coderPick key n).toNat
  let cs := choices effort useMatch truncOnly fv
  let tried := (List.range cs.length).map (fun i => encodeChoice p done part ref w x0 src (cs.getD i ⟨2, 0, 0, 0⟩) (fv (2 + i)))
  let best := tried.foldl (fun (a : Option (Nat × List Nat)) t => match a with
    | none => some t
    | some b => if sse t.2 src < sse b.2 src then some t else some b) none
  match best with
  | some b => (leBytes (p.b / 8) b.1, b.2)
  | none => ([], [])

/-! ### State records and whole stripes -/

/-- A state record (Table 8-7). -/
structure StateRec where
  coding : Nat
  refFrame : Nat
  refValid : Nat
  refAddr : Nat
  wc : Nat
  h : Nat
  s : Nat
  epoch : Nat
  rows : List Nat
deriving DecidableEq, Repr

/-- A little-endian number in a byte list. -/
def numAt (bs : List Byte) (off n : Nat) : Nat := ofBytes ((bs.drop off).take n)

/-- The state record that 256 bytes spell; `none` where FORMAT, LENGTH, CRC or geometry fails (R234). -/
def stateRec (bs : List Byte) : Option StateRec :=
  let n := numAt bs 0x24 1
  let rows := (List.range 48).map (fun i => numAt bs (0x30 + 2 * i) 2)
  let used := rows.take n
  if numAt bs 0 2 = 1 ∧ numAt bs 2 2 = 256 ∧ numAt bs 0x90 4 = crc32 (bs.take 0x90) ∧ 1 ≤ n ∧ n ≤ 48 ∧
      numAt bs 0x20 2 ≠ 0 ∧ numAt bs 0x20 2 ≤ 2047 ∧ used.all (fun r => decide (r ≠ 0) && decide (r % 2 = 0)) ∧
      used.sum = numAt bs 0x22 2 then
    some { coding := numAt bs 4 4, refFrame := numAt bs 8 8 % 2 ^ 40, refValid := numAt bs 0x10 8 % 2 ^ 48
           refAddr := numAt bs 0x18 8 % 2 ^ 40, wc := numAt bs 0x20 2, h := numAt bs 0x22 2, s := n
           epoch := numAt bs 0x28 4, rows := used }
  else none

/-- The bytes of a state record. -/
def StateRec.bytes (r : StateRec) : List Byte :=
  let b := leBytes 2 1 ++ leBytes 2 256 ++ leBytes 4 r.coding ++ leBytes 8 r.refFrame ++ leBytes 8 r.refValid ++
    leBytes 8 r.refAddr ++ leBytes 2 r.wc ++ leBytes 2 r.h ++ leBytes 1 r.s ++ leBytes 3 0 ++ leBytes 4 r.epoch ++
    leBytes 4 0 ++ (List.range 48).flatMap (fun i => leBytes 2 (nth r.rows i))
  b ++ leBytes 4 (crc32 b) ++ leBytes 108 0

def StateRec.budget (r : StateRec) : Nat := r.coding % 8
def StateRec.depthCode (r : StateRec) : Nat := r.coding / 8 % 4
def StateRec.mono (r : StateRec) : Bool := decide (r.coding / 32 % 2 = 1)
def StateRec.depth (r : StateRec) : Nat := 10 + 2 * r.depthCode
def StateRec.width (r : StateRec) : Nat := 32 * r.wc
def StateRec.top (r : StateRec) (i : Nat) : Nat := (r.rows.take i).sum
def StateRec.cells (r : StateRec) (i : Nat) : Nat := r.wc * (nth r.rows i / 2)

/-- Coded bytes of a whole frame at a budget. -/
def StateRec.codedBytes (r : StateRec) (budget : Nat) : Nat := 64 * r.s + r.width * r.h / 64 * cellBytes budget

/-- Raw bytes of a frame (R229). -/
def StateRec.rawBytes (r : StateRec) : Nat := 2 * r.width * r.h

/-- A stripe while a job decodes or encodes it: reconstruction, open segment, count of corrupt cells. -/
structure JobStripe where
  recon : List (List Nat)
  seg : List (List Nat)
  bad : Nat
  bytes : List Byte
  intra : Bool
  valid : Bool
deriving DecidableEq, Repr

/-- A finished cell joins the stripe. -/
def JobStripe.add (x : JobStripe) (w : Nat) (cell : List Nat) : JobStripe :=
  let part := if x.seg.isEmpty then [[], []] else x.seg
  let seg := [part.getD 0 [] ++ cell.take 32, part.getD 1 [] ++ cell.drop 32]
  if (seg.getD 0 []).length < w then { x with seg := seg } else { x with seg := [], recon := x.recon ++ seg }

/-- The bit string of `n` bytes. -/
def bitsOf (bs : List Byte) : Nat := ofBytes bs

/-- A coded stripe decoded (R212 to R214): `pkt` its packet, `ref` the reference stripe if available. Cells past the end
of a packet that was cut, and every cell of a packet whose PCRC fails, are corrupt. -/
def decodeStripe (r : StateRec) (i : Nat) (pkt : List Byte) (ref : Option (List (List Nat))) : JobStripe :=
  let c := cellBytes r.budget
  let p : CellP := { d := r.depth, k := if r.mono then 1 else 2, b := 8 * c }
  let body := (pkt.drop 64).take (numAt pkt 0x18 4 - 64)
  let crcOk := decide (numAt pkt 0x34 4 = crc32 body)
  let x := (List.range (r.cells i)).foldl (fun (x : JobStripe) k =>
    let part := if x.seg.isEmpty then [[], []] else x.seg
    let (cell, bad) := if crcOk && decide ((k + 1) * c ≤ body.length) then
        decodeCell p x.recon part ref r.width (part.getD 0 []).length (bitsOf ((body.drop (k * c)).take c))
      else (List.replicate 64 (2 ^ (r.depth - 1)), true)
    { x.add r.width cell with bad := x.bad + b2n bad })
    { recon := [], seg := [], bad := 0, bytes := [], intra := decide (numAt pkt 0x1F 1 % 2 = 1), valid := false }
  { x with valid := crcOk && (x.intra || ref.isSome) }

end Sys2Proof.Machine
end

