-- ==== Sys2Proof/Machine/PscCore.lean ====
section
/-!
DEFINITION. The arithmetic of photosite correction (R185 to R199): working values, dense planes, the sparse list.
-/

set_option Elab.async false

namespace Sys2Proof.Machine

/-- The working value of a sample of depth `d` (R186). -/
def pscWiden (d x : Nat) : Nat := x * 2 ^ (16 - d)

/-- The output of a working value (R186). -/
def pscNarrow (d v : Nat) : Nat :=
  if d < 16 then min ((v + 2 ^ (15 - d)) / 2 ^ (16 - d)) (2 ^ d - 1) else v

/-- Sample number of (x, y) in its cell (R12). -/
def cellIdx (x y : Nat) : Nat := y % 2 * 32 + x % 32

/-- Address of the plane cell of photosite (x, y): base + (cy × PITCH_CELLS + cx) × cell bytes. -/
def State.planeCell (s : State) (e base bytes x y : Nat) : Nat :=
  base + ((y / 2 + s.cf e R.PSC_PLANE_ORIGIN 16 15) * s.cf e R.PSC_PLANE_PITCH 0 11 +
    (x / 32 + s.cf e R.PSC_PLANE_ORIGIN 0 11)) * bytes

/-- Where the dark plane of epoch `e` holds the value of (x, y), and in how many bytes (Table 7-1): 0, there is none. -/
def State.darkAt (s : State) (e x y : Nat) : Nat × Nat :=
  let base := s.cfAddr e R.PSC_DARK_ADDR_LO R.PSC_DARK_ADDR_HI
  match s.cf e R.PSC_DARK_CFG 0 2 with
  | 1 => (s.planeCell e base 64 x y + cellIdx x y, 1)
  | 2 => (s.planeCell e base 128 x y + 2 * cellIdx x y, 2)
  | _ => (0, 0)

/-- Where the gain plane of epoch `e` holds the value of (x, y), and in how many bytes (Table 7-1). -/
def State.gainAt (s : State) (e x y : Nat) : Nat × Nat :=
  let base := s.cfAddr e R.PSC_GAIN_ADDR_LO R.PSC_GAIN_ADDR_HI
  match s.cf e R.PSC_GAIN_CFG 0 2 with
  | 1 => (s.planeCell e base 8 x y + 2 * (2 * (y % 2) + x % 2), 2)
  | 2 => (s.planeCell e base 128 x y + 2 * cellIdx x y, 2)
  | _ => (0, 0)

/-- DARK of (x, y) under epoch `e` (Table 7-1). -/
def State.dark (s : State) (e x y : Nat) : Nat :=
  let p := s.darkAt e x y
  if p.2 = 0 then 0
  else if p.2 = 1 then s.cf e R.PSC_DARK_CFG 16 16 + s.num p.1 1 * 2 ^ s.cf e R.PSC_DARK_CFG 4 4
  else s.num p.1 2

/-- G of (x, y) as u2.14 under epoch `e` (Table 7-1). -/
def State.gain (s : State) (e x y : Nat) : Nat :=
  let p := s.gainAt e x y
  if p.2 = 0 then 0x4000 else s.num p.1 2

/-- The plane words of the `n` photosites from (x0, y) on, under `at_`: from the first to the last, cell by cell. -/
def planeSpans (at_ : Nat → Nat × Nat) (x0 n : Nat) : List (Nat × Nat) :=
  (List.range ((x0 + n - 1) / 32 - x0 / 32 + 1)).filterMap (fun i =>
    let lo := max x0 ((x0 / 32 + i) * 32)
    let hi := min (x0 + n) ((x0 / 32 + i + 1) * 32) - 1
    let a := at_ lo
    let b := at_ hi
    if a.2 = 0 then none else some (min a.1 b.1, max a.1 b.1 + a.2 - min a.1 b.1))

/-- A word among these places is delivered poisoned (R206, R327). -/
def State.spansBad (s : State) (l : List (Nat × Nat)) : Bool := l.any (fun e => s.poisoned e.1 e.2)

/-- The dense value of a sample (R187). -/
def pscDense (d dark gain ped x : Nat) : Nat :=
  let a : Int := (pscWiden d x : Int) - dark
  (clampI 0 65535 (roundDiv (a * gain) 0x4000 + ped)).toNat

/-- A sparse entry (Table 7-3). -/
structure Sparse where
  row : Nat
  col : Nat
  action : Nat
  rsvd : Nat
  param : Nat
deriving DecidableEq, Repr

/-- The entry that 64 bits spell. -/
def sparseOf (v : Nat) : Sparse :=
  { row := v % 65536, col := v / 2 ^ 16 % 65536, action := v / 2 ^ 32 % 16, rsvd := v / 2 ^ 36 % 16, param := v / 2 ^ 40 % 2 ^ 24 }

/-- The interpolated value over the neighbours that are not missing (R195); `none` when there is none. -/
def interp (ns : List (Option Nat)) : Option Nat :=
  let vs := ns.filterMap id
  if vs.isEmpty then none else some ((vs.sum + vs.length / 2) / vs.length)

/-- The result of an action: the value, the flag, and whether it found no neighbour (R194, R195). `nb m` gives the
neighbours under mask `m`, `ped` is PEDESTAL. -/
def sparseApply (e : Sparse) (v ped : Nat) (nb : Nat → List (Option Nat)) : Nat × Bool × Bool :=
  let cl := fun (x : Int) => (clampI 0 65535 x).toNat
  match e.action with
  | 1 => match interp (nb (e.param % 16)) with
    | some x => (x, false, false)
    | none => (v, false, true)
  | 2 => (e.param % 65536, false, false)
  | 3 => (cl ((v : Int) + sx 16 e.param), false, false)
  | 4 => (cl ((ped : Int) + roundDiv (((v : Int) - ped) * (e.param % 65536 : Nat)) 0x4000), false, false)
  | 5 =>
    if e.param % 65536 < v then
      match interp (nb (e.param / 65536 % 16)) with
      | some x => (x, false, false)
      | none => (v, false, true)
    else (v, false, false)
  | 6 => (v, true, false)
  | _ => (v, false, false)

/-- Counts of a frame's sparse pass: ORDER, BAD_ACTION, BEAT_FULL, NO_NEIGHBOUR. -/
structure SparseCnt where
  order : Nat := 0
  bad : Nat := 0
  full : Nat := 0
  noNb : Nat := 0
deriving DecidableEq, Repr

/-- The walk over the list for one beat (R197, R198): the next index, the raster position of the last accepted entry,
the entries to apply, the counts, and the skips whose row is still to come (row, BAD_ACTION or else ORDER), which count
only if that row is not lost (R188). -/
structure SparseWalk where
  ptr : Nat
  last : Option Nat
  later : List (Nat × Bool)
  hits : List Sparse
  n : Nat
  cnt : SparseCnt
  stop : Bool
deriving DecidableEq, Repr

/-- A skip: at once, or kept until the beat of its row where that row is after `cur`. -/
def SparseWalk.skip (k : SparseWalk) (cur row : Nat) (inside bad : Bool) : SparseWalk :=
  if inside && decide (cur < row) then { k with ptr := k.ptr + 1, later := k.later ++ [(row, bad)] }
  else if bad then { k with ptr := k.ptr + 1, cnt := { k.cnt with bad := k.cnt.bad + 1 } }
  else { k with ptr := k.ptr + 1, cnt := { k.cnt with order := k.cnt.order + 1 } }

/-- One entry of the list: `v` its 64 bits, `ue` whether it is uncorrectable. `hi` is the raster position of the beat's
last sample, `r0` to `r1` the stripe's rows, `w` the width, `got` the first row that is lost if the beat's row is: entries in
lost rows are passed over (R188). Only an applied entry becomes the reference (R197). -/
def sparseStep (w r0 r1 hi got : Nat) (v : Nat) (ue : Bool) (k : SparseWalk) : SparseWalk :=
  if k.stop then k
  else
    let e := sparseOf v
    let pos := e.row * 65536 + e.col
    let cur := hi / 65536
    let inside := decide (r0 ≤ e.row) && decide (e.row < r1)
    let lost := decide (got ≤ cur)
    if ue then k.skip cur e.row false true
    else if inside && lost && decide (got ≤ e.row) then { k with ptr := k.ptr + 1 }
    else if 6 < e.action ∨ e.rsvd ≠ 0 then k.skip cur e.row inside true
    else if !inside || decide (w ≤ e.col) then k.skip cur e.row inside false
    else if (match k.last with | some l => decide (pos ≤ l) | none => false) then k.skip cur e.row false false
    else if hi < pos then { k with stop := true }
    else if lost then k.skip cur e.row false false
    else if 16 ≤ k.n then { k with ptr := k.ptr + 1, cnt := { k.cnt with full := k.cnt.full + 1 } }
    else { k with ptr := k.ptr + 1, last := some pos, n := k.n + 1, hits := k.hits ++ [e] }

end Sys2Proof.Machine
end

