-- ==== Sys2Proof/Machine/IngOps.lean ====
section
/-!
DEFINITION. Shared operations of the ingest path: the frame record (R41), stripe packets (R227), the coder's reference
bits (R216), delivery of a coded frame, and the end of a frame's life in the ingest engines.
-/

set_option Elab.async false

namespace Sys2Proof.Machine

/-- The frame record of `f` (Table 1-8). -/
def State.frameRecord (s : State) (f : Frame) : List Byte :=
  tagBytes f.expStart f.epoch 0 Kind.frame f.no Src.SLK f.flags ++ leBytes 4 f.sensorFrame ++ leBytes 4 f.sensorEpoch ++
    leBytes 8 (f.lostMask + s.cf f.epoch R.SLK_STRIPE_COUNT 0 6 * 2 ^ 48) ++ leBytes 4 f.expNs ++
    leBytes 4 ((f.tF : Int) - f.expStart).toNat

/-- Flags added to a frame's record. -/
def Frame.addFlag (f : Frame) (b : Nat) : Frame := { f with flags := if f.flags / b % 2 = 1 then f.flags else f.flags + b }

/-- Cells of stripe `i` under epoch `e`. -/
def State.stripeCells (s : State) (e i : Nat) : Nat := s.stripeRows e i / 2 * s.cf e R.SLK_FRAME_CFG 0 11

/-- Bytes of a cell under epoch `e`. -/
def State.cellC (s : State) (e : Nat) : Nat := cellBytes (s.cf e R.BKC_CFG 1 3)

/-- Coded bytes of a frame under epoch `e` (R209). -/
def State.codedBytes (s : State) (e : Nat) : Nat :=
  64 * s.cf e R.SLK_STRIPE_COUNT 0 6 + s.frameWidth e * s.frameHeight e / 64 * s.cellC e

/-- A stripe packet (Table 8-5) from its fields and cells. -/
def packetBytes (tag : List Byte) (stripe format sflags top rows wc ref cells : Nat) (body : List Byte) : List Byte :=
  tag ++ leBytes 4 (64 + body.length) ++ leBytes 2 stripe ++ leBytes 1 format ++ leBytes 1 sflags ++ leBytes 2 top ++
    leBytes 2 rows ++ leBytes 2 wc ++ leBytes 2 0 ++ leBytes 8 ref ++ leBytes 4 cells ++ leBytes 4 (crc32 body) ++
    leBytes 8 0 ++ body

/-- The packet of stripe `i` of a coded frame (R225 to R227). -/
def State.stripePacket (s : State) (f : Frame) (i : Nat) : List Byte :=
  let e := f.epoch
  let st := f.stripes.getD i {}
  packetBytes (tagBytes st.doneAt e 0 Kind.coder f.no Src.BKC f.flags) i
    (s.cf e R.BKC_CFG 1 3 + s.cf e R.SLK_FRAME_CFG 28 2 * 8 + s.cf e R.PSC_CFG 1 1 * 32)
    (b2n st.intra + 2 * b2n f.key + 4 * b2n st.lost + 8 * b2n st.cut) (s.stripeTop e i) (s.stripeRows e i)
    (s.cf e R.SLK_FRAME_CFG 0 11) (if st.intra then 0 else f.no - 1) st.cells st.bytes

/-- Reference valid bit of stripe `i` (Table 8-11). -/
def State.refValid (s : State) (i : Nat) : Bool := s.bt (if i < 32 then R.BKC_REF_VALID_LO else R.BKC_REF_VALID_HI) (i % 32)

/-- Reference valid bits from a test. -/
def State.setRefValid (s : State) (p : Nat → Bool) : State :=
  s.wrs [(R.BKC_REF_VALID_LO, w32 (maskOf 32 p)), (R.BKC_REF_VALID_HI, w32 (maskOf 16 (fun i => p (32 + i))))]

/-- A key by schedule (R218): every stripe of the frame, or stripe `i` alone. -/
def keyDue (mode interval no i : Nat) : Bool :=
  decide (interval ≠ 0) && (if mode = 0 then decide (no % interval = 0) else decide (no % interval = i % interval))

/-- Stripe `i` of frame `f` is coded without MATCH cells, and INTRA is set in its packet (R217). -/
def State.intraOnly (s : State) (f : Frame) (i : Nat) : Bool :=
  let e := f.epoch
  decide (s.cf e R.BKC_CFG 7 1 = 0) || !s.refValid i || f.key || f.refClear ||
    keyDue (s.cf e R.BKC_CFG 8 1) (s.cf e R.BKC_CFG 16 8) f.no i

/-- What begins with a stripe's first cell: whether it is coded without MATCH (R217). -/
def State.stripeBegin (s : State) (f : Frame) (i : Nat) (st : StripeSt) : StripeSt :=
  if st.cells = 0 then { st with intra := s.intraOnly f i } else st

/-- The frame before `no` in the reference buffer. -/
def State.refOf (s : State) (no : Nat) : Option RefFrame :=
  s.ing.ref.filter (fun r => decide ((r.no + 1) % 2 ^ 40 = no))

/-- The place of stripe `i`'s packet in the reference buffer: its address and length. -/
def State.refSpan (s : State) (r : RefFrame) (i : Nat) : Nat × Nat :=
  let a := nth r.addrs i
  (a, max 64 (s.num (a + 0x18) 4))

/-- Stripe `i` of a coded frame, decoded again from the reference buffer (R215): the packet at its address, under the codes its
own header gives. -/
def State.refRows (s : State) (r : RefFrame) (i : Nat) : List (List Nat) :=
  let p := s.refSpan r i
  let pkt := s.bytes p.1 p.2
  let x : StateRec := { coding := numAt pkt 0x1E 1, refFrame := 0, refValid := 0, refAddr := 0, wc := r.wc, h := r.rows.sum
                        s := r.rows.length, epoch := 0, rows := r.rows }
  (decodeStripe x i pkt (some (r.prev.getD i []))).recon

/-- A closed frame whose stripes are all coded leaves the coder: its packets to stream 0 and to the reference buffer, and
the reference bits of R216. -/
def State.shipFrame (s : State) (f : Frame) : State :=
  let e := f.epoch
  if !f.coded then s.putFrame { f with shipped := true }
  else
    let temporal := s.cf e R.BKC_CFG 7 1 = 1
    let n := f.stripes.length
    let base := s.cfAddr e R.BKC_REF_ADDR_LO R.BKC_REF_ADDR_HI + f.no % 2 * round4K (s.codedBytes e)
    let off := fun i => ((List.range i).map (fun j => 64 + s.stripeCells e j * s.cellC e)).sum
    let ref : RefFrame := { no := f.no, addrs := (List.range n).map (fun i => base + off i)
                            rows := (List.range n).map (s.stripeRows e), wc := s.cf e R.SLK_FRAME_CFG 0 11
                            prev := f.stripes.map (·.ref) }
    let s := (List.range n).foldl (fun s i =>
      let p := s.stripePacket f i
      let s := if temporal then s.dmaPut Port.refWr 0 (base + off i) p else s
      s.streamItem e 0 1 p) s
    let ok := fun i => decide (i < n) && !(f.stripes.getD i {}).lost && !(f.stripes.getD i {}).cut &&
      !(f.stripes.getD i {}).refUe && f.flags / Fl.OVERFLOW % 2 = 0
    let s := s.setRefValid ok
    let s := s.putFrame { f with shipped := true }
    { s with ing := { s.ing with ref := if temporal then some ref else none } }

/-- The slots that still owe frame `f` a unit: ARMED or RECORDING and not written (R286). -/
def State.owesUnit (s : State) (f : Frame) : Bool :=
  f.coded && (List.range 16).any (fun k =>
    (s.fd (R.LND_SLOT_STAT k) 0 3 = 2 || s.fd (R.LND_SLOT_STAT k) 0 3 = 3) && !f.landed.contains k)

/-- Frame `f` has left every ingest engine. -/
def State.frameGone (s : State) (f : Frame) : Bool :=
  f.closed && s.allCorrected f && f.shipped && f.tap.isNone && !s.owesUnit f

/-- What follows a step of the ingest engines: coded frames ship in order, a finished development ends, frames that left
every engine go. The records due carry the frame's FLAGS as they stand (R273). -/
def State.settle (s : State) : State :=
  let s := s.ing.frames.foldl (fun s f =>
    match s.ing.frames.find? (fun g => g.no = f.no) with
    | some g => if g.closed && !g.shipped && (!g.coded || g.stripes.all (·.done)) then s.shipFrame g else s
    | none => s) s
  let s := s.devSettle
  let due := s.crs.due.map (fun x => match s.ing.frames.find? (fun f => f.no = x.frame) with
    | some f => { x with flags := f.flagsNow }
    | none => x)
  { s with crs := { s.crs with due := due }, ing := { s.ing with frames := s.ing.frames.filter (fun f => !s.frameGone f) } }

/-- A stage downstream of SLK drops the rest of frame `f` (R9): OVERFLOW, and while SLK still has the frame open, R176. -/
def State.slkOverflow (s : State) (f : Frame) : Frame × State :=
  let f := f.addFlag Fl.OVERFLOW
  if f.closed || f.ovf then (f, s)
  else
    let f := { s.loseStripes f (List.range f.stripes.length) with ovf := true }
    (f, (s.bump R.SLK_OVF_CNT 0 32 1).raiseOf f.epoch f.no 0 0x0405 St.OK Src.SLK f.lostCount)

/-- The rest of a frame is cut at the coder: stripes not done end after their last whole cell with DROPPED set (R226). A packet
without cells takes its TIME now. -/
def State.cutFrame (s : State) (f : Frame) : Frame :=
  if !f.coded then f
  else { f with stripes := (List.range f.stripes.length).map (fun i =>
    let st := s.stripeBegin f i (f.stripes.getD i {})
    if st.done then st else { st with cut := true, done := true, doneAt := if st.cells = 0 then s.dev else st.doneAt }) }

/-- Of the rows that PSC still holds of a dropped frame, the rest goes on as zeros (R9, R201, R226, R243). -/
def Frame.zeroRest (f : Frame) : Frame :=
  { f with stripes := f.stripes.map (fun st =>
      if st.done || st.gone.isSome then st else { st with drop := true, seg := [], gone := some st.cor.length }) }

/-- A stage downstream of SLK cannot take frame `f`: the rest of it is dropped there (R9). -/
def State.dropRest (s : State) (f : Frame) : State :=
  let (f, s) := s.slkOverflow f
  s.putFrame (s.cutFrame f.zeroRest)

/-- The first frame of an epoch whose stripe set or depth differs clears the reference bits (R216): the geometry words of
epoch `e`. -/
def State.refGeom (s : State) (e : Nat) : List Nat :=
  (s.cfg e R.SLK_FRAME_CFG).toNat :: s.cf e R.SLK_STRIPE_COUNT 0 6 :: s.cf e R.PSC_CFG 1 1 ::
    (List.range (s.cf e R.SLK_STRIPE_COUNT 0 6)).map (s.stripeRows e)

end Sys2Proof.Machine
end

