-- ==== Sys2Proof/Machine/LndOps.lean ====
section
/-!
DEFINITION. Shared operations of the landing store (R280 to R299): slot states, the ring of units, take boundaries,
lead-in, finalisation and directory entries; and the checks of a commit.
-/

set_option Elab.async false

namespace Sys2Proof.Machine

/-- Take slot `k`. -/
def State.slot (s : State) (k : Nat) : TakeSlot := tabGet (fun _ => {}) s.lnd.slots k

/-- Take slot `k` replaced. -/
def State.setSlotT (s : State) (k : Nat) (t : TakeSlot) : State :=
  { s with lnd := { s.lnd with slots := tabSet (fun _ => {}) s.lnd.slots k t } }

/-- State of slot `k` (Table 11-1). -/
def State.slotSt (s : State) (k : Nat) : Nat := s.fd (R.LND_SLOT_STAT k) 0 3

/-- Slot `k` is ARMED or RECORDING. -/
def State.slotLive (s : State) (k : Nat) : Bool := s.slotSt k = 2 || s.slotSt k = 3

/-- Some slot is ARMED or RECORDING. -/
def State.anyArmed (s : State) : Bool := (List.range 16).any s.slotLive

/-- The owner of slot `k`. -/
def State.slotOwner (s : State) (k : Nat) : Nat := s.fd (R.LND_SLOT_OWN k) 0 6

/-- Sum of U over the slots that are ARMED or RECORDING. -/
def State.liveU (s : State) : Nat := ((selIdx 16 s.slotLive).map (fun k => (s.slot k).u)).sum

/-- LND_RATE as the slots stand. -/
def State.lndRate (s : State) : State := s.wr R.LND_RATE (w32 (unitsUp (s.liveU * 100) (s.rd R.SLK_PERIOD_MIN).toNat 16))

/-- Slot `k` changes state. -/
def State.setSlotSt (s : State) (k st : Nat) : State :=
  let s := s.wr (R.LND_SLOT_STAT k) (w32 st)
  (if st ≤ 1 then s.wr (R.LND_SLOT_TAKE k) 0 else s).lndRate

/-- An event of slot `k` (R282). -/
def State.slotEvent (s : State) (k code arg : Nat) : State :=
  s.raiseRes (s.slotOwner k) (s.slot k).ctx code St.OK Src.LND arg

/-- The store of slot `k` is freed. -/
def State.freeStore (s : State) (k : Nat) : State :=
  (s.allocs.filter (fun x => x.slot = some k)).foldl (fun s x => s.dropAlloc x) s

/-- Slot `k` keeps its configuration only. -/
def TakeSlot.config (t : TakeSlot) : TakeSlot :=
  { mode := t.mode, trigSrc := t.trigSrc, leadEn := t.leadEn, embedKib := t.embedKib, capMib := t.capMib, preNs := t.preNs
    postNs := t.postNs, ctx := t.ctx, reads := t.reads }

/-- Slot `k` returns to IDLE without a take (R296, R297). -/
def State.toIdle (s : State) (k : Nat) : State :=
  ((s.freeStore k).setSlotT k (s.slot k).config).setSlotSt k 1

/-- A slot became ARMED: a running DRAM_RETRAIN or LANE_EYE_SCAN is to stop at its next step boundary (R505). -/
def State.actsAbort (s : State) : State :=
  let stop := fun (a : Act) => if a.running && decide (a.code ≤ 2) then { a with abort := true, armed := true } else a
  { s with pwr := { s.pwr with acts := s.pwr.acts.map stop } }

/-! ### Take boundaries -/

/-- A unit's frame belongs to the take (R287). -/
def TakeSlot.inTake (t : TakeSlot) (u : Unit_) : Bool :=
  match t.start with
  | none => false
  | some a => decide (a ≤ u.t) && (match t.stop with | some b => decide (u.t < b) | none => true)

/-- The first frame of the take among the units held. -/
def TakeSlot.first (t : TakeSlot) : Option Unit_ := t.units.find? t.inTake

/-- The stripes of a frame of `n` stripes, with the latest held frame at or before F0 whose packet has INTRA set; the
frame number of the earliest of them, or `none` where some stripe has none (R293). -/
def TakeSlot.leadFrom (t : TakeSlot) (f0 : Unit_) (stripes : Nat) : Option Nat :=
  let upTo := t.units.filter (fun u => decide (u.frame ≤ f0.frame))
  let per := (List.range stripes).map (fun i =>
    (upTo.filter (fun u => decide (u.intra / 2 ^ i % 2 = 1))).foldl (fun _ u => some u.frame) (none : Option Nat))
  per.foldl (fun a x => match a, x with
    | some m, some f => some (min m f)
    | _, _ => none) (some f0.frame)

/-- LEAD and LEAD_SHORT of the take (R293). -/
def State.takeLead (s : State) (t : TakeSlot) : Nat × Bool :=
  match t.first with
  | none => (0, false)
  | some f0 =>
    if !t.leadEn || !f0.temporal then (0, false)
    else match t.leadFrom f0 (s.cf f0.epoch R.SLK_STRIPE_COUNT 0 6) with
      | some f => (min 65535 (f0.frame - f), false)
      | none => (min 65535 (f0.frame - (t.units.headD f0).frame), true)

/-- A unit may not be overwritten (R291). -/
def State.protectedUnit (s : State) (t : TakeSlot) (u : Unit_) : Bool :=
  match t.start with
  | none => false
  | some a => decide (a ≤ u.t) || (match t.first with
    | some f0 => decide (f0.frame - (s.takeLead t).1 ≤ u.frame) && decide (u.frame ≤ f0.frame)
    | none => false)

/-! ### Finalisation -/

/-- NV addresses of the two directory copies of slot `k` (Table 19-3). -/
def dirAddr (k : Nat) : Nat × Nat := (0x816000 + 128 * k, 0x817000 + 128 * k)

/-- The 124 bytes of a directory entry before its CRC, SEQ 0 (Table 11-4). -/
def State.dirBody (s : State) (k : Nat) : List Byte :=
  let t := s.slot k
  let fs := t.units.filter t.inTake
  let (lead, short) := s.takeLead t
  let st := t.start.getD 0
  let sp := t.stop.getD 0
  let tr := t.trig.getD 0
  let empty := fs.isEmpty
  let flags := b2n empty + 2 * b2n t.trunc + 4 * b2n t.full + 8 * b2n (short && !empty) + 16 * b2n t.recovered +
    32 * b2n t.aborted
  let f0 := fs.head?
  leBytes 4 t.takeId ++ leBytes 1 k ++ leBytes 1 (s.slotOwner k) ++ leBytes 2 t.ctx ++ leBytes 1 1 ++ leBytes 1 t.mode ++
    leBytes 2 flags ++ leBytes 4 (st % 10 ^ 9) ++ leBytes 4 (sp % 10 ^ 9) ++ leBytes 4 (tr % 10 ^ 9) ++
    leBytes 8 (st / 10 ^ 9) ++ leBytes 8 (sp / 10 ^ 9) ++ leBytes 8 (tr / 10 ^ 9) ++
    leBytes 8 (match f0 with | some u => u.frame | none => 0) ++ leBytes 4 fs.length ++
    leBytes 2 (if empty then 0 else lead) ++ leBytes 2 0 ++ leBytes 4 (match f0 with | some u => u.idx | none => 0) ++
    leBytes 4 t.n ++ leBytes 4 t.u ++ leBytes 4 (match f0 with | some u => u.epoch | none => 0) ++ leBytes 8 t.addr ++
    leBytes 4 (fs.filter (·.damaged)).length ++ leBytes 4 0 ++ leBytes 28 0

/-- Step 1 of R295: every directory field is computed and held in AON; the slot is FINALISING. -/
def State.finalise (s : State) (k : Nat) : State :=
  let body := s.dirBody k
  (s.setSlotT k { s.slot k with entry := body }).setSlotSt k 4

/-- A RECORDING slot finalises as soon as R294 allows: at once where stop ≤ start; else when the first frame at or after
stop was recognised and no frame of the take is still to be written. -/
def State.tryFinal (s : State) (k : Nat) : State :=
  let t := s.slot k
  match t.start, t.stop with
  | some a, some b =>
    if s.slotSt k ≠ 3 then s
    else if b ≤ a then s.finalise k
    else if t.stopSeen && !s.ing.frames.any (fun f => f.coded && !f.landed.contains k && decide (f.expStart < b)) then
      s.finalise k
    else s
  | _, _ => s

/-- Start becomes known: RECORDING, TRUNC_START (R288, R289, R292). -/
def State.setStart (s : State) (k start : Nat) : State :=
  let t := s.slot k
  let trunc := match t.units.head? with
    | some u => decide (start < u.t) && t.lapped
    | none => false
  let s := (s.setSlotT k { t with start := some start, trunc := trunc }).setSlotSt k 3
  (s.slotEvent k 0x0501 k).tryFinal k

/-- Stop becomes known (R288, R294). -/
def State.setStop (s : State) (k stop : Nat) : State :=
  let t := s.slot k
  let seen := match s.lnd.lastT with | some x => decide (stop ≤ x) | none => false
  (s.setSlotT k { t with stop := some stop, stopSeen := seen }).tryFinal k

/-- A ring slot is triggered at device time `T` (R289). -/
def State.trigger (s : State) (k T : Nat) : State :=
  let t := s.slot k
  let seen := match s.lnd.lastT with | some x => decide (T + t.postNs ≤ x) | none => false
  (s.setSlotT k { t with trig := some T, stop := some (T + t.postNs), stopSeen := seen }).setStart k (T - t.preNs)

/-- The first rising edge of a TRIG pin after arming triggers the slots that name it (R289). -/
def State.lndEdge (s : State) (pin stamp : Nat) : State :=
  (List.range 16).foldl (fun s k =>
    let t := s.slot k
    if s.slotSt k = 2 && t.mode = 1 && decide (t.trigSrc = pin + 1) && t.trig.isNone && decide (t.armedAt ≤ stamp) then
      s.trigger k stamp
    else s) s

/-- A frame with exposure start `t` is recognised; an ARMED slot whose stop is known keeps that it came (R288, R294). -/
def State.lndOpen (s : State) (t : Nat) : State :=
  let s := { s with lnd := { s.lnd with lastT := some (max t (s.lnd.lastT.getD 0)) } }
  (selIdx 16 s.slotLive).foldl (fun s k =>
    match (s.slot k).stop with
    | some b => if b ≤ t then (s.setSlotT k { s.slot k with stopSeen := true }).tryFinal k else s
    | none => s) s

/-- RECORDING slots finalise with the frames stored so far (R294: `LINK_STOP`). -/
def State.lndLinkStop (s : State) : State :=
  (selIdx 16 (fun k => decide (s.slotSt k = 3))).foldl (fun s k =>
    let t := s.slot k
    (s.setSlotT k { t with stop := some (t.stop.getD s.dev) }).finalise k) s

/-- A reset of levels 2 to 4 acts on the slots of its partitions (R303). -/
def State.lndReset (s : State) (parts : List Nat) : State :=
  (selIdx 16 (fun k => parts.contains (s.slotOwner k))).foldl (fun s k =>
    if s.slotSt k = 2 then s.toIdle k
    else if s.slotSt k = 3 then
      (s.setSlotT k { s.slot k with stop := some s.dev, aborted := true }).finalise k
    else s) s

/-- The directory entry of slot `k` as `TAKE_DIR_READ` returns it (R295, R297, R299, R302): an update that waits in
AON counts. -/
def State.dirEntry (s : State) (k : Nat) : List Byte :=
  if s.slotSt k = 4 then
    let b := (s.slot k).entry
    let flags := ofBytes ((b.drop 0x0A).take 2)
    let b := b.take 8 ++ leBytes 1 3 ++ (b.drop 9).take 1 ++ leBytes 2 (flags + (if s.nvRange then 0 else 64)) ++ b.drop 12
    nvWhole b
  else match s.nvAhead.nvRead (dirAddr k).1 (dirAddr k).2 128 0x5C with
    | some b => b
    | none => List.replicate 128 0

/-! ### Commit checks -/

/-- The landing checks (R280, R285). -/
def State.chkLnd (s : State) (es own : Over) : Option (Nat × Nat) :=
  refuse1 R.LND_REJ_CAUSE [
    (s.anyArmed && (decide (s.oFrameBytes es ≠ (s.rd R.BKC_FRAME_BYTES).toNat) || !s.ob es R.BKC_CFG 0), 1),
    (own.any (fun e => (List.range 16).any (fun k => decide (e.1 = R.LND_SLOT_OWN k) && decide (fld e.2 0 6 ≠ s.slotOwner k) &&
      decide (2 ≤ s.slotSt k))), 2),
    (own.any (fun e => decide (R.LND_SLOT_OWN 0 ≤ e.1) && decide (e.1 < R.LND_SLOT_OWN 16) && !s.oEnabled es (fld e.2 0 6)), 2)]

end Sys2Proof.Machine
end

