-- ==== Sys2Proof/Machine/PowerOps.lean ====
section
/-!
DEFINITION. Shared operations of power states and maintenance activities (R473 to R479, R504 to R508).
-/

set_option Elab.async false

namespace Sys2Proof.Machine

/-- The power state, 0 to 3 for P0 to P3. -/
def State.power (s : State) : Nat := s.fd R.AON_PWR_STAT 0 2

/-- The power state becomes `n`, with POWER_STATE_CHANGED (Table 19-9). -/
def State.setPower (s : State) (n : Nat) : State := (s.wrF R.AON_PWR_STAT 0 2 n).raise 0 0x0E06 St.OK Src.AON n

/-- A wake resumes the time base from AON's count, to within 100 µs and the drift of the crystal: by an open amount, with
TIME_UNLOCKED set until the servo is LOCKED again (R394). -/
def State.resumeTime (s : State) : State :=
  let (v, s) := s.fresh
  let s := { s with clk := { s.clk with tod := ((s.clk.tod : Int) + sx 64 v).toNat }, tim := { s.tim with ticks := [] } }
  let port := s.fd R.TIM_PTP_CFG 3 1
  if s.locked then
    ({ s.wrF R.TIM_PTP_STAT 0 3 4 with tim := { s.tim with ptpGood := 0, ptpBad := 0 } }).raise 0 0x0903 St.OK Src.TIM port
  else s

/-- A wake event of P1 (Table 19-1). -/
def State.wakeP1 (s : State) : State := if s.power = 1 then (s.setPower 0).resumeTime else s

end Sys2Proof.Machine
end

