-- ==== Sys2Proof/Machine/TimOps.lean ====
section
/-!
DEFINITION. Shared operations of time, triggers and sync (R392 to R417): the timestamp log, strobes, trigger edges, time
steps, the PTP servo, genlock, forwarding of Ethernet frames, and the commit checks of Table 15-2.
-/

set_option Elab.async false

namespace Sys2Proof.Machine

/-! ### The timestamp log (R414) -/

/-- A record goes to TIM_LOG; answers its number. -/
def State.timLog (s : State) (kind pinByte ctx time : Nat) : Nat × State :=
  let n := s.tim.logNo
  let i := n % 256
  let bs := tagBytes time s.ep.epoch ctx Kind.stamp s.ep.frame Src.TIM s.unlockFlag ++ leBytes 1 kind ++ leBytes 1 pinByte ++
    leBytes 2 0 ++ leBytes 4 n
  let ws := bytesWords 8 bs
  let s := s.wrs ((List.range 8).map (fun j => (R.TIM_LOG i j, ws.getD j 0)))
  (n, ({ s with tim := { s.tim with logNo := n + 1 } }).wr R.TIM_LOG_IDX (w32 ((i + 1) % 256)))

/-- Bits of byte 0x19 of record `n` are set, if the ring still holds it. -/
def State.timLogMark (s : State) (n bits : Nat) : State :=
  if s.tim.logNo ≤ n + 256 then
    s.wr (R.TIM_LOG (n % 256) 6) (s.rd (R.TIM_LOG (n % 256) 6) ||| w32 (bits * 256))
  else s

/-! ### Strobes (R406) -/

/-- Strobe `k` replaced. -/
def State.setPulse (s : State) (k : Nat) (p : Option Pulse) : State :=
  { s with tim := { s.tim with pulses := tabSet (fun _ => none) s.tim.pulses k p } }

/-- The trailing edge of strobe `k`. -/
def State.strobeEnd (s : State) (k : Nat) : State :=
  match tabGet (fun _ => none) s.tim.pulses k with
  | none => s
  | some p => (s.setPulse k none).emit (.strobe k (s.bt (R.TIM_STRB_CFG k) 1) p.trail)

/-- Strobe `k` is fired with its nominal leading edge at device time `lead`, DELAY_NS included. -/
def State.strobeFire (s : State) (k lead sched : Nat) : State :=
  let cfg := s.rd (R.TIM_STRB_CFG k)
  if !bit cfg 0 then s
  else
    let trail := lead + s.fd (R.TIM_STRB_WIDTH k) 0 24
    let again := match tabGet (fun _ => none) s.tim.pulses k with
      | some p => decide (p.lead ≤ lead) && decide (lead < p.trail)
      | none => false
    let s :=
      if again then
        let p := tabGet (fun _ => none) s.tim.pulses k
        (s.setPulse k (p.map (fun p => { p with trail := trail }))).bump (R.TIM_STRB_CNT k) 16 16 1
      else
        let s := s.strobeEnd k
        ((s.setPulse k (some { lead := lead, trail := trail })).bump (R.TIM_STRB_CNT k) 0 16 1).emit
          (.strobe k (!bit cfg 1) lead)
    if bit cfg 2 then (s.timLog 1 (k + sched * 8 + (1 - sched) * 16 + b2n again * 32) 0 lead).2 else s

/-- At a boundary: a strobe whose EN or INVERT changed from `old` is driven anew. One that is not enabled is driven to its inactive
level, and its pulse ends (R470). -/
def State.strobeBoundary (s : State) (old : Nat → Word) : State :=
  (selIdx 4 (fun k => decide (s.fd (R.TIM_STRB_CFG k) 0 2 ≠ fld (old (R.TIM_STRB_CFG k)) 0 2))).foldl (fun s k =>
    let on := s.bt (R.TIM_STRB_CFG k) 0
    let inv := s.bt (R.TIM_STRB_CFG k) 1
    let s := if on then s else s.setPulse k none
    let live := match tabGet (fun _ => none) s.tim.pulses k with
      | some p => decide (p.lead ≤ s.dev)
      | none => false
    s.emit (.strobe k (live != inv) s.dev)) s

/-! ### Trigger edges (R404, R405, R408) -/

/-- TRIG pin `n`. -/
def State.trig (s : State) (n : Nat) : TrigSt := tabGet (fun _ => {}) s.tim.trig n

/-- TRIG pin `n` replaced. -/
def State.setTrig (s : State) (n : Nat) (x : TrigSt) : State :=
  { s with tim := { s.tim with trig := tabSet (fun _ => {}) s.tim.trig n x } }

/-- An edge of TRIG `n` acts, from its stamp (R405). -/
def State.trigAct (s : State) (n : Nat) (falling : Bool) (pin sched : Bool) (stamp : Nat) : State :=
  let cfg := s.rd (R.TIM_TRIG_CFG n)
  let s := s.bump (R.TIM_TRIG_CNT n) 0 16 1
  let s := if s.bt R.TIM_EXP_SRC n then s.expose (stamp + 20) (stamp + 20 - s.dev) (shortOf stamp) else s
  let s := (selIdx 4 (fun k => bit cfg (4 + k))).foldl (fun (s : State) k =>
    s.strobeFire k (stamp + 20 + s.fd (R.TIM_STRB_DELAY k) 0 24) (b2n sched)) s
  let s := if bit cfg 2 then
      s.raise (fld cfg 8 12) 0x0901 St.OK Src.TIM (n + b2n falling * 4 + b2n sched * 8)
    else s
  if bit cfg 3 then
    let (i, s) := s.timLog 0 (n + b2n falling * 4 + b2n sched * 8 + b2n pin * 16) (fld cfg 8 12) stamp
    s.setTrig n { s.trig n with log := some i }
  else s

/-- EDGE of pin `n` selects the edge. -/
def State.trigSelects (s : State) (n : Nat) (falling : Bool) : Bool :=
  s.bt (R.TIM_TRIG_CFG n) (if falling then 1 else 0)

/-- An edge of TRIG `n` from its pin or from a schedule (R404, R407, R408). -/
def State.trigEdge (s : State) (n : Nat) (falling sched : Bool) (stamp : Nat) : State :=
  let x := s.trig n
  let mono := s.now - (s.dev - stamp)
  let acts := sched || s.trigSelects n falling
  let same := decide (x.last = some mono) && (if sched then x.pin && !x.sched else x.sched && !x.pin)
  if same then
    let s := s.setTrig n { x with pin := true, sched := true, acted := x.acted || acts }
    if x.acted then
      match x.log with
      | some i => s.timLogMark i 0x18
      | none => s
    else if acts then s.trigAct n falling true true stamp else s
  else
    let held := match x.last with
      | some t => decide (mono < t + s.fd (R.TIM_TRIG_CFG n) 20 12 * 1000)
      | none => false
    if held then s.bump (R.TIM_TRIG_CNT n) 16 16 1
    else
      let s := s.setTrig n { last := some mono, acted := acts, pin := !sched, sched := sched, log := none }
      let s := if !falling && decide (s.fd (R.TIM_TRIG_CFG n) 0 2 ≠ 0) then s.lndEdge n stamp else s
      if acts then s.trigAct n falling (!sched) sched stamp else s

/-! ### Time steps (R393) -/

/-- Device time becomes `tod`, in 2^-32 ns; TIME_STEPPED, and the ticks of cadences follow the new time. -/
def State.stepTime (s : State) (tod : Nat) : State :=
  let step := clampI (-(2 ^ 31 - 1)) (2 ^ 31 - 1) (((tod / 2 ^ 32 : Nat) : Int) - s.dev)
  (({ s with clk := { s.clk with tod := tod } }).reTick).raise 0 0x0904 St.OK Src.TIM (unsx 32 step)

/-! ### The PTP servo (R402) -/

/-- The servo's STATE. -/
def State.servo (s : State) : Nat := s.fd R.TIM_PTP_STAT 0 3

/-- The servo enters a state; changes into and out of LOCKED raise their events. -/
def State.setServo (s : State) (st : Nat) : State :=
  let was := s.servo
  let port := s.fd R.TIM_PTP_CFG 3 1
  let s := s.wr R.TIM_PTP_STAT (w32 (st + port * 8))
  let s := { s with tim := { s.tim with ptpGood := 0, ptpBad := 0, ptpFirst := decide (st = 2) } }
  if was = 3 && st ≠ 3 then s.raise 0 0x0903 St.OK Src.TIM port
  else if was ≠ 3 && st = 3 then s.raise 0 0x0902 St.OK Src.TIM port
  else s

/-- ADJ as the servo sets it: the spec gives no control law, so an open value in its range (R392). -/
def State.freshAdj (s : State) : State :=
  let (v, s) := s.fresh
  let x : Nat := v % 256000001
  s.wr R.TIM_ADJ (w32 (unsx 32 ((x : Int) - 128000000)))

/-- The state after `good` offsets in a row within LOCK_NS, or `bad` beyond UNLOCK_NS. -/
def State.servoJudge (s : State) (good bad : Nat) : State :=
  let s := { s with tim := { s.tim with ptpGood := good, ptpBad := bad } }
  if s.servo = 3 then (if 3 ≤ bad then s.setServo 4 else s)
  else if 16 ≤ good then s.setServo 3
  else s

/-- One offset from the time transmitter, in 2^-8 ns (R402). -/
def State.servoOffset (s : State) (off : Int) (path : Nat) : State :=
  let s := (s.wr R.TIM_PTP_OFFSET (w32 (unsx 32 (clampI (-(2 ^ 31)) (2 ^ 31 - 1) off)))).wr R.TIM_PTP_PATH
    (w32 (min 0xFFFFFFFF path))
  let within := fun (n : Nat) => decide (off.natAbs ≤ n * 256)
  if s.servo < 2 || 4 < s.servo then s
  else
    let first := s.tim.ptpFirst
    let s := { s with tim := { s.tim with ptpFirst := false } }
    let far := decide (s.servo = 2) && !within (s.rd R.TIM_PTP_STEP).toNat
    let s :=
      if s.servo = 4 then s
      else if far then
        if first && !s.anyArmed && s.tim.sched.isEmpty then
          s.stepTime ((s.clk.tod : Int) - off * 2 ^ 24).toNat
        else s.wr R.TIM_ADJ (w32 (unsx 32 (if off < 0 then 128000000 else -128000000)))
      else s.freshAdj
    let good := if within (s.fd R.TIM_PTP_SERVO 0 16) then s.tim.ptpGood + 1 else 0
    let bad := if within (s.fd R.TIM_PTP_SERVO 16 16) then 0 else s.tim.ptpBad + 1
    s.servoJudge good bad

/-- A cadence whose REF is no longer GENLOCK has no LOCK (log entry 85). -/
def State.genOff (s : State) : State :=
  (selIdx 4 (fun k => decide (s.fd (R.TIM_CAD_CFG k) 0 2 ≠ 2) && s.bt (R.TIM_CAD_STAT k) 0)).foldl (fun s k =>
    ((({ s with tim := { s.tim with gen := tabSet (fun _ => {}) s.tim.gen k {} } }).wr (R.TIM_CAD_STAT k) 0)).raise 0 0x0906 St.OK
      Src.TIM k) s

/-- An offset and a mean path delay measured at the balls of `port`, in 2^-8 ns, with INGRESS_LAT, EGRESS_LAT and ASYM taken into
account as IEEE 1588-2019 has it (R401, log entry 22). -/
def State.ptpCorrect (s : State) (port : Nat) (off : Int) (path : Nat) : Int × Nat :=
  let i := s.fd (R.TIM_PORT_LAT port) 0 16
  let e := s.fd (R.TIM_PORT_LAT port) 16 16
  (off + 128 * ((e : Int) - i) - sx 32 (s.rd (R.TIM_PORT_ASYM port)).toNat, path - 128 * (i + e))

/-- The device's own data set and identity in the best master clock algorithm, as one number: the lower one wins (R398). -/
def State.ptpOwn (s : State) : Nat :=
  (((s.fd R.TIM_PTP_CFG 16 8 * 2 ^ 8 + 248) * 2 ^ 24 + Config.clockQuality.toNat) * 2 ^ 8 + s.fd R.TIM_PTP_CFG 24 8) * 2 ^ 64 +
    Config.clockIdentity.toNat

/-- TIM at an epoch's boundary: the servo follows PROFILE and CLK_PORT, genlocks follow REF. -/
def State.timBoundary (s : State) : State :=
  let s := s.genOff
  let on := decide (s.fd R.TIM_PTP_CFG 0 2 ≠ 0)
  if !on then (if s.servo = 0 then s else s.setServo 0)
  else if s.servo = 0 || s.fd R.TIM_PTP_STAT 3 1 ≠ s.fd R.TIM_PTP_CFG 3 1 then s.setServo 1
  else s

/-! ### Genlock (R410) -/

/-- The genlock of cadence `k`. -/
def State.gen (s : State) (k : Nat) : GenSt := tabGet (fun _ => {}) s.tim.gen k

/-- The genlock of cadence `k` replaced, with its misses in TIM_CAD_STAT. -/
def State.setGen (s : State) (k : Nat) (g : GenSt) : State :=
  ({ s with tim := { s.tim with gen := tabSet (fun _ => {}) s.tim.gen k g } }).wrF (R.TIM_CAD_STAT k) 8 8 (min 255 g.bad)

/-- LOCK of cadence `k`. -/
def State.genLocked (s : State) (k : Nat) : Bool := s.bt (R.TIM_CAD_STAT k) 0

/-- An edge of cadence `k` is missing or out of tolerance. -/
def State.genBad (s : State) (k : Nat) (g : GenSt) : State :=
  let s := s.setGen k { g with bad := g.bad + 1, good := 0 }
  if s.genLocked k && decide (3 ≤ g.bad + 1) then (s.wrF (R.TIM_CAD_STAT k) 0 1 0).raise 0 0x0906 St.OK Src.TIM k else s

/-- A GENLOCK edge at device time `t` for cadence `k`. -/
def State.genEdge (s : State) (k t : Nat) : State :=
  let num := s.fd (R.TIM_CAD_RATE k) 0 20
  let den := s.fd (R.TIM_CAD_RATE k) 20 12
  let ph := sx 32 (s.rd (R.TIM_CAD_PHASE k)).toNat
  let g := s.gen k
  let e : Int := t + ph
  let j := tickIdx num den (e - ph - g.phase)
  let after := e - (tickAt num den j + ph + g.phase)
  let before := e - (tickAt num den (j - 1) + ph + g.phase)
  let err := if before.natAbs < after.natAbs then before else after
  let ok := decide (err.natAbs ≤ s.fd R.TIM_GL_CFG 8 8 * 100)
  let small := clampI (-100) 100 err
  if s.genLocked k then
    if ok then s.setGen k { g with phase := g.phase + small, bad := 0 }
    else s.genBad k { g with phase := g.phase + small }
  else if g.good = 0 || !ok then s.setGen k { phase := g.phase + err, good := 1, bad := 0 }
  else
    let s := s.setGen k { phase := g.phase + small, good := g.good + 1, bad := 0 }
    if 8 ≤ g.good + 1 then (s.wrF (R.TIM_CAD_STAT k) 0 1 1).raise 0 0x0905 St.OK Src.TIM k else s

/-! ### Timecode (R412, R413) -/

/-- TC_BASE in ns. -/
def State.tcBase (s : State) : Nat :=
  s.fd R.TIM_TC_BASE_NS 0 30 + ((s.rd R.TIM_TC_BASE_SEC_LO).toNat + s.fd R.TIM_TC_BASE_SEC_HI 0 16 * 2 ^ 32) * 10 ^ 9

/-- TC_BASE becomes `b`. -/
def State.setTcBase (s : State) (b : Nat) : State :=
  s.wrs [(R.TIM_TC_BASE_NS, w32 (b % 10 ^ 9)), (R.TIM_TC_BASE_SEC_LO, w32 (b / 10 ^ 9)),
    (R.TIM_TC_BASE_SEC_HI, w32 (b / 10 ^ 9 / 2 ^ 32 % 2 ^ 16))]

/-- The TC_BASE under which frame `n` of a day starts at device time `t`, not below 0 (R412). -/
def tcBaseFor (code n t : Nat) : Nat :=
  let b := (t : Int) + (tcStart code 0 n) * (-1)
  if 0 ≤ b then b.toNat else ((t : Int) - tcStart code 0 ((n : Int) - tcDay code)).toNat

/-! ### Forwarding (R400) -/

/-- A big-endian number. -/
def beNum (bs : List Byte) : Nat := ofBytes bs.reverse

/-- `n` big-endian bytes. -/
def beBytes (n v : Nat) : List Byte := (leBytes n v).reverse

/-- Bytes at an offset replaced. -/
def putBytes (bs : List Byte) (off : Nat) (x : List Byte) : List Byte := bs.take off ++ x ++ bs.drop (off + x.length)

/-- The ones' complement sum of 16-bit big-endian words. -/
def onesSum : List Byte → Nat
  | [] => 0
  | [a] => a.toNat * 256
  | a :: b :: r => a.toNat * 256 + b.toNat + onesSum r

/-- Carries folded in. -/
def foldSum (n : Nat) : Nat := let m := n % 65536 + n / 65536; m % 65536 + m / 65536

/-- Where the UDP header starts, in a frame that carries UDP over IPv4. -/
def udpAt (bs : List Byte) : Option Nat :=
  if beNum ((bs.drop 12).take 2) = 0x0800 ∧ beNum ((bs.drop 23).take 1) = 17 then
    some (14 + 4 * (beNum ((bs.drop 14).take 1) % 16))
  else none

/-- Where the PTP header starts, in a frame that carries PTP (Annexes C and E of IEEE 1588). -/
def ptpAt (bs : List Byte) : Option Nat :=
  if beNum ((bs.drop 12).take 2) = 0x88F7 then some 14
  else match udpAt bs with
    | some u =>
      let port := beNum ((bs.drop (u + 2)).take 2)
      if port = 319 ∨ port = 320 then some (u + 8) else none
    | none => none

/-- The UDP checksum, when it is not zero, recomputed. -/
def fixUdp (bs : List Byte) : List Byte :=
  match udpAt bs with
  | none => bs
  | some u =>
    if beNum ((bs.drop (u + 6)).take 2) = 0 then bs
    else
      let len := beNum ((bs.drop (u + 4)).take 2)
      let z := putBytes bs (u + 6) [0, 0]
      let c := 65535 - foldSum (onesSum ((z.drop 26).take 8) + 17 + len + onesSum ((z.drop u).take len))
      putBytes z (u + 6) (beBytes 2 (if c = 0 then 65535 else c))

/-- The frame as it leaves: correctionField grown by `v` (2^-16 ns) in a PTP event message (R400). -/
def addCorrection (bs : List Byte) (v : Nat) : List Byte :=
  match ptpAt bs with
  | none => bs
  | some p =>
    if beNum ((bs.drop p).take 1) % 16 < 4 then
      fixUdp (putBytes bs (p + 8) (beBytes 8 ((beNum ((bs.drop (p + 8)).take 8) + v) % 2 ^ 64)))
    else bs

/-- messageType of a PTP frame. -/
def ptpType (bs : List Byte) : Option Nat := (ptpAt bs).map (fun p => beNum ((bs.drop p).take 1) % 16)

/-! ### Commit checks (Table 15-2) -/

/-- Context `c` belongs to partition `p` in the resulting configuration. -/
def State.oOwns (s : State) (es : Over) (p c : Nat) : Bool :=
  s.ob es (R.CTX_ENT_OWN c) 6 && decide (s.of es (R.CTX_ENT_OWN c) 0 6 = p)

/-- The owner of resource byte `b` in the resulting configuration. -/
def State.oResOwner (s : State) (es : Over) (b : Nat) : Nat := s.of es (R.CTX_RES_OWN (b / 4)) (8 * (b % 4)) 6

/-- PROFILE with its transport, the log intervals and the servo thresholds (cause 4). -/
def ptpBad (cfg intv servo : Word) : Bool :=
  let log := fun i => decide (sx 4 (fld intv i 4) < -7) || decide (4 < sx 4 (fld intv i 4))
  (decide (fld cfg 0 2 = 3) && !bit cfg 2) || log 0 || log 4 || log 8 || decide (fld intv 12 4 < 2) ||
    decide (10 < fld intv 12 4) || decide (fld servo 16 16 ≤ fld servo 0 16)

/-- A cadence that cannot run (cause 1). -/
def cadBad (cfg rate : Word) : Bool :=
  decide (fld cfg 0 2 ≠ 0) && (decide (fld rate 0 20 = 0) || decide (fld rate 20 12 = 0) ||
    decide (200000 * fld rate 20 12 < fld rate 0 20))

/-- The checks of time, triggers and sync. -/
def State.chkTim (s : State) (es : Over) : Option (Nat × Nat) :=
  let cad := fun k => s.of es R.TIM_OUT_CAD (2 * k) 2
  refuse1 R.TIM_REJ_CAUSE [
    ((List.range 4).any (fun k => cadBad (s.ov es (R.TIM_CAD_CFG k)) (s.ov es (R.TIM_CAD_RATE k))), 1),
    ((List.range 4).any (fun k => s.ob es (R.MON_OUT_CTRL (k + 2)) 0 && (
      let (n, d) := sdiRate (s.of es (R.MON_OUT_CTRL (k + 2)) 4 4)
      decide (s.of es (R.TIM_CAD_CFG (cad k)) 0 2 = 0) ||
        decide (s.of es (R.TIM_CAD_RATE (cad k)) 0 20 * d ≠ n * s.of es (R.TIM_CAD_RATE (cad k)) 20 12))), 2),
    ((List.range 4).any (fun n =>
      let o := s.oResOwner es (0x10 + n)
      (List.range 4).any (fun k => s.ob es (R.TIM_TRIG_CFG n) (4 + k) && decide (s.oResOwner es (0x14 + k) ≠ o)) ||
        !s.oOwns es o (s.of es (R.TIM_TRIG_CFG n) 8 12)), 3),
    (ptpBad (s.ov es R.TIM_PTP_CFG) (s.ov es R.TIM_PTP_INTV) (s.ov es R.TIM_PTP_SERVO), 4),
    ((List.range 4).any (fun k => decide (s.of es (R.TIM_STRB_WIDTH k) 0 24 < 8)) || decide (5 < s.of es R.TIM_TC_CFG 0 3), 5)]

end Sys2Proof.Machine
end

