-- ==== Sys2Proof/Machine/AudOps.lean ====
section
/-!
DEFINITION. Shared operations of the audio ports (R419 to R438): rates and the sample grid, the settings a port runs, mute,
clock state, input and output blocks, AES3 channel status, and the commit checks of Table 16-3.
-/

set_option Elab.async false

namespace Sys2Proof.Machine

/-! ### Ports and the grid -/

/-- Port `p`. -/
def State.audP (s : State) (p : Nat) : AudPort := tabGet (fun _ => {}) s.aud p

/-- Port `p` replaced. -/
def State.setAud (s : State) (p : Nat) (x : AudPort) : State := { s with aud := tabSet (fun _ => {}) s.aud p x }

/-- STATE of a port (Table 16-6). -/
def State.audSt (s : State) (p : Nat) : Nat := s.fd (R.AUD_P_STAT p) 0 3

/-- A port changes state. -/
def State.setAudSt (s : State) (p st : Nat) : State := s.wrF (R.AUD_P_STAT p) 0 3 st

/-- The setting at `a` as the port runs it. -/
def AudPort.rd (x : AudPort) (a : Nat) : Word := tabGet regReset x.regs a

/-- A field of it. -/
def AudPort.fd (x : AudPort) (a lo n : Nat) : Nat := fld (x.rd a) lo n

/-- NUM and DEN of a rate code (Table 16-1). -/
def audRate (code : Nat) : Nat × Nat :=
  match code with
  | 0 => (32000, 1) | 1 => (44100, 1) | 2 => (48000, 1) | 3 => (88200, 1) | 4 => (96000, 1) | 5 => (176400, 1)
  | 6 => (192000, 1) | 7 => (48000000, 1001) | _ => (48048, 1)

/-- Rate of port `p`. -/
def AudPort.rate (x : AudPort) (p : Nat) : Nat × Nat := audRate (x.fd (R.AUD_P_CFG p) 12 4)

/-- Device time of grid frame `k` (R420). -/
def AudPort.at_ (x : AudPort) (p k : Nat) : Nat := (tickAt (x.rate p).1 (x.rate p).2 k).toNat

/-- The first grid frame at or after device time `t`. -/
def AudPort.frameFrom (x : AudPort) (p t : Nat) : Nat := (tickIdx (x.rate p).1 (x.rate p).2 t).toNat

/-- Frames per block. -/
def AudPort.len (x : AudPort) (p : Nat) : Nat := x.fd (R.AUD_P_CFG p) 16 12

/-- First frame of the block in progress. -/
def AudPort.first (x : AudPort) (p : Nat) : Nat := x.k0 + x.blk * x.len p

/-- Slots of a frame: serial ports as SLOTS codes, AES3 two. -/
def AudPort.slots (x : AudPort) (p : Nat) : Nat := if p < 4 then 2 ^ (1 + x.fd (R.AUD_P_CFG p) 4 2) else 2

/-- Width of a slot in bit clocks. -/
def AudPort.width (x : AudPort) (p : Nat) : Nat := nth [16, 24, 32] (x.fd (R.AUD_P_CFG p) 6 2)

/-- Bits of a sample. -/
def AudPort.bits (x : AudPort) (p : Nat) : Nat := if p < 4 then nth [16, 20, 24] (x.fd (R.AUD_P_CFG p) 8 2) else 24

/-- Enabled input slots (R423); AES3 outputs have none. -/
def AudPort.rx (x : AudPort) (p : Nat) : List Nat :=
  if 6 ≤ p then [] else selIdx (x.slots p) (fun i => bit (x.rd (R.AUD_P_MASK p)) i)

/-- Enabled output slots; AES3 inputs have none. -/
def AudPort.tx_ (x : AudPort) (p : Nat) : List Nat :=
  if p = 4 || p = 5 then [] else selIdx (x.slots p) (fun i => bit (x.rd (R.AUD_P_MASK p)) (16 + i))

/-- How port `p` sends (R421, R422); AES3 frames are 64 bit periods of two subframes (R432). -/
def AudPort.wire (x : AudPort) (p : Nat) : AudWire :=
  if 4 ≤ p then {}
  else
    let cfg := x.rd (R.AUD_P_CFG p)
    let n := x.slots p * x.width p
    let fmt := fld cfg 0 2
    { fs := if fmt = 0 then 2 ^ n - 2 ^ (n / 2) else if fmt = 1 then 2 ^ (n / 2) - 1 else 1
      start := if fmt = 0 then 1 else if fmt = 1 then 0 else fld cfg 3 1
      width := x.width p, bits := x.bits p, master := !bit cfg 2
      mclk := if bit cfg 10 && !bit cfg 2 then (if bit cfg 11 then 512 else 256) else 0 }

/-- A port that must receive frame starts: a follower, or an AES3 input (R431). -/
def AudPort.follows (x : AudPort) (p : Nat) : Bool :=
  if p < 4 then decide (x.fd (R.AUD_P_CFG p) 2 1 = 1) else decide (p < 6)

/-- The partition of port `p`. -/
def State.audOwner (s : State) (p : Nat) : Nat := s.resOwner (0x18 + p)

/-- An event of port `p` (R436), tagged with the epoch the port runs. -/
def State.audEvent (s : State) (p code arg : Nat) : State :=
  let x := s.audP p
  s.raiseEv { s.evNow (x.fd (R.AUD_P_CTX p) 0 12) code St.OK Src.AUD (p + arg * 65536) with epoch := x.epoch }

/-- The settings AUD keeps of an epoch. -/
def audSettings (p : Nat) (t : Tab Word) : Tab Word :=
  t.filter (fun e => decide (R.AUD_P_CFG p ≤ e.1) && decide (e.1 < R.AUD_P_CFG (p + 1)))

/-- The active settings apply on port `p` (R419). -/
def State.audApply (s : State) (p : Nat) : State :=
  s.setAud p { s.audP p with regs := audSettings p s.regs, epoch := s.ep.epoch }

/-- At a boundary, ports that are not running take the new settings at once. -/
def State.audBoundary (s : State) : State :=
  (List.range 8).foldl (fun (s : State) p => if s.audSt p ≤ 1 then s.audApply p else s) s

/-! ### Frames that are zero -/

/-- A state with changes at frames: what it is at frame `k`. -/
def spanAt (l : List (Nat × Bool)) (k : Nat) : Bool :=
  match (l.filter (fun e => decide (e.1 ≤ k))).getLast? with
  | some e => e.2
  | none => false

/-- Changes before frame `k` are folded into one. -/
def spanCut (l : List (Nat × Bool)) (k : Nat) : List (Nat × Bool) :=
  (if spanAt l k then [(k, true)] else []) ++ l.filter (fun e => decide (k < e.1))

/-- Frame `k` is stored, and driven, as zeros. -/
def AudPort.zero (x : AudPort) (k : Nat) : Bool :=
  spanAt x.mutes k || spanAt x.losses k || spanAt x.asyncs k || x.errs.contains k

/-- The grid frame in progress at device time `t`: the last that has started. -/
def AudPort.now (x : AudPort) (p t : Nat) : Nat := (tickIdx (x.rate p).1 (x.rate p).2 (t + 1 : Nat)).toNat - 1

/-- Frames zeroed in LOST or ASYNC up to frame `k` are counted in AUD_P_CLK.ZEROED (R431). -/
def State.audZeroed (s : State) (p k : Nat) : State :=
  let x := s.audP p
  if spanAt x.losses k || spanAt x.asyncs k then
    let n := k - x.lostFrom
    (s.bump (R.AUD_P_CLK p) 16 16 n).setAud p { x with lostFrom := max k x.lostFrom, zeroed := x.zeroed + n }
  else s

/-- A frame is in error: counted, and the first of a block raises AUD_FRAME_ERROR (R430). -/
def State.audError (s : State) (p k : Nat) : State :=
  let x := s.audP p
  let s := (s.setAud p { x with errs := x.errs ++ [k], errSeen := true }).bump (R.AUD_P_ERR p) 0 16 1
  if x.errSeen then s else s.audEvent p 0x0A06 (x.blk % 65536)

/-! ### Clock state (R431) -/

/-- The port enters LOST: frames from `k` on are zero. -/
def State.audLost (s : State) (p k : Nat) : State :=
  if s.audSt p ≠ 2 then s
  else
    let x := s.audP p
    (((s.setAud p { x with losses := x.losses ++ [(k, true)], lostFrom := k, zeroed := 0, inWin := 0 }).setAudSt p 3).bump
      (R.AUD_P_CLK p) 0 16 1).audEvent p 0x0A03 0

/-- The port enters ASYNC: frames from `k` on are zero. -/
def State.audAsync (s : State) (p k : Nat) : State :=
  let s := s.audZeroed p k
  let x := s.audP p
  let l := if spanAt x.losses k then x.losses ++ [(k, false)] else x.losses
  ((s.setAud p { x with losses := l, asyncs := x.asyncs ++ [(k, true)], lostFrom := k }).setAudSt p 4).audEvent p 0x0A05 0

/-- The port is back in RUNNING from frame `k` on. -/
def State.audRegain (s : State) (p k : Nat) : State :=
  let s := s.audZeroed p k
  let x := s.audP p
  ((s.setAud p { x with losses := x.losses ++ [(k, false)], gap := 0 }).setAudSt p 2).audEvent p 0x0A04 (min 65535 x.zeroed)

/-- A frame start at device time `t` on a following port: the window and the counts of R431. `valid`: no error in it. -/
def State.audStart (s : State) (p t : Nat) (valid : Bool) : State :=
  let x := s.audP p
  let win := x.fd (R.AUD_P_WIN p) 0 8 * 100
  let k1 := x.frameFrom p t
  let k := if k1 ≠ 0 && decide (t - x.at_ p (k1 - 1) < x.at_ p k1 - t) then k1 - 1 else k1
  let off := max (t - x.at_ p k) (x.at_ p k - t)
  let inside := decide (off ≤ win)
  let st := s.audSt p
  if st < 2 || st = 4 then s
  else if inside then
    let run := if x.lastStart.map (· + 1) = some k then x.inWin else 0
    let x := { x with inWin := if valid then run + 1 else 0, outWin := 0, gap := 0, lastStart := some k }
    let s := s.setAud p x
    if st = 3 && decide (16 ≤ x.inWin) then s.audRegain p (k + 1) else s
  else
    let x := { x with inWin := 0, outWin := x.outWin + 1, gap := x.gap + 1, lastStart := some k }
    let s := s.setAud p x
    if 16 ≤ x.outWin then s.audAsync p k
    else if 2 ≤ x.gap then s.audLost p k
    else s

/-! ### AES3 channel status (R433, R434) -/

/-- One step of the channel-status CRC, bits in the order they are sent. -/
def crc8Step (c : Nat) (b : Bool) : Nat :=
  let x := (c + b2n b) % 2
  c / 2 ^^^ (if x = 1 then 0xB8 else 0)

/-- The CRC of 23 bytes: x^8 + x^4 + x^3 + x^2 + 1, initial value 0xFF, least significant bits first as AES3 sends them. -/
def csCrc (bs : List Byte) : Nat :=
  (bs.flatMap (fun b => (List.range 8).map (fun i => decide (b.toNat / 2 ^ i % 2 = 1)))).foldl crc8Step 0xFF

/-- Channel-status bytes of port `p` as the table `t` holds them. -/
def csBytes (rd : Nat → Word) (p : Nat) : List Byte := (List.range 6).flatMap (fun i => leBytes 4 (rd (R.AUD_AES_CS p i)).toNat)

/-- 192 bits as 24 bytes. -/
def bitBytes (l : List Bool) : List Byte :=
  (List.range 24).map (fun i => BitVec.ofNat 8 (maskOf 8 (fun j => l.getD (8 * i + j) false)))

/-- A whole block of C bits of an input ended (R433). -/
def State.csBlock (s : State) (p : Nat) (bits : List Bool) : State :=
  let bs := bitBytes bits
  let pro := decide ((bs.getD 0 0).toNat % 2 = 1)
  if pro && decide (csCrc (bs.take 23) ≠ (bs.getD 23 0).toNat) then s.bump (R.AUD_AES_ERR p) 16 16 1
  else if bs = csBytes s.rd p then s
  else
    let s := s.wrs ((List.range 6).map (fun i => (R.AUD_AES_CS p i, wordAt bs (4 * i))))
    (s.setAud p { s.audP p with csChanged := true }).audEvent p 0x0A08 0

/-! ### Blocks -/

/-- The device frame number at the start of the block is noted: the latest boundary at or before its first frame's instant (R40). -/
def State.audNote (s : State) (p : Nat) : State :=
  let x := s.audP p
  let since := s.now - s.ep.tFm
  s.setAud p { x with start := if x.at_ p (x.first p) + since < s.dev then s.ep.frame - 1 else s.ep.frame }

/-- The containers of one stored input frame: `vs` gives the enabled slots' values. -/
def AudPort.frameBytes (x : AudPort) (p k : Nat) (vs : List Nat) : List Byte :=
  let z := x.zero k
  (List.range (x.rx p).length).flatMap (fun i => leBytes 4 (if z then 0
    else if p < 4 then nth vs i % 2 ^ x.bits p * 2 ^ (32 - x.bits p) else nth vs i))

/-- The input block that ends goes to the RX ring (R424, R425). `data` gives each frame's enabled samples; AES3 frames are
containers already. -/
def State.audBlockOut (s : State) (p : Nat) (data : List (List Nat)) : State :=
  let x := s.audP p
  let n := x.len p
  let f0 := x.first p
  let ks := (List.range n).map (f0 + ·)
  let any := fun (f : Nat → Bool) => b2n (ks.any f)
  let body := (List.range n).flatMap (fun i => x.frameBytes p (f0 + i) (data.getD i []))
  let v := decide (4 ≤ p) && (List.range n).any (fun i => !x.zero (f0 + i) && (data.getD i []).any (fun c => decide (c % 2 = 1)))
  let flags := b2n (decide (x.blk = 0)) + any (spanAt x.mutes) * 2 + any (fun k => x.errs.contains k || x.aesErr.contains k) * 4 + any (spanAt x.losses) * 8 +
    b2n v * 16 + b2n x.csChanged * 32
  let r := x.fd (R.AUD_P_RING p) 0 16
  s.stage { ring := r, kind := 6, epoch := x.epoch, ctx := r / 4 }
    (tagBytes (x.at_ p f0) x.epoch (x.fd (R.AUD_P_CTX p) 0 12) Kind.audio x.start Src.AUD s.unlockFlag ++
      leBytes 1 p ++ leBytes 1 (x.rx p).length ++ leBytes 2 flags ++ leBytes 4 x.blk ++ body)

/-- The output block in play leaves the balls: every frame's slots (R421, R423, R430, R434). -/
def State.audPlay (s : State) (p : Nat) : State :=
  let x := s.audP p
  let n := x.len p
  let f0 := x.first p
  let tx := x.tx_ p
  let cs := csBytes x.rd p
  let cs := if x.fd (R.AUD_P_CFG p) 29 1 = 1 then cs.take 23 ++ [BitVec.ofNat 8 (csCrc (cs.take 23))] else cs
  (List.range n).foldl (fun (s : State) i =>
    let k := f0 + i
    let cont := fun c => match x.tx with
      | some bs => ofBytes ((bs.drop (32 + 4 * (i * tx.length + c))).take 4)
      | none => 0
    let word := fun c => if x.zero k then 0 else cont c
    let ch := fun slot => match tx.idxOf? slot with | some c => word c | none => 0
    let j := (k - x.k0) % 192
    let c := (cs.getD (j / 8) 0).toNat / 2 ^ (j % 8) % 2
    let out := (List.range (x.slots p)).map (fun slot =>
      if p < 4 then ch slot / 2 ^ (32 - x.bits p)
      else
        let v := if x.fd (R.AUD_P_CFG p) 28 1 = 1 then ch slot % 2 else x.fd (R.AUD_AES_V p) slot 1
        ch slot / 256 * 256 + v + ch slot / 2 % 2 * 2 + c * 4 + b2n (decide (j = 0) && decide (slot = 0)) * 8)
    s.emit (.audio p k (x.wire p) out)) s

/-- At an output block's first frame the block plays, or zeros do (R424, R450). -/
def State.audBegin (s : State) (p : Nat) : State :=
  let x := s.audP p
  if x.begun || (x.tx_ p).isEmpty then s.setAud p { x with begun := true }
  else
    let r := x.fd (R.AUD_P_RING p) 16 16
    let ring := s.ring r
    let usable := s.ringIn r && s.owns (s.audOwner p) (r / 4)
    let gone := if usable then min x.skipTx ring.blocks.length else 0
    let left := ring.blocks.drop gone
    let s := if usable then s.setRing r { ring with blocks := left.drop 1 } else s
    let x := { x with begun := true, skipTx := x.skipTx - gone }
    match (if usable then left.head? else none) with
    | some (some b) => s.setAud p { x with tx := some b }
    | some none =>
      ((s.setAud p { x with tx := none }).bump (R.AUD_P_ERR p) 16 16 1).audEvent p 0x0A07 (x.blk % 65536)
    | none =>
      ((s.setAud p { x with tx := none, skipTx := x.skipTx + 1 }).bump (R.AUD_P_ERR p) 16 16 1).audEvent p 0x0A07
        (x.blk % 65536)

/-- The port is STOPPED; its pins are driven 0 (R427). -/
def State.audStopped (s : State) (p : Nat) : State :=
  let s := s.audZeroed p (s.audP p |>.now p s.dev)
  let x := s.audP p
  let s := (s.setAudSt p 0).audEvent p 0x0A02 0
  s.setAud p { regs := audSettings p s.regs, epoch := s.ep.epoch, mutes := if s.bt (R.AUD_P_STAT p) 3 then [(0, true)] else []
               k0 := x.k0 }

/-- The block in progress ends: delivered, played, and the next one begins, or the port stops (R424, R427). -/
def State.audEnd (s : State) (p : Nat) (data : List (List Nat)) : State :=
  let s := s.audBegin p
  let x := s.audP p
  let last := x.first p + x.len p
  let s := s.audZeroed p (min last (x.now p s.dev))
  let s := if (x.rx p).isEmpty then s else s.audBlockOut p data
  let s := if (x.tx_ p).isEmpty then s else s.audPlay p
  let s := s.wr (R.AUD_P_SEQ p) (w32 (x.blk + 1))
  if (s.audP p).stop then s.audStopped p
  else
    let y := s.audP p
    let s := s.setAud p { y with blk := y.blk + 1, mutes := spanCut y.mutes last, losses := spanCut y.losses last
                                 asyncs := spanCut y.asyncs last, errs := y.errs.filter (fun k => decide (last ≤ k))
                                 aesErr := y.aesErr.filter (fun k => decide (last ≤ k))
                                 errSeen := false, tx := none, begun := false, csChanged := false
                                 aes := y.aes.filter (fun e => decide (last ≤ e.1)) }
    (s.audApply p).audNote p

/-- Bytes of an output block on ring `r`: what R450 requires of LEN, from the settings in force of the port bound to it. -/
def State.audTxLen (s : State) (r : Nat) : Option Nat :=
  let x := fun p => if s.audSt p = 0 then { s.audP p with regs := s.regs } else s.audP p
  ((List.range 8).find? (fun p => !((x p).tx_ p).isEmpty && decide ((x p).fd (R.AUD_P_RING p) 16 16 = r))).map
    (fun p => 32 + (x p).len p * ((x p).tx_ p).length * 4)

/-! ### Commit checks (Table 16-3) -/

/-- The audio checks; the cause register also takes the port. -/
def State.chkAud (s : State) (es own : Over) : Option (Nat × Nat) :=
  let ps := List.range 8
  let cfg := fun p => s.ov es (R.AUD_P_CFG p)
  let rate := fun p => audRate (fld (cfg p) 12 4)
  let slots := fun p => 2 ^ (1 + fld (cfg p) 4 2)
  let width := fun p => nth [16, 24, 32, 32] (fld (cfg p) 6 2)
  let bits := fun p => nth [16, 20, 24, 24] (fld (cfg p) 8 2)
  let fmt := fun p => fld (cfg p) 0 2
  refuse1 R.AUD_REJ_CAUSE (
    ps.map (fun p => (decide (8 < fld (cfg p) 12 4) || decide (fmt p = 3) || decide (fld (cfg p) 6 2 = 3) ||
      decide (fld (cfg p) 8 2 = 3) || decide (width p < bits p) || (decide (fmt p < 2) && decide (slots p ≠ 2)), 1 + 256 * p)) ++
    (ps.take 4).map (fun p => (decide (49152000 * (rate p).2 < (rate p).1 * slots p * width p) ||
      (bit (cfg p) 10 && decide (49152000 * (rate p).2 < (rate p).1 * (if bit (cfg p) 11 then 512 else 256))), 2 + 256 * p)) ++
    ps.map (fun p => (decide (fld (cfg p) 16 12 < 16) || decide (2048 < fld (cfg p) 16 12) ||
      decide (s.of es (R.AUD_P_WIN p) 0 8 < 1) || decide (200 < s.of es (R.AUD_P_WIN p) 0 8) ||
      !s.oOwns es (s.oResOwner es (0x18 + p)) (s.of es (R.AUD_P_CTX p) 0 12), 3 + 256 * p)) ++
    ps.map (fun p => (decide (s.audSt p ≠ 0) && own.any (fun e =>
      (decide (e.1 = R.AUD_P_CFG p) && decide ((e.2 ^^^ s.rd e.1) &&& 0x0FFFF3FF#32 ≠ 0)) ||
      (decide (e.1 = R.AUD_P_MASK p) && decide (e.2 ≠ s.rd e.1))), 4 + 256 * p)))

/-- A staged audio ring binding names a ring of a context that the port's owner does not own (R452). -/
def State.chkAudRing (s : State) (es own : Over) : Option (Nat × Nat) :=
  refuse1 R.HLK_REJ_CAUSE [((List.range 8).any (fun p => own.any (fun e => decide (e.1 = R.AUD_P_RING p) &&
    [fld e.2 0 16, fld e.2 16 16].any (fun r => decide (16384 ≤ r) || !s.oOwns es (s.oResOwner es (0x18 + p)) (r / 4)))), 2)]

end Sys2Proof.Machine
end

