-- ==== Sys2Proof/Machine/Aud.lean ====
section
/-!
DEFINITION. The commands of the audio ports (chapter 16).
-/

set_option Elab.async false

namespace Sys2Proof.Machine

/-- `AUD_PORT_CONFIG` (R419): stages AUD_P_CFG and AUD_P_MASK of a port. -/
def audPortConfig (p : Nat) (cfg mask : Word) (r : Req) (s : State) : Ans :=
  if cfg &&& ~~~(w32 (regMask (R.AUD_P_CFG p))) ≠ 0 then .done St.BAD_ARGUMENT [] s
  else stageAnswer r [(R.AUD_P_CFG p, cfg), (R.AUD_P_MASK p, mask)] s

/-- The command `AUD_PORT_CONFIG` (0x0A01). -/
def execAudPortConfig (dt : Nat) (c : Call) (port : Fin 8) (cfg mask : Word) (s : State) :
    Host.Outcome State Fault Refusal :=
  .next (kilel 0x0A01 (fun _ _ => true) (audPortConfig port cfg mask) dt c s)

/-- The ports of a mask that the caller owns, and those it does not. -/
def audMask (r : Req) (s : State) : List Nat × List Nat :=
  let ps := selIdx 8 (fun p => bit (r.w 0) p)
  (ps.filter (fun p => decide (s.audOwner p = r.part)), ps.filter (fun p => decide (s.audOwner p ≠ r.part)))

/-- Ports that are not the caller's are counted, kind 1. -/
def audForeign (r : Req) (ps : List Nat) (s : State) : State :=
  ps.foldl (fun (s : State) p => s.viol r.part Viol.reg r.ctx (R.AUD_P_STAT p)) s

/-- Port `p` has no slot to receive or send. -/
def State.audIdle (s : State) (p : Nat) : Bool :=
  let x := { s.audP p with regs := audSettings p s.regs }
  (x.rx p).isEmpty && (x.tx_ p).isEmpty

/-- Port `p` is ARMED for a start at device time `t`. -/
def State.audArm (s : State) (t p : Nat) : State :=
  let s := s.audApply p
  let x := s.audP p
  (s.setAud p { x with k0 := x.frameFrom p t, blk := 0 }).setAudSt p 1

/-- `AUD_START` (R426). -/
def audStartCmd (r : Req) (s : State) : Ans :=
  let ahead := sx 32 ((r.w 1).toNat + 2 ^ 32 - s.short)
  if ahead < 100000 then .done St.BAD_ARGUMENT [] s
  else
    let (mine, foreign) := audMask r s
    let s := audForeign r foreign s
    if mine.any (fun p => s.audSt p ≠ 0 || s.audIdle p) then .done St.STATE_CONFLICT [] s
    else
      let t := ((s.dev : Int) + ahead).toNat
      .done St.OK [] (mine.foldl (fun (s : State) p => s.audArm t p) s)

/-- The command `AUD_START` (0x0A02). -/
def execAudStart (dt : Nat) (c : Call) (s : State) : Host.Outcome State Fault Refusal :=
  .next (kilel 0x0A02 (fun _ _ => true) audStartCmd dt c s)

/-- Port `p` is told to stop (R427). -/
def State.audStop1 (s : State) (parts : List (Fin 8 × List (List Nat))) (p : Nat) : State :=
  let x := s.audP p
  match s.audSt p with
  | 0 => s
  | 1 => if x.at_ p x.k0 ≤ s.dev then s.setAud p { x with stop := true } else s.audStopped p
  | 2 => s.setAud p { x with stop := true }
  | _ =>
    let data := if p < 4 then ((parts.find? (fun e => e.1.val = p)).map (·.2)).getD []
      else (List.range (x.len p)).map (fun i => ((x.aes.find? (fun e => e.1 = x.first p + i)).map (·.2)).getD [])
    (s.setAud p { x with stop := true }).audEnd p data

/-- `AUD_STOP` (R427). `parts`: for serial ports in LOST or ASYNC, the samples received of the block that ends. -/
def audStopCmd (parts : List (Fin 8 × List (List Nat))) (r : Req) (s : State) : Ans :=
  let (mine, foreign) := audMask r s
  .done St.OK [] (mine.foldl (fun (s : State) p => s.audStop1 parts p) (audForeign r foreign s))

/-- The command `AUD_STOP` (0x0A03). -/
def execAudStop (dt : Nat) (c : Call) (parts : List (Fin 8 × List (List Nat))) (s : State) :
    Host.Outcome State Fault Refusal :=
  .next (kilel 0x0A03 (fun _ _ => true) (audStopCmd parts) dt c s)

/-- `AUD_MUTE` (R429): from the first frame that starts after now. -/
def audMute (r : Req) (s : State) : Ans :=
  let p := r.f 0 0 3
  let on := decide (r.f 0 3 1 = 1)
  if s.audOwner p ≠ r.part then .done St.OK [] (audForeign r [p] s)
  else
    let x := s.audP p
    let k := if s.audSt p = 0 then 0 else x.frameFrom p (s.dev + 1)
    .done St.OK [] ((s.setAud p { x with mutes := (if s.audSt p = 0 then [] else x.mutes) ++ [(k, on)] }).wrF
      (R.AUD_P_STAT p) 3 1 (b2n on))

/-- The command `AUD_MUTE` (0x0A04). -/
def execAudMute (dt : Nat) (c : Call) (s : State) : Host.Outcome State Fault Refusal :=
  .next (kilel 0x0A04 (fun _ _ => true) audMute dt c s)

/-- `AUD_STATUS` (R438). -/
def audStatus (r : Req) (s : State) : Ans :=
  .done St.OK ((selIdx 8 (fun p => decide (s.audOwner p = r.part))).flatMap (fun p =>
    [s.rd (R.AUD_P_STAT p), s.rd (R.AUD_P_ERR p), s.rd (R.AUD_P_CLK p)])) s

/-- The command `AUD_STATUS` (0x0A05). -/
def execAudStatus (dt : Nat) (c : Call) (s : State) : Host.Outcome State Fault Refusal :=
  .next (kilel 0x0A05 (fun _ _ => true) audStatus dt c s)

/-- AUD_PORT_START_INSTANT: at t_k0 an ARMED port is RUNNING (R426). -/
def execAudPortStartInstant (dt : Nat) (port : Fin 8) (s : State) : Host.Outcome State Fault Refusal :=
  let s := s.tick dt
  let p := port.val
  let x := s.audP p
  .next (if s.audSt p = 1 && decide (x.at_ p x.k0 ≤ s.dev) then
      (((s.audApply p).audNote p).setAudSt p 2).wr (R.AUD_P_SEQ p) 0 |>.audEvent p 0x0A01 0
    else s)

/-- AUD_BLOCK_START: an output block's first frame instant (R424). -/
def execAudBlockStart (dt : Nat) (port : Fin 8) (s : State) : Host.Outcome State Fault Refusal :=
  let s := s.tick dt
  let p := port.val
  let x := s.audP p
  .next (if 2 ≤ s.audSt p && decide (x.at_ p (x.first p) ≤ s.dev) then s.audBegin p else s)

/-- The block of port `p` ends (R424, R425, R437). -/
def State.audBlockEnds (s : State) (p : Nat) (data : List (List Nat)) (parity : List Nat) : State :=
  let x := s.audP p
  let s := parity.foldl (fun (s : State) i =>
    (s.faultItem Src.AUD 1 p x.blk [Fin.ofNat 4096 (x.fd (R.AUD_P_CTX p) 0 12)]).audError p (x.first p + i)) s
  let x := s.audP p
  let rows := if p < 4 then data.map (fun f => (x.rx p).map (nth f))
    else (List.range (x.len p)).map (fun i => ((x.aes.find? (fun e => e.1 = x.first p + i)).map (·.2)).getD [])
  s.audEnd p rows

/-- AUD_BLOCK_END: the end of a block's last frame (R424, R425). `data`: what a serial port received, the samples of every
slot of each frame; `parity`: frames of the block whose buffer failed parity (R437). -/
def execAudBlockEnd (dt : Nat) (port : Fin 8) (data : List (List Nat)) (parity : List Nat) (s : State) :
    Host.Outcome State Fault Refusal :=
  let s := s.tick dt
  let p := port.val
  let x := s.audP p
  .next (if 2 ≤ s.audSt p && decide (x.at_ p (x.first p + x.len p) ≤ s.dev) then
      s.audBlockEnds p data parity
    else s)

/-- A frame start on follower port `p` (R430, R431). -/
def State.audFollow (s : State) (p clocks : Nat) (midOk : Bool) : State :=
  let x := s.audP p
  let bad := decide (clocks ≠ x.slots p * x.width p) || (decide (x.fd (R.AUD_P_CFG p) 0 2 < 2) && !midOk)
  let s := match (if bad then x.lastStart else none) with
    | some k => if x.k0 ≤ k then s.audError p k else s
    | none => s
  s.audStart p s.dev (!bad)

/-- FOLLOWER_FRAME_START: a frame start on a follower serial port, now (R430, R431). `clocks`: bit clocks since the one
before; `midOk`: the mid-frame edge fell where it must. -/
def execFollowerFrameStart (dt : Nat) (port : Fin 4) (clocks : Nat) (midOk : Bool) (s : State) :
    Host.Outcome State Fault Refusal :=
  let s := s.tick dt
  let p := port.val
  let x := s.audP p
  .next (if !x.follows p || s.audSt p < 2 then s
    else s.audFollow p clocks midOk)

/-- AUD_CLOCK_LOSS_TIMEOUT: no bit clock for 8 bit periods, or no frame start in the window of two instants (R431). -/
def execAudClockLossTimeout (dt : Nat) (port : Fin 8) (s : State) : Host.Outcome State Fault Refusal :=
  let s := s.tick dt
  let p := port.val
  let x := s.audP p
  .next (if x.follows p then s.audLost p (x.now p s.dev) else s)

/-- A frame of the AES3 input of port `p` (R432, R433). -/
def State.aesFrame (s : State) (p : Nat) (z : Bool) (a b : AesSub) : State :=
  let s := s.audStart p s.dev (a.parityOk && b.parityOk)
  let x := s.audP p
  let k := x.lastStart.getD 0
  let errs := b2n (!a.parityOk) + b2n (!b.parityOk)
  let s := s.bump (R.AUD_AES_ERR p) 0 16 errs
  let late := match x.sinceZ with | some n => z && decide (n ≠ 192) | none => false
  let s := if late then s.bump (R.AUD_AES_ERR p) 16 16 1 else s
  let s := if z && x.sinceZ = some 192 then s.csBlock p x.csBits else s
  let x := s.audP p
  let word := fun (u : AesSub) (zz : Bool) => if u.parityOk then
    u.sample.toNat * 256 + b2n u.v + b2n u.u * 2 + b2n u.c * 4 + b2n zz * 8 else 0
  let vs := (x.rx p).map (fun i => if i = 0 then word a z else word b false)
  let x := { x with aes := x.aes ++ [(k, vs)]
                    sinceZ := if z then some 1 else x.sinceZ.map (· + 1)
                    csBits := if z then [a.c] else x.csBits ++ [a.c] }
  s.setAud p { x with aesErr := if errs = 0 then x.aesErr else x.aesErr ++ [k] }

/-- AES3_FRAME: a frame of an AES3 input starts now (R432, R433). `z`: its preamble is Z; `a`, `b`: the subframes. -/
def execAes3Frame (dt : Nat) (input : Fin 2) (z : Bool) (a b : AesSub) (s : State) : Host.Outcome State Fault Refusal :=
  let s := s.tick dt
  let p := input.val + 4
  .next (if s.audSt p < 2 then s
    else s.aesFrame p z a b)

end Sys2Proof.Machine
end

