-- ==== Sys2Proof/Machine/Bkc.lean ====
section
/-!
DEFINITION. The Bucking coder's commands (chapter 8): a live beat, the key request, and the offline jobs.
-/

set_option Elab.async false

namespace Sys2Proof.Machine

/-! ### Live coding -/

/-- The frame that the coder works on: the oldest one it codes with a stripe not done (R224). -/
def State.bkcFrame (s : State) : Option Frame :=
  s.ing.frames.find? (fun f => f.coded && f.stripes.any (fun st => !st.done))

/-- Open values from `s.free` on. -/
def State.fv (s : State) (j : Nat) : Nat := (Config.freeWord (s.free + j)).toNat

/-- Some open values are used up. -/
def State.useFree (s : State) (n : Nat) : State := { s with free := s.free + n }

/-- One cell of stripe `i` is coded (R212, R221). -/
def State.codeCell (s : State) (f : Frame) (st : StripeSt) : StripeSt :=
  let e := f.epoch
  let p : CellP := { d := s.frameDepth e, k := if s.mono e then 1 else 2, b := 8 * s.cellC e }
  let y := st.recon.length
  let x0 := (st.reconSeg.getD 0 []).length
  let src := (List.range 64).map (fun j => ((st.cor.getD (y + j / 32) []).getD (x0 + j % 32) (0, false)).1)
  let part := if st.reconSeg.isEmpty then [[], []] else st.reconSeg
  let (bs, rc) := encodeCell p st.recon part st.ref (s.frameWidth e) x0 src (s.cf e R.BKC_CFG 4 3)
    (!st.intra && !st.noMatch && decide (1 ≤ s.cf e R.BKC_CFG 4 3)) st.truncOnly
  let seg := [part.getD 0 [] ++ rc.take 32, part.getD 1 [] ++ rc.drop 32]
  let st := { st with bytes := st.bytes ++ bs, cells := st.cells + 1, doneAt := s.dev }
  if (seg.getD 0 []).length < s.frameWidth e then { st with reconSeg := seg }
  else { st with reconSeg := [], recon := st.recon ++ seg }

/-- The coder cannot take stripe `i`'s next cells: the rest of frame `f` is dropped (R226). -/
def State.bkcBlock (s : State) (i : Nat) (f : Frame) : State :=
  (((s.dropRest f).bump R.BKC_DROP_CNT 0 32 1).raiseOf f.epoch f.no 0 0x0691 St.OK Src.BKC i).settle

/-- The next cells of stripe `i`, up to three (R212, R221, R234 to R236). -/
def State.bkcCode (s : State) (i : Nat) (f : Frame) (st : StripeSt) (io : CodeIo) : State :=
  let st := s.stripeBegin f i st
  let first := decide (st.cells = 0) && !st.intra
  let (st, io, s) := match first, s.refOf f.no with
    | true, some r =>
      let p := s.refSpan r i
      ({ st with ref := s.refRows r i }, { io with refUe := io.refUe || s.poisoned p.1 p.2 }, s.dmaGet Port.refRd 0 p.1 p.2)
    | true, none => ({ st with ref := [] }, io, s)
    | false, _ => (st, io, s)
  let s := if io.refUe && !st.intra then s.faultItem Src.BKC 1 0 i [] else s
  let st := if io.refUe && !st.intra then { st with refUe := true, noMatch := true } else st
  let s := if io.parity then s.faultItem Src.BKC 2 0 i [] else s
  let st := if io.parity then { st with truncOnly := true } else st
  let left := s.frameWidth f.epoch / 32 - (st.reconSeg.getD 0 []).length / 32
  let st := (List.range (min 3 left)).foldl (fun st _ => s.codeCell f st) st
  let st := if st.recon.length = s.stripeRows f.epoch i then { st with done := true } else st
  (s.putFrame { f with stripes := f.stripes.set i st }).settle

/-- BKC_BEAT: the next cells of a stripe, up to three, once both of their rows are corrected; or the drop of R226. -/
def execBkcBeat (dt : Nat) (stripe : Fin 48) (io : CodeIo) (s : State) : Host.Outcome State Fault Refusal :=
  let s := s.tick dt
  let i := stripe.val
  .next (match s.bkcFrame with
  | none => s
  | some f =>
    let st := f.stripes.getD i { done := true }
    if st.done || decide (st.cor.length < st.recon.length + 2) then s
    else if io.blocked then s.bkcBlock i f
    else s.bkcCode i f st io)

/-- BKC_KEY_REQ: a request for a key frame, by part 0 (R219, R529). -/
def State.keyReq (s : State) (v : Word) : State :=
  if bit v 0 then { s with ing := { s.ing with keyReq := s.ing.keyReq ++ [s.now] } } else s

/-! ### Jobs -/

/-- The job descriptor at ring index `i`. -/
def State.jobDesc (s : State) (i : Nat) : List Byte :=
  let n := s.fd R.BKC_JOB_CTRL 0 4
  s.bytes ((s.rd R.BKC_JOB_BASE_LO).toNat + s.fd R.BKC_JOB_BASE_HI 0 8 * 2 ^ 32 + 64 * (i % 2 ^ n)) 64

/-- Fields of a job descriptor (Table 8-6). -/
structure Job where
  type : Nat
  budget : Nat
  effort : Nat
  temporal : Bool
  save : Bool
  tag : Nat
  ctx : Nat
  frames : Nat
  inA : Nat
  outA : Nat
  outLen : Nat
  src : Nat
  dst : Nat
  rsvd : Bool
deriving DecidableEq, Repr

/-- The job that a descriptor spells. -/
def jobOf (b : List Byte) : Job :=
  let p := numAt b 1 1
  { type := numAt b 0 1, budget := p % 8, effort := p / 8 % 8, temporal := decide (p / 64 % 2 = 1)
    save := decide (p / 128 % 2 = 1), tag := numAt b 2 2, ctx := numAt b 4 2 % 4096, frames := numAt b 6 2
    inA := numAt b 8 8, outA := numAt b 0x10 8, outLen := numAt b 0x18 4, src := numAt b 0x20 8, dst := numAt b 0x28 8
    rsvd := decide (numAt b 4 2 / 4096 ≠ 0) || decide (numAt b 0x1C 4 ≠ 0) || decide (numAt b 0x30 16 ≠ 0) }

/-- The geometry of the input and the record of the output side of a job. -/
def State.jobRecs (s : State) (j : Job) : Option StateRec × Option StateRec :=
  (stateRec (s.bytes j.src 256), if j.type = 2 then none else stateRec (s.bytes j.dst 256))

/-- Bytes of one output frame. -/
def Job.outFrame (j : Job) (src : StateRec) : Nat := if j.type = 2 then src.rawBytes else src.codedBytes j.budget

/-- Bytes of one input frame. -/
def Job.inFrame (j : Job) (src : StateRec) : Nat := if j.type = 1 then src.rawBytes else src.codedBytes src.budget

/-- The checks of R230, in their order: the status of a refused job. -/
def State.jobCheck (s : State) (j : Job) : Option Nat :=
  let (src, dst) := s.jobRecs j
  let inside := fun a n => s.inPart 0 a n
  if j.rsvd || j.type = 0 || decide (3 < j.type) || decide (4 < j.budget) || j.frames = 0 then
    some St.BAD_ARGUMENT
  else match src with
    | none => some St.BAD_ARGUMENT
    | some r =>
      if (j.type ≠ 2 && dst.isNone) || decide (4 < r.budget) then some St.BAD_ARGUMENT
      else
        let needRef := match dst with
          | some d => j.temporal && !inside d.refAddr (d.codedBytes d.budget)
          | none => false
        let srcRef := j.type ≠ 1 && decide (r.refValid ≠ 0) && !inside r.refAddr (r.codedBytes r.budget)
        if !s.owns 0 j.ctx || !inside j.src 256 || (j.type ≠ 2 && !inside j.dst 256) ||
            !inside j.inA (j.frames * j.inFrame r) || !inside j.outA j.outLen || needRef || srcRef then some St.BAD_ARGUMENT
        else if j.outLen < j.frames * j.outFrame r then some St.BUFFER_SMALL
        else none

/-- BKC_JOB_CONS passes the present descriptor and those aborted before their turn, already answered; `n` bounds them. -/
def State.jobPass (s : State) : Nat → State
  | 0 => s
  | n + 1 =>
    let i := s.fd R.BKC_JOB_CONS 0 13
    if s.ing.jobGone.contains i then
      (({ s with ing := { s.ing with jobGone := s.ing.jobGone.erase i } }).wr R.BKC_JOB_CONS (w32 ((i + 1) % 8192))).jobPass n
    else s

/-- BKC_JOB_CONS moves to the next descriptor to run; no job runs. -/
def State.jobNext (s : State) : State :=
  let i := s.fd R.BKC_JOB_CONS 0 13
  (({ s with bkcJob := none }).wr R.BKC_JOB_CONS (w32 ((i + 1) % 8192))).jobPass s.ing.jobGone.length

/-- The completion event of a job (R232, R230): ctx 0 where part 0 does not own the job's CTX. -/
def State.jobEvent (s : State) (j : Job) (status frames : Nat) : State :=
  s.raise (if s.owns 0 j.ctx then j.ctx else 0) 0x0690 status Src.BKC (j.tag + frames * 65536)

/-- A job waits: the ring is not empty. -/
def State.jobWaiting (s : State) : Bool := decide (s.fd R.BKC_JOB_CONS 0 13 ≠ s.fd R.BKC_JOB_PROD 0 13)

/-- The job at BKC_JOB_CONS starts, or its checks answer it (R228, R230). -/
def State.jobBegin (s : State) : State :=
  let b := s.jobDesc (s.fd R.BKC_JOB_CONS 0 13)
  let j := jobOf b
  match s.jobCheck j with
  | some st => s.jobNext.jobEvent j st 0
  | none => ({ s with bkcJob := some { desc := b, aborted := false, startedAt := s.now } }).wrF R.BKC_JOB_CONS 13 1 1

/-- The coder takes a job: none runs, one waits, the ring is on, and throttling does not hold it (R228, R485). -/
def State.jobMay (s : State) : Bool := !s.bkcJob.isSome && s.jobWaiting && s.bt R.BKC_JOB_CTRL 8 && !s.throttled

/-- BKC_JOB_START: the next job in the ring starts when the coder is free (R228, R230); not while throttling holds (R485). -/
def execBkcJobStart (dt : Nat) (s : State) : Host.Outcome State Fault Refusal :=
  let s := s.tick dt
  .next (if s.jobMay then s.jobBegin else s)

/-- The packets of a coded frame at address `a`: each with its full length, with no gaps (R229). -/
def State.framePackets (s : State) (a : Nat) : Nat → List (List Byte)
  | 0 => []
  | n + 1 =>
    let len := max 64 (s.num (a + 0x18) 4)
    s.bytes a len :: s.framePackets (a + len) n

/-- The job's reads of `n` packets at address `a` (R328). -/
def State.packetReads (s : State) (a n ctx : Nat) : State :=
  s.dmaGet Port.bkcJob ctx a (((s.framePackets a n).map (·.length)).sum)

/-- Length of a list of packets. -/
def packetsLen (ps : List (List Byte)) : Nat := (ps.map (·.length)).sum

/-- A coded frame decoded: its stripes (R231). -/
def decodeFrame (r : StateRec) (ps : List (List Byte)) (refs : List (Option (List (List Nat)))) : List JobStripe :=
  (List.range r.s).map (fun i => decodeStripe r i (ps.getD i []) (refs.getD i none))

/-- Open samples for the rows of stripe `i`. -/
def State.openRows (s : State) (r : StateRec) (i : Nat) : List (List Nat) :=
  (List.range (nth r.rows i)).map (fun y => (List.range r.width).map (fun x =>
    s.fv ((r.top i + y) * r.width + x) % 2 ^ r.depth))

/-- The reference that frame 0 of a job uses (R231): the coded frame at REF_ADDR, of the stripes whose valid bit is set and whose
PCRC holds (R227). The frame that its MATCH cells refer to is not there: open samples. -/
def State.jobRef0 (s : State) (r : StateRec) : List (Option (List (List Nat))) × State :=
  let ps := s.framePackets r.refAddr r.s
  let refs := (List.range r.s).map (fun i =>
    let x := decodeStripe r i (ps.getD i []) (some (s.openRows r i))
    if r.refValid / 2 ^ i % 2 = 1 && x.valid then some x.recon else none)
  (refs, s.useFree (r.width * r.h))

/-- The samples of stripe `i` of a raw frame at `a` (R229). -/
def State.rawStripe (s : State) (r : StateRec) (a i : Nat) : List (List Nat) :=
  (List.range (nth r.rows i)).map (fun y => (List.range r.width).map (fun x =>
    s.num (a + 2 * ((r.top i + y) * r.width + x)) 2 % 2 ^ r.depth))

/-- Where in a job a fault struck: the frame, the stripe and the cell of it (R236). -/
structure JobHit where
  frame : Nat
  stripe : Nat
  cell : Nat
deriving DecidableEq, Repr

/-- The first cell of stripe `i` of frame `n` that a fault among `l` reaches. -/
def hitFrom (l : List JobHit) (n i : Nat) : Option Nat :=
  (l.find? (fun h => decide (h.frame = n) && decide (h.stripe = i))).map (·.cell)

/-- A stripe encoded for a job: no MATCH from cell `nm` on, TRUNC alone from cell `tr` on (R236). -/
def encodeStripe (r : StateRec) (j : Job) (i : Nat) (src ref : List (List Nat)) (intra : Bool) (nm tr : Option Nat) : JobStripe :=
  let before := fun (k : Nat) (o : Option Nat) => match o with | some n => decide (k < n) | none => true
  let p : CellP := { d := r.depth, k := if r.mono then 1 else 2, b := 8 * cellBytes j.budget }
  (List.range (r.cells i)).foldl (fun (x : JobStripe) k =>
    let part := if x.seg.isEmpty then [[], []] else x.seg
    let x0 := (part.getD 0 []).length
    let cell := (List.range 64).map (fun n => pix src (x0 + n % 32) (x.recon.length + n / 32))
    let (bs, rc) := encodeCell p x.recon part ref r.width x0 cell j.effort (!intra && decide (1 ≤ j.effort) && before k nm)
      (!before k tr)
    { x.add r.width rc with bytes := x.bytes ++ bs })
    { recon := [], seg := [], bad := 0, bytes := [], intra := intra, valid := true }

/-- A job between frames. `inOk`, `outOk`: the stripes of its last input and output frame whose packet has neither LOST nor
DROPPED and whose reference read well (R216). -/
structure JobRun where
  inA : Nat
  outA : Nat
  lastIn : Nat
  lastOut : Nat
  bad : Nat
  inRef : List (Option (List (List Nat)))
  outRef : List (Option (List (List Nat)))
  inOk : List Bool
  outOk : List Bool
deriving DecidableEq, Repr

/-- The output of a stripe: the samples of a decode, the packet of an encode. Answers the packet with its stripe. The packet's TIME,
the moment its last cell was coded (R227), is open between the job's start and now. -/
def State.jobPacket (s : State) (b : BkcJob) (r d : StateRec) (j : Job) (no i : Nat) (src : List (List Nat))
    (inPkt : List Byte) (ref : Option (List (List Nat))) (nm tr : Option Nat) : List Byte × List (List Nat) × State :=
  let mode := d.coding / 128 % 2
  let interval := d.coding / 256 % 256
  let due := keyDue mode interval no i
  let intra := !j.temporal || ref.isNone || due
  let x := encodeStripe r j i src (ref.getD []) intra nm tr
  let (open_, s) := s.fresh
  let (ago, s) := s.fresh
  let time := s.dev - ago % (s.now - b.startedAt + 1)
  let flags := if j.type = 3 then numAt inPkt 0x16 2 else open_ % 65536
  let sf := b2n intra + (if mode = 0 && due then 2 else 0) + (if j.type = 3 then numAt inPkt 0x1F 1 / 4 % 2 * 4 else 0)
  (packetBytes (tagBytes time s.ep.epoch j.ctx Kind.coder no Src.BKC flags) i
    (j.budget + r.depthCode * 8 + b2n r.mono * 32) sf (r.top i) (nth r.rows i) r.wc
    (if intra then 0 else (no + 2 ^ 40 - 1) % 2 ^ 40) (r.cells i) x.bytes, x.recon, s)

/-- `n` stripes of frame `fi` of a job are processed: input read, output written; `ue`, `par`: the faults it met (R236). -/
def State.jobFrame (s : State) (b : BkcJob) (r d : StateRec) (j : Job) (ue par : List JobHit) (fi n : Nat) (k : JobRun) :
    JobRun × State :=
  let no := (d.refFrame + 1 + fi) % 2 ^ 40
  let hit := fun i => (hitFrom ue fi i).isSome
  let clean := fun (p : List Byte) => decide (numAt p 0x1F 1 / 4 % 4 = 0)
  let ps := if j.type = 1 then [] else s.framePackets k.inA r.s
  let dec := if j.type = 1 then [] else decodeFrame r ps k.inRef
  let src := fun i => if j.type = 1 then s.rawStripe r k.inA i else (dec.getD i
    { recon := [], seg := [], bad := 0, bytes := [], intra := false, valid := false }).recon
  let inLen := if j.type = 1 then r.rawBytes else packetsLen ps
  let s := s.dmaGet Port.bkcJob j.ctx k.inA inLen
  let bad := ((dec.take n).map (·.bad)).sum
  let inRef := dec.map (fun x => if x.valid then some x.recon else none)
  let inOk := (List.range ps.length).map (fun i => clean (ps.getD i []) && !(decide (j.type = 2) && hit i))
  if j.type = 2 then
    let s := (List.range n).foldl (fun s i =>
      s.dmaPut Port.bkcJob j.ctx (k.outA + 2 * r.top i * r.width) ((src i).flatMap (fun row => row.flatMap (fun v => leBytes 2 v)))) s
    ({ k with inA := k.inA + inLen, outA := k.outA + r.rawBytes, lastIn := k.inA, lastOut := k.outA, bad := k.bad + bad
              inRef := inRef, inOk := inOk }, s)
  else
    let (outA, out, s) := (List.range n).foldl (fun (a : Nat × List (Option (List (List Nat)) × Bool) × State) i =>
      let (pkt, rc, s) := a.2.2.jobPacket b r d j no i (src i) (ps.getD i []) (k.outRef.getD i none) (hitFrom ue fi i)
        (hitFrom par fi i)
      let ok := clean pkt && !hit i
      (a.1 + pkt.length, a.2.1 ++ [(if ok then some rc else none, ok)], s.dmaPut Port.bkcJob j.ctx a.1 pkt)) (k.outA, [], s)
    ({ k with inA := k.inA + inLen, outA := outA, lastIn := k.inA, lastOut := k.outA, bad := k.bad + bad
              inRef := inRef, outRef := out.map (·.1), inOk := inOk, outOk := out.map (·.2) }, s)

/-- A record advanced to the last frame of a job, with the valid bits of R216. -/
def StateRec.advance (r : StateRec) (n addr : Nat) (ok : List Bool) : StateRec :=
  if n = 0 then r
  else { r with refFrame := (r.refFrame + n) % 2 ^ 40, refAddr := addr, refValid := maskOf r.s (fun i => ok.getD i false) }

/-- The stripes of the frame at REF_ADDR whose packet reads uncorrectable (R236, R327). -/
def State.refHurt (s : State) (r : StateRec) : List (Fin 48) :=
  let ps := s.framePackets r.refAddr r.s
  (List.range (min 48 r.s)).filterMap (fun i =>
    if s.poisoned (r.refAddr + packetsLen (ps.take i)) ((ps.getD i []).length) then some (Fin.ofNat 48 i) else none)

/-- The faults of a job on the stripes `is`: where in it each struck is open. -/
def State.jobHits (s : State) (r : StateRec) (j : Job) (is : List (Fin 48)) : List JobHit :=
  (List.range is.length).map (fun n =>
    let i := (is.getD n 0).val
    { frame := s.fv (2 * n) % j.frames, stripe := i, cell := s.fv (2 * n + 1) % max 1 (r.cells i) })

/-- The references that job `j` reads, and the faults that strike it: where in it each struck of kind REF_READ_UE, of kind
LINE_PARITY, and the state after (R236). -/
def State.jobFaults (s : State) (r d : StateRec) (j : Job) (ue par : List (Fin 48)) : List JobHit × List JobHit × State :=
  let uses := j.type ≠ 1 || j.temporal
  let hurt := if uses then s.refHurt (if j.type = 1 then { d with rows := r.rows } else r) else []
  let s := if uses then s.packetReads (if j.type = 1 then d.refAddr else r.refAddr) r.s j.ctx else s
  let s := (ue ++ hurt).foldl (fun s i => s.faultItem Src.BKC 1 1 i [Fin.ofNat 4096 j.ctx]) s
  let s := par.foldl (fun s i => s.faultItem Src.BKC 2 1 i [Fin.ofNat 4096 j.ctx]) s
  let ueAt := s.jobHits r j ue ++ hurt.map (fun i => { frame := 0, stripe := i.val, cell := 0 })
  let s := s.useFree (2 * ue.length)
  (ueAt, s.jobHits r j par, s.useFree (2 * par.length))

/-- The decoded references of the input and the output before the first frame of a job (R231). -/
def State.jobRefs (s : State) (r d : StateRec) (j : Job) :
    List (Option (List (List Nat))) × List (Option (List (List Nat))) × State :=
  let (in0, s) := if j.type = 1 then ([], s) else s.jobRef0 r
  let (out0, s) := if j.type = 2 || !j.temporal then ([], s) else s.jobRef0 { d with rows := r.rows }
  (in0, out0, s)

/-- The state records are written back after `whole` frames (R232). -/
def State.jobSave (s : State) (r d : StateRec) (j : Job) (k : JobRun) (whole : Nat) : State :=
  if !j.save then s
  else
    let s := s.dmaPut Port.bkcJob j.ctx j.src (r.advance whole k.lastIn k.inOk).bytes
    if j.type = 2 then s else
      s.dmaPut Port.bkcJob j.ctx j.dst ({ d.advance whole k.lastOut k.outOk with
        coding := d.coding / 2 ^ 19 * 2 ^ 19 + j.effort * 2 ^ 16 + d.coding / 128 % 512 * 128 + b2n j.temporal * 64 +
          d.coding / 8 % 8 * 8 + j.budget }).bytes

/-- A job is over: its corrupt cells are counted, the queue moves on, and its events are raised (R232, R234). -/
def State.jobOver (s : State) (j : Job) (status whole bad : Nat) : State :=
  let s := (s.bump R.BKC_CORRUPT_CNT 0 32 bad).jobNext.jobEvent j status whole
  if 0 < bad then s.raise (if s.owns 0 j.ctx then j.ctx else 0) 0x0692 St.OK Src.BKC (min 0xFFFFFFFF bad) else s

/-- Job `b` ends: all its frames, or after an abort `frames` whole ones and `stripes` stripe packets of the next (R232, R233);
stripes `ue` met an uncorrectable reference read, `par` a line-storage parity error, each at an open place in the job (R236). -/
def State.jobFinish (s : State) (b : BkcJob) (frames stripes : Nat) (ue par : List (Fin 48)) : State :=
  let j := jobOf b.desc
  let (src, dst) := s.jobRecs j
  match src with
  | none => s.jobNext.jobEvent j St.BAD_ARGUMENT 0
  | some r =>
    let d := dst.getD r
    let whole := if b.aborted then min frames j.frames else j.frames
    let (ueAt, parAt, s) := s.jobFaults r d j ue par
    let (in0, out0, s) := s.jobRefs r d j
    let k : JobRun := { inA := j.inA, outA := j.outA, lastIn := 0, lastOut := 0, bad := 0, inRef := in0, outRef := out0
                        inOk := [], outOk := [] }
    let (k, s) := (List.range whole).foldl (fun (a : JobRun × State) i => a.2.jobFrame b r d j ueAt parAt i r.s a.1) (k, s)
    let (last, s) := if b.aborted && decide (whole < j.frames) && decide (0 < stripes) then
        s.jobFrame b r d j ueAt parAt whole (min stripes r.s) k
      else (k, s)
    (s.jobSave r d j k whole).jobOver j (if b.aborted then St.ABORTED else St.OK) whole last.bad

/-- BKC_JOB_COMPLETION: the running job ends (R232, R233). -/
def execBkcJobCompletion (dt frames stripes : Nat) (ue par : List (Fin 48)) (s : State) :
    Host.Outcome State Fault Refusal :=
  let s := s.tick dt
  .next (match s.bkcJob with
  | none => s
  | some b => s.jobFinish b frames stripes ue par)

/-- A write of BKC_JOB_PROD (R228). -/
def State.jobProd (s : State) (v : Word) : State :=
  let p := fld v 0 13
  if 2 ^ s.fd R.BKC_JOB_CTRL 0 4 < (p + 8192 - s.fd R.BKC_JOB_CONS 0 13) % 8192 then s.bump R.BKC_JOB_ERR 0 16 1
  else s.wr R.BKC_JOB_PROD (w32 p)

/-- A write of a ring set-up register (R228). -/
def State.jobSetup (s : State) (a : Nat) (v : Word) : State :=
  if s.bkcJob.isSome || s.jobWaiting then s.bump R.BKC_JOB_ERR 0 16 1 else s.wr a (v &&& w32 (regMask a))

/-- A write of BKC_JOB_ABORT (R233). A waiting job completes at once; BKC_JOB_CONS passes its descriptor when those
before it are done. -/
def State.jobAbort (s : State) (tag : Nat) : State :=
  let cons := s.fd R.BKC_JOB_CONS 0 13
  let n := (s.fd R.BKC_JOB_PROD 0 13 + 8192 - cons) % 8192
  match (List.range n).find? (fun i => (jobOf (s.jobDesc (cons + i))).tag = tag && !(s.ing.jobGone.contains ((cons + i) % 8192))) with
  | none => s.bump R.BKC_JOB_ERR 16 16 1
  | some i =>
    match i, s.bkcJob with
    | 0, some b =>
      if b.startedAt = s.now then s.jobNext.jobEvent (jobOf b.desc) St.ABORTED_NOT_STARTED 0
      else { s with bkcJob := some { b with aborted := true } }
    | 0, none => s.jobNext.jobEvent (jobOf (s.jobDesc cons)) St.ABORTED_NOT_STARTED 0
    | i, _ =>
      ({ s with ing := { s.ing with jobGone := (cons + i) % 8192 :: s.ing.jobGone } }).jobEvent
        (jobOf (s.jobDesc (cons + i))) St.ABORTED_NOT_STARTED 0

end Sys2Proof.Machine
end

