-- ==== Sys2Proof/Machine/Lnd.lean ====
section
/-!
DEFINITION. The take commands and the landing store's own steps (chapter 11, R280 to R299).
-/

set_option Elab.async false

namespace Sys2Proof.Machine

/-- A take command on a slot that the caller does not own has no effect: OK with `n` words of zeros, and a violation of
kind 1 (R281). -/
def takeCmd (n : Nat) (body : Nat → Req → State → Ans) (r : Req) (s : State) : Ans :=
  let k := r.f 0 0 4
  if s.slotOwner k ≠ r.part then
    .done St.OK (List.replicate n 0) (s.viol r.part Viol.reg r.ctx (R.LND_SLOT_OWN k))
  else body k r s

/-- Ranges of `TAKE_CONFIG` (R282, R283). In STREAM mode the RING fields are not used. -/
def takeConfigArgs (r : Req) (_ : State) : Bool :=
  let ring := decide (r.f 0 4 1 = 1)
  decide (r.f 0 16 7 ≤ 64) && decide (1 ≤ r.f 1 0 18) && decide (r.f 1 0 18 ≤ 245760) &&
    (!ring || (decide (r.f 0 5 3 ≤ 4) && decide (r.w64 2 ≤ 10 ^ 12) && decide (1 ≤ r.w64 4) && decide (r.w64 4 ≤ 10 ^ 12)))

/-- `TAKE_CONFIG` (R282, R283). -/
def takeConfig (k : Nat) (r : Req) (s : State) : Ans :=
  let trig := r.f 0 5 3
  if r.f 0 4 1 = 1 ∧ trig ≠ 0 ∧ s.resOwner (0x10 + trig - 1) ≠ r.part then .done St.BAD_ARGUMENT [] s
  else if 2 ≤ s.slotSt k then .done St.STATE_CONFLICT [] s
  else
    let t : TakeSlot := { mode := r.f 0 4 1, trigSrc := trig, leadEn := decide (r.f 0 8 1 = 1), embedKib := r.f 0 16 7
                          capMib := r.f 1 0 18, preNs := r.w64 2, postNs := r.w64 4, ctx := r.ctx }
    .done St.OK [] ((s.setSlotT k t).setSlotSt k 1)

/-- The command `TAKE_CONFIG` (0x0501). -/
def execTakeConfig (dt : Nat) (c : Call) (s : State) : Host.Outcome State Fault Refusal :=
  .next (kilel 0x0501 takeConfigArgs (takeCmd 0 takeConfig) dt c s)

/-- `TAKE_DIR_READ` (R299): entries of slots the caller does not own read as 0. -/
def takeDirRead (r : Req) (s : State) : Ans :=
  dmaOut r ((List.range 16).flatMap (fun k => if s.slotOwner k = r.part then s.dirEntry k else List.replicate 128 0)) s s

/-- The command `TAKE_DIR_READ` (0x0502). -/
def execTakeDirRead (dt : Nat) (c : Call) (s : State) : Host.Outcome State Fault Refusal :=
  .next (kilel 0x0502 (fun _ _ => true) takeDirRead dt c s)

/-- H, U and N of an arming (R285). -/
def State.unitShape (s : State) (t : TakeSlot) : Nat × Nat × Nat :=
  let h := 4096 * ceilDiv (64 + t.embedKib * 1024) 4096
  let u := h + round4K (s.rd R.BKC_FRAME_BYTES).toNat
  (h, u, t.capMib * 0x100000 / u)

/-- Slot `k` becomes ARMED with the store of `cap` bytes at `a` and the next TAKE_ID (R284, R285). A frame with a stripe
packet already produced is none of those written (R286). -/
def State.armed (s : State) (k a cap : Nat) (ctx : Option Nat) (p h u n : Nat) (t : TakeSlot) : State :=
  let id := s.lnd.takeNext
  let s := { s with lnd := { s.lnd with takeNext := if id = 0xFFFFFFFF then 1 else id + 1 } }
  let s := s.addAlloc { addr := a, size := cap, ctx := ctx, part := p, slot := some k }
  let t0 : TakeSlot := t.config
  let s := s.setSlotT k { t0 with takeId := id, n := n, u := u, h := h, addr := a, armedAt := s.dev }
  let s : State := { s with ing := { s.ing with frames := s.ing.frames.map (fun (f : Frame) =>
    if f.coded || f.stripes.any (·.done) then ({ f with landed := k :: f.landed } : Frame) else f) } }
  let s := (s.wrs [(R.LND_SLOT_WIDX k, 0), (R.LND_SLOT_TAKE k, w32 id)]).setSlotSt k 2
  s.actsAbort

/-- `TAKE_ARM` (R284, R285): the refusals in their order, then the store and the TAKE_ID. -/
def takeArm (k : Nat) (r : Req) (s : State) : Ans :=
  let t := s.slot k
  let (h, u, n) := s.unitShape t
  let cap := t.capMib * 0x100000
  let p := r.part
  let ctx := if s.owns p t.ctx then some t.ctx else none
  let total := ((s.allocs.filter (fun x => x.slot.isSome)).map (·.size)).sum
  if s.slotSt k ≠ 1 || !s.bt R.BKC_CFG 0 then .done St.STATE_CONFLICT [] s
  else if s.fd R.DMC_CFG 0 2 ≠ s.fd R.DMC_INFO 10 2 then .done St.STATE_CONFLICT [] s
  else if 4 ≤ (selIdx 16 s.slotLive).length then .done St.STATE_CONFLICT [] s
  else if n < 2 then .done St.INVALID_CONFIG [] s
  else if 128 * (s.rd R.SLK_PERIOD_MIN).toNat < s.liveU + u then .done St.INVALID_CONFIG [] s
  else if s.overQuota p ctx cap then .done St.QUOTA_EXCEEDED [] s
  else if 240 * 2 ^ 30 < total + cap then .done St.QUOTA_EXCEEDED [] s
  else match s.findRange cap with
    | (none, s) => .done St.NO_SPACE [] s
    | (some a, s) => .done St.OK [w32 s.lnd.takeNext, w32 u, w32 n] (s.armed k a cap ctx p h u n t)

/-- The command `TAKE_ARM` (0x0503). -/
def execTakeArm (dt : Nat) (c : Call) (s : State) : Host.Outcome State Fault Refusal :=
  .next (kilel 0x0503 (fun _ _ => true) (takeCmd 3 takeArm) dt c s)

/-- `TAKE_DISARM` (R296). -/
def takeDisarm (k : Nat) (_ : Req) (s : State) : Ans :=
  if s.slotSt k ≠ 2 then .done St.STATE_CONFLICT [] s else .done St.OK [] (s.toIdle k)

/-- The command `TAKE_DISARM` (0x0504). -/
def execTakeDisarm (dt : Nat) (c : Call) (s : State) : Host.Outcome State Fault Refusal :=
  .next (kilel 0x0504 (fun _ _ => true) (takeCmd 0 takeDisarm) dt c s)

/-- The ns field of a time is below 10^9. -/
def timeArgs (r : Req) (_ : State) : Bool := decide (r.f 1 0 30 < 10 ^ 9)

/-- The time that a take command carries; all zeros means the acceptance time (R288). -/
def takeTime (r : Req) (s : State) : Nat :=
  let t := r.f 1 0 30 + ((r.w 2).toNat + r.f 3 0 16 * 2 ^ 32) * 10 ^ 9
  if t = 0 then s.dev else t

/-- `TAKE_START` (R288). -/
def takeStart (k : Nat) (r : Req) (s : State) : Ans :=
  let t := s.slot k
  if !s.slotLive k || t.mode = 1 || t.start.isSome then .done St.STATE_CONFLICT [] s
  else .done St.OK [] (s.setStart k (takeTime r s))

/-- The command `TAKE_START` (0x0505). -/
def execTakeStart (dt : Nat) (c : Call) (s : State) : Host.Outcome State Fault Refusal :=
  .next (kilel 0x0505 timeArgs (takeCmd 0 takeStart) dt c s)

/-- `TAKE_STOP` (R288). -/
def takeStop (k : Nat) (r : Req) (s : State) : Ans :=
  let t := s.slot k
  if !s.slotLive k || t.mode = 1 || t.stop.isSome then .done St.STATE_CONFLICT [] s
  else .done St.OK [] (s.setStop k (takeTime r s))

/-- The command `TAKE_STOP` (0x0506). -/
def execTakeStop (dt : Nat) (c : Call) (s : State) : Host.Outcome State Fault Refusal :=
  .next (kilel 0x0506 timeArgs (takeCmd 0 takeStop) dt c s)

/-- `TAKE_TRIGGER` (R289). -/
def takeTrigger (k : Nat) (r : Req) (s : State) : Ans :=
  let t := s.slot k
  if s.slotSt k ≠ 2 || t.mode ≠ 1 || t.trig.isSome then .done St.STATE_CONFLICT [] s
  else .done St.OK [] (s.trigger k (takeTime r s))

/-- The command `TAKE_TRIGGER` (0x0507). -/
def execTakeTrigger (dt : Nat) (c : Call) (s : State) : Host.Outcome State Fault Refusal :=
  .next (kilel 0x0507 timeArgs (takeCmd 0 takeTrigger) dt c s)

/-- `TAKE_DELETE` (R297): the entry is cleared by an update of its two copies (R490). -/
def takeDelete (k : Nat) (_ : Req) (s : State) : Ans :=
  if s.slotSt k ≠ 5 || !(s.slot k).reads.isEmpty then .done St.STATE_CONFLICT [] s
  else .done St.OK [] ((s.nvUpdate { a0 := (dirAddr k).1, a1 := (dirAddr k).2, seqOff := 0x5C
                                     body := List.replicate 124 0 }).toIdle k)

/-- The command `TAKE_DELETE` (0x0508). -/
def execTakeDelete (dt : Nat) (c : Call) (s : State) : Host.Outcome State Fault Refusal :=
  .next (kilel 0x0508 (fun _ _ => true) (takeCmd 0 takeDelete) dt c s)

/-- A field of a directory entry. -/
def entryNum (e : List Byte) (off n : Nat) : Nat := ofBytes ((e.drop off).take n)

/-- COUNT frames of the take in slot `k`, from FIRST on, become items of the ring (R298); `ue` are those that will
read uncorrectable. -/
def State.readTake (s : State) (ue : List Nat) (k ring : Nat) (first : Int) (count ctx : Nat) : State :=
  let e := s.dirEntry k
  let n := entryNum e 0x44 4
  let u := entryNum e 0x48 4
  let t := s.slot k
  let id := s.lnd.readSeq
  let s : State := { s with lnd := { s.lnd with readSeq := id + 1 } }
  let x : TakeRead := { id := id, left := count, done := 0, bad := false }
  let s := s.setSlotT k { t with reads := t.reads ++ [x] }
  (List.range count).foldl (fun (s : State) (i : Nat) =>
    let unit : Int := ((entryNum e 0x40 4 : Int) + first + (i : Int) + (n : Int)) % (n : Int)
    let at_ := entryNum e 0x50 8 % 2 ^ 40 + unit.toNat * u
    s.arrive { ring := ring, kind := 7, epoch := s.ep.epoch, size := u, runs := [(at_, u)], ctx := ctx, ue := ue.contains i
               unit := unit.toNat, staged := false, take := some (k, id) }) s

/-- `TAKE_READ` (R298): COUNT frames from FIRST become items of the ring; `ue` are those that read uncorrectable. A LOST take
has no store to read. -/
def takeRead (ue : List Nat) (k : Nat) (r : Req) (s : State) : Ans :=
  let e := s.dirEntry k
  let ring := r.f 0 16 16
  let first := sx 32 (r.w 1).toNat
  let count := (r.w 2).toNat
  let frames := entryNum e 0x38 4
  let lead := entryNum e 0x3C 2
  let held := decide (s.slotSt k = 5) && decide (entryNum e 0x08 1 ≠ 2)
  if count = 0 || !s.bindOk r.part ring false ||
      (held && (first < -(lead : Int) || (frames : Int) ≤ first || (frames : Int) - first < count)) then
    .done St.BAD_ARGUMENT [] s
  else if !held then .done St.STATE_CONFLICT [] s
  else .done St.OK [] (s.readTake ue k ring first count r.ctx)

/-- The command `TAKE_READ` (0x0509). -/
def execTakeRead (dt : Nat) (c : Call) (ue : List Nat) (s : State) : Host.Outcome State Fault Refusal :=
  .next (kilel 0x0509 (fun _ _ => true) (takeCmd 0 (takeRead ue)) dt c s)

/-- `LANDING_STATUS` (Table 2-15). -/
def landingStatus (r : Req) (s : State) : Ans :=
  let held := ((s.allocs.filter (fun x => x.slot.isSome)).map (·.size)).sum
  .done St.OK ([s.rd R.LND_RET_STAT, s.rd R.LND_RATE, w32 (ceilDiv held 0x100000)] ++
    (List.range 16).map (fun k => if s.slotOwner k = r.part then s.rd (R.LND_SLOT_STAT k) else 0)) s

/-- The command `LANDING_STATUS` (0x050A). -/
def execLandingStatus (dt : Nat) (c : Call) (s : State) : Host.Outcome State Fault Refusal :=
  .next (kilel 0x050A (fun _ _ => true) landingStatus dt c s)

/-- A frame's unit header and EMBED (Table 11-2): COMPLETE set, CUT as given. -/
def State.unitHead (s : State) (t : TakeSlot) (f : Frame) (cut : Bool) (coded : Nat) : List Byte :=
  let em := f.embed.take (t.embedKib * 1024)
  leBytes 2 1 ++ leBytes 2 (1 + 2 * b2n cut) ++ leBytes 4 t.takeId ++ leBytes 4 em.length ++ leBytes 4 coded ++
    s.frameRecord f ++ em

/-- Frame `f` goes into the next unit of slot `k`, or finds none (R286, R291); `cut`: the port stopped accepting after so many
coded bytes. -/
def State.landUnit (s : State) (k : Nat) (f : Frame) (cut : Option Nat) : State :=
  let t := s.slot k
  let s := s.putFrame { f with landed := k :: f.landed }
  let past := decide (s.slotSt k = 3) && (match t.stop with | some b => decide (b ≤ f.expStart) | none => false)
  let oldest := t.units.head?
  let full := decide (t.n ≤ t.units.length)
  if past then ((s.setSlotT k { t with stopSeen := true }).tryFinal k).settle
  else if full && (match oldest with | some u => s.protectedUnit t u | none => true) then
    let s := (s.setSlotT k { t with stop := some f.expStart, full := true }).slotEvent k 0x0503 k
    (s.finalise k).settle
  else
    let idx := s.fd (R.LND_SLOT_WIDX k) 0 32
    let body := (List.range f.stripes.length).flatMap (fun i => s.stripePacket f i)
    let coded := match cut with | some n => body.take n | none => body
    let isCut := match cut with | some n => decide (n < body.length) | none => false
    let f := if isCut then { f with landed := k :: f.landed }.addFlag Fl.OVERFLOW else f
    let s := if isCut then s.putFrame f else s
    let a := t.addr + idx * t.u
    let s := (s.dmaPut Port.lndWr t.ctx a (s.unitHead t f isCut coded.length)).dmaPut Port.lndWr t.ctx (a + t.h) coded
    let s := if isCut then (s.bump (R.LND_SLOT_CUT k) 0 32 1).slotEvent k 0x0504 k else s
    let u : Unit_ := { idx := idx, frame := f.no, epoch := f.epoch, t := f.expStart, complete := true
                       damaged := isCut || decide (f.flags / Fl.PARTIAL % 2 = 1) || decide (f.flags / Fl.OVERFLOW % 2 = 1)
                       temporal := decide (s.cf f.epoch R.BKC_CFG 7 1 = 1)
                       intra := maskOf f.stripes.length (fun i => (f.stripes.getD i {}).intra) }
    let t := { t with units := (if full then t.units.drop 1 else t.units) ++ [u], lapped := t.lapped || full }
    (((s.setSlotT k t).wr (R.LND_SLOT_WIDX k) (w32 ((idx + 1) % t.n))).tryFinal k).settle

/-- The oldest frame that slot `k` has not written. -/
def State.landNext (s : State) (k : Nat) : Option Frame :=
  s.ing.frames.find? (fun f => f.coded && f.shipped && !f.landed.contains k)

/-- LANDING_UNIT_WRITE: the oldest frame that the slot has not written goes into its next unit, or finds none (R286, R291). -/
def execLandingUnitWrite (dt : Nat) (slot : Fin 16) (cut : Option Nat) (s : State) : Host.Outcome State Fault Refusal :=
  let s := s.tick dt
  .next (match s.slotLive slot, s.landNext slot with
  | true, some f => s.landUnit slot f cut
  | _, _ => s)

/-- TAKE_FINALISATION: step 1 of R295 for a slot whose end is reached and whose units are complete (R294). -/
def execTakeFinalisation (dt : Nat) (slot : Fin 16) (s : State) : Host.Outcome State Fault Refusal :=
  .next (((s.tick dt).tryFinal slot).settle)

/-- Steps 2 and 3 of R295 for slot `k`. -/
def State.entryWritten (s : State) (k : Nat) : State :=
  let b := (s.slot k).entry
  let s := s.nvFlush.nvApply { a0 := (dirAddr k).1, a1 := (dirAddr k).2, seqOff := 0x5C, body := b }
  let s := (s.setSlotT k { s.slot k with entry := [], units := [] }).setSlotSt k 5
  s.slotEvent k 0x0502 (k + ofBytes ((b.drop 0x0A).take 2) * 65536)

/-- TAKE_ENTRY_WRITTEN: steps 2 and 3 of R295; held while Tj is outside the NV write range (R299). -/
def execTakeEntryWritten (dt : Nat) (slot : Fin 16) (s : State) : Host.Outcome State Fault Refusal :=
  let s := s.tick dt
  .next (if s.slotSt slot = 4 && s.nvRange then s.entryWritten slot else s)

end Sys2Proof.Machine
end

