-- ==== Sys2Proof/Machine/NvRec.lean ====
section
/-!
DEFINITION. The records that NV memory keeps in two copies (R490, Table 19-3): image control, boot control, the thermal
marker and the retention result. The layouts of their bodies are log entry 23.
-/

set_option Elab.async false

namespace Sys2Proof.Machine

/-! ### Records in two copies (R490) -/

/-- The record as software sees it: the latest update still held in AON, or the valid copy in NV; without SEQ. -/
def State.record (s : State) (a0 a1 len : Nat) : Option (List Byte) :=
  match (s.nvHeld.filter (fun u => decide (u.a0 = a0))).getLast? with
  | some u => some (u.body.drop 4)
  | none => (s.nvRead a0 a1 len 0).map (fun b => (b.take (len - 4)).drop 4)

/-- The record gets new contents. -/
def State.putRecord2 (s : State) (a0 a1 : Nat) (body : List Byte) : State :=
  s.nvUpdate { a0 := a0, a1 := a1, seqOff := 0, body := leBytes 4 0 ++ body }

/-- Image control (R495): the states of slots A and B (0 EMPTY, 1 PARTIAL, 2 VALID), the selected slot, the VERSIONs. -/
structure ImgCtl where
  a : Nat
  b : Nat
  sel : Nat
  va : Nat
  vb : Nat
deriving DecidableEq, Repr

/-- Bytes of the image control record after its SEQ. -/
def ImgCtl.bytes (c : ImgCtl) : List Byte :=
  leBytes 1 c.a ++ leBytes 1 c.b ++ leBytes 1 c.sel ++ leBytes 1 0 ++ leBytes 4 c.va ++ leBytes 4 c.vb

/-- The image control record; both slots EMPTY where no copy is valid. -/
def State.imgCtl (s : State) : ImgCtl :=
  match s.record 0x800000 0x801000 20 with
  | some b => { a := ofBytes (b.take 1), b := ofBytes ((b.drop 1).take 1), sel := ofBytes ((b.drop 2).take 1) % 2
                va := ofBytes ((b.drop 4).take 4), vb := ofBytes ((b.drop 8).take 4) }
  | none => { a := 0, b := 0, sel := 0, va := 0, vb := 0 }

/-- The image control record is written. -/
def State.setImgCtl (s : State) (c : ImgCtl) : State := s.putRecord2 0x800000 0x801000 c.bytes

/-- State of slot `k`. -/
def ImgCtl.st (c : ImgCtl) (k : Nat) : Nat := if k = 0 then c.a else c.b

/-- Slot `k` gets a state. -/
def ImgCtl.setSt (c : ImgCtl) (k v : Nat) : ImgCtl := if k = 0 then { c with a := v } else { c with b := v }

/-- Slot `k` gets a VERSION. -/
def ImgCtl.setVer (c : ImgCtl) (k v : Nat) : ImgCtl := if k = 0 then { c with va := v } else { c with vb := v }

/-- CONSEC in AON and NV, with how the latest attempt ended (Table 19-3). -/
def State.setConsecAs (s : State) (n cause : Nat) : State :=
  (s.wrF R.AON_BOOT_STAT 0 8 (min 255 n)).putRecord2 0x802000 0x803000 (leBytes 1 (min 255 n) ++ leBytes 1 cause ++ leBytes 2 0)

/-- CONSEC in AON and NV; an attempt that has not reached step 6 counts as INTERRUPTED until it does (Table 19-5). -/
def State.setConsec (s : State) (n : Nat) : State :=
  s.setConsecAs n (if s.pwr.boot.readyAt.isSome || s.pwr.boot.wait.isSome then 5 else s.pwr.boot.prev)

/-- CONSEC and the last cause as NV holds them. -/
def State.nvConsec (s : State) : Nat × Nat :=
  match s.record 0x802000 0x803000 12 with
  | some b => (ofBytes (b.take 1), ofBytes ((b.drop 1).take 1))
  | none => (0, 0)

/-- The thermal marker and the retention result in NV (R488, R301). -/
def State.setMarker (s : State) (m : Bool) (result at_ : Nat) : State :=
  s.putRecord2 0x804000 0x805000 (leBytes 1 (b2n m) ++ leBytes 1 result ++ leBytes 2 0 ++ leBytes 8 at_)

/-- The marker in NV, with the retention result beside it. -/
def State.nvMarker (s : State) : Bool × Nat × Nat :=
  match s.record 0x804000 0x805000 20 with
  | some b => (decide (ofBytes (b.take 1) = 1), ofBytes ((b.drop 1).take 1), ofBytes ((b.drop 4).take 8))
  | none => (false, 0, 0)

end Sys2Proof.Machine
end

