-- ==== Sys2Proof/Machine/Sq.lean ====
section
/-!
DEFINITION. Storage queues and the NV user area (R305 to R315). The effect of a write comes at its end, so that readers
see the old contents until then; commands that write the same block end in the order they started (R309).
-/

set_option Elab.async false

namespace Sys2Proof.Machine

/-- First NV byte of block `b` of the user area (Table 19-3). -/
def uaAddr (b : Nat) : Nat := 0x1000000 + 4096 * b

/-- The partition that owns block `b` of the user area (R305). -/
def State.uaOwner (s : State) (b : Nat) : Nat := s.fd (R.LND_UA_OWN (b / 16)) 0 6

/-- The contents of block `b`. -/
def State.uaBlock (s : State) (b : Nat) : List Byte := s.nvBytes (uaAddr b) 4096

/-- Queue `q`. -/
def State.sq (s : State) (q : Nat) : Option SqQueue := tabGet (fun _ => none) s.lnd.sqs q

/-- Queue `q` replaced. -/
def State.setSq (s : State) (q : Nat) (x : Option SqQueue) : State :=
  { s with lnd := { s.lnd with sqs := tabSet (fun _ => none) s.lnd.sqs q x } }

/-- The queues that exist. -/
def State.sqIds (s : State) : List Nat := selIdx 32 (fun q => (s.sq q).isSome)

/-- LND_TAG_FREE and PART_POOL_USED.SQ of partition `p` as the queues stand. -/
def State.sqRegs (s : State) (p : Nat) : State :=
  let s := s.wr R.LND_TAG_FREE (w32 (1024 - 32 * s.sqIds.length))
  s.wrF (R.PART_POOL_USED p) 16 8 (s.sqIds.filter (fun q => match s.sq q with
    | some x => decide (s.ctxOwner x.ctx = some p)
    | none => false)).length

/-- The blocks of a storage command. -/
def SqCmd.blocks (c : SqCmd) : List Nat := (List.range c.count).map (c.block + ·)

/-- A command that writes. -/
def SqCmd.writes (c : SqCmd) : Bool := c.opc = 2 || c.opc = 3

/-- Two commands touch a block in common. -/
def SqCmd.overlaps (c d : SqCmd) : Bool := decide (c.block < d.block + d.count) && decide (d.block < c.block + c.count)

/-- Every started command of every queue. -/
def State.sqStarted (s : State) : List SqCmd :=
  s.sqIds.flatMap (fun q => match s.sq q with | some x => x.cmds.filter (·.started) | none => [])

/-- Block `b` is under a host write (R312). -/
def State.uaWriting (s : State) (b : Nat) : Bool := s.sqStarted.any (fun c => c.writes && c.blocks.contains b)

/-- An I2C write holds a block of the command (R312). -/
def State.i2cHolds (s : State) (c : SqCmd) : Bool :=
  match s.lnd.i2c with | some h => c.blocks.contains h.1 | none => false

/-- Completions go to the ring while it has room (R307, R443); `n` bounds their number. -/
def State.sqFlush (s : State) (q : Nat) : Nat → State
  | 0 => s
  | n + 1 =>
    match s.sq q with
    | none => s
    | some x =>
      match x.out with
      | [] => s
      | d :: ds =>
        if idxDiff x.cplProd x.cons < 2 ^ x.n ∧ s.bme ((s.ctxOwner x.ctx).getD 0) = true then
          let bs := leBytes 1 d.tag ++ leBytes 1 d.status ++ leBytes 2 x.head ++ leBytes 4 d.cookie ++ leBytes 4 d.time ++
            leBytes 2 d.blocks ++ leBytes 2 (phaseOf x.n x.cplProd)
          let s := s.emit (.host ((s.ctxOwner x.ctx).getD 0) (x.cpl + 16 * (x.cplProd % 2 ^ x.n)) bs)
          (s.setSq q (some { x with cplProd := (x.cplProd + 1) % 65536, out := ds, evPend := true })).sqFlush q n
        else s

/-- SQ_CPL for the completions written, at most once per 2 us (R308). -/
def State.sqEvent (s : State) (q : Nat) : State :=
  match s.sq q with
  | none => s
  | some x =>
    let wait := match x.lastEv with | some t => decide (s.now < t + 2000) | none => false
    if x.evPend && !wait then
      (s.setSq q (some { x with evPend := false, lastEv := some s.now })).raise x.ctx 0x0B01 St.OK Src.LND q
    else s

/-- Waiting completions are written, then the event. -/
def State.sqPush (s : State) (q : Nat) : State :=
  match s.sq q with
  | some x => (s.sqFlush q x.out.length).sqEvent q
  | none => s

/-- A completion is due for tag `tag` of queue `q`. -/
def State.sqOut (s : State) (q tag cookie status blocks : Nat) : State :=
  match s.sq q with
  | none => s
  | some x =>
    let d : SqDone := { tag := tag, status := status, cookie := cookie, time := s.short, blocks := blocks }
    (s.setSq q (some { x with out := x.out ++ [d] })).sqPush q

/-- A command ends. -/
def State.sqEnd (s : State) (q : Nat) (c : SqCmd) (status blocks : Nat) : State :=
  match s.sq q with
  | none => s
  | some x => (s.setSq q (some { x with cmds := x.cmds.erase c })).sqOut q c.tag c.cookie status blocks

/-- Queue `q` named by partition `p`: it exists and its context belongs to `p` (log entry 18). -/
def State.sqNamed (s : State) (p q : Nat) : Option SqQueue :=
  match s.sq q with
  | some x => if s.owns p x.ctx then some x else none
  | none => none

/-! ### Kilel commands -/

/-- Ranges of `SQ_CREATE` (R306). -/
def sqCreateArgs (r : Req) (_ : State) : Bool :=
  decide (5 ≤ r.f 0 0 4) && decide (r.f 0 0 4 ≤ 10) && decide (1 ≤ r.f 0 8 8) && decide (r.f 0 8 8 ≤ 100) &&
    decide (r.w64 1 % 64 = 0) && decide (r.w64 3 % 64 = 0) && decide (r.w64 5 % 8 = 0)

/-- The queue that the arguments of `SQ_CREATE` describe. -/
def sqNew (r : Req) : SqQueue :=
  { ctx := r.ctx, n := r.f 0 0 4, poll := r.f 0 8 8, sub := r.w64 1, cpl := r.w64 3, idx := r.w64 5 }

/-- `SQ_CREATE` (R306, R89, R90). Which free QID it gets the spec leaves open. -/
def sqCreate (r : Req) (s : State) : Ans :=
  if s.fd (R.PART_POOL_QUOTA r.part) 16 8 < s.fd (R.PART_POOL_USED r.part) 16 8 + 1 then .done St.QUOTA_EXCEEDED [] s
  else
    let free := selIdx 32 (fun q => (s.sq q).isNone)
    if free.isEmpty then .done St.POOL_EMPTY [] s
    else
      let (v, s) := s.fresh
      let q := nth free (v % free.length)
      .done St.OK [w32 q] ((s.setSq q (some (sqNew r))).sqRegs r.part)

/-- The command `SQ_CREATE` (0x0B01). -/
def execSqCreate (dt : Nat) (c : Call) (s : State) : Host.Outcome State Fault Refusal :=
  .next (kilel 0x0B01 sqCreateArgs sqCreate dt c s)

/-- `SQ_DELETE` (R307). -/
def sqDelete (q : Nat) (r : Req) (s : State) : Ans :=
  match s.sqNamed r.part q with
  | none => .done St.BAD_ARGUMENT [] s
  | some x =>
    if !x.cmds.isEmpty || !x.out.isEmpty then .done St.STATE_CONFLICT [] s
    else .done St.OK [] ((s.setSq q none).sqRegs r.part)

/-- The command `SQ_DELETE` (0x0B02). -/
def execSqDelete (dt : Nat) (c : Call) (qid : Fin 32) (s : State) : Host.Outcome State Fault Refusal :=
  .next (kilel 0x0B02 (fun _ _ => true) (sqDelete qid) dt c s)

/-- `SQ_ABORT` (R311). -/
def sqAbort (q tag : Nat) (r : Req) (s : State) : Ans :=
  match s.sqNamed r.part q with
  | none => .done St.BAD_ARGUMENT [] s
  | some x =>
    match x.cmds.find? (fun c => c.tag = tag) with
    | none => .done St.STATE_CONFLICT [] s
    | some c =>
      if !c.started || c.startAt = s.now then .done St.OK [] (s.sqEnd q c St.ABORTED_NOT_STARTED 0)
      else if c.opc = 3 then .done St.STATE_CONFLICT [] s
      else .done St.OK [] (s.setSq q (some { x with cmds := repl1 c { c with abort := true } x.cmds }))

/-- The command `SQ_ABORT` (0x0B03). -/
def execSqAbort (dt : Nat) (c : Call) (qid tag : Fin 32) (s : State) : Host.Outcome State Fault Refusal :=
  .next (kilel 0x0B03 (fun _ _ => true) (sqAbort qid tag) dt c s)

/-- `SQ_STATUS`: tags in use, NV blocks held by started commands (Table 2-14; log entry 9). -/
def sqStatus (q : Nat) (r : Req) (s : State) : Ans :=
  match s.sqNamed r.part q with
  | none => .done St.BAD_ARGUMENT [] s
  | some x => .done St.OK [w32 x.cmds.length, w32 (((x.cmds.filter (·.started)).flatMap (·.blocks)).dedup).length] s

/-- The command `SQ_STATUS` (0x0B04). -/
def execSqStatus (dt : Nat) (c : Call) (qid : Fin 32) (s : State) : Host.Outcome State Fault Refusal :=
  .next (kilel 0x0B04 (fun _ _ => true) (sqStatus qid) dt c s)

/-! ### The queue engine -/

/-- A command as its 64 bytes spell it (Table 11-5). -/
def sqDecode (w : BitVec 512) : SqCmd :=
  let f := fun lo n => w.toNat / 2 ^ lo % 2 ^ n
  { opc := f 0 8, tag := f 8 8, block := f 32 16, count := f 48 16, addr := f 64 64, cookie := f 128 32 }

/-- The command breaks R308 or Table 11-5. -/
def sqBad (w : BitVec 512) : Bool :=
  let c := sqDecode w
  let res := decide (w.toNat / 2 ^ 16 % 2 ^ 16 ≠ 0) || decide (w.toNat / 2 ^ 160 ≠ 0) || decide (32 ≤ c.tag)
  let top := if c.opc = 3 then 4 else 256
  decide (c.opc = 0) || decide (4 < c.opc) || res ||
    (decide (c.opc ≠ 4) && (decide (c.count = 0) || decide (top < c.count) || decide (2048 < c.block + c.count) ||
      decide (c.addr % 4 ≠ 0)))

/-- One command is fetched (R307, R308). -/
def State.sqFetch (s : State) (q : Nat) (w : BitVec 512) : State :=
  match s.sq q with
  | none => s
  | some x =>
    let s := (s.setSq q (some { x with head := (x.head + 1) % 65536 })).wakeP1
    let c := sqDecode w
    if sqBad w then s.sqOut q c.tag c.cookie St.BAD_ARGUMENT 0
    else if x.cmds.any (fun d => d.tag = c.tag) then s.sqOut q c.tag c.cookie St.DUPLICATE_PENDING 0
    else match s.sq q with
      | some x => s.setSq q (some { x with cmds := x.cmds ++ [c] })
      | none => s

/-- The index word of queue `qid` and the commands behind it have come (R307). -/
def State.sqPolled (s : State) (qid : Fin 32) (x : SqQueue) (hostWord : BitVec 64) (cmds : List (BitVec 512)) : State :=
  let prod := hostWord.toNat % 65536
  let s := (s.setSq qid (some { x with cons := hostWord.toNat / 2 ^ 32 % 65536 })).sqPush qid
  let n := min (2 ^ x.n) (idxDiff prod x.head)
  (cmds.take n).foldl (fun s w => s.sqFetch qid w) s

/-- Queue `x` is not polled now (R313, R443): after a request for P2 or P3 polling stops when the started commands are done. -/
def State.sqShut (s : State) (x : SqQueue) : Bool :=
  !s.bme ((s.ctxOwner x.ctx).getD 0) || (s.lnd.sqStop && s.sqStarted.isEmpty) || decide (2 ≤ s.power) || s.draining x.ctx

/-- SQ_POLL: the index word is read and commands are fetched (R307); not while the function's BME is 0 (R443) or polling
has stopped (R313). -/
def execSqPoll (dt : Nat) (qid : Fin 32) (hostWord : BitVec 64) (cmds : List (BitVec 512)) (s : State) :
    Host.Outcome State Fault Refusal :=
  let s := s.tick dt
  .next (match s.sq qid with
    | none => s
    | some x =>
      if s.sqShut x then s else s.sqPolled qid x hostWord cmds)

/-- The next command of queue `q` that has not started, when it has the opcode and may start (R309, R313, R443). -/
def State.sqNext (s : State) (q opc : Nat) : Option (SqQueue × SqCmd) :=
  match s.sq q with
  | none => none
  | some x =>
    match x.cmds.find? (fun c => !c.started) with
    | some c => if c.opc = opc && s.bme ((s.ctxOwner x.ctx).getD 0) && decide (s.power < 2) && !s.lnd.sqStop then some (x, c) else none
    | none => none

/-- A command starts. -/
def State.sqStart (s : State) (q : Nat) (x : SqQueue) (c : SqCmd) (data : List Byte) : State :=
  let c' : SqCmd := { c with started := true, startAt := s.now, seq := s.lnd.sqSeq, data := data }
  let s := s.setSq q (some { x with cmds := repl1 c c' x.cmds })
  { s with lnd := { s.lnd with sqSeq := s.lnd.sqSeq + 1 } }

/-- The data that a read finds: zeros of blocks its partition does not own (R305). -/
def State.sqReadData (s : State) (x : SqQueue) (c : SqCmd) : List Byte :=
  c.blocks.flatMap (fun b => if s.ctxOwner x.ctx = some (s.uaOwner b) then s.uaBlock b else List.replicate 4096 0)

/-- SQ_READ starts: it finds the contents of this moment (R309), zeros of blocks its partition does not own (R305). -/
def execSqRead (dt : Nat) (qid : Fin 32) (s : State) : Host.Outcome State Fault Refusal :=
  let s := s.tick dt
  .next (match s.sqNext qid 1 with
    | none => s
    | some (x, c) => s.sqStart qid x c (s.sqReadData x c))

/-- A write starts with the data of its host buffer; `none`: the host read failed. Outside the NV write range it ends at
once (R310); behind an I2C hold it waits and is counted (R312). -/
def State.sqWriteStart (s : State) (q opc : Nat) (data : Option (List Byte)) : State :=
  match s.sqNext q opc with
  | none => s
  | some (x, c) =>
    if !s.nvRange then s.sqEnd q c St.NV_TEMP_RANGE 0
    else match data with
      | none => s.sqEnd q c St.DMA_ERROR 0
      | some d =>
        let s := if s.i2cHolds c then s.bump R.LND_UA_I2C 16 16 1 else s
        let n := 4096 * c.count
        s.sqStart q x c ((d ++ List.replicate (n - d.length) 0).take n)

/-- SQ_WRITE starts. -/
def execSqWrite (dt : Nat) (qid : Fin 32) (data : Option (List Byte)) (s : State) : Host.Outcome State Fault Refusal :=
  .next ((s.tick dt).sqWriteStart qid 2 data)

/-- SQ_ATOMIC_WRITE starts. -/
def execSqAtomicWrite (dt : Nat) (qid : Fin 32) (data : Option (List Byte)) (s : State) :
    Host.Outcome State Fault Refusal := .next ((s.tick dt).sqWriteStart qid 3 data)

/-- SQ_NOP: starts and ends at once. -/
def execSqNop (dt : Nat) (qid : Fin 32) (s : State) : Host.Outcome State Fault Refusal :=
  let s := s.tick dt
  .next (match s.sqNext qid 4 with
    | none => s
    | some (_, c) => s.sqEnd qid c St.OK 0)

/-- The accesses of the first `k` blocks of a command take effect (R305, R309). -/
def State.sqEffect (s : State) (x : SqQueue) (c : SqCmd) (k : Nat) : State :=
  let p := (s.ctxOwner x.ctx).getD 0
  let s := if c.opc = 1 && decide (0 < k) then s.emit (.host p c.addr (c.data.take (4096 * k))) else s
  (List.range k).foldl (fun (s : State) (i : Nat) =>
    let b := c.block + i
    if p ≠ s.uaOwner b then s.viol p Viol.nv x.ctx (uaAddr b)
    else if c.writes then s.nvStore (uaAddr b) ((c.data.drop (4096 * i)).take 4096)
    else s) s

/-- A started command ends after `blocks` blocks when it is aborted, after all otherwise; `fail`: the block whose
programming failed (R315). It waits behind an I²C hold of its blocks (R312) and behind earlier writes of the same blocks
(R309). -/
def State.sqDone (s : State) (q tag blocks : Nat) (fail : Option (Fin 2048)) : State :=
  match s.sq q with
  | none => s
  | some x =>
    match x.cmds.find? (fun c => decide (c.tag = tag) && c.started) with
    | none => s
    | some c =>
      if c.writes && (s.i2cHolds c || s.sqStarted.any (fun d => d.writes && d.overlaps c && decide (d.seq < c.seq))) then s
      else
        let k := if c.abort then min blocks c.count else c.count
        match (if c.writes then fail else none) with
        | some b =>
          let k := if c.opc = 3 || b.val < c.block then 0 else min k (b.val - c.block)
          let s := (s.sqEffect x c k).faultItem Src.LND 2 0 b.val [Fin.ofNat 4096 x.ctx]
          s.sqEnd q c St.HW_FAULT k
        | none => (s.sqEffect x c k).sqEnd q c (if c.abort then St.ABORTED else St.OK) k

/-- The bytes `bytes` that an I2C write sent to block `b` are committed (R312). -/
def State.uaHeld (s : State) (b : Nat) (bytes : List (Nat × Byte)) : State :=
  let s := bytes.foldl (fun (s : State) e => s.nvStore (uaAddr b + e.1) [e.2]) s
  { s with lnd := { s.lnd with i2c := none } }

/-- UA_HOLD_EXPIRY: the bytes an I2C write sent so far are committed as one block update (R312). -/
def execUaHoldExpiry (dt : Nat) (s : State) : Host.Outcome State Fault Refusal :=
  let s := s.tick dt
  .next (match s.lnd.i2c with
    | none => s
    | some (b, bytes, _) => s.uaHeld b bytes)

/-! ### Reset of a scope -/

/-- Storage commands of the contexts `cs`: those not started complete RESET_DISCARDED, started ones stop at their next
block (R103). -/
def State.sqReset (s : State) (cs : List Nat) : State :=
  s.sqIds.foldl (fun s q => match s.sq q with
    | none => s
    | some x =>
      if !cs.contains x.ctx then s
      else
        let s := (x.cmds.filter (fun c => !c.started || c.startAt = s.now)).foldl
          (fun s c => s.sqEnd q c St.RESET_DISCARDED 0) s
        match s.sq q with
        | some x => s.setSq q (some { x with cmds := x.cmds.map (fun c => { c with abort := c.abort || c.opc ≠ 3 }) })
        | none => s) s

/-- A started storage command of the contexts `cs` still runs. -/
def State.sqBusy (s : State) (cs : List Nat) : Bool :=
  s.sqIds.any (fun q => match s.sq q with
    | some x => cs.contains x.ctx && x.cmds.any (·.started)
    | none => false)

/-- The queues of the contexts `cs` go, and their tags return to the pool (Table 3-12). -/
def State.sqRelease (s : State) (cs : List Nat) : State :=
  s.sqIds.foldl (fun s q => match s.sq q with
    | none => s
    | some x => if cs.contains x.ctx then (s.setSq q none).sqRegs ((s.ctxOwner x.ctx).getD 0) else s) s

end Sys2Proof.Machine
end

