-- ==== Sys2Proof/Machine/CbsOps.lean ====
section
/-!
DEFINITION. Control buses (R462 to R472): I²C controllers, the I²C target with the map of Table 18-3, GPIO, and the checks
of the chapter.
-/

set_option Elab.async false

namespace Sys2Proof.Machine

/-! ### I²C controllers -/

/-- Owner of controller `c` (Table 3-9). -/
def State.i2cOwner (s : State) (c : Nat) : Nat := s.resOwner (0x20 + c)

/-- The transfer of controller `c`, while it is BUSY. -/
def State.xfer (s : State) (c : Nat) : Option I2cXfer := tabGet (fun _ => none) s.cbs.xfers c

/-- The transfer of controller `c` replaced. -/
def State.setXfer (s : State) (c : Nat) (x : Option I2cXfer) : State :=
  { s with cbs := { s.cbs with xfers := tabSet (fun _ => none) s.cbs.xfers c x } }

/-- Bytes of CBS_I2C_DATA of controller `c`. -/
def State.i2cData (s : State) (c n : Nat) : List Byte :=
  ((List.range 4).flatMap (fun j => leBytes 4 (s.rd (R.CBS_I2C_DATA c j)).toNat)).take n

/-- A write of CBS_I2C_XFER (R464): with GO it starts a transfer, or is discarded and counted while one runs. WLEN and RLEN
above 16 are taken as 16. -/
def State.i2cXferWrite (s : State) (c : Nat) (v : Word) : State :=
  if !bit v 24 then s.wr (R.CBS_I2C_XFER c) (v &&& 0x1F1F7F#32)
  else if (s.xfer c).isSome then s.bump (R.CBS_I2C_ERR c) 0 32 1
  else
    let wlen := min 16 (fld v 8 5)
    let rlen := min 16 (fld v 16 5)
    let addr := fld v 0 7
    let data := s.i2cData c wlen
    let s := (s.wr (R.CBS_I2C_XFER c) (v &&& 0x1F1F7F#32)).setXfer c
      (some { addr := addr, wlen := wlen, rlen := rlen, data := data })
    let s := s.wr (R.CBS_I2C_STAT c) (setFld (s.rd (R.CBS_I2C_STAT c)) 0 5 1)
    let t := fun r lo => s.fd r lo 10 * 10
    s.emit (.i2c c { low := t (R.CBS_I2C_TIM0 c) 0, high := t (R.CBS_I2C_TIM0 c) 10, hold := t (R.CBS_I2C_TIM0 c) 20
                     start := t (R.CBS_I2C_TIM1 c) 0, free := t (R.CBS_I2C_TIM1 c) 10, rlen := rlen } ((if 0 < wlen then BitVec.ofNat 8 (2 * addr) :: data else []) ++
      (if wlen = 0 ∨ 0 < rlen then [BitVec.ofNat 8 (2 * addr + 1)] else [])))

/-- The transfer of controller `c` ends with a result of Table 18-1 (R464, R471). `idx` counts only for NACK_DATA; bytes
read go to CBS_I2C_DATA from byte 0. -/
def State.i2cEnd (s : State) (c result idx : Nat) (data : List Byte) : State :=
  match s.xfer c with
  | none => s
  | some x =>
    let got := data.take x.rlen
    let keep := (s.i2cData c 16).drop got.length
    let s := s.wrs ((bytesWords 4 (got ++ keep)).zipIdx.map (fun e => (R.CBS_I2C_DATA c e.2, e.1)))
    let st := setFld (s.rd (R.CBS_I2C_STAT c)) 0 5 (2 + 4 * result)
    let s := (s.wr (R.CBS_I2C_STAT c) (if result = 2 then setFld st 5 5 idx else st)).setXfer c none
    let s := s.emit (.i2cEnd c (decide (result ≠ 3 ∧ result ≠ 4)))
    s.raise (s.fd (R.CBS_I2C_CTX c) 0 12) 0x0180 St.OK Src.CBS (c + 4 * result)

/-- A reset of level 2 or above of the partitions `ps`: transfers of their controllers are to end at the next byte
boundary (R464). -/
def State.i2cReset (s : State) (ps : List Nat) : State :=
  (List.range 4).foldl (fun s c => match s.xfer c with
    | some x => if ps.contains (s.i2cOwner c) then s.setXfer c (some { x with abort := true }) else s
    | none => s) s

/-! ### GPIO -/

/-- Owner of a pin (Table 3-9). -/
def State.gpioOwner (s : State) (n : Nat) : Nat := s.resOwner (0x24 + n)

/-- An edge at pin `n` (R469): CBS_GPIO_IN shows the level after it, and GPIO_EDGE is raised where EDGE selects it, with the
edge stamped to 10 ns. -/
def State.gpioEdge (s : State) (n : Nat) (falling : Bool) : State :=
  let s := s.wrF R.CBS_GPIO_IN n 1 (b2n !falling)
  let cfg := s.rd (R.CBS_GPIO_CFG n)
  if bit cfg (if falling then 5 else 4) then
    s.raiseEv { s.evNow (fld cfg 16 12) 0x0181 St.OK Src.CBS (n + b2n falling * 32) with time := s.dev / 10 * 10 }
  else s

/-- Pin `n` is driven as its MODE and output value say: push-pull to the value, open-drain low for 0 and released for 1. A
driven level that differs from the level at the pin is an edge. -/
def State.gpioDrive1 (s : State) (n : Nat) : State :=
  let mode := s.fd (R.CBS_GPIO_CFG n) 0 2
  let v := decide (s.cbs.gpioOut / 2 ^ n % 2 = 1)
  let drive := fun (s : State) (l : Bool) =>
    let s := s.emit (.gpio n (some l))
    if s.bt R.CBS_GPIO_IN n = l then s else s.gpioEdge n (!l)
  if mode = 1 then drive s v
  else if mode = 2 then (if v then s.emit (.gpio n none) else drive s false)
  else s

/-- At a boundary: pins whose CBS_GPIO_CFG or CBS_TRIG_PIN changed from `old` are set up and driven anew (R469, R470). -/
def State.gpioBoundary (s : State) (old : Nat → Word) : State :=
  let s := (selIdx 4 (fun n => decide (s.rd (R.CBS_TRIG_PIN n) ≠ old (R.CBS_TRIG_PIN n)))).foldl (fun s n =>
    s.emit (.trigPad n (s.bt (R.CBS_TRIG_PIN n) 0) (s.bt (R.CBS_TRIG_PIN n) 1) (4 * s.fd (R.CBS_TRIG_PIN n) 4 2 + 4))) s
  let s := (selIdx 32 (fun n => decide (s.fd (R.CBS_GPIO_CFG n) 2 2 ≠ fld (old (R.CBS_GPIO_CFG n)) 2 2))).foldl (fun s n =>
    s.emit (.gpioPull n (s.fd (R.CBS_GPIO_CFG n) 2 2))) s
  (selIdx 32 (fun n => decide (fld (s.rd (R.CBS_GPIO_CFG n)) 0 2 ≠ fld (old (R.CBS_GPIO_CFG n)) 0 2))).foldl (fun s n =>
    if s.fd (R.CBS_GPIO_CFG n) 0 2 = 0 ∨ s.fd (R.CBS_GPIO_CFG n) 0 2 = 3 then s.emit (.gpio n none) else s.gpioDrive1 n) s

/-- When the domain of the pins stops or starts again, GPIO pins that were driven are released, strobes end, and they go to the
inactive level of INVERT 0. -/
def State.padsOff (s : State) : State :=
  let s := (selIdx 32 (fun n => decide (s.fd (R.CBS_GPIO_CFG n) 0 2 = 1) || decide (s.fd (R.CBS_GPIO_CFG n) 0 2 = 2))).foldl
    (fun s n => s.emit (.gpio n none)) s
  let s := { s with tim := { s.tim with pulses := [] } }
  (selIdx 4 (fun k => decide (s.fd (R.TIM_STRB_CFG k) 0 2 ≠ 0))).foldl (fun s k => s.emit (.strobe k false s.dev)) s

/-- A write of CBS_GPIO_SET (`v = true`) or CBS_GPIO_CLR by partition `p` (R469): bits of pins it does not own are
suppressed, one violation each; in one core clock cycle CLR wins. -/
def State.gpioWrite (s : State) (p ctx : Nat) (set : Bool) (m : Nat) : State :=
  let bits := selIdx 32 (fun n => decide (m / 2 ^ n % 2 = 1))
  let mine := bits.filter (fun n => decide (s.gpioOwner n = p))
  let s := (bits.filter (fun n => decide (s.gpioOwner n ≠ p))).foldl
    (fun s _ => s.viol p Viol.reg ctx (if set then R.CBS_GPIO_SET else R.CBS_GPIO_CLR)) s
  let cleared := if s.cbs.clr.1 = s.now + 1 then s.cbs.clr.2 else 0
  let act := if set then mine.filter (fun n => decide (cleared / 2 ^ n % 2 = 0)) else mine
  let s := if set then s
    else { s with cbs := { s.cbs with clr := (s.now + 1, cleared ||| maskOf 32 (fun n => mine.contains n)) } }
  let change := act.filter (fun n => decide ((s.cbs.gpioOut / 2 ^ n % 2 = 1) ≠ (set = true)))
  let m := maskOf 32 (fun n => change.contains n)
  let s := { s with cbs := { s.cbs with gpioOut := s.cbs.gpioOut ^^^ m } }
  change.foldl (fun s n => s.gpioDrive1 n) s

/-! ### I²C target -/

/-- The byte of `n` at index `i`, little-endian. -/
def byteOf (n i : Nat) : Byte := BitVec.ofNat 8 (n / 256 ^ i)

/-- The byte at pointer `a` (Table 18-3). -/
def State.tgtByte (s : State) (a : Nat) : Byte :=
  if a < 4 then byteOf (s.regVal R.SYS_ID).toNat a
  else if a = 4 then byteOf (s.rd (R.MBX 0 0x20)).toNat 0
  else if a = 5 then byteOf (s.fd R.AON_PWR_STAT 0 2) 0
  else if a < 8 then byteOf (s.fd R.THM_TJ 0 16) (a - 6)
  else if a = 8 then byteOf (s.fd R.LND_RET_STAT 0 3) 0
  else if a = 9 then byteOf (s.fd R.AON_BOOT_STAT 0 8) 0
  else if 0x10 ≤ a ∧ a < 0x14 then byteOf s.ep.epoch (a - 0x10)
  else if 0x14 ≤ a ∧ a < 0x19 then byteOf s.ep.frame (a - 0x14)
  else if 0x20 ≤ a ∧ a < 0x22 then byteOf s.cbs.uaBlock (a - 0x20)
  else if 0x22 ≤ a ∧ a < 0x24 then byteOf s.cbs.logIndex (a - 0x22)
  else if a = 0x24 then byteOf (s.rd R.TIM_LOG_IDX).toNat 0
  else if 0x2000 ≤ a ∧ a < 0x4000 then
    (if s.fd R.AON_PWR_STAT 0 2 = 2 then 0
     else byteOf (s.rd (R.TIM_LOG ((a - 0x2000) / 32) (a % 32 / 4))).toNat (a % 4))
  else if 0x4000 ≤ a ∧ a < 0x5000 then
    tabGet memZero s.nv (nvLogBase + 64 * ((s.cbs.logIndex + (a - 0x4000) / 64) % 32768) + a % 64)
  else if 0x8000 ≤ a ∧ a < 0x9000 then tabGet memZero s.nv (uaAddr s.cbs.uaBlock + (a - 0x8000))
  else 0

/-- The pointer after the byte at `a` (R466). -/
def tgtNext (a : Nat) : Nat :=
  if a = 0x3FFF then 0x2000 else if a = 0x4FFF then 0x4000 else if a = 0x8FFF then 0x8000
  else if (0x2000 ≤ a ∧ a < 0x4000) ∨ (0x4000 ≤ a ∧ a < 0x5000) ∨ (0x8000 ≤ a ∧ a < 0x9000) then a + 1
  else if a % 256 = 255 then a - 255 else a + 1

/-- `n` bytes from pointer `a` on, and the pointer after them. -/
def State.tgtRead (s : State) : Nat → Nat → List Byte × Nat
  | a, 0 => ([], a)
  | a, n + 1 => ((s.tgtByte a :: (s.tgtRead (tgtNext a) n).1), (s.tgtRead (tgtNext a) n).2)

/-- A part of CBS_TGT_CNT. -/
def State.tgtCut (s : State) : State := s.bump R.CBS_TGT_CNT 0 16 1
def State.tgtDiscard (s : State) : State := s.bump R.CBS_TGT_CNT 16 16 1

/-- The write transaction replaced. -/
def State.setTxn (s : State) (t : Option TgtTxn) : State := { s with cbs := { s.cbs with txn := t } }

/-- A status byte takes effect (R468): UA_BLOCK and LOG_INDEX, of 11 and 15 bits. -/
def State.tgtStatus (s : State) (a : Nat) (b : Byte) : State :=
  let put := fun (old i : Nat) => ofBytes ([byteOf old 0, byteOf old 1].set i b)
  if a < 0x22 then { s with cbs := { s.cbs with uaBlock := put s.cbs.uaBlock (a - 0x20) % 2048 } }
  else { s with cbs := { s.cbs with logIndex := put s.cbs.logIndex (a - 0x22) % 32768 } }

/-- The held user-area bytes become one block update, and the hold ends (R312). -/
def State.uaCommit (s : State) : State :=
  match s.lnd.i2c with
  | none => s
  | some (b, bytes, _) =>
    let s := bytes.foldl (fun (s : State) e => s.nvStore (uaAddr b + e.1) [e.2]) s
    { s with lnd := { s.lnd with i2c := none } }

/-- A STOP or repeated START ends the write transaction (R468, R312). -/
def State.tgtEnd (s : State) : State :=
  match s.cbs.txn with
  | none => s
  | some t => ((t.st.foldl (fun (s : State) e => s.tgtStatus e.1 e.2) s).setTxn none).uaCommit

/-- The I²C write in progress may write the block: its region has BC_WRITE, Tj is in the NV write range, and no host write
is under way (R312). -/
def State.uaMay (s : State) (b : Nat) : Bool := s.bt (R.LND_UA_OWN (b / 16)) 6 && s.nvRange && !s.uaWriting b

/-- A completed byte of a write transaction (R466 to R468, R312). NACKed bytes do not move the pointer, and a refused
write is counted once. -/
def State.tgtWriteByte (s : State) (b : Byte) : State :=
  match s.cbs.txn with
  | none => s
  | some t =>
    let a := s.cbs.ptr
    let step := fun (s : State) => { s with cbs := { s.cbs with ptr := tgtNext a } }
    if t.n = 0 then s.setTxn (some { t with n := 1, hi := b.toNat })
    else if t.n = 1 then
      let s : State := { s with cbs := { s.cbs with ptr := t.hi * 256 + b.toNat } }
      s.setTxn (some { t with n := 2 })
    else if 0x20 ≤ a ∧ a < 0x24 then step (s.setTxn (some { t with st := t.st ++ [(a, b)] }))
    else if 0x8000 ≤ a ∧ a < 0x9000 then
      let blk := s.cbs.uaBlock
      if t.ua = 0 then
        if s.uaMay blk then
          let s : State := { s with lnd := { s.lnd with i2c := some (blk, [(a - 0x8000, b)], s.now) } }
          step (s.setTxn (some { t with ua := 1 }))
        else (s.bump R.LND_UA_I2C 0 16 1).setTxn (some { t with ua := 2 })
      else if t.ua = 1 then
        match s.lnd.i2c with
        | some (blk, bytes, at_) =>
          step { s with lnd := { s.lnd with i2c := some (blk, bytes ++ [(a - 0x8000, b)], at_) } }
        | none => (s.bump R.LND_UA_I2C 0 16 1).setTxn (some { t with ua := 2 })
      else s
    else step s.tgtDiscard

/-- The target acknowledges its address (Table 18-2): never in P3 or shutdown, and in P2 not the first transaction after
entry, which wakes it. -/
def State.tgtAck (s : State) (addr : Nat) : Bool × State :=
  if addr ≠ s.fd R.CBS_TGT_ADDR 0 7 || s.bt R.AON_PWR_STAT 2 then (false, s)
  else match s.fd R.AON_PWR_STAT 0 2 with
    | 3 => (false, s)
    | 2 => (s.cbs.awake, { s with cbs := { s.cbs with awake := true } })
    | _ => (true, s)

/-! ### Checks -/

/-- The checks of the chapter (R463, R469). -/
def State.chkCbs (s : State) (es : Over) : Option (Nat × Nat) :=
  let t0 := fun c lo => s.of es (R.CBS_I2C_TIM0 c) lo 10
  let t1 := fun c lo => s.of es (R.CBS_I2C_TIM1 c) lo 10
  refuse1 R.CBS_REJ_CAUSE [
    ((List.range 4).any (fun c => decide (t0 c 0 ≤ t0 c 20) || decide (t0 c 0 < 4) || decide (t0 c 10 < 4) ||
      decide (t0 c 20 < 4) || decide (t1 c 0 < 4) || decide (t1 c 10 < 4)), 1),
    ((List.range 2).any (fun o => s.ob es (R.MON_OUT_DSI o) 15 &&
      decide (s.of es (R.CBS_GPIO_CFG (s.of es (R.MON_OUT_DSI o) 16 5)) 0 2 ≠ 0)), 2)]

end Sys2Proof.Machine
end

