-- ==== Sys2Proof/Machine/CheckImg.lean ====
section
/-!
DEFINITION. The commit checks of the colour pipeline (R250, R257, R262) and of cruise statistics (R270, R277).
-/

set_option Elab.async false

namespace Sys2Proof.Machine

/-- The owner of resource byte `o` in the resulting configuration. -/
def State.oRes (s : State) (es : Over) (o : Nat) : Nat := s.of es (R.CTX_RES_OWN (o / 4)) (8 * (o % 4)) 6

/-- DEC_N of the resulting configuration. -/
def State.oDecN (s : State) (es : Over) : Nat := s.of es R.CPL_DEC 0 16

/-- Scaler `o` breaks R250, or its NBUF, OUT_DIV or FORMAT is out of range. -/
def State.scBad (s : State) (es : Over) (o : Nat) : Bool :=
  let xy := s.ov es (R.CPL_SC_CROP_XY o)
  let wh := s.ov es (R.CPL_SC_CROP_WH o)
  let out := s.ov es (R.CPL_SC_OUT_WH o)
  let odd := fun w => decide (fld w 0 16 % 2 = 1) || decide (fld w 16 16 % 2 = 1)
  let side := fun n => decide (n < 64) || decide (8192 < n)
  let ratio := fun a b => decide (4 * a < b) || decide (64 * b < a)
  odd xy || odd wh || odd out || side (fld out 0 16) || side (fld out 16 16) || ratio (fld wh 0 16) (fld out 0 16) ||
    ratio (fld wh 16 16) (fld out 16 16) || decide (s.of es (R.CPL_SC_CFG o) 9 2 = 3) ||
    decide (s.of es (R.CPL_SC_CTX o) 16 8 = 0) || decide (4 < s.of es (R.CPL_SC_CFG o) 2 3)

/-- Scaler `o`'s buffers, tables or strides break cause 6. -/
def State.scMemBad (s : State) (es : Over) (o : Nat) : Bool :=
  let cfg := s.ov es (R.CPL_SC_CFG o)
  let out := s.ov es (R.CPL_SC_OUT_WH o)
  let st := s.ov es (R.CPL_SC_STRIDE o)
  let fmt := fld cfg 2 3
  let size := (planeOffsets (planeShapes fmt (fld out 16 16) (fld st 0 16) (fld st 16 16))).2
  let low := minStride fmt (fld out 0 16)
  let outside := fun a n => decide (a % 4096 ≠ 0) || !s.inPart (s.oRes es o) a n
  (List.range (fld cfg 9 2 + 2)).any (fun b => outside (s.oAddr es (R.CPL_SC_BUF_LO o b) (R.CPL_SC_BUF_HI o b)) size) ||
    (bit cfg 5 && outside (s.oAddr es (R.CPL_SC_LUT_LO o) (R.CPL_SC_LUT_HI o)) (if bit cfg 6 then 0x0A00 else 0x1E00)) ||
    decide (fld st 0 16 < low.1) || decide (fld st 0 16 % 256 ≠ 0) ||
    (decide (low.2 ≠ 0) && (decide (fld st 16 16 < low.2) || decide (fld st 16 16 % 256 ≠ 0)))

/-- The colour-pipeline checks; the cause register also takes the scaler for causes 4 to 6. -/
def State.chkCpl (s : State) (es : Over) : Option (Nat × Nat) :=
  let w := s.oWidth es
  let h := s.oHeight es
  let n := s.oDecN es
  let tap := s.oAddr es R.CPL_TAP_ADDR_LO R.CPL_TAP_ADDR_HI
  let dm := s.of es R.CPL_CFG 1 2
  let on := selIdx 8 (fun o => s.ob es (R.CPL_SC_CFG o) 0)
  let rate := fun o => s.of es (R.CPL_SC_OUT_WH o) 0 16 * s.of es (R.CPL_SC_OUT_WH o) 16 16
  if !s.ob es R.CPL_CFG 0 then none
  else refuse1 R.CPL_REJ_CAUSE ([
    (decide (n ≠ 0) && decide (30 * s.oPeriod es * n < w * h), 1),
    (decide (n = 0) || decide (n ≤ s.of es R.CPL_DEC 16 16) || decide (dm = 3) ||
      (decide (dm = 2) && (decide (w % 4 ≠ 0) || decide (h % 4 ≠ 0))), 2),
    (decide (tap % 4096 ≠ 0) || !s.inPart 0 tap (2 * tapBytes w h), 3)] ++
    on.map (fun o => (s.scBad es o, 4 + 256 * o)) ++
    on.map (fun o => (decide (5 * s.oPeriod es * n * s.of es (R.CPL_SC_CTX o) 16 8 < rate o), 5 + 256 * o)) ++
    on.map (fun o => (s.scMemBad es o, 6 + 256 * o)))

/-- The zone grid of point `p` in the resulting configuration. -/
def State.oZones (s : State) (es : Over) (p : Nat) : Zones :=
  { x0 := s.of es (R.CRS_Z_XY p) 0 16, y0 := s.of es (R.CRS_Z_XY p) 16 16, w := s.of es (R.CRS_Z_WH p) 0 16
    h := s.of es (R.CRS_Z_WH p) 16 16, zx := s.of es (R.CRS_Z_GRID p) 0 7, zy := s.of es (R.CRS_Z_GRID p) 8 6 }

/-- A grid breaks R270 in a frame of `w` × `h`. -/
def Zones.bad (z : Zones) (w h : Nat) : Bool :=
  decide (z.zx < 1) || decide (64 < z.zx) || decide (z.zy < 1) || decide (48 < z.zy) ||
    decide (z.x0 % 2 = 1) || decide (z.y0 % 2 = 1) || decide (z.w % 2 = 1) || decide (z.h % 2 = 1) ||
    decide (z.zw < 16) || decide (z.zh < 2) || decide (w < z.x0 + z.w) || decide (h < z.y0 + z.h)

/-- Enabled records of the resulting configuration: LENGTH and the divisor of their rate (R273, R277). -/
def State.statLoad (s : State) (es : Over) : List (Nat × Nat) :=
  let ch := if s.ob es R.PSC_CFG 1 then 1 else 4
  let on := fun j => s.ob es (R.CRS_ROUTE j) 12
  let hist := fun p c => 64 + 4 * c * (if s.ob es R.CRS_CFG p then 1024 else 256)
  let z := fun p k => 64 + k * ((s.oZones es p).zx * (s.oZones es p).zy)
  ([(on 0, hist 0 ch), (on 1, z 0 32), (on 2, hist 1 ch), (on 3, z 1 32), (on 4, z 1 16), (on 5, hist 2 4),
    (on 6, z 2 32)].filter (·.1)).map (fun e => (e.2, 1)) ++
  (selIdx 8 (fun o => s.ob es (R.CRS_SC_CFG o) 0)).map (fun o =>
    (64 + 16 * (if s.ob es (R.CRS_SC_CFG o) 1 then 1024 else 256), max 1 (s.of es (R.CPL_SC_CTX o) 16 8)))

/-- Record bytes per 10^9 × (product of the divisors) / (PERIOD_MIN × DEC_N), and that product. -/
def loadSum (l : List (Nat × Nat)) : Nat × Nat :=
  let m := (l.map (·.2)).prod
  ((l.map (fun e => e.1 * (m / e.2))).sum, m)

/-- The statistics checks. A route's CTX has 12 bits, so cause 3 cannot occur. -/
def State.chkCrs (s : State) (es : Over) : Option (Nat × Nat) :=
  let w := s.oWidth es
  let h := s.oHeight es
  let k := if s.of es R.CPL_CFG 1 2 = 2 then 2 else 1
  let on := fun j => s.ob es (R.CRS_ROUTE j) 12
  let (sum, m) := loadSum (s.statLoad es)
  refuse1 R.CRS_REJ_CAUSE [
    (on 1 && (s.oZones es 0).bad w h, 1),
    ((on 3 || on 4) && (s.oZones es 1).bad w h, 1),
    (on 6 && (s.oZones es 2).bad (w / k) (h / k), 1),
    (decide (4 * s.oPeriod es * max 1 (s.oDecN es) * m < sum), 2)]

/-- CRS_LOAD as the active epoch gives it: units of 100 kB/s. -/
def State.crsLoad (s : State) : State :=
  let (sum, m) := loadSum (s.statLoad [])
  s.wr R.CRS_LOAD (w32 (unitsUp (sum * 10 ^ 9) (10 ^ 5 * m * (s.rd R.SLK_PERIOD_MIN).toNat * max 1 (s.oDecN [])) 16))

end Sys2Proof.Machine
end

