-- ==== Sys2Proof/Machine/Lane.lean ====
section
/-!
DEFINITION. The lane commands (chapter 5): lock, loss, ALIGN blocks, PRBS checkers, loopback, and the Kilel
commands of the link that move lanes (`LINK_STATUS`, `PRBS_CONFIG`, `LOOPBACK_SET`).
-/

set_option Elab.async false

namespace Sys2Proof.Machine

/-- LANE_CDR_LOCK: a lane in CDR moves to BLOCK (Table 5-5). -/
def execLaneCdrLock (dt : Nat) (lane : Fin 64) (s : State) : Host.Outcome State Fault Refusal :=
  let s := s.tick dt
  .next (if s.laneSt lane = 1 then s.setLane lane 2 else s)

/-- LANE_CDR_TIMEOUT: a lane in CDR goes to FAILED, cause 1; a lane that retrains keeps trying (R146). -/
def execLaneCdrTimeout (dt : Nat) (lane : Fin 64) (s : State) : Host.Outcome State Fault Refusal :=
  let s := s.tick dt
  .next (if s.laneSt lane = 1 && tabGet (fun _ => 0) s.lnk.wasLane lane = 0 then s.failLane lane 1 else s)

/-- LANE_BLOCK_LOCK: 64 valid headers; BLOCK moves to ALIGN, an Ethernet lane to ACTIVE (R137, Table 5-5). -/
def execLaneBlockLock (dt : Nat) (lane : Fin 64) (s : State) : Host.Outcome State Fault Refusal :=
  let s := s.tick dt
  .next (if s.laneSt lane = 2 then
      { s.setLane lane (if s.laneFunc lane = 3 then 5 else 3) with
        lnk := { s.lnk with alignRun := tabSet (fun _ => 0) s.lnk.alignRun lane 0 } }
    else s)

/-- A lane holds block lock (Table 5-5). -/
def State.laneLocked (s : State) (n : Nat) : Bool := decide (3 ≤ s.laneSt n) && decide (s.laneSt n ≤ 7)

/-- LANE_LOCK_LOSS: 16 invalid headers in 64 on a locked lane (R137); those not counted yet are, and the lane retrains. -/
def execLaneLockLoss (dt : Nat) (lane : Fin 64) (s : State) : Host.Outcome State Fault Refusal :=
  let s := s.tick dt
  .next (if s.laneLocked lane then
      (s.bump (R.LNA_LANE_ERR lane) 0 16 (16 - (tabGet (fun _ => []) s.lnk.hdrBad lane).length)).dropLane lane false
    else s)

/-- LANE_SIGNAL_LOSS: loss of signal or CDR lock sends the lane back to CDR (R146). -/
def execLaneSignalLoss (dt : Nat) (lane : Fin 64) (s : State) : Host.Outcome State Fault Refusal :=
  .next ((s.tick dt).dropLane lane true)

/-- A lane whose logical lane a lower-numbered one took goes to FAILED (R144); where it carried data its group loses it (R172). -/
def State.dupLane (s : State) (m : Nat) : State :=
  let l := s.logical m
  let was := s.laneSt m = 5 && s.role l = 1
  let s := s.failLane m 3
  if was then s.laneLoss l else s

/-- The lane's identity resolved: three ALIGNs of one polarity and LANE (R143, R144, R146). -/
def State.resolveLane (s : State) (n l : Nat) (inv : Bool) : State :=
  let was := tabGet (fun _ => 0) s.lnk.wasLane n
  let s := (s.wrF (R.LNA_LANE_STAT n) 4 1 (b2n inv)).wrF (R.LNA_LANE_STAT n) 5 6 l
  let holds := fun m => decide (m ≠ n) && decide (s.laneFunc m = 1) && decide (4 ≤ s.laneSt m) && decide (s.laneSt m ≤ 7) &&
    decide (s.logical m = l)
  if was ≠ 0 && decide (was ≠ 128 + l + 64 * b2n inv) then s.failLane n 5
  else if (List.range n).any holds then s.failLane n 3
  else
    let s := (selIdx 64 (fun m => decide (n < m) && holds m)).foldl (fun s m => s.dupLane m) s
    (s.setLane n 4).reversedNow n

/-- The link's common ALIGN is there for deskew: the link runs, or every data lane's identity is known (Table 5-5, R145). -/
def State.commonAlign (s : State) : Bool :=
  s.linkOn || s.dataLanes.all (fun l => (s.physOf l).isSome)

/-- The lanes that run beside lane `n`, their identity known. -/
def State.runningLanes (s : State) (n : Nat) : List Nat :=
  (List.range 64).filter (fun m => decide (m ≠ n) && decide (s.laneFunc m = 1) && decide (4 ≤ s.laneSt m) && decide (s.laneSt m ≤ 7))

/-- Delay in UI of lane `n`, which has just received the ALIGN with this SEQ, after the earliest lane with the ALIGN of equal SEQ
(R145): `skewUi` as the deskew measures it, 0 for the first of them, out of range where another lane is an interval ahead. -/
def State.skewOf (s : State) (n seq skewUi : Nat) : Nat :=
  let ls := s.runningLanes n
  let at_ := fun m => tabGet (fun _ => 0) s.lnk.alignSeq m
  if ls.any (fun m => decide (at_ m = seqNext seq)) then 2064
  else if ls.any (fun m => decide (at_ m = seq)) then skewUi
  else 0

/-- A lane in DESKEW meets the link's common ALIGN: skew range of R145, then ACTIVE at link start, STANDBY for a spare, or
REJOIN_READY after a retrain. -/
def State.deskewLane (s : State) (n skew : Nat) : State :=
  let l := s.logical n
  if 2064 ≤ skew then s.failLane n 4
  else
    let s := s.wrF (R.LNA_LANE_STAT n) 12 12 skew
    let s := { s with lnk := { s.lnk with wasLane := tabSet (fun _ => 0) s.lnk.wasLane n 0 } }
    if s.role l = 2 then (s.setLane n 6).linkCounts
    else if s.role l ≠ 1 then s
    else if s.linkOn then
      { s.setLane n 7 with lnk := { s.lnk with rejoin := tabSet (fun _ => 0) s.lnk.rejoin l (s.now + 1) } }
    else
      let s := { s with lnk := { s.lnk with
        lossAt := tabSet (fun _ => 0) s.lnk.lossAt l 0
        act := tabSet (fun _ => 0) s.lnk.act l 0 } }
      ((s.setLane n 5).wrF (R.SLK_LANE_STAT l) 14 1 0).linkReady

/-- An ALIGN counted under R141; four in a row are a loss of lock. -/
def State.alignErr (s : State) (n : Nat) : State :=
  let k := tabGet (fun _ => 0) s.lnk.alignBad n + 1
  let s := (s.bump (R.LNA_LANE_ERR n) 24 8 1)
  let s := { s with lnk := { s.lnk with alignBad := tabSet (fun _ => 0) s.lnk.alignBad n k } }
  if 4 ≤ k then s.dropLane n false else s

/-- An ALIGN that lane `n` received: its SEQ, its polarity, the scrambler's seed, and `run`, which counts the ALIGNs of one LANE
in a row (R142, R143). -/
def State.noteAlign (s : State) (n run : Nat) (p : BitVec 256) (inv : Bool) : State :=
  { s with lnk := { s.lnk with
      alignRun := tabSet (fun _ => 0) s.lnk.alignRun n run
      alignSeq := tabSet (fun _ => 0) s.lnk.alignSeq n (blkByte p 4 + 256 * blkByte p 5)
      laneInv := tabSet (fun _ => false) s.lnk.laneInv n inv
      alignAt := tabSet (fun _ => 0) s.lnk.alignAt n s.now
      scr := tabSet (fun _ => (0, 0)) s.lnk.scr n (scrambleSeed (blkByte p 2), 0) } }

/-- A control block that is no FILL, on a lane whose polarity is inverted or not: what is no ALIGN either counts in CTL_ERR
(R139, R144). -/
def strayControl (hdr : BitVec 2) (pay : BitVec 256) (inv : Bool) : Bool :=
  if inv then hdr = 1 && !isFill (~~~pay) else hdr = 2 && !isFill pay

/-- The ALIGN `p` comes where and with the SEQ that the lane's last one asks for (R141). -/
def State.alignNext (s : State) (n gap : Nat) (p : BitVec 256) : Bool :=
  decide (gap = s.fd R.LNA_ALIGN_CFG 0 15) &&
    decide (blkByte p 4 + 256 * blkByte p 5 = seqNext (tabGet (fun _ => 0) s.lnk.alignSeq n))

/-- A block on a lane in ALIGN: the third ALIGN in a row of one LANE and polarity resolves it (R143, R146); one out of its place or
sequence is counted, the fourth in a row loses lock (R141). -/
def State.alignSeek (s : State) (n : Nat) (hdr : BitVec 2) (pay : BitVec 256) (gap : Nat) : State :=
  let normal := hdr = 2 && isAlign pay
  let inverted := hdr = 1 && isAlign (~~~pay)
  let ovr := s.fd (R.LNA_LANE_CTRL n) 1 2
  let p := if normal then pay else ~~~pay
  let l := blkByte p 2
  if (normal && decide (ovr ≠ 2)) || (inverted && decide (ovr ≠ 1)) then
    let run := tabGet (fun _ => 0) s.lnk.alignRun n
    let follows := s.alignNext n gap p && decide (run / 8 = l) && tabGet (fun _ => false) s.lnk.laneInv n = inverted &&
      decide (0 < run % 8)
    let k := if follows then run % 8 + 1 else 1
    let bad := decide (0 < run % 8) && !s.alignNext n gap p
    let s := s.noteAlign n (8 * l + k) p inverted
    if bad then s.alignErr n
    else
      let s := { s with lnk := { s.lnk with alignBad := tabSet (fun _ => 0) s.lnk.alignBad n 0 } }
      if 3 ≤ k then s.resolveLane n l inverted else s
  else if strayControl hdr pay (decide (ovr = 2)) then s.bump (R.LNA_LANE_ERR n) 16 8 1 else s

/-- A block on a lane whose LANE is known (R141, R145). -/
def State.alignKeep (s : State) (n : Nat) (hdr : BitVec 2) (pay : BitVec 256) (gap skewUi : Nat) : State :=
  let normal := hdr = 2 && isAlign pay
  let inverted := hdr = 1 && isAlign (~~~pay)
  let inv := s.bt (R.LNA_LANE_STAT n) 4
  let p := if normal then pay else ~~~pay
  if (if inv then inverted else normal) then
    let ok := s.alignNext n gap p
    let s := s.noteAlign n (tabGet (fun _ => 0) s.lnk.alignRun n) p inverted
    if ok then
      let s := { s with lnk := { s.lnk with alignBad := tabSet (fun _ => 0) s.lnk.alignBad n 0 } }
      if s.laneSt n = 4 && s.commonAlign then s.deskewLane n (s.skewOf n (blkByte p 4 + 256 * blkByte p 5) skewUi) else s
    else s.alignErr n
  else if strayControl hdr pay inv then s.bump (R.LNA_LANE_ERR n) 16 8 1 else s

/-- The block is an ALIGN of either polarity. -/
def alignForm (hdr : BitVec 2) (pay : BitVec 256) : Bool := (hdr = 2 && isAlign pay) || (hdr = 1 && isAlign (~~~pay))

/-- The block is a FILL of either polarity. -/
def fillForm (hdr : BitVec 2) (pay : BitVec 256) : Bool := (hdr = 2 && isFill pay) || (hdr = 1 && isFill (~~~pay))

/-- A FILL on an ACTIVE lane belongs to its group's stream: what a bad header made the group discard ends (R158, R162). -/
def State.fillBlock (s : State) (n : Nat) : State :=
  let l := s.logical n
  if s.laneSt n ≠ 5 || s.laneFunc n ≠ 1 || s.role l ≠ 1 then s
  else
    let g := s.groupOf l
    let k := (s.groupLanes g).length
    let s := s.fillSeen g
    let p := (s.fd (R.SLK_LANE_STAT l) 6 6 + 1) % max 1 k
    { s with lnk := { s.lnk with grpPos := tabSet (fun _ => 0) s.lnk.grpPos g p } }

/-- A block on a locked lane: lost where the injections of R154 take it, else as its header and its lane's state say. -/
def State.takeBlock (s : State) (n : Nat) (hdr : BitVec 2) (pay : BitVec 256) (gap skewUi : Nat) : State :=
  let st := s.laneSt n
  if s.injects 1 n then ((s.useInj 1 n).bump (R.LNA_INJ_CNT n) 0 32 1).badHeader n
  else if hdr = 0 || hdr = 3 then s.badHeader n
  else if s.injects 2 n && alignForm hdr pay then (s.useInj 2 n).bump (R.LNA_INJ_CNT n) 0 32 1
  else if fillForm hdr pay && decide (4 ≤ st) then s.fillBlock n
  else if st = 3 then s.alignSeek n hdr pay gap
  else s.alignKeep n hdr pay gap skewUi

/-- The sync header of a block as a number: h0h1, so 1 data, 2 control, 0 and 3 invalid (R136). -/
def syncHdr (h0 h1 : Bool) : BitVec 2 := BitVec.ofBool h0 ++ BitVec.ofBool h1

/-- ALIGN_BLOCK: the receipt of a block outside the packets. `h0` and `h1` are its sync header, `gap` the blocks since the
lane's previous ALIGN, `skewUi` its delay after the earliest lane. A lane whose receiver is looped to its own transmitter takes
nothing from its balls; in FAR_RETIMED what it receives leaves again (R148). -/
def execAlignBlock (dt : Nat) (lane : Fin 64) (h0 h1 : Bool) (pay : BitVec 256) (gap skewUi : Nat) (s : State) :
    Host.Outcome State Fault Refusal :=
  let s := s.tick dt
  let hdr := syncHdr h0 h1
  let mode := s.fd (R.LNA_LANE_LOOP lane) 0 2
  let s := if mode = 3 && s.laneLocked lane then s.emit (.retimed lane hdr.toNat pay) else s
  .next (if s.laneLocked lane && mode ≠ 1 && mode ≠ 2 && s.laneFunc lane = 1 then s.takeBlock lane hdr pay gap skewUi else s)

/-- LANE_ALIGN_TIMEOUT: ALIGN without resolving within four intervals goes to FAILED, cause 2; a lane that retrains
starts again from CDR (R146). -/
def execLaneAlignTimeout (dt : Nat) (lane : Fin 64) (s : State) : Host.Outcome State Fault Refusal :=
  let s := s.tick dt
  .next (if s.laneSt lane = 3 then
      (if tabGet (fun _ => 0) s.lnk.wasLane lane = 0 then s.failLane lane 2 else s.setLane lane 1)
    else s)

/-- One bit at lane `n`'s checker (R150): out of lock it takes the incoming pattern into its register until 64 bits in a row are
as predicted; in lock it compares with its own sequence. -/
def State.prbsBit (s : State) (n : Nat) (v : Bool) : State :=
  let p := s.fd (R.LNA_PRBS_CTRL n) 0 3
  let v := xor v (s.bt (R.LNA_PRBS_CTRL n) 5)
  let (reg, run) := tabGet (fun _ => (0, 0)) s.lnk.prbs n
  let good := decide (v = prbsNext p reg)
  let keep := fun (s : State) (x : Nat × Nat) =>
    ({ s with lnk := { s.lnk with prbs := tabSet (fun _ => (0, 0)) s.lnk.prbs n x } } : State)
  if s.bt (R.LNA_PRBS_CTRL n) 6 then
    let bits := (s.rd (R.LNA_PRBS_BITS_LO n)).toNat + s.fd (R.LNA_PRBS_BITS_HI n) 0 16 * 2 ^ 32
    let bits := min (2 ^ 48 - 1) (bits + 1)
    let s := s.wrs [(R.LNA_PRBS_BITS_LO n, w32 bits), (R.LNA_PRBS_BITS_HI n, w32 (bits / 2 ^ 32))]
    keep (if good then s else s.bump (R.LNA_PRBS_ERR n) 0 32 1) (prbsShift reg (prbsNext p reg), run)
  else
    let run := if good && decide (reg ≠ 0) then run + 1 else 0
    let s := keep s (prbsShift reg v, run)
    if 64 ≤ run then s.wrF (R.LNA_PRBS_CTRL n) 6 1 1 else s

/-- The bits that lane `n`'s own generator sends next, with the errors injected into them (R150, R154); without a pattern it
sends 0. -/
def State.prbsSend (s : State) (n k : Nat) : List Bool × State :=
  let p := s.fd (R.LNA_PRBS_CTRL n) 0 3
  if !s.bt (R.LNA_PRBS_CTRL n) 3 then (List.replicate k false, s)
  else
    let reg := tabGet (fun _ => 2 ^ 31 - 1) s.lnk.prbsGen n
    let (l, reg) := prbsBits p k reg
    let bad := ((s.dmc.inj.filter (fun i => decide (i.kind = 3) && decide (i.target = n))).map (·.left)).sum
    let s := (List.range (min bad k)).foldl (fun (s : State) _ => s.useInj 3 n) s
    ((List.range k).map (fun i => xor (xor (l.getD i false) (s.bt (R.LNA_PRBS_CTRL n) 5)) (decide (i < bad))),
      { s with lnk := { s.lnk with prbsGen := tabSet (fun _ => 2 ^ 31 - 1) s.lnk.prbsGen n reg } })

/-- PRBS_CHECKER_LOCK: bits at an enabled checker, which sets CHK_LOCK after 64 error-free ones and from then on counts (R150); with
the lane in NEAR_SERIAL or NEAR_PARALLEL they are those of its own generator (Table 5-6). -/
def execPrbsCheckerLock (dt : Nat) (rx : PrbsRx) (s : State) : Host.Outcome State Fault Refusal :=
  let s := s.tick dt
  let near := s.fd (R.LNA_LANE_LOOP rx.lane) 0 2 = 1 || s.fd (R.LNA_LANE_LOOP rx.lane) 0 2 = 2
  .next (if !s.bt (R.LNA_PRBS_CTRL rx.lane) 4 then s
    else
      let (bits, s) := if near then s.prbsSend rx.lane rx.bits.length else (rx.bits, s)
      bits.foldl (fun (s : State) v => s.prbsBit rx.lane v) s)

/-- The function of lane `n` runs: sensor link started, Ethernet port up, SDI output enabled (R149). -/
def State.funcRuns (s : State) (n : Nat) : Bool :=
  match s.laneFunc n with
  | 1 => s.linkUp
  | 3 => decide (s.laneSt n = 5)
  | 2 => decide (60 ≤ n) && s.bt (R.MON_OUT_CTRL (n - 60 + 2)) 0
  | _ => false

/-- The lane is the back-channel lane of R132. -/
def State.isBackLane (s : State) (n : Nat) : Bool := decide (n = s.backLane)

/-- A sensor lane is in service: ACTIVE or STANDBY (Tables 5-5, 5-6). -/
def State.inService (s : State) (n : Nat) : Bool :=
  decide (s.laneFunc n = 1) && (decide (s.laneSt n = 5) || decide (s.laneSt n = 6))

/-- LOOPBACK_SET: the refusals of R149, then MODE (R148); mode 3 is for a lane in service (Table 5-6). -/
def execLoopbackSet (dt : Nat) (c : Call) (lane : Fin 64) (mode : Fin 4) (s : State) : Host.Outcome State Fault Refusal :=
  .next <| kilel 0x0C06 (fun _ s => !(decide (mode.val = 3) && (s.isBackLane lane || decide (2 ≤ s.laneFunc lane))))
    (fun _ s =>
      if (decide (mode.val = 1) || decide (mode.val = 2)) && s.funcRuns lane then .done St.STATE_CONFLICT [] s
      else if decide (mode.val = 3) && (s.bt (R.LNA_PRBS_CTRL lane) 3 || !s.inService lane) then
        .done St.STATE_CONFLICT [] s
      else .done St.OK [] (s.wr (R.LNA_LANE_LOOP lane) (w32 mode.val))) dt c s

/-- PRBS_CONFIG: the conditions of R151, then PATTERN, GEN_EN, CHK_EN and INV; setting CHK_EN clears the bit count. -/
def execPrbsConfig (dt : Nat) (c : Call) (lane : Fin 64) (v : Word) (s : State) : Host.Outcome State Fault Refusal :=
  .next <| kilel 0x0C04 (fun _ _ => v &&& ~~~0x3F#32 = 0 && decide (fld v 0 3 ≤ 5))
    (fun _ s =>
      let serves := s.funcRuns lane
      if serves && (bit v 4 || (bit v 3 && (decide (2 ≤ s.laneFunc lane) || s.isBackLane lane))) then
        .done St.STATE_CONFLICT [] s
      else
        .done St.OK [] (s.prbsWrite lane v)) dt c s

/-- `LINK_STATUS`: Table 2-15. -/
def State.linkStatus (s : State) : List Word :=
  let two := fun m => [w32 m, w32 (m / 2 ^ 32)]
  let e := s.ep.epoch
  [s.rd R.SLK_LINK_STAT] ++
    two (maskOf 64 (fun l => decide (s.role l = 1) && s.laneActive l)) ++
    two (maskOf 48 (fun i => decide (i < s.cf e R.SLK_STRIPE_COUNT 0 6) && !s.groupUp (s.cf e (R.SLK_STRIPE_CFG i) 16 6))) ++
    two (maskOf 64 (fun l => s.lnk.swapped.contains l)) ++
    (List.range 8).map (fun k => w32 (((List.range 8).map (fun i => s.laneSt (8 * k + i) * 2 ^ (4 * i))).sum))

/-- LINK_STATUS. -/
def execLinkStatus (dt : Nat) (c : Call) (s : State) : Host.Outcome State Fault Refusal :=
  .next <| kilel 0x0403 (fun _ _ => true) (fun _ s => .done St.OK s.linkStatus s) dt c s

end Sys2Proof.Machine
end

