-- ==== Sys2Proof/Machine/Mem.lean ====
section
/-!
DEFINITION. The memory system (chapter 12): injections (R154, R345), scratchpad handover (R335), chutes (R338 to R343),
DRAM pages, self-refresh and tracking (R321, R322, R325); and the checks of a commit.
-/

set_option Elab.async false

namespace Sys2Proof.Machine

/-! ### Commit checks (R318, R328) -/

/-- The memory checks. -/
def State.chkDmc (s : State) (es : Over) : Option (Nat × Nat) :=
  let tgt := fun i => s.of es R.DMC_ING_TGT (8 * i) 8
  let tap := s.of es R.DMC_ING_TGT_TAP 0 8
  let out := fun t => decide (t < 10) || decide (49 < t)
  refuse1 0 [
    (es.any (fun e => decide (e.1 = R.DMC_CFG)) && decide (s.of es R.DMC_CFG 0 2 ≠ s.fd R.DMC_INFO 10 2) &&
      (List.range 16).any (fun k => decide (2 ≤ s.slotSt k)), 0),
    ((List.range 4).any (fun i => out (tgt i)) || out tap, 0)]

/-! ### Injection -/

/-- The refusals of `ERR_INJECT` for a lane kind, in the order of R154. -/
def State.laneInject (s : State) (kind lane : Nat) : Option Nat :=
  if kind = 3 ∧ s.bt (R.LNA_PRBS_CTRL lane) 3 = false then some St.STATE_CONFLICT
  else if decide (2 ≤ s.laneFunc lane) && s.funcRuns lane then some St.STATE_CONFLICT
  else if decide (s.laneFunc lane = 1) && s.linkUp && s.anyArmed then some St.REFUSED_ARMED
  else none

/-- Lane `n`'s receiver takes its own transmitter's bits (Table 5-6). -/
def State.nearLoop (s : State) (n : Nat) : Bool :=
  decide (s.fd (R.LNA_LANE_LOOP n) 0 2 = 1) || decide (s.fd (R.LNA_LANE_LOOP n) 0 2 = 2)

/-- `ERR_INJECT` (R154, R345). A lane injection that forces loss of lock, or that falls on the generator's running output, acts
at once; the others on the blocks to come, each counted as it is applied. -/
def errInject (kind target count : Nat) (_ : Req) (s : State) : Ans :=
  let add := fun (s : State) => { s with dmc := { s.dmc with inj := s.dmc.inj ++ [{ kind := kind, target := target, left := count }] } }
  if kind < 5 then
    match s.laneInject kind target with
    | some st => .done st [] s
    | none =>
      let now := fun (s : State) => s.bump (R.LNA_INJ_CNT target) 0 32 (if kind = 4 then 1 else count)
      if kind = 4 then .done St.OK [] ((now s).dropLane target false)
      else if kind = 1 ∧ 16 ≤ count then
        .done St.OK [] (((now s).bump (R.LNA_LANE_ERR target) 0 16 count).dropLane target false)
      else if kind = 3 then .done St.OK [] (if s.nearLoop target then add (now s) else now s)
      else .done St.OK [] (add s)
  else if kind / 16 ≠ 2 ∧ s.anyArmed = true then .done St.REFUSED_ARMED [] s
  else .done St.OK [] (add s)

/-- Ranges of `ERR_INJECT`. -/
def errInjectArgs (kind target count : Nat) (_ : Req) (s : State) : Bool :=
  decide (1 ≤ count) && decide (count ≤ 65535) &&
    (if kind ≤ 4 then decide (target < 64)
     else if kind = 0x10 ∨ kind = 0x11 then s.inPart 0 target 1
     else if kind = 0x20 ∨ kind = 0x21 then decide (target < 128)
     else if kind = 0x30 ∨ kind = 0x31 then decide (0x4000000000 ≤ target) && decide (target < 0x4002000000)
     else false)

/-- The command `ERR_INJECT` (0x0C05). -/
def execErrInject (dt : Nat) (c : Call) (kind : Nat) (target : BitVec 40) (count : Nat) (s : State) :
    Host.Outcome State Fault Refusal :=
  .next (kilel 0x0C05 (errInjectArgs kind target.toNat count) (errInject kind target.toNat count) dt c s)

/-! ### Scratchpad handover -/

/-- Bank `b` holds part of a sparse list that an epoch PSC holds refers to (R204). -/
def State.sparseInBank (s : State) (b : Nat) : Bool :=
  (s.ep.epoch :: s.ep.banks.map (·.epoch)).any (fun e =>
    decide (s.cf e R.PSC_SPARSE_CFG 0 2 = 3) &&
      (let a := s.cfAddr e R.PSC_SPARSE_ADDR_LO R.PSC_SPARSE_ADDR_HI
       let n := 256 + 8 * nth (match s.ing.sparse.find? (fun x => x.1 = e) with | some x => x.2 | none => []) 0
       decide (a < 0x4000000000 + 0x80000 * (b + 1)) && decide (0x4000000000 + 0x80000 * b < a + n)))

/-- A handover write of bank `b` is refused (R335). -/
def State.hoRefused (s : State) (b : Nat) (v : Word) : Bool :=
  decide (s.fd (R.SPD_BANK_OWN b) 8 2 ≠ 0) || s.sparseInBank b || !s.enabled (fld v 0 6)

/-- An accepted handover write: HANDOVER, SCRUB as given, REFUSED clear. -/
def State.hoAccept (s : State) (b : Nat) (v : Word) : State :=
  let s := { s with spdHo := tabSet (fun _ => 0) s.spdHo b (s.now + 1) }
  (s.wr (R.SPD_BANK_HO b) (v &&& 0x7F#32)).wr (R.SPD_BANK_OWN b)
    (w32 (s.fd (R.SPD_BANK_OWN b) 0 6 + fld v 6 1 * 64 + 0x100))

/-- Every word of bank `b` becomes 0. -/
def State.spdZero (s : State) (b : Nat) : State :=
  let lo := 0x4000000000 + 0x80000 * b
  { s.memClear lo (lo + 0x80000) with dmc := { s.dmc with err := tabClear s.dmc.err lo (lo + 0x80000) } }

/-- SPD_HANDOVER_COMPLETE: SCRUB, then the new owner and OWNED; REFUSED stands (R335, Table 12-9). -/
def execSpdHandoverComplete (dt : Nat) (bank : Fin 64) (s : State) : Host.Outcome State Fault Refusal :=
  let s := s.tick dt
  let own := s.rd (R.SPD_BANK_OWN bank)
  .next (if fld own 8 2 = 1 then
      let s := if bit own 6 then s.spdZero bank else s
      s.wr (R.SPD_BANK_OWN bank) (w32 (s.fd (R.SPD_BANK_HO bank) 0 6 + fld own 6 2 * 64))
    else s)

/-- A bank is handed to part 0 with SCRUB (R337: levels 2 and 3). -/
def State.spdReset (s : State) (p : Nat) : State :=
  (selIdx 64 (fun b => decide (s.fd (R.SPD_BANK_OWN b) 0 6 = p))).foldl (fun s b =>
    (s.spdZero b).wr (R.SPD_BANK_OWN b) (w32 64)) s

/-! ### Chutes -/

/-- Chute `n`. -/
def State.chute (s : State) (n : Nat) : Chute := tabGet (fun _ => {}) s.chutes n

/-- Chute `n` replaced. -/
def State.setChute (s : State) (n : Nat) (c : Chute) : State := { s with chutes := tabSet (fun _ => {}) s.chutes n c }

/-- Chute `n` has no room. -/
def State.chuteFull (s : State) (n : Nat) : Bool := decide (2 ^ s.fd (R.CHT_CFG n) 0 4 ≤ (s.chute n).words.length)

/-- Chute `n` is a PACKET chute. -/
def State.chutePacket (s : State) (n : Nat) : Bool := s.bt (R.CHT_CFG n) 4

/-- The length goes into the pending slot (R342). -/
def Chute.close (c : Chute) (len : Nat) (poison : Bool) (now : Nat) : Chute :=
  match c.pend with
  | none => c
  | some i =>
    { c with words := c.words.mapIdx (fun j w => if j = i then
        { data := len, good := true, poison := poison, slot := true, at_ := now } else w), pend := none }

/-- Chute `n` after a word; a packet that fills it is closed, and the rest of it is discarded (R342). -/
def State.chutePush (s : State) (n : Nat) (c : Chute) : State :=
  let s := s.setChute n c
  match c.pend with
  | some i =>
    if s.chuteFull n then
      (s.setChute n { c.close (c.words.length - i - 1) true s.now with drop := true }).bump (R.CHT_ERR n) 16 8 1
    else s
  | none => s

/-- One write that the chute accepts: kind 0 a word, 1 a word that opens a packet, 2 the length of the open packet
(R339, R341, R342). -/
def State.chutePut (s : State) (n kind : Nat) (w : ChuteWord) : State :=
  let c := s.chute n
  if s.chutePacket n && c.drop then
    if kind = 2 then s.setChute n { c with drop := false } else s
  else if s.chutePacket n && decide (kind = 2) then s.setChute n (c.close w.data w.poison s.now)
  else
    let bad := s.injects 0x20 n
    let poi := s.injects 0x21 n
    let s := if bad then s.useInj 0x20 n else s
    let s := if poi then s.useInj 0x21 n else s
    let w := { w with good := !bad, poison := w.poison || poi, slot := decide (kind = 1), at_ := s.now }
    s.chutePush n { c with words := c.words ++ [w]
                           pend := if s.chutePacket n && decide (kind = 1) then some c.words.length else c.pend }

/-- The write can be accepted now: there is room, or it does not go to the tail. -/
def State.chuteTakes (s : State) (n kind : Nat) : Bool :=
  !s.chuteFull n || (s.chutePacket n && (decide (kind = 2) || (s.chute n).drop))

/-- Words the producer held are offered again, in order. -/
def State.chuteOffer (s : State) (n : Nat) : Nat → State
  | 0 => s
  | f + 1 =>
    match (s.chute n).held with
    | [] => s
    | (k, w) :: r =>
      if s.chuteTakes n k then (((s.setChute n { s.chute n with held := r }).chutePut n k w)).chuteOffer n f else s

/-- CHUTE_WRITE: the producer writes a word, or holds it while the chute is full (R339). -/
def execChuteWrite (dt : Nat) (chute : Fin 128) (kind : Fin 3) (data : BitVec 64) (poison : Bool) (s : State) :
    Host.Outcome State Fault Refusal :=
  let s := s.tick dt
  let w : ChuteWord := { data := data.toNat, good := true, poison := poison, slot := false, at_ := s.now }
  let c := s.chute chute
  .next (if s.chuteTakes chute kind && c.held.isEmpty then s.chutePut chute kind w
    else s.setChute chute { c with held := c.held ++ [(kind.val, w)] })

/-- A word as its consumer receives it: 64 data bits, POISON, LENSLOT. -/
def ChuteWord.out (w : ChuteWord) : Nat := w.data + b2n w.poison * 2 ^ 64 + b2n w.slot * 2 ^ 65

/-- CHUTE_READ: the next readable word, POISON set where its parity fails; EMPTY gives the last word again and counts
(R340, R341). A read frees a place for a word the producer holds. -/
def execChuteRead (dt : Nat) (chute : Fin 128) (s : State) : Host.Outcome State Fault Refusal :=
  let s := s.tick dt
  let n := chute.val
  let c := s.chute n
  .next (match c.words with
    | w :: ws =>
      if c.readable s.now = 0 then
        ((s.wr (R.CHT_FLAGS n) 1).bump (R.CHT_ERR n) 0 8 1).emit (.read (match c.last with | some l => l.out | none => 0))
      else
        let d := { w with poison := w.poison || !w.good }
        let s := (s.setChute n { c with words := ws, last := some d, pend := c.pend.map (· - 1)
                                        rd := (c.rd + 1) % 2 ^ s.fd (R.CHT_CFG n) 0 4 }).emit (.read d.out)
        let s := if w.good then s else (s.bump (R.CHT_ERR n) 8 8 1).faultItem Src.CHT 1 n c.rd []
        s.chuteOffer n c.held.length
    | [] => ((s.wr (R.CHT_FLAGS n) 1).bump (R.CHT_ERR n) 0 8 1).emit
        (.read (match c.last with | some l => l.out | none => 0)))

/-- Every chute empty, as at boot and after a level 4 or 5 reset (R338, R343). -/
def State.chuteReset (s : State) : State := { s with chutes := [] }.regClear (R.CHT_CFG 0) (R.CHT_CFG 128)

/-- DEPTH_LOG2 of chute `n` when `room` words of the pool are left: the open value, as far as the pool allows with at least 16
words for every chute after it (R338). -/
def chuteDepth (n room : Nat) : Nat := min (4 + (Config.chute n).toNat % 9) (Nat.log2 (room - 16 * (127 - n)))

/-- CHT_CFG as firmware sets it at boot (R338); the values are open, and the chutes fit in the pool of 65,536 words. -/
def State.chuteBoot (s : State) : State :=
  ((List.range 128).foldl (fun (a : Nat × State) n =>
    let v := (Config.chute n).toNat
    let d := chuteDepth n a.1
    (a.1 - 2 ^ d, a.2.wr (R.CHT_CFG n) (w32 (d + v / 16 % 2 * 16 + v / 256 % 65536 * 256)))) (0x10000, s)).2

/-! ### DRAM pages, self-refresh, tracking -/

/-- Channel `ch` has taken the requests that it could by now. -/
def State.dramDrain (s : State) (ch : Nat) : State :=
  { s with dmc := s.dmc.drain (s.fd R.DMC_PAGE_IDLE 0 11) s.now ch }

/-- A request waits at channel `ch`. -/
def DmcSt.waits (d : DmcSt) (ch : Nat) : Bool := d.queue.any (fun r => decide (r.place.ch = ch))

/-- PAGE_IDLE_EXPIRY: a bank whose idle timer has reached DMC_PAGE_IDLE is precharged; a request of the same cycle goes
first (R321). -/
def execPageIdleExpiry (dt : Nat) (ch : Fin 32) (bank : Fin 16) (s : State) : Host.Outcome State Fault Refusal :=
  let s := (s.tick dt).dramDrain ch
  let k := ch.val * 16 + bank.val
  let (row, at_) := tabGet (fun _ => (0, 0)) s.dmc.rows k
  .next (if row ≠ 0 ∧ at_ ≠ s.now ∧ at_ + s.fd R.DMC_PAGE_IDLE 0 11 ≤ s.now then
      { s with dmc := { s.dmc with rows := tabSet (fun _ => (0, 0)) s.dmc.rows k (0, 0) } }
    else s)

/-- SELF_REFRESH_ENTRY: a channel without a request for DMC_SR_IDLE; not with an idle time of 0, and in P0 not while the
sensor link is up (R322). -/
def execSelfRefreshEntry (dt : Nat) (ch : Fin 32) (s : State) : Host.Outcome State Fault Refusal :=
  let s := (s.tick dt).dramDrain ch
  let idle := s.fd R.DMC_SR_IDLE 0 16 * 1000
  let last := tabGet (fun _ => 0) s.dmc.last ch
  .next (if idle = 0 ∨ s.dmc.waits ch = true ∨ s.now < last + idle ∨ (s.power = 0 ∧ s.linkUp = true) then s
    else { s with dmc := { s.dmc with sr := tabSet (fun _ => false) s.dmc.sr ch true } })

/-- DQS_TRACKING: the channel reads its interval oscillator and adjusts its timing (R325). -/
def execDqsTracking (dt : Nat) (ch : Fin 32) (s : State) : Host.Outcome State Fault Refusal :=
  let s := s.tick dt
  .next { s with dmc := { s.dmc with dqs := tabSet (fun _ => 0) s.dmc.dqs ch s.now } }

end Sys2Proof.Machine
end

