-- ==== Sys2Proof/Machine/Mon.lean ====
section
/-!
DEFINITION. The commands of the monitor outputs (chapter 14): configuration, pushes, the buffer pool, status, frame starts,
TE edges, DSI transfers and SDI lines.
-/

set_option Elab.async false

namespace Sys2Proof.Machine

/-- `MON_OUTPUT_CONFIG` (R372): the entry is the staged or active MON_OUT_CTRL with CTX replaced. -/
def monConfig (o ctx : Nat) (r : Req) (s : State) : Ans :=
  if 6 ≤ o || decide (s.resOwner (outputRes o) ≠ r.part) || !s.owns r.part ctx then .done St.BAD_ARGUMENT [] s
  else stageAnswer r [(R.MON_OUT_CTRL o, setFld (s.stagedOr r.part (R.MON_OUT_CTRL o)) 8 12 ctx)] s

/-- The command `MON_OUTPUT_CONFIG` (0x0801). -/
def execMonOutputConfig (dt : Nat) (c : Call) (output : Fin 8) (ctx : Fin 4096) (s : State) :
    Host.Outcome State Fault Refusal :=
  .next (kilel 0x0801 (fun _ _ => true) (monConfig output ctx) dt c s)

/-- Output `o` exists and is the caller's. -/
def State.monOwned (s : State) (p o : Nat) : Bool := decide (o < 6) && decide (s.resOwner (outputRes o) = p)

/-- `MON_PUSH` (R384). -/
def monPush (r : Req) (s : State) : Ans :=
  let o := r.f 0 0 3
  let flip := r.f 0 3 1 = 1
  let w := r.f 2 0 16
  let h := r.f 2 16 16
  let region := decide (w ≠ 0) && decide (h ≠ 0)
  if !s.monOwned r.part o || (region && decide (2 ≤ o)) then .done St.BAD_ARGUMENT [] s
  else
    let b := r.f 0 8 8
    let bad := flip && !s.fbHeld r.part b
    let s := if bad then s.viol r.part Viol.pool r.ctx b else s
    let p : MonPush := { output := o, layer := r.f 0 4 2, flip := if flip && !bad then some b else none
                         rect := if region then some ⟨r.f 1 0 16, r.f 1 16 16, r.f 1 0 16 + w, r.f 1 16 16 + h⟩ else none
                         at_ := s.now }
    let s := { s with mon := { s.mon with pushes := s.mon.pushes ++ [p] } }
    let (t, s) := s.monNext o
    .done St.OK [w32 (shortOf t)] s

/-- The command `MON_PUSH` (0x0802). -/
def execMonPush (dt : Nat) (c : Call) (s : State) : Host.Outcome State Fault Refusal :=
  .next (kilel 0x0802 (fun _ _ => true) monPush dt c s)

/-- The 256-bit map in payload words 1 to 8. -/
def fbMap (r : Req) : List Nat := selIdx 256 (fun b => bit (r.w (1 + b / 32)) (b % 32))

/-- The 256-bit map of a partition's buffers. -/
def State.fbWords (s : State) (p : Nat) : List Word :=
  (List.range 8).map (fun i => w32 (maskOf 32 (fun j => s.fbHeld p (32 * i + j))))

/-- The map of a request that takes buffers is reserved (R382). -/
def monFbArgs (r : Req) (s : State) : Bool :=
  s.monOwned r.part (r.f 0 0 6) && (decide (sx 16 (r.f 0 16 16) < 0) || (fbMap r).isEmpty)

/-- `MON_FB_ALLOC` (R382, R90). -/
def monFbAlloc (r : Req) (s : State) : Ans :=
  let n := sx 16 (r.f 0 16 16)
  let p := r.part
  if 0 ≤ n then
    if decide (n ≠ 0) && decide (s.fd (R.PART_POOL_QUOTA p) 8 8 < (s.fbOf p).length + n.toNat) then .done St.QUOTA_EXCEEDED [] s
    else if s.fbFree.length < n.toNat then .done St.POOL_EMPTY [] s
    else
      let s := (s.fbTake p n.toNat).fbRegs p
      .done St.OK (s.fbWords p) s
  else
    let named := fbMap r
    if named.length ≠ (-n).toNat then .done St.BAD_ARGUMENT [] s
    else if named.any s.fbShown then .done St.STATE_CONFLICT [] s
    else
      let s := named.foldl (fun (s : State) b => if s.fbHeld p b then s.setFb b none else s.viol p Viol.pool r.ctx b) s
      let s := s.fbRegs p
      .done St.OK (s.fbWords p) s

/-- The command `MON_FB_ALLOC` (0x0803). -/
def execMonFbAlloc (dt : Nat) (c : Call) (s : State) : Host.Outcome State Fault Refusal :=
  .next (kilel 0x0803 monFbArgs monFbAlloc dt c s)

/-- `MON_STATUS` (R391). -/
def monStatus (r : Req) (s : State) : Ans :=
  .done St.OK ((selIdx 6 (s.monOwned r.part)).flatMap (fun o =>
    [s.rd (R.MON_OUT_STAT o), s.rd (R.MON_OUT_EPOCH o), s.rd (R.MON_OUT_FRAMES o), s.rd (R.MON_OUT_UNDER o)])) s

/-- The command `MON_STATUS` (0x0804). -/
def execMonStatus (dt : Nat) (c : Call) (s : State) : Host.Outcome State Fault Refusal :=
  .next (kilel 0x0804 (fun _ _ => true) monStatus dt c s)

/-- The port starts its frames at TE edges. -/
def State.monTe (s : State) (o : Nat) : Bool :=
  decide (o < 2) && monOn (s.monOut o).regs o && decide ((s.monOut o).fd (R.MON_OUT_DSI o) 15 1 = 1)

/-- A frame that a port with TE_EN starts on its cadence (R376). -/
def State.monCadence (s : State) (o : Nat) : State := (s.bump (R.MON_OUT_TEMISS o) 0 32 1).monStart o

/-- OUTPUT_FRAME_START (R374, R376, R385, R411). A frame starts at a tick of the output's cadence; with TE_EN set it starts
TE_DELAY_US after an edge, or on the cadence while TE_LOCK is clear. -/
def execOutputFrameStart (dt : Nat) (output : Fin 6) (s : State) : Host.Outcome State Fault Refusal :=
  let s := s.tick dt
  let o := output.val
  let m := s.monOut o
  .next (if m.line.isSome then s
    else if s.monTe o then
      match m.teDue with
      | some t => if t ≤ s.now then s.monStart o else s
      | none => if s.bt (R.MON_OUT_STAT o) 1 || !newTick m.tick (s.monTick o) then s else s.monCadence o
    else if newTick m.tick (s.monTick o) then s.monStart o else s)

/-- TE_EDGE: a rising edge on the port's TE GPIO (R376, R388). -/
def execTeEdge (dt : Nat) (port : Fin 2) (s : State) : Host.Outcome State Fault Refusal :=
  let s := s.tick dt
  let o := port.val
  .next (if s.monTe o then
      let m := s.monOut o
      ((s.setMon o { m with teAt := some s.now, teDue := some (s.now + 1000 * m.fd (R.MON_OUT_DSI_T o) 0 16) }).wrF
        (R.MON_OUT_STAT o) 1 1 1).monBlank o
    else s)

/-- TE_MISS_TIMEOUT: 2 × PERIOD passed without an edge (R376). -/
def execTeMissTimeout (dt : Nat) (port : Fin 2) (s : State) : Host.Outcome State Fault Refusal :=
  let s := s.tick dt
  let o := port.val
  let m := s.monOut o
  .next (if s.monTe o && decide ((m.teAt.getD 0) + 20000 * m.fd (R.MON_OUT_DSI_T o) 16 16 ≤ s.now) then
      (s.wrF (R.MON_OUT_STAT o) 1 1 0).monCadence o
    else s)

/-- The region `d` of output `o` has been sent (R375, R377, R386, R388). -/
def State.dsiSent (s : State) (o : Nat) (d : Rect) (under : List (Nat × Nat)) (ue : List Nat) : State :=
  let s := s.emit (.dsi o 0x2C [])
  let (px, s) := (List.range (d.y1 - d.y0)).foldl (fun (a : List Nat × State) i =>
    let s := a.2
    let y := d.y0 + i
    let miss := (under.find? (fun e => e.1 = y)).map (·.2)
    let miss := match miss with | some c => if c < d.x1 then some c else none | none => none
    let s := s.wrF (R.MON_OUT_STAT o) 16 16 y
    let (bad, s) := s.monFetch o y
    let (row, s) := s.monLine o y d.x0 d.x1 miss
    let s := s.monMatch o y
    let s := if bad || ue.contains y then s.monUe o y else s
    (a.1 ++ row, if miss.isSome then s.monUnder o y else s)) ([], s)
  let s := s.dsiPackets o px
  (s.setMon o { s.monOut o with dirty := none }).monDone o

/-- DSI_TRANSFER_DONE: the dirty region has been sent (R375, R377, R386, R388). `under`: rows with the first column that was
not present; `ue`: rows whose fetch met an uncorrectable read. -/
def execDsiTransferDone (dt : Nat) (port : Fin 2) (under : List (Nat × Nat)) (ue : List Nat) (s : State) :
    Host.Outcome State Fault Refusal :=
  let s := s.tick dt
  let o := port.val
  .next (match (s.monOut o).dirty with
  | none => s
  | some d => s.dsiSent o d under ue)

/-- Active line `y` of output `o`, `w` pixels wide, is sent (R374, R386, R388). -/
def State.sdiLine (s : State) (o y w : Nat) (miss : Option Nat) (ue : Bool) : State :=
  let m := s.monOut o
  let miss := match miss with | some c => if c < w then some c else none | none => none
  let (bad, s) := s.monFetch o y
  let s := (s.setMon o { m with line := some (y + 1) }).wrF (R.MON_OUT_STAT o) 16 16 y
  let (row, s) := (s.monMatch o y).monLine o y 0 w miss
  let s := s.emit (.video o y 0 (State.sdiCoding o m) row)
  let s := if bad || ue then s.monUe o y else s
  if miss.isSome then s.monUnder o y else s

/-- SDI_LINE_START: the next active line is sent (R374, R386, R388). `miss`: the first column not present when it must be
sent; `ue`: the line's fetch met an uncorrectable read. -/
def execSdiLineStart (dt : Nat) (output : Fin 4) (miss : Option Nat) (ue : Bool) (s : State) :
    Host.Outcome State Fault Refusal :=
  let s := s.tick dt
  let o := output.val + 2
  let m := s.monOut o
  .next (match m.line with
  | none => s
  | some y =>
    let (w, h) := m.size o
    if h ≤ y then s else s.sdiLine o y w miss ue)

/-- SDI_FRAME_END: the end of the last active line: FRAME_DONE, then BLANK_START (R388). -/
def execSdiFrameEnd (dt : Nat) (output : Fin 4) (s : State) : Host.Outcome State Fault Refusal :=
  let s := s.tick dt
  let o := output.val + 2
  let m := s.monOut o
  .next (if m.line = some (m.size o).2 then ((s.setMon o { m with line := none }).monDone o).monBlank o else s)

end Sys2Proof.Machine
end

