-- ==== Sys2Proof/Machine/Psc.lean ====
section
/-!
DEFINITION. Photosite correction (chapter 7): one beat of the pipe, with the dense stages, the sparse list, starvation
(R201), and the tap that follows it (R241, R330).
-/

set_option Elab.async false

namespace Sys2Proof.Machine

/-- COUNT and FIRST stored with the commit that set epoch `e`'s list (R203). -/
def State.sparseOfEpoch (s : State) (e : Nat) : List Nat :=
  match s.ing.sparse.find? (fun x => x.1 = e) with
  | some x => x.2
  | none => []

/-- The index range of stripe `i`'s entries (R192). -/
def State.sparseRange (s : State) (e i : Nat) : Nat × Nat :=
  let h := s.sparseOfEpoch e
  let n := s.cf e R.SLK_STRIPE_COUNT 0 6
  (nth h (1 + i), if i + 1 < n then nth h (2 + i) else nth h 0)

/-- An entry as PSC reads it: undefined where its scratchpad word was written in this very cycle (R336), and 0 where part 0
does not own the bank (R334). -/
def State.listWord (s : State) (a : Nat) : Nat :=
  if a < 0x8000000000 && !s.spdMay 0 a then 0
  else if a < 0x8000000000 && s.spdAcc.any (fun e => decide (e.1 = s.now) && decide (e.2.1 = spdWord a) && e.2.2.1) then
    (Config.freeWord (s.free + spdWord a)).toNat
  else s.num a 8

/-- Address of the sparse list of epoch `e`. -/
def State.listBase (s : State) (e : Nat) : Nat := s.cfAddr e R.PSC_SPARSE_ADDR_LO R.PSC_SPARSE_ADDR_HI

/-- The beat's entries `lo` to `hi` are read: from DRAM, or each from its scratchpad word by the port of rank 0 (R333). -/
def State.listTouch (s : State) (e lo hi : Nat) : State :=
  let base := s.listBase e + 256
  if 0x8000000000 ≤ base then s.dmaGet Port.pscRd 0 (base + 8 * lo) (8 * (hi - lo))
  else s.dmaGets Port.pscRd 0 ((List.range (hi - lo)).map (fun i => (base + 8 * (lo + i), 8)))

/-- The walk over the list for one beat (R197, R198); `f` bounds the entries left. -/
def State.sparseWalk (s : State) (base w r0 r1 hi got : Nat) (ue : List Nat) : Nat → SparseWalk → SparseWalk
  | 0, k => k
  | f + 1, k =>
    if k.stop then k
    else s.sparseWalk base w r0 r1 hi got ue f
      (sparseStep w r0 r1 hi got (s.listWord (base + 256 + 8 * k.ptr))
        (ue.contains k.ptr || s.poisoned (base + 256 + 8 * k.ptr) 8) k)

/-- The beat of stripe `i`: its frame, when its oldest uncorrected row is available (R195, R167). -/
def State.pscFrame (s : State) (i : Nat) : Option Frame :=
  match s.ing.frames.find? (fun f => decide (i < f.stripes.length) &&
      decide ((f.stripes.getD i {}).cor.length < s.stripeRows f.epoch i)) with
  | none => none
  | some f =>
    let st := f.stripes.getD i {}
    if f.closed || st.drop || decide (min (s.stripeRows f.epoch i) (st.cor.length + 3) ≤ st.rows.length) then some f else none

/-- Rows of the stripe that PSC corrects: those received, up to where the rest was dropped (R188, R201). -/
def StripeSt.received (st : StripeSt) : Nat := min st.rows.length (st.gone.getD st.rows.length)

/-- A stripe of frame `f` replaced. -/
def Frame.setStripe (f : Frame) (i : Nat) (st : StripeSt) : Frame := { f with stripes := f.stripes.set i st }

/-- The corrected samples of a beat: `y` is the row in the stripe, `x0` the first column, `n` the samples. Answers the
samples with flags, the stripe after the walk, and the counts. -/
def State.pscBeat (s : State) (f : Frame) (i : Nat) (st : StripeSt) (y x0 n : Nat) (io : BeatIo) :
    List (Nat × Bool) × StripeSt × SparseCnt :=
  let e := f.epoch
  let d := s.frameDepth e
  let w := s.frameWidth e
  let top := s.stripeTop e i
  let rows := s.stripeRows e i
  let ped := s.cf e R.PSC_LEVEL 0 16
  let got := st.received
  let lostRow := fun r => decide (got ≤ r)
  let raw := fun x r => nth (st.rows.getD r []) x
  let bypass := s.cf e R.PSC_CFG 0 1 = 1
  if bypass then
    ((List.range n).map (fun j => (if lostRow y then 0 else raw (x0 + j) y, false)), st, {})
  else
    let k := if s.mono e then 1 else 2
    let dense := fun (x r : Nat) =>
      let bad := st.ue.any (fun u => decide (u.1 = r) && decide (u.2.1 ≤ x) && decide (x < u.2.1 + u.2.2))
      pscDense d (if bad then 0 else s.dark e x (top + r)) (if bad then 0x4000 else s.gain e x (top + r)) ped (raw x r)
    let st := if io.darkUe || io.gainUe then { st with ue := (y, x0, n) :: st.ue } else st
    let (lo, hi') := s.sparseRange e i
    let ptr := st.sptr.getD lo
    let due := (if x0 = 0 && !lostRow y then st.later else []).filter (fun z => decide (z.1 = top + y))
    let later := if x0 = 0 then st.later.filter (fun z => decide (z.1 ≠ top + y)) else st.later
    let cnt : SparseCnt := { order := (due.filter (fun z => !z.2)).length, bad := (due.filter (fun z => z.2)).length }
    let walk : SparseWalk :=
      { ptr := ptr, last := st.lastEnt, later := later, hits := [], n := 0, cnt := cnt, stop := false }
    let walk := if s.cf e R.PSC_SPARSE_CFG 0 1 = 1 then
        s.sparseWalk (s.listBase e) w top (top + rows)
          ((top + y) * 65536 + x0 + n - 1) (top + got) io.listUe (hi' - ptr) walk
      else walk
    let st := { st with sptr := some walk.ptr, lastEnt := walk.last, later := walk.later }
    if lostRow y then ((List.replicate n (0, false)), st, walk.cnt)
    else
      let nb := fun (x : Nat) (m : Nat) =>
        let get := fun (dx dy : Int) (b : Nat) =>
          let x' : Int := x + dx
          let y' : Int := y + dy
          if m / 2 ^ b % 2 = 1 || x' < 0 || (w : Int) ≤ x' || y' < 0 || (rows : Int) ≤ y' || lostRow y'.toNat ||
              (io.parity && decide (dy ≠ 0)) then none
          else some (dense x'.toNat y'.toNat)
        [get (-(k : Nat)) 0 0, get (k : Nat) 0 1, get 0 (-(k : Nat)) 2, get 0 (k : Nat) 3]
      let outs := (List.range n).map (fun j =>
        let x := x0 + j
        let v := dense x y
        match walk.hits.find? (fun h => h.col = x) with
        | some h => sparseApply h v ped (nb x)
        | none => (v, false, false))
      let noNb := (outs.filter (fun o => o.2.2)).length
      (outs.map (fun o => (pscNarrow d o.1, o.2.1 || io.darkUe || io.gainUe)), st, { walk.cnt with noNb := noNb })

/-- The beat's errors: those given, and the stored ones that its plane words meet (R206, R327). -/
def State.beatIo (s : State) (e y x0 n : Nat) (io : BeatIo) : BeatIo :=
  { io with darkUe := io.darkUe || s.spansBad (planeSpans (fun x => s.darkAt e x y) x0 n)
            gainUe := io.gainUe || s.spansBad (planeSpans (fun x => s.gainAt e x y) x0 n) }

/-- The planes are read for the beat at (x0, y): whole cells, with the first of their two rows that the stripe has. -/
def State.planeTouch (s : State) (e top y x0 n : Nat) : State :=
  if y % 2 = 1 && decide (top < y) then s
  else
    let both := fun (at_ : Nat → Nat → Nat × Nat) =>
      planeSpans (fun x => at_ x y) x0 n ++ planeSpans (fun x => at_ x (y + 1)) x0 n
    s.dmaGets Port.pscRd 0 (both (s.darkAt e) ++ both (s.gainAt e))

/-- The counts of a beat go to the registers. -/
def State.pscCount (s : State) (c : SparseCnt) : State :=
  (((s.bump R.PSC_SPARSE_ERR 0 16 c.order).bump R.PSC_SPARSE_ERR 16 16 c.bad).bump R.PSC_SPARSE_SKIP 0 16 c.full).bump
    R.PSC_SPARSE_SKIP 16 16 c.noNb

/-- The tap abandons a frame it cannot write (R330). -/
def State.tapAbandon (s : State) (f : Frame) : State :=
  let s := match s.cpl.dev with
    | some d => if d.no = f.no then { s with cpl := { s.cpl with dev := none } }.wrF R.CPL_STAT 0 1 0 else s
    | none => s
  ((s.putFrame { f with tap := none }).bump R.CPL_SKIP_CNT 0 32 1).raiseOf f.epoch f.no 0 0x06A0 St.OK Src.CPL 0

/-- PSC starves: the rest of the frame is dropped (R201). -/
def State.pscStarve (s : State) (f : Frame) (i y : Nat) : State :=
  ((s.dropRest f).bump R.PSC_STARVE_CNT 0 32 1).raiseOf f.epoch f.no 0 0x0681 St.OK Src.PSC
    ((s.stripeTop f.epoch i + y) % 65536 + i * 65536)

/-- The frame is corrected: its tap is complete, its TAP statistics are due, CAL_ENTRIES_SKIPPED goes out (R199, R266). -/
def State.pscFrameEnd (s : State) (f : Frame) : State :=
  if !s.allCorrected f then s
  else
    let s := if 0 < f.skips && decide (s.ing.calEpoch ≠ some f.epoch) then
        ({ s with ing := { s.ing with calEpoch := some f.epoch } }).raiseOf f.epoch f.no 0 0x0680 St.OK Src.PSC (min 0xFFFFFF f.skips)
      else s
    let s := if s.cf f.epoch R.CPL_CFG 0 1 = 1 && s.selected f.epoch f.no then s.tapStats f else s
    s.putFrame { f with tapDone := true }

/-- One beat of stripe `i` of frame `f0`. -/
def State.pscStep (s : State) (i : Nat) (f0 : Frame) (io : BeatIo) : State :=
  let s := s.tapFirst f0
  let f := (s.ing.frames.find? (fun g => g.no = f0.no)).getD f0
  let st := f.stripes.getD i {}
  let e := f.epoch
  let y := st.cor.length
  let x0 := st.corSeg.length
  let n := min 96 (s.frameWidth e - x0)
  let live := decide (s.cf e R.PSC_CFG 0 1 = 0)
  if io.late && live && decide (y < st.received) then (s.pscStarve f i y).settle
  else
    let row := s.stripeTop e i + y
    let det := row % 65536 + i * 65536
    let io := if live then s.beatIo e row x0 n io else io
    let at0 := st.sptr.getD (s.sparseRange e i).1
    let (out, st, cnt) := s.pscBeat f i st y x0 n io
    let s := if live then s.planeTouch e (s.stripeTop e i) row x0 n else s
    let s := if io.darkUe && live then s.faultItem Src.PSC 1 0 det [] else s
    let s := if io.gainUe && live then s.faultItem Src.PSC 1 1 det [] else s
    let s := if (!io.listUe.isEmpty || s.poisoned (s.listBase e + 256 + 8 * at0) (8 * (st.sptr.getD at0 - at0))) && live then
        s.faultItem Src.PSC 1 2 det [] else s
    let s := if io.parity && live then s.faultItem Src.PSC 2 i row [] else s
    let s := (s.pscCount cnt).listTouch e at0 (st.sptr.getD at0)
    let f := { f with skips := f.skips + cnt.order + cnt.bad + cnt.full + cnt.noNb }
    let seg := st.corSeg ++ out
    if seg.length < s.frameWidth e then
      let f := f.setStripe i { st with corSeg := seg }
      (if io.tapFull && f.tap.isSome then s.tapAbandon f else s.putFrame f)
    else
      let f := f.setStripe i { st with corSeg := [], cor := st.cor ++ [seg] }
      let s := if io.tapFull && f.tap.isSome then s.tapAbandon f
        else match f.tap with
          | some slot => (s.putFrame f).tapRow e slot row seg
          | none => s.putFrame f
      let f := (s.ing.frames.find? (fun g => g.no = f0.no)).getD f
      (s.pscFrameEnd f).settle

/-- PSC_BEAT: the next beat of a stripe goes through correction, to the coder and to the tap (R185 to R206). -/
def execPscBeat (dt : Nat) (stripe : Fin 48) (io : BeatIo) (s : State) : Host.Outcome State Fault Refusal :=
  let s := s.tick dt
  .next (match s.pscFrame stripe with
  | none => s
  | some f => s.pscStep stripe f io)


end Sys2Proof.Machine
end

