-- ==== Sys2Proof/Machine/Tim.lean ====
section
/-!
DEFINITION. The commands of time, triggers and sync (chapter 15) that move no frame boundary: the time commands, trigger
edges, strobes, genlock, timecode, Ethernet and PTP.
-/

set_option Elab.async false

namespace Sys2Proof.Machine

/-! ### Device time -/

/-- `TIME_READ` (R396). -/
def timeRead (_ : Req) (s : State) : Ans :=
  let t := s.dev
  .done St.OK [w32 (t % 10 ^ 9), w32 (t / 10 ^ 9), w32 (t / 10 ^ 9 / 2 ^ 32 % 2 ^ 16),
    w32 (s.clk.tod / 2 ^ 16 % 2 ^ 16 + s.servo * 2 ^ 16 + b2n (!s.locked) * 2 ^ 19), w32 s.short] s

/-- The command `TIME_READ` (0x0901). -/
def execTimeRead (dt : Nat) (c : Call) (s : State) : Host.Outcome State Fault Refusal :=
  .next (kilel 0x0901 (fun _ _ => true) timeRead dt c s)

/-- The device time that `TIME_SET` asks for, in 2^-32 ns. -/
def timeTarget (r : Req) (s : State) : Int :=
  if r.f 0 0 1 = 0 then ((r.f 1 0 30 + ((r.w 2).toNat + r.f 3 0 16 * 2 ^ 32) * 10 ^ 9 : Nat) : Int) * 2 ^ 32
  else (s.clk.tod : Int) + sx 64 (r.w64 1) * 2 ^ 32

/-- The payload of `TIME_SET` (Table 2-15). A step below 0 s is out of range. -/
def timeSetArgs (r : Req) (s : State) : Bool :=
  decide ((r.w 0).toNat < 2) &&
    (if r.f 0 0 1 = 0 then decide (r.pay.length = 4) && decide ((r.w 1).toNat < 10 ^ 9) && decide ((r.w 3).toNat < 2 ^ 16)
     else decide (r.pay.length = 3)) && decide (0 ≤ timeTarget r s)

/-- `TIME_SET` (R393). -/
def timeSet (r : Req) (s : State) : Ans :=
  if s.servo = 3 || s.servo = 4 || !s.tim.sched.isEmpty then .done St.STATE_CONFLICT [] s
  else if s.anyArmed then .done St.REFUSED_ARMED [] s
  else .done St.OK [] (s.stepTime (timeTarget r s).toNat)

/-- The command `TIME_SET` (0x0902). -/
def execTimeSet (dt : Nat) (c : Call) (s : State) : Host.Outcome State Fault Refusal :=
  .next (kilel 0x0902 timeSetArgs timeSet dt c s)

/-- The bits of `w` are all defined in the register at `a`. -/
def definedBits (a : Nat) (w : Word) : Bool := decide (w &&& ~~~(w32 (regMask a)) = 0)

/-- `PTP_CONFIG` (R397): its arguments keep cause 4 of Table 15-2. -/
def ptpConfig (cfg intv servo step : Word) (r : Req) (s : State) : Ans :=
  if ptpBad cfg intv servo || !definedBits R.TIM_PTP_CFG cfg || !definedBits R.TIM_PTP_INTV intv then
    .done St.BAD_ARGUMENT [] s
  else stageAnswer r [(R.TIM_PTP_CFG, cfg), (R.TIM_PTP_INTV, intv), (R.TIM_PTP_SERVO, servo), (R.TIM_PTP_STEP, step)] s

/-- The command `PTP_CONFIG` (0x0903). -/
def execPtpConfig (dt : Nat) (c : Call) (cfg intv servo step : Word) (s : State) : Host.Outcome State Fault Refusal :=
  .next (kilel 0x0903 (fun _ _ => true) (ptpConfig cfg intv servo step) dt c s)

/-- `PTP_STATUS` (R403). -/
def ptpStatus (_ : Req) (s : State) : Ans :=
  .done St.OK [s.rd R.TIM_PTP_STAT, s.rd R.TIM_PTP_OFFSET, s.rd R.TIM_PTP_PATH, s.rd R.TIM_ADJ, s.rd R.TIM_PTP_GM_LO,
    s.rd R.TIM_PTP_GM_HI] s

/-- The command `PTP_STATUS` (0x0907). -/
def execPtpStatus (dt : Nat) (c : Call) (s : State) : Host.Outcome State Fault Refusal :=
  .next (kilel 0x0907 (fun _ _ => true) ptpStatus dt c s)

/-! ### Triggers -/

/-- `TRIG_SCHEDULE` (R407). -/
def trigSchedule (r : Req) (s : State) : Ans :=
  let n := r.f 0 0 2
  let strb := r.f 0 2 1 = 1
  let ahead := sx 32 ((r.w 1).toNat + 2 ^ 32 - s.short)
  let ts := ((s.dev : Int) + ahead).toNat
  let mine := s.tim.sched.filter (fun e => decide (e.pin = n) && e.strb == strb)
  let e : SchedEnt := { pin := n, strb := strb, ts := ts }
  if ahead < 2000 then .done St.BAD_ARGUMENT [] s
  else if s.resOwner ((if strb then 0x14 else 0x10) + n) ≠ r.part then
    .done St.OK [] (s.viol r.part Viol.reg r.ctx (if strb then R.TIM_STRB_CFG n else R.TIM_TRIG_CFG n))
  else if r.f 0 3 1 = 1 then
    if mine.contains e then .done St.OK [] { s with tim := { s.tim with sched := s.tim.sched.erase e } }
    else .done St.BAD_ARGUMENT [] s
  else if mine.contains e then .done St.OK [] s
  else if 16 ≤ mine.length then .done St.QUEUE_FULL [] s
  else .done St.OK [] { s with tim := { s.tim with sched := s.tim.sched ++ [e] } }

/-- The command `TRIG_SCHEDULE` (0x0904). -/
def execTrigSchedule (dt : Nat) (c : Call) (s : State) : Host.Outcome State Fault Refusal :=
  .next (kilel 0x0904 (fun _ _ => true) trigSchedule dt c s)

/-- TRIG_PIN_EDGE: an edge of TRIG n at the balls, stamped now (R404, R405). In P1 edges are not stamped (R475). -/
def execTrigPinEdge (dt : Nat) (pin : Fin 4) (falling : Bool) (s : State) : Host.Outcome State Fault Refusal :=
  let s := s.tick dt
  .next (if s.power = 0 then s.trigEdge pin falling false s.dev else s)

/-- The earliest entry of a pin. -/
def State.schedFirst (s : State) (pin : Nat) (strb : Bool) : Option SchedEnt :=
  match s.tim.sched.filter (fun e => decide (e.pin = pin) && e.strb == strb) with
  | [] => none
  | x :: xs => some (xs.foldl (fun (a : SchedEnt) b => if b.ts < a.ts then b else a) x)

/-- Entry `e` of a pin fires (R407). -/
def State.schedFire (s : State) (pin : Nat) (strb : Bool) (e : SchedEnt) : State :=
  let s := { s with tim := { s.tim with sched := s.tim.sched.erase e } }
  if strb then s.strobeFire pin (e.ts + s.fd (R.TIM_STRB_DELAY pin) 0 24) 1
  else s.trigEdge pin false true (e.ts - 20)

/-- SCHEDULE_ENTRY_DUE: the earliest entry of a pin, if its time has come (R407): a TRIG entry 20 ns ahead. -/
def execScheduleEntryDue (dt : Nat) (pin : Fin 4) (strb : Bool) (s : State) : Host.Outcome State Fault Refusal :=
  let s := s.tick dt
  .next (match s.schedFirst pin strb with
  | none => s
  | some e =>
    if e.ts ≤ s.dev + (if strb then 0 else 20) then
      s.schedFire pin strb e
    else s)

/-- STROBE_TRAILING_EDGE: the pulse of a strobe ends, once its time has come (R406). -/
def execStrobeTrailingEdge (dt : Nat) (strobe : Fin 4) (s : State) : Host.Outcome State Fault Refusal :=
  let s := s.tick dt
  .next (match tabGet (fun _ => none) s.tim.pulses strobe with
  | some p => if p.trail ≤ s.dev then s.strobeEnd strobe else s
  | none => s)

/-! ### Genlock -/

/-- `GENLOCK_CONFIG` (0x0905): the settings of one cadence and of the GENLOCK input. -/
def genlockConfig (k : Nat) (cfg rate phase gl : Word) (r : Req) (s : State) : Ans :=
  if cadBad cfg rate || !definedBits (R.TIM_CAD_CFG k) cfg || !definedBits R.TIM_GL_CFG gl then .done St.BAD_ARGUMENT [] s
  else stageAnswer r [(R.TIM_CAD_CFG k, cfg), (R.TIM_CAD_RATE k, rate), (R.TIM_CAD_PHASE k, phase), (R.TIM_GL_CFG, gl)] s

/-- The command `GENLOCK_CONFIG` (0x0905). -/
def execGenlockConfig (dt : Nat) (c : Call) (cad : Fin 4) (cfg rate phase gl : Word) (s : State) :
    Host.Outcome State Fault Refusal :=
  .next (kilel 0x0905 (fun _ _ => true) (genlockConfig cad cfg rate phase gl) dt c s)

/-- The cadences with REF GENLOCK. -/
def State.genCads (s : State) : List Nat := selIdx 4 (fun k => decide (s.fd (R.TIM_CAD_CFG k) 0 2 = 2))

/-- GENLOCK_EDGE: an edge of the GENLOCK pin, logged; one of the set polarity steers the cadences (R410, R414). -/
def execGenlockEdge (dt : Nat) (falling : Bool) (s : State) : Host.Outcome State Fault Refusal :=
  let s := s.tick dt
  let s := (s.timLog 2 (b2n falling * 4) 0 s.dev).2
  .next (if s.bt R.TIM_GL_CFG 0 = falling then s.genCads.foldl (fun s k => s.genEdge k s.dev) s else s)

/-- GENLOCK_EDGE_TIMEOUT: an edge a cadence waited for is missing (R410). -/
def execGenlockEdgeTimeout (dt : Nat) (cad : Fin 4) (s : State) : Host.Outcome State Fault Refusal :=
  let s := s.tick dt
  .next (if s.genCads.contains cad.val then s.genBad cad (s.gen cad) else s)

/-! ### Timecode -/

/-- The rate code of TIM_TC_CFG. -/
def State.tcCode (s : State) : Nat := s.fd R.TIM_TC_CFG 0 3

/-- `TIMECODE_SET` (R412, R413). -/
def timecodeSet (r : Req) (s : State) : Ans :=
  if r.f 4 0 1 = 1 then .done St.OK [] { s with tim := { s.tim with jam := true } }
  else
    match tcIndex s.tcCode (r.w 0).toNat with
    | none => .done St.BAD_ARGUMENT [] s
    | some n =>
      let t := r.f 1 0 30 + ((r.w 2).toNat + r.f 3 0 16 * 2 ^ 32) * 10 ^ 9
      let t := if t = 0 then s.dev else t
      .done St.OK [] { s with tim := { s.tim with tcBase := some (tcBaseFor s.tcCode n t) } }

/-- A device time argument has fewer than 10^9 ns; JAM uses none of words 0 to 3. -/
def timecodeArgs (r : Req) (_ : State) : Bool := decide (r.f 4 0 1 = 1) || decide (r.f 1 0 30 < 10 ^ 9)

/-- The command `TIMECODE_SET` (0x0906). -/
def execTimecodeSet (dt : Nat) (c : Call) (s : State) : Host.Outcome State Fault Refusal :=
  .next (kilel 0x0906 timecodeArgs timecodeSet dt c s)

/-- A new TC_BASE applies (R412). -/
def State.tcBaseTaken (s : State) : State :=
  match s.tim.tcBase with
  | some b => ({ s with tim := { s.tim with tcBase := none } }).setTcBase b
  | none => s

/-- TIMECODE_FRAME_START: a new TC_BASE applies, the LTC frame leaves (R412, R413). -/
def execTimecodeFrameStart (dt : Nat) (s : State) : Host.Outcome State Fault Refusal :=
  let s := s.tick dt
  let s := s.tcBaseTaken
  let n := tcFrame s.tcCode s.tcBase s.dev
  .next (if s.bt R.TIM_TC_CFG 3 then
      s.emit (.ltc (tcLabel s.tcCode (n % (tcDay s.tcCode : Nat)).toNat) (tcStart s.tcCode s.tcBase n).toNat)
    else s)

/-- A valid LTC frame, the `m`th of the day, with timecode `tc` (R413). -/
def State.ltcTaken (s : State) (m : Nat) (tc : Word) : State :=
  let s := (s.timLog 3 0 0 s.dev).2
  let s := { s with tim := { s.tim with ltcAt := some s.now, ltcLost := false } }
  let day : Int := (tcDay s.tcCode : Nat)
  let n := tcFrame s.tcCode s.tcBase s.dev
  let d := (m - n) % day
  let k := n + (if day < 2 * d then d - day else d)
  let diff := (s.dev : Int) - tcStart s.tcCode s.tcBase k
  let s := s.wrs [(R.TIM_LTC_IN, tc), (R.TIM_LTC_DIFF, w32 (unsx 32 (clampI (-(2 ^ 31)) (2 ^ 31 - 1) diff)))]
  if s.tim.jam then
    ({ s with tim := { s.tim with jam := false, tcBase := some (tcBaseFor s.tcCode m s.dev) } }).raise 0 0x0908 St.OK
      Src.TIM tc.toNat
  else s

/-- LTC_IN_FRAME: a valid frame with timecode `tc` starts now (R413). TIM_LTC_DIFF is against the own frame of the same label
that is nearest. -/
def execLtcInFrame (dt : Nat) (tc : Word) (s : State) : Host.Outcome State Fault Refusal :=
  let s := s.tick dt
  .next (match (if s.bt R.TIM_TC_CFG 4 then tcIndex s.tcCode tc.toNat else none) with
  | none => s
  | some m => s.ltcTaken m tc)

/-- Two frame periods passed since the last valid LTC frame (R413). -/
def State.ltcDue (s : State) : Bool :=
  let (num, den, _) := tcRate s.tcCode
  match s.tim.ltcAt with
  | some t => decide (2 * den * 10 ^ 9 ≤ (s.now - t) * num)
  | none => true

/-- LTC_IN_TIMEOUT: two frame periods passed without a valid frame (R413). -/
def execLtcInTimeout (dt : Nat) (s : State) : Host.Outcome State Fault Refusal :=
  let s := s.tick dt
  .next (if s.bt R.TIM_TC_CFG 4 && !s.tim.ltcLost && s.ltcDue then
      ({ s with tim := { s.tim with ltcLost := true } }).raise 0 0x0907 St.OK Src.TIM 0
    else s)

/-! ### Ethernet and PTP -/

/-- Ethernet port `port` is up: its quad runs as ETH and the PCS of its lane, 56 or 57, is locked (R135, Tables 5-1 and 5-5). -/
def State.ethUp (s : State) (port : Nat) : Bool :=
  decide (s.fd (R.LNA_QUAD_CFG 14) 0 2 = 3) && decide (s.laneSt (56 + port) = 5)

/-- A frame leaves by the other port, its correction field advanced by the residence (R400). -/
def State.ethForward (s : State) (port : Nat) (frame : List Byte) (residence : Nat) : State :=
  let q := 1 - port
  let profile := s.fd R.TIM_PTP_CFG 0 2
  let link := if profile = 2 && ptpType frame = some 0 then tabGet (fun _ => 0) s.tim.linkDelay port * 256 else 0
  let lat := (s.fd (R.TIM_PORT_LAT port) 0 16 + s.fd (R.TIM_PORT_LAT q) 16 16) * 65536
  s.emit (.eth q (addCorrection frame (residence + lat + link)))

/-- The forwarding path takes the frame: both ports up, no PAUSE, no Pdelay message, and not addressed to the port itself (R400). -/
def State.ethTakes (s : State) (port : Nat) (frame : List Byte) : Bool :=
  let profile := s.fd R.TIM_PTP_CFG 0 2
  let pause := decide (beNum ((frame.drop 12).take 4) = 0x88080001)
  let pdelay := profile = 2 && (ptpType frame = some 2 || ptpType frame = some 3 || ptpType frame = some 10)
  let mine := decide (beNum (frame.take 6) = (s.rd (R.TIM_ETH_MAC_LO port)).toNat + s.fd (R.TIM_ETH_MAC_HI port) 0 16 * 2 ^ 32)
  s.ethUp port && s.ethUp (1 - port) && s.bt R.TIM_PTP_CFG 5 && !pause && !pdelay && !mine

/-- ETH_FRAME_RECEIVED: a frame without error, FCS left out, is forwarded to the other port (R400). `residence`: departure
less arrival at the balls in 2^-16 ns; `busy`: the egress port has more than 64 KiB queued. -/
def execEthFrameReceived (dt : Nat) (port : Fin 2) (frame : List Byte) (residence : Nat) (busy : Bool) (s : State) :
    Host.Outcome State Fault Refusal :=
  let s := s.tick dt
  let q := 1 - port.val
  .next (if !s.ethTakes port frame then s
    else if busy then s.bump (R.TIM_PORT_CNT q) 16 16 1
    else s.ethForward port frame residence)

/-- PTP_MESSAGE_RECEIVED: a message for the ordinary clock (R398, R402). -/
def execPtpMessageReceived (dt : Nat) (port : Fin 2) (msg : PtpIn) (s : State) : Host.Outcome State Fault Refusal :=
  let s := s.tick dt
  let here := decide (s.fd R.TIM_PTP_CFG 3 1 = port.val)
  .next (if s.fd R.TIM_PTP_CFG 0 2 = 0 || !s.ethUp port then s
    else match msg with
    | .announce gm rank =>
      if !here then s
      else if rank.toNat * 2 ^ 64 + gm.toNat < s.ptpOwn || s.bt R.TIM_PTP_CFG 4 then
        let s := s.wrs [(R.TIM_PTP_GM_LO, w32 gm.toNat), (R.TIM_PTP_GM_HI, w32 (gm.toNat / 2 ^ 32))]
        if s.servo = 2 || s.servo = 3 then s else s.setServo 2
      else if s.servo = 5 then s else s.setServo 5
    | .offset off path =>
      if here then s.servoOffset (s.ptpCorrect port off path).1 (s.ptpCorrect port off path).2 else s
    | .linkDelay v =>
      { s with tim := { s.tim with linkDelay := tabSet (fun _ => 0) s.tim.linkDelay port (s.ptpCorrect port 0 v).2 } }
    | .other => s.bump (R.TIM_PORT_CNT port) 0 16 1)

/-- The clock sends messages of this type on this port (R398, R399, R402). -/
def State.ptpMay (s : State) (port type : Nat) : Bool :=
  let profile := s.fd R.TIM_PTP_CFG 0 2
  let here := decide (s.fd R.TIM_PTP_CFG 3 1 = port)
  decide (profile ≠ 0) && s.ethUp port && (match type with
    | 0 => here && s.servo = 5
    | 1 => here && decide (profile ≠ 2) && decide (2 ≤ s.servo) && decide (s.servo ≤ 4)
    | _ => profile = 2 && (here || s.bt R.TIM_PTP_CFG 5))

/-- PTP_MESSAGE_TRANSMIT: Sync, Delay_Req, Pdelay_Req or Pdelay_Resp leaves one-step (R399). `turn`: the turnaround time of
a Pdelay_Resp in ns. -/
def execPtpMessageTransmit (dt : Nat) (port : Fin 2) (type : Fin 4) (turn : Nat) (s : State) :
    Host.Outcome State Fault Refusal :=
  let s := s.tick dt
  .next (if s.ptpMay port type.val then
      s.emit (.ptp port type (if type.val = 3 then 0 else s.dev + s.fd (R.TIM_PORT_LAT port) 16 16)
        (if type.val = 3 then turn else 0))
    else s)

/-- ANNOUNCE_RECEIPT_TIMEOUT (R402): LOCKED goes to HOLDOVER; a clock that is not locked listens, or transmits when it may. -/
def execAnnounceReceiptTimeout (dt : Nat) (s : State) : Host.Outcome State Fault Refusal :=
  let s := s.tick dt
  .next (match s.servo with
  | 3 => s.setServo 4
  | 1 | 2 => if s.bt R.TIM_PTP_CFG 4 then s.setServo 1 else s.setServo 5
  | _ => s)

end Sys2Proof.Machine
end

