-- ==== Sys2Proof/Machine/VcdOps.lean ====
section
/-!
DEFINITION. Shared operations of the video coder (R347 to R367): levels, the reference pool, packets, the start and the
end of a picture, scheduling, and the end of a session; and its commit checks (R360).
-/

set_option Elab.async false

namespace Sys2Proof.Machine

/-! ### Levels (R347, R351; ITU-T H.265 Annex A) -/

/-- One level: general_level_idc, MaxLumaPs, MaxLumaSr, MaxCPB and MaxBR of the Main and the High tier (0: no High tier). -/
structure Level where
  idc : Nat
  ps : Nat
  sr : Nat
  cpbMain : Nat
  cpbHigh : Nat
  brMain : Nat
  brHigh : Nat
deriving DecidableEq, Repr

/-- Levels up to 6.1 (log entry 19). -/
def vcLevels : List Level := [
  ⟨30, 36864, 552960, 350, 0, 128, 0⟩, ⟨60, 122880, 3686400, 1500, 0, 1500, 0⟩,
  ⟨63, 245760, 7372800, 3000, 0, 3000, 0⟩, ⟨90, 552960, 16588800, 6000, 0, 6000, 0⟩,
  ⟨93, 983040, 33177600, 10000, 0, 10000, 0⟩, ⟨120, 2228224, 66846720, 12000, 30000, 12000, 30000⟩,
  ⟨123, 2228224, 133693440, 20000, 50000, 20000, 50000⟩, ⟨150, 8912896, 267386880, 25000, 100000, 25000, 100000⟩,
  ⟨153, 8912896, 534773760, 40000, 160000, 40000, 160000⟩, ⟨156, 8912896, 1069547520, 60000, 240000, 60000, 240000⟩,
  ⟨180, 35651584, 1069547520, 60000, 240000, 60000, 240000⟩, ⟨183, 35651584, 2139095040, 120000, 480000, 120000, 480000⟩]

/-- The level of an idc. -/
def vcLevel (idc : Nat) : Option Level := vcLevels.find? (fun l => l.idc = idc)

/-- CpbVclFactor and BrVclFactor of a profile (log entry 19). -/
def vclFactor (profile : Nat) : Nat := if profile = 2 then 1667 else 1000

/-! ### Sessions and the pool -/

/-- Session `q`. -/
def State.vc (s : State) (q : Nat) : Option VcSession := tabGet (fun _ => none) s.vcd.ses q

/-- The open sessions. -/
def State.vcIds (s : State) : List Nat := selIdx 64 (fun q => (s.vc q).isSome)

/-- R_BYTES of R360 for a largest picture of a profile. -/
def refBytes (profile maxW maxH : Nat) : Nat :=
  let w8 := (maxW + 7) / 8 * 8
  let h8 := (maxH + 7) / 8 * 8
  let b := if profile = 0 then 1 else 2
  w8 * h8 * b * (if profile = 2 then 4 else 3) / 2 + 16 * ceilDiv maxW 16 * ceilDiv maxH 16

/-- Size of a pool buffer (R360). -/
def State.poolBytes (s : State) : Nat := s.fd R.VCD_POOL_CFG 0 9 * 2 ^ 20

/-- K of R360 for a largest picture of a profile. -/
def State.vcK (s : State) (profile maxW maxH : Nat) : Nat := ceilDiv (refBytes profile maxW maxH) s.poolBytes

/-- Pool buffers that a session holds. -/
def VcSession.bufs (x : VcSession) : Nat := x.pool.length

/-- Buffers of the pool that some session holds. -/
def State.poolHeld (s : State) : List Nat := s.vcIds.flatMap (fun q => match s.vc q with | some x => x.pool | none => [])

/-- Buffers of the pool that nobody holds, the lowest first. -/
def State.poolFree (s : State) : List Nat :=
  (List.range (s.fd R.VCD_POOL_CFG 16 10)).filter (fun b => !s.poolHeld.contains b)

/-- How many buffers of the pool nobody holds. -/
def State.vcFree (s : State) : Nat := s.poolFree.length

/-- The live reservation in samples a second × 1000 (R351). -/
def State.vcResv (s : State) : Nat :=
  (s.vcIds.map (fun q => match s.vc q with | some x => if x.live then x.maxW * x.maxH * x.rate else 0 | none => 0)).sum

/-- References that session `x` holds. -/
def VcSession.refCount (x : VcSession) : Nat := if x.dec then x.decRefs else x.refs.length

/-- The buffers of session `x` that hold references or the picture being coded; a decode session keeps `k` for each in the order
of its buffers, with the picture being decoded (`busy`) after the references (log entry 82). -/
def VcSession.usedBufs (x : VcSession) (k : Nat) (busy : Bool) : List Nat :=
  if x.dec then x.pool.take (k * (x.decRefs + b2n busy))
  else x.refs.flatMap (·.bufs) ++ (match x.cur with | some p => p.bufs | none => [])

/-- The `k` buffers that the next picture of session `x` goes into. -/
def VcSession.nextBufs (x : VcSession) (k : Nat) : List Nat :=
  (x.pool.filter (fun b => !(x.usedBufs k false).contains b)).take k

/-- Where bytes `lo` to `hi` of a picture in the pool buffers `bufs` lie. -/
def State.poolSpans (s : State) (bufs : List Nat) (lo hi : Nat) : List (Nat × Nat) :=
  let m := s.poolBytes
  let base := s.cfAddr s.ep.epoch R.VCD_POOL_ADDR_LO R.VCD_POOL_ADDR_HI
  (List.range bufs.length).map (fun j =>
    let a := max lo (j * m)
    (base + nth bufs j * m + (a - j * m), min hi ((j + 1) * m) - a))

/-- The registers of the pool and of partition `p` as the sessions stand. -/
def State.vcPoolRegs (s : State) (p : Nat) : State :=
  let held := (s.vcIds.map (fun q => match s.vc q with
    | some x => if s.ctxOwner x.ctx = some p then x.bufs else 0
    | none => 0)).sum
  ((s.wr R.VCD_POOL_FREE (w32 s.vcFree)).wr R.VCD_ENC_RESV (w32 (unitsUp s.vcResv (10 ^ 9) 11))).wrF
    (R.PART_POOL_USED p) 0 8 (min 255 held)

/-- Session `q` replaced, with its registers (Table 13-10). -/
def State.setVc (s : State) (q : Nat) (x : VcSession) : State :=
  let s := { s with vcd := { s.vcd with ses := tabSet (fun _ => none) s.vcd.ses q (some x) } }
  let run := x.cur.isSome || decide (s.vcd.dec = some q)
  s.wrs [
    (R.VCD_SES_STAT q, w32 ((if x.closing then 2 else 1) + b2n x.dec * 4 + b2n x.live * 8 + x.scaler * 16 + x.ctx * 256 +
      (s.ctxOwner x.ctx).getD 0 * 2 ^ 20)),
    (R.VCD_SES_BUFS q, w32 (x.bufs + x.refCount * 65536)),
    (R.VCD_SES_JOBS q, w32 ((if x.live then x.queue.length else x.jobs.length) + b2n run * 32))]

/-- Busy intervals of the last 100 ms. -/
def busyKeep (l : List (Nat × Option Nat)) (now : Nat) : List (Nat × Option Nat) :=
  l.filter (fun e => match e.2 with | some t => decide (now < t + 10 ^ 8) | none => true)

/-- The busy interval that is open ends now. -/
def busyEnd (l : List (Nat × Option Nat)) (now : Nat) : List (Nat × Option Nat) :=
  busyKeep (l.map (fun e => if e.2.isNone then (e.1, some now) else e)) now

/-- The encode engine lets go of session `q`, if it has it. -/
def State.encFree (s : State) (q : Nat) : State :=
  if s.vcd.enc = some q then { s with vcd := { s.vcd with enc := none, encBusy := busyEnd s.vcd.encBusy s.now } } else s

/-- The decode engine lets go of session `q`, if it has it. -/
def State.decFree (s : State) (q : Nat) : State :=
  if s.vcd.dec = some q then { s with vcd := { s.vcd with dec := none, decBusy := busyEnd s.vcd.decBusy s.now } } else s

/-- Session `q` is gone: its registers read 0, its buffers are free (R359). -/
def State.vcGone (s : State) (q : Nat) : State :=
  match s.vc q with
  | none => s
  | some x =>
    let s := (s.encFree q).decFree q
    let s := { s with vcd := { s.vcd with ses := tabSet (fun _ => none) s.vcd.ses q none
                                          pend := s.vcd.pend.filter (fun o => o.session ≠ q) } }
    (s.regClear (R.VCD_SES_STAT q) (R.VCD_SES_STAT (q + 1))).vcPoolRegs ((s.ctxOwner x.ctx).getD 0)

/-- An event of session `q`. -/
def State.vcEvent (s : State) (q code status arg : Nat) : State :=
  match s.vc q with
  | some x => s.raise x.ctx code status Src.VCD arg
  | none => s

/-- An event of session `q` about its picture of frame `no` and epoch `e` (R40). -/
def State.vcPicEvent (s : State) (q e no code arg : Nat) : State :=
  match s.vc q with
  | some x => s.raiseOf e no x.ctx code St.OK Src.VCD arg
  | none => s

/-- VC_JOB_DONE (R357). -/
def State.vcJobDone (s : State) (q tag status : Nat) : State := s.vcEvent q 0x0701 status (tag + q * 65536)

/-- A session named by partition `p`: open, and its context belongs to `p` (log entry 18). -/
def State.vcNamed (s : State) (p q : Nat) : Option VcSession :=
  match s.vc q with
  | some x => if s.owns p x.ctx then some x else none
  | none => none

/-! ### Packets -/

/-- A coded packet (Table 13-5). -/
def State.vcPacket (s : State) (q : Nat) (x : VcSession) (frame epoch flags kind pflags poc first rows qp : Nat)
    (payload : List Byte) : State :=
  let bs := tagBytes s.dev epoch x.ctx Kind.coder frame Src.VCD flags ++ leBytes 4 (48 + payload.length) ++ leBytes 1 q ++
    leBytes 1 kind ++ leBytes 2 pflags ++ leBytes 4 poc ++ leBytes 2 first ++ leBytes 2 rows ++ leBytes 1 qp ++
    leBytes 7 0 ++ payload
  s.stage { ring := x.ring, kind := 5, epoch := epoch, ctx := x.ring / 4, known := decide (3 ≤ kind) } bs

/-! ### References -/

/-- Marks accepted before now are applied, in order (R362). -/
def VcSession.applyMarks (x : VcSession) (now : Nat) : VcSession :=
  let ms := x.marks.filter (fun m => decide (m.at_ < now))
  let refs := ms.foldl (fun (r : List VcRef) m =>
    if m.mark = 2 then r.filter (fun y => y.poc ≠ m.poc)
    else r.map (fun y => if y.poc = m.poc then { y with long := decide (m.mark = 1) } else y)) x.refs
  { x with refs := refs, marks := x.marks.filter (fun m => decide (now ≤ m.at_)) }

/-- References an encode session may keep (R361). -/
def State.vcMaxRefs (s : State) (x : VcSession) : Nat :=
  let k := s.vcK x.profile x.maxW x.maxH
  min x.numRef ((if k = 0 then 0 else x.bufs / k) - 1)

/-- The picture becomes a reference; the oldest SHORT one makes room (R362). -/
def VcSession.addRef (x : VcSession) (p : VcPic) (max_ : Nat) : VcSession :=
  let refs := if x.refs.length < max_ then x.refs
    else match x.refs.find? (fun r => !r.long) with
      | some r => x.refs.erase r
      | none => x.refs
  if refs.length < max_ then { x with refs := refs ++ [{ poc := p.poc, long := false, bufs := p.bufs }] } else { x with refs := refs }

/-! ### Pictures -/

/-- CTB rows of a height, and rows per slice. -/
def VcSession.rows (x : VcSession) (h : Nat) : Nat × Nat :=
  let n := ceilDiv h 64
  (n, if x.sliceRows = 0 then n else x.sliceRows)

/-- A live picture that is not taken (R353, R362): counted, with an event for the first of a run. -/
def State.vcSkip (s : State) (q reason e no : Nat) : State :=
  match s.vc q with
  | none => s
  | some x =>
    let s := (s.bump (R.VCD_SES_SKIP q) 0 32 1).setVc q { x with skipRun := true, skipped := true }
    if x.skipRun then s else s.vcPicEvent q e no 0x0702 (q + reason * 65536)

/-- The scaler buffer of a live picture is released. -/
def State.vcRelease (s : State) (q : Nat) (p : VcPic) : State :=
  match p.buf with
  | some (sc, b) => s.release { sc := sc, buf := b, who := 1, what := q }
  | none => s

/-- The current picture of session `q` is over, without becoming a reference. -/
def State.vcDrop (s : State) (q status : Nat) : State :=
  match s.vc q with
  | none => s
  | some x =>
    match x.cur with
    | none => s
    | some p =>
      let s := s.setVc q { x with cur := none, jobs := match p.tag with | some _ => x.jobs.drop 1 | none => x.jobs }
      let s := s.vcRelease q p
      match p.tag with
      | some t => s.vcJobDone q t status
      | none => s

/-- The picture `p` starts to be coded as the next of session `q`: marks, the IDR rule (R354, R362), the reference slots.
Answers the session with it as current, or why it cannot be coded: a status for offline jobs, reason 5 when live. -/
def State.vcStart (s : State) (x : VcSession) (p : VcPic) : Option VcSession :=
  let x := x.applyMarks s.now
  let g := (p.w, p.h, p.fmt, p.mtx, p.full)
  let max_ := s.vcMaxRefs x
  let idr := x.refs.isEmpty || decide (x.geom ≠ some g) ||
    (match x.sinceIdr with
     | none => true
     | some n => decide (x.gopLen ≠ 0) && decide (x.gopLen ≤ n))
  let refs := if idr then [] else x.refs
  if !idr && decide (max_ ≤ refs.length) && refs.all (·.long) then none
  else
    let p := { p with idr := idr, skipBefore := x.skipped, bufs := { x with refs := refs }.nextBufs (s.vcK x.profile x.maxW x.maxH)
                      undo := { refs := x.refs, geom := x.geom, sinceIdr := x.sinceIdr, skipped := x.skipped } }
    some { x with refs := refs, geom := some g, cur := some p, skipped := false
                  sinceIdr := some (if idr then 1 else x.sinceIdr.getD 0 + 1) }

/-- The session without the start of its current picture, whose job did not start after all (R358). -/
def VcSession.unstart (x : VcSession) : VcSession :=
  match x.cur with
  | none => x
  | some p => { x with cur := none, refs := p.undo.refs, geom := p.undo.geom, sinceIdr := p.undo.sinceIdr
                       skipped := p.undo.skipped, poc := p.poc }

/-- The input of an offline encode job: the record of its buffer, and whether the session can code it. -/
def State.vcInput (s : State) (x : VcSession) (j : VcJob) : Option VcPic :=
  let a := j.inAddr
  let w := s.num (a + 0x1C) 2
  let h := s.num (a + 0x1E) 2
  let fmt := s.num (a + 0x18) 1 / 32
  let ok := (fmt = 3 || (fmt = 2 && x.profile = 2)) && decide (w ≤ x.maxW) && decide (h ≤ x.maxH) && decide (64 ≤ w) &&
    decide (64 ≤ h)
  let epoch := s.num (a + 4) 4
  let m := minStride fmt w
  if ok then
    some { frame := s.num (a + 16) 5, epoch := epoch, flags := s.num (a + 22) 2, poc := x.poc, w := w, h := h, fmt := fmt
           mtx := false, full := false, buf := none, tag := some j.tag, addr := a
           strideY := (m.1 + 255) / 256 * 256, strideC := (m.2 + 255) / 256 * 256 }
  else none

/-! ### Scheduling (R355) -/

/-- PRIO of a context. -/
def State.prio (s : State) (c : Nat) : Nat := s.fd (R.CTX_ENT_IRQ c) 12 3

/-- The deadline of the next slice of a live session that has one. -/
def VcSession.due (x : VcSession) : Option Nat :=
  if !x.live then none
  else match x.cur with
    | some p => some p.deadline
    | none => (x.queue.head?).map (·.deadline)

/-- Offline sessions with a job, best first by R355: does `a` go before `b`? -/
def State.vcBefore (s : State) (a b : VcSession) : Bool :=
  let o := fun (x : VcSession) => match x.jobs with | j :: _ => j.ord | [] => 0
  if s.prio a.ctx ≠ s.prio b.ctx then decide (s.prio b.ctx < s.prio a.ctx)
  else if a.ctx ≠ b.ctx then decide (a.ctx < b.ctx) else decide (o a < o b)

/-- The best of some sessions. -/
def State.vcBest (s : State) (qs : List Nat) : Option Nat :=
  qs.foldl (fun (b : Option Nat) q => match b with
    | none => some q
    | some r => match s.vc r, s.vc q with
      | some x, some y => if s.vcBefore y x then some q else some r
      | _, _ => some r) none

/-- The session whose slice the encode engine takes next: the live one with the earliest deadline (the lowest session of
equal ones), else an offline one in the order of R355 unless throttling holds (R485). -/
def State.vcNext (s : State) : Option Nat :=
  let due := s.vcIds.filterMap (fun q => match s.vc q with
    | some x => if s.serves Src.VCD x.ctx then (x.due).map (fun d => (q, d)) else none
    | none => none)
  match due.foldl (fun (b : Option (Nat × Nat)) e => match b with
      | none => some e
      | some m => if e.2 < m.2 then some e else some m) none with
  | some (q, _) => some q
  | none =>
    if s.throttled then none
    else s.vcBest (s.vcIds.filter (fun q => match s.vc q with
      | some x => !x.dec && !x.live && !x.jobs.isEmpty && s.serves Src.VCD x.ctx
      | none => false))

/-- The encode engine is given its next slice; `n` bounds the pictures that turn out not to start. -/
def State.vcPick (s : State) : Nat → State
  | 0 => s
  | n + 1 =>
    match s.vcNext with
    | none => s
    | some q =>
      let go := fun (s : State) => { s with vcd := { s.vcd with enc := some q
                                                                encBusy := busyKeep s.vcd.encBusy s.now ++ [(s.now, none)] } }
      match s.vc q with
      | none => s
      | some x =>
        if x.cur.isSome then go s
        else if x.live then
          match x.queue with
          | [] => s
          | p :: rest =>
            match s.vcStart { x with queue := rest } p with
            | some x' => go (s.setVc q x')
            | none => (((s.setVc q { x with queue := rest }).vcRelease q p).vcSkip q 5 p.epoch p.frame).vcPick n
        else match x.jobs with
          | [] => s
          | j :: _ =>
            let fail := fun (s : State) st => (s.setVc q { x with jobs := x.jobs.drop 1 }).vcJobDone q j.tag st
            let started := { x with poc := x.poc + 1, jobs := { j with startAt := some s.now } :: x.jobs.drop 1 }
            if x.bufs < 2 * s.vcK x.profile x.maxW x.maxH then (fail s St.POOL_EMPTY).vcPick n
            else match s.vcInput x j with
              | none => (fail s St.INVALID_CONFIG).vcPick n
              | some p =>
                match s.vcStart started p with
                | some x' => go (s.setVc q x')
                | none => (fail s St.STATE_CONFLICT).vcPick n

/-! ### Closing -/

/-- A closing session with nothing left to code writes EOS, and is gone (R359). -/
def State.vcTryClose (s : State) (q : Nat) : State :=
  match s.vc q with
  | none => s
  | some x =>
    if !x.closing || x.cur.isSome || !x.jobs.isEmpty || decide (s.vcd.dec = some q) then s
    else
      let s := if x.dec then s else s.vcPacket q x x.lastFrame x.lastEpoch 0 4 0 x.poc 0 0 0 []
      let ctx := x.ctx
      (s.vcGone q).raise ctx 0x0703 St.OK Src.VCD q

/-- Jobs of session `q` that have not started complete with a status; live pictures that wait are let go. -/
def State.vcFlush (s : State) (q status : Nat) : State :=
  match s.vc q with
  | none => s
  | some x =>
    let started := fun (j : VcJob) => j.startAt.isSome && decide (j.startAt ≠ some s.now)
    let s := { s with vcd := { s.vcd with pend := s.vcd.pend.filter (fun o => o.session ≠ q) } }
    let now := s.now
    let fresh := x.jobs.any (fun j => decide (j.startAt = some now))
    let s := if fresh then (s.encFree q).decFree q else s
    let y := if fresh then x.unstart else x
    let s := s.setVc q { y with jobs := x.jobs.filter started, queue := [] }
    let s := x.queue.foldl (fun s p => s.vcRelease q p) s
    (x.jobs.filter (fun j => !started j)).foldl (fun s j => s.vcJobDone q j.tag status) s

/-- Every job and the current picture are marked to stop at the next slice boundary. -/
def VcSession.abortAll (x : VcSession) : VcSession :=
  { x with jobs := x.jobs.map (fun j => { j with abort := true }), cur := x.cur.map (fun p => { p with abort := true }) }

/-- Running work of session `q` stops at its next slice boundary; a picture that no slice is coded of stops at once. -/
def State.vcStop (s : State) (q : Nat) : State :=
  match s.vc q with
  | none => s
  | some x =>
    let s := s.setVc q x.abortAll
    if x.cur.isSome && decide (s.vcd.enc ≠ some q) then s.vcDrop q St.ABORTED else s

/-- Step 2 and 3 of R103 for the sessions of the contexts `cs` (R359). -/
def State.vcReset (s : State) (cs : List Nat) : State :=
  (s.vcIds.filter (fun q => match s.vc q with | some x => cs.contains x.ctx | none => false)).foldl
    (fun s q => (s.vcFlush q St.RESET_DISCARDED).vcStop q) s

/-- A slice or a decode job of the contexts `cs` is still in an engine. -/
def State.vcBusy (s : State) (cs : List Nat) : Bool :=
  [s.vcd.enc, s.vcd.dec].any (fun e => match e with
    | some q => match s.vc q with | some x => cs.contains x.ctx | none => false
    | none => false)

/-- Step 5 of R103: the sessions are gone and their buffers free. -/
def State.vcFreeCtx (s : State) (cs : List Nat) : State :=
  (s.vcIds.filter (fun q => match s.vc q with | some x => cs.contains x.ctx | none => false)).foldl
    (fun s q =>
      let s := match s.vc q with
        | some x => match x.cur with | some p => s.vcRelease q p | none => s
        | none => s
      s.vcGone q) s

/-! ### A scaler's output reaches the live sessions -/

/-- The scaler wrote an output record: every open live session of that scaler will look at it, and its POC advances
(R352, R353). -/
def State.vcOutput (s : State) (o : Nat) (b : OutBuf) (mtx full dest : Bool) : State :=
  s.vcIds.foldl (fun s q => match s.vc q with
    | none => s
    | some x =>
      if x.live && decide (x.scaler = o) && !x.closing then
        let v : VcOut := { session := q, out := b, mtx := mtx, full := full, dest := dest, poc := x.poc, sc := o }
        { s.setVc q { x with poc := (x.poc + 1) % 2 ^ 32 } with vcd := { (s.setVc q { x with poc := (x.poc + 1) % 2 ^ 32 }).vcd with
            pend := s.vcd.pend ++ [v] } }
      else s) s

/-! ### Commit checks (R360) -/

/-- The video-coder checks. -/
def State.chkVcd (s : State) (es own : Over) : Option (Nat × Nat) :=
  let a := s.oAddr es R.VCD_POOL_ADDR_LO R.VCD_POOL_ADDR_HI
  let n := s.of es R.VCD_POOL_CFG 16 10
  let mib := s.of es R.VCD_POOL_CFG 0 9
  let held := s.vcIds.any (fun q => match s.vc q with | some x => decide (x.bufs ≠ 0) | none => false)
  let changes := own.any (fun e => (decide (e.1 = R.VCD_POOL_CFG) || decide (e.1 = R.VCD_POOL_ADDR_LO) ||
    decide (e.1 = R.VCD_POOL_ADDR_HI)) && decide (e.2 ≠ s.rd e.1))
  if decide (512 < n) || decide (mib = 0) || decide (256 < mib) then some (0, 0)
  else refuse1 R.VCD_REJ_CAUSE [
    (decide (n ≠ 0) && (decide (a % 4096 ≠ 0) || !s.inPart 0 a (n * mib * 0x100000)), 1),
    (held && changes, 2)]

end Sys2Proof.Machine
end

