-- ==== Sys2Proof/Machine/Vcd.lean ====
section
/-!
DEFINITION. The video coder's commands (chapter 13). The coding of H.265 itself is the engines' own: what a slice or a
decode job yields comes with `VC_SLICE_BOUNDARY` and `VC_DECODE_DONE` (log entry 20).
-/

set_option Elab.async false

namespace Sys2Proof.Machine

/-! ### Sessions -/

/-- Bytes of the ROI map (R365). -/
def roiBytes (w h : Nat) : Nat := ceilDiv w 64 * ceilDiv h 64

/-- The argument checks of `VC_SESSION_OPEN` (first row of Table 13-3). -/
def vcOpenArgs (r : Req) (s : State) : Bool :=
  let dec := bit (r.w 0) 0
  let live := bit (r.w 0) 1
  let profile := r.f 0 8 2
  let side := fun n => decide (n % 2 = 0) && decide (64 ≤ n) && decide (n ≤ 8192)
  let level := match vcLevel (r.f 0 16 8) with
    | some l => r.f 0 10 1 = 0 || decide (l.brHigh ≠ 0)
    | none => false
  level && side (r.f 1 0 16) && side (r.f 1 16 16) &&
    (if dec then !live && decide (r.f 0 2 3 = 0) && (List.range 8).all (fun i => decide (r.w (2 + i) = 0))
     else
       decide (profile ≤ 2) && decide (r.f 3 0 2 ≤ 2) && decide (r.f 3 2 6 ≤ 51) && decide (1 ≤ r.f 3 8 3) &&
       decide (r.f 3 8 3 ≤ 4) && decide (10 ≤ r.f 6 0 16) && decide (r.f 6 0 16 ≤ 10000) &&
       (!live || (decide (r.w 2 ≠ 0) && decide (s.resOwner (r.f 0 2 3) = r.part))) &&
       decide (r.f 4 16 16 / 4 = r.ctx) && s.bindOk r.part (r.f 4 16 16) false &&
       (!bit (r.w 4) 8 || (decide (r.addr 8 % 4096 = 0) && s.inPart r.part (r.addr 8) (roiBytes (r.f 1 0 16) (r.f 1 16 16)))))

/-- The session that the arguments of `VC_SESSION_OPEN` describe. -/
def vcSession (r : Req) : VcSession :=
  { ctx := r.ctx, dec := bit (r.w 0) 0, live := bit (r.w 0) 1, scaler := r.f 0 2 3, profile := r.f 0 8 2, maxW := r.f 1 0 16
    maxH := r.f 1 16 16, rate := (r.w 2).toNat, numRef := r.f 3 8 3, gopLen := r.f 3 16 10, sliceRows := r.f 4 0 8
    statsEn := bit (r.w 4) 9, ring := r.f 4 16 16, config := r.pay }

/-- The cause of Table 13-3 for which a session of level `l` is refused. -/
def State.vcRefusal (s : State) (r : Req) (l : Level) : Option Nat :=
  let dec := bit (r.w 0) 0
  let live := bit (r.w 0) 1
  let w := r.f 1 0 16
  let h := r.f 1 16 16
  let rate := (r.w 2).toNat
  let high := r.f 0 10 1 = 1
  let br := (if high then l.brHigh else l.brMain) * vclFactor (r.f 0 8 2)
  let cpb := (if high then l.cpbHigh else l.cpbMain) * vclFactor (r.f 0 8 2)
  let top := if r.f 3 0 2 = 2 then (r.w 7).toNat else (r.w 5).toNat
  if live && decide (2 * 10 ^ 12 < s.vcResv + w * h * rate) then some 3
  else if decide (l.ps < w * h) || (live && decide (l.sr * 1000 < w * h * rate)) then some 4
  else if !dec && (decide (br < (r.w 5).toNat * 1000) || decide (br < (r.w 7).toNat * 1000) ||
      decide (cpb < r.f 6 0 16 * top)) then some 5
  else none

/-- `VC_SESSION_OPEN` (R350, R351). Which free session it gets the spec leaves open. -/
def vcOpen (r : Req) (s : State) : Ans :=
  let free := selIdx 64 (fun q => (s.vc q).isNone)
  match vcLevel (r.f 0 16 8) with
  | none => .done St.BAD_ARGUMENT [] s
  | some l =>
    if free.isEmpty then .done St.QUEUE_FULL [] s
    else match s.vcRefusal r l with
    | some cause => .done St.INVALID_CONFIG [] (s.wr R.VCD_REJ_CAUSE (w32 cause))
    | none =>
      let (v, s) := s.fresh
      let q := nth free (v % free.length)
      .done St.OK [w32 q, w32 (s.vcK (r.f 0 8 2) (r.f 1 0 16) (r.f 1 16 16))] ((s.setVc q (vcSession r)).vcPoolRegs r.part)

/-- The command `VC_SESSION_OPEN` (0x0701). -/
def execVcSessionOpen (dt : Nat) (c : Call) (s : State) : Host.Outcome State Fault Refusal :=
  .next (kilel 0x0701 vcOpenArgs vcOpen dt c s)

/-- Session `q` begins to close: what waits ends ABORTED_NOT_STARTED, running jobs are told to stop. -/
def State.vcShut (s : State) (q : Nat) (x : VcSession) : State :=
  let s := (s.setVc q { x with closing := true }).vcFlush q St.ABORTED_NOT_STARTED
  let s := match s.vc q with
    | some x => if x.live then s
      else s.setVc q x.abortAll
    | none => s
  s.vcTryClose q

/-- `VC_SESSION_CLOSE` (R359). -/
def vcClose (q : Nat) (r : Req) (s : State) : Ans :=
  match s.vcNamed r.part q with
  | none => .done St.BAD_ARGUMENT [] s
  | some x => if x.closing then .done St.STATE_CONFLICT [] s else .done St.OK [] (s.vcShut q x)

/-- The command `VC_SESSION_CLOSE` (0x0702). -/
def execVcSessionClose (dt : Nat) (c : Call) (session : Fin 64) (s : State) : Host.Outcome State Fault Refusal :=
  .next (kilel 0x0702 (fun _ _ => true) (vcClose session) dt c s)

/-! ### Offline jobs -/

/-- Bytes of an encode job's input buffer: header, then the planes at the least strides rounded up to 256 (log entry 21). -/
def State.vcInBytes (s : State) (a : Nat) : Nat :=
  let w := s.num (a + 0x1C) 2
  let h := s.num (a + 0x1E) 2
  let fmt := s.num (a + 0x18) 1 / 32
  let m := minStride fmt w
  (planeOffsets (planeShapes fmt h ((m.1 + 255) / 256 * 256) ((m.2 + 255) / 256 * 256))).2

/-- The buffers of a job lie in the caller's memory, with the alignments of a decode job (R357). -/
def State.vcWithin (s : State) (dec : Bool) (r : Req) : Bool :=
  let a := r.addr 1
  if dec then
    s.inPart r.part a (r.w 3).toNat && s.inPart r.part (r.addr 4) (r.w 6).toNat && decide (r.addr 4 % 4096 = 0) &&
      decide (r.f 7 0 16 % 256 = 0) && decide (r.f 7 16 16 % 256 = 0)
  else s.inPart r.part a 4096 && s.inPart r.part a (s.vcInBytes a)

/-- The job that a request describes, queued for session `q`. -/
def State.vcAdd (s : State) (q : Nat) (x : VcSession) (r : Req) : State :=
  let j : VcJob := { tag := r.f 0 16 16, inAddr := r.addr 1, inLen := (r.w 3).toNat, outAddr := r.addr 4
                     outLen := (r.w 6).toNat, strideY := r.f 7 0 16, strideC := r.f 7 16 16, ord := s.vcd.ord }
  ({ s with vcd := { s.vcd with ord := s.vcd.ord + 1 } }).setVc q { x with jobs := x.jobs ++ [j] }

/-- A job is queued (R357): `dec` says which of the two opcodes it is. -/
def vcJob (dec : Bool) (r : Req) (s : State) : Ans :=
  let q := r.f 0 0 6
  match s.vcNamed r.part q with
  | none => .done St.BAD_ARGUMENT [] s
  | some x =>
    if !s.vcWithin dec r || (!x.live && x.dec ≠ dec) then .done St.BAD_ARGUMENT [] s
    else if x.live || x.closing then .done St.STATE_CONFLICT [] s
    else if 16 ≤ x.jobs.length then .done St.QUEUE_FULL [] s
    else .done St.OK [] (s.vcAdd q x r)

/-- The command `VC_ENCODE` (0x0703). -/
def execVcEncode (dt : Nat) (c : Call) (s : State) : Host.Outcome State Fault Refusal :=
  .next (kilel 0x0703 (fun _ _ => true) (vcJob false) dt c s)

/-- The command `VC_DECODE` (0x0704). -/
def execVcDecode (dt : Nat) (c : Call) (s : State) : Host.Outcome State Fault Refusal :=
  .next (kilel 0x0704 (fun _ _ => true) (vcJob true) dt c s)

/-- Pool buffers that the sessions of partition `p` hold (R361). -/
def State.vcHeld (s : State) (p : Nat) : Nat :=
  (s.vcIds.map (fun q => match s.vc q with
    | some y => if s.ctxOwner y.ctx = some p then y.bufs else 0
    | none => 0)).sum

/-- `VC_POOL_ALLOC` (R361). -/
def vcPoolAlloc (r : Req) (s : State) : Ans :=
  let q := r.f 0 0 6
  let n := sx 16 (r.f 0 16 16)
  match s.vcNamed r.part q with
  | none => .done St.BAD_ARGUMENT [] s
  | some x =>
    let k := s.vcK x.profile x.maxW x.maxH
    let busy := x.cur.isSome || decide (s.vcd.dec = some q)
    if 0 ≤ n then
      if s.fd (R.PART_POOL_QUOTA r.part) 0 8 < s.vcHeld r.part + n.toNat && decide (n ≠ 0) then .done St.QUOTA_EXCEEDED [] s
      else if s.vcFree < n.toNat then .done St.POOL_EMPTY [] s
      else .done St.OK [] ((s.setVc q { x with pool := x.pool ++ s.poolFree.take n.toNat }).vcPoolRegs r.part)
    else
      let idle := x.pool.filter (fun b => !(x.usedBufs k busy).contains b)
      if idle.length < (-n).toNat then .done St.STATE_CONFLICT [] s
      else
        let gone := idle.take (-n).toNat
        .done St.OK [] ((s.setVc q { x with pool := x.pool.filter (fun b => !gone.contains b) }).vcPoolRegs r.part)

/-- The command `VC_POOL_ALLOC` (0x0705). -/
def execVcPoolAlloc (dt : Nat) (c : Call) (s : State) : Host.Outcome State Fault Refusal :=
  .next (kilel 0x0705 (fun _ _ => true) vcPoolAlloc dt c s)

/-- `VC_MARK` (R362): kept until a picture's coding starts after now. -/
def vcMark (q poc mark : Nat) (r : Req) (s : State) : Ans :=
  match s.vcNamed r.part q with
  | none => .done St.BAD_ARGUMENT [] s
  | some x =>
    if x.dec then .done St.BAD_ARGUMENT [] s
    else .done St.OK [] (s.setVc q { x with marks := x.marks ++ [{ poc := poc, mark := mark, at_ := s.now }] })

/-- The command `VC_MARK` (0x0706). -/
def execVcMark (dt : Nat) (c : Call) (session : Fin 64) (poc : Word) (mark : Fin 3) (s : State) :
    Host.Outcome State Fault Refusal :=
  .next (kilel 0x0706 (fun _ _ => true) (vcMark session poc.toNat mark) dt c s)

/-- `VC_ABORT` (R358). -/
def vcAbort (r : Req) (s : State) : Ans :=
  let q := r.f 0 0 6
  match s.vcNamed r.part q with
  | none => .done St.BAD_ARGUMENT [] s
  | some x =>
    match (if x.live then none else x.jobs.find? (fun j => j.tag = r.f 0 16 16)) with
    | none => .done St.BAD_ARGUMENT [] s
    | some j =>
      if j.startAt.isNone then
        .done St.OK [] ((s.setVc q { x with jobs := x.jobs.erase j }).vcJobDone q j.tag St.ABORTED_NOT_STARTED)
      else if j.startAt = some s.now then
        let s := (s.encFree q).decFree q
        .done St.OK [] ((s.setVc q { x.unstart with jobs := x.jobs.erase j }).vcJobDone q j.tag St.ABORTED_NOT_STARTED)
      else
        .done St.OK [] (s.setVc q { x with jobs := repl1 j { j with abort := true } x.jobs
                                           cur := x.cur.map (fun p => { p with abort := true }) })

/-- The command `VC_ABORT` (0x0707). -/
def execVcAbort (dt : Nat) (c : Call) (s : State) : Host.Outcome State Fault Refusal :=
  .next (kilel 0x0707 (fun _ _ => true) vcAbort dt c s)

/-! ### The engines -/

/-- Session `q` holds the buffer of output `o` and queues its picture (R353). -/
def State.liveQueue (s : State) (q : Nat) (x : VcSession) (o : VcOut) : State :=
  let d := max s.now x.lastDeadline + 10 ^ 12 / x.rate
  let p : VcPic := { frame := o.out.frame, epoch := o.out.epoch, flags := o.out.flags, poc := o.poc, w := o.out.w
                     h := o.out.h, fmt := o.out.fmt, mtx := o.mtx, full := o.full, buf := some (o.sc, o.out.buf)
                     tag := none, deadline := d, addr := o.out.addr, strideY := o.out.strideY, strideC := o.out.strideC }
  (s.hold { sc := o.sc, buf := o.out.buf, who := 1, what := q }).setVc q
    { x with queue := x.queue ++ [p], lastDeadline := d, skipRun := false }

/-- LIVE_PICTURE_HOLD: the session looks at the oldest output of its scaler it has not yet looked at, and holds the buffer
and queues the picture, or skips it (R352, R353). -/
def execLivePictureHold (dt : Nat) (session : Fin 64) (s : State) : Host.Outcome State Fault Refusal :=
  let s := s.tick dt
  let q := session.val
  .next (match s.vcd.pend.find? (fun o => o.session = q), s.vc q with
  | some o, some x =>
    let s := { s with vcd := { s.vcd with pend := s.vcd.pend.erase o } }
    if !o.dest || x.closing then s
    else if 2 ≤ x.queue.length + b2n x.cur.isSome then s.vcSkip q 1 o.out.epoch o.out.frame
    else if x.maxW < o.out.w || x.maxH < o.out.h then s.vcSkip q 2 o.out.epoch o.out.frame
    else if !(o.out.fmt = 3 || (o.out.fmt = 2 && x.profile = 2)) then s.vcSkip q 4 o.out.epoch o.out.frame
    else if x.bufs < 2 * s.vcK x.profile x.maxW x.maxH then s.vcSkip q 3 o.out.epoch o.out.frame
    else s.liveQueue q x o
  | _, _ => s)

/-- Where CTB rows `r0` to `r1` of a picture's input lie. -/
def VcPic.spans (p : VcPic) (r0 r1 : Nat) : List (Nat × Nat) :=
  pictureSpans p.addr p.fmt p.w p.h p.strideY p.strideC (64 * r0) (min p.h (64 * r1))

/-- The slice of CTB rows `r0` to `r1` reads its input (R328); the first row that reads uncorrectable is reported (R370, R327).
Answers whether one did. -/
def State.vcRead (s : State) (q : Nat) (x : VcSession) (p : VcPic) (r0 r1 : Nat) : Bool × State :=
  let bad := (List.range (r1 - r0)).find? (fun i => (p.spans (r0 + i) (r0 + i + 1)).any (fun e => s.poisoned e.1 e.2))
  let s := s.dmaGets Port.vcd x.ctx (p.spans r0 r1)
  match bad with
  | some i => (true, s.faultItem Src.VCD 2 q ((r0 + i) % 65536) [Fin.ofNat 4096 x.ctx])
  | none => (false, s)

/-- The session codes at a fixed QP (CQP). -/
def VcSession.cqp (x : VcSession) : Bool := decide (fld (x.config.getD 3 0) 0 2 = 0)

/-- The session uses its ROI map. -/
def VcSession.roi (x : VcSession) : Bool := bit (x.config.getD 4 0) 8

/-- The reads at the beginning of picture `p`: the whole ROI map (R365) and the references, which are read whole (log entry 82).
Answers whether one was poisoned; a reference is reported with its POC (R370). -/
def State.vcHead (s : State) (q : Nat) (x : VcSession) (p : VcPic) : Bool × State :=
  let a := (x.config.getD 8 0).toNat + (x.config.getD 9 0).toNat * 2 ^ 32
  let n := if x.roi then roiBytes x.maxW x.maxH else 0
  let refs := if p.idr then [] else x.refs
  let spans := fun (r : VcRef) => s.poolSpans r.bufs 0 (refBytes x.profile x.maxW x.maxH)
  let bad := refs.find? (fun r => (spans r).any (fun e => s.poisoned e.1 e.2))
  let hurt := bad.isSome || s.poisoned a n
  let s := (s.dmaGet Port.vcd x.ctx a n).dmaGets Port.vcd x.ctx (refs.flatMap spans)
  match bad with
  | some r => (true, s.faultItem Src.VCD 1 q r.poc [Fin.ofNat 4096 x.ctx])
  | none => (hurt, s)

/-- Engine output on port 8 whose bytes the spec does not give: open bytes at each of `spans`. -/
def State.vcOpen_ (s : State) (ctx : Nat) (spans : List (Nat × Nat)) : State :=
  spans.foldl (fun s e =>
    let (bs, s) := s.freshBytes e.2
    s.dmaPut Port.vcd ctx e.1 bs) s

/-- The reconstruction of CTB rows `r0` to `r1` of `n` goes into the picture's pool buffers; its form there is the coder's own
(R360, log entry 82). -/
def State.vcRecon (s : State) (x : VcSession) (p : VcPic) (r0 r1 n : Nat) : State :=
  let b := refBytes x.profile x.maxW x.maxH
  s.vcOpen_ x.ctx (s.poolSpans p.bufs (b * r0 / n) (b * r1 / n))

/-- The slice in the encode engine is complete: its packets, and the end of the picture with its last one (R363 to R366,
R358, R362). -/
def State.vcSlice (s : State) (q : Nat) (o : SliceOut) : State :=
  let s := s.encFree q
  match s.vc q with
  | none => s
  | some x =>
    match x.cur with
    | none => s
    | some p =>
      let (n, per) := x.rows p.h
      let first := p.slice * per
      let rows := min per (n - first)
      let last := decide (n ≤ first + rows)
      let (bad, s) := if p.slice = 0 then s.vcHead q x p else (false, s)
      let (bad', s) := s.vcRead q x p first (first + rows)
      let s := s.vcRecon x p first (first + rows) n
      let p := { p with hurt := p.hurt || o.damaged || bad || bad', squeezed := p.squeezed + (if x.cqp then 0 else o.over51) }
      let pf := b2n p.idr + 8 * b2n p.hurt + 16 * b2n p.skipBefore
      let s := if p.idr && decide (p.slice = 0) then s.vcPacket q x p.frame p.epoch p.flags 2 pf p.poc 0 0 0 o.params else s
      let qp := if x.cqp && !x.roi then fld (x.config.getD 3 0) 2 6 else o.qp.toNat
      let s := s.vcPacket q x p.frame p.epoch p.flags 1 (pf + 2 * b2n last + 4 * b2n p.abort) p.poc first rows qp o.payload
      let s := if p.squeezed = 0 || !(last || p.abort) then s
        else s.vcPicEvent q p.epoch p.frame 0x0704 (q + min 65535 p.squeezed * 65536)
      if p.abort then (s.vcDrop q St.ABORTED).vcTryClose q
      else if !last then s.setVc q { x with cur := some { p with slice := p.slice + 1 } }
      else
        let cells := ceilDiv p.w 64 * n
        let s := if x.statsEn then
            s.vcPacket q x p.frame p.epoch p.flags 3 pf p.poc 0 n 0
              ((List.range cells).flatMap (fun i => leBytes 8 ((o.stats.getD i 0).toNat % 2 ^ 56)))
          else s
        let x' := x.addRef p (s.vcMaxRefs x)
        let x' := { x' with lastFrame := p.frame, lastEpoch := p.epoch }
        let s := s.setVc q x'
        let s := s.wrs [(R.VCD_SES_PICS q, s.rd (R.VCD_SES_PICS q) + 1), (R.VCD_SES_LAST_LO q, w32 p.frame),
          (R.VCD_SES_LAST_HI q, w32 (p.frame / 2 ^ 32 % 256))]
        (s.vcDrop q St.OK).vcTryClose q

/-- What waits in all sessions: it bounds the engine's choice. -/
def State.vcWork (s : State) : Nat :=
  (s.vcIds.map (fun q => match s.vc q with | some x => x.jobs.length + x.queue.length + 1 | none => 0)).sum

/-- VC_SLICE_BOUNDARY: the slice in the engine completes with `out`, and the engine takes its next one (R355). -/
def execVcSliceBoundary (dt : Nat) (out : SliceOut) (s : State) : Host.Outcome State Fault Refusal :=
  let s := s.tick dt
  let s := match s.vcd.enc with
    | some q => s.vcSlice q out
    | none => s
  .next (s.vcPick (s.vcWork + 1))

/-- The decode engine takes job `j` of session `q`, whose other jobs are `rest`; with too few buffers the job ends (R349, R361). -/
def State.decBegin (s : State) (q : Nat) (x : VcSession) (j : VcJob) (rest : List VcJob) : State :=
  if x.bufs < 2 * s.vcK x.profile x.maxW x.maxH then
    ((s.setVc q { x with jobs := rest }).vcJobDone q j.tag St.POOL_EMPTY).vcTryClose q
  else
    let s := { s with vcd := { s.vcd with dec := some q, decBusy := busyKeep s.vcd.decBusy s.now ++ [(s.now, none)] } }
    s.setVc q { x with jobs := { j with startAt := some s.now } :: rest }

/-- The session whose job the decode engine takes next (R355). -/
def State.decNext (s : State) : Option Nat :=
  s.vcBest (s.vcIds.filter (fun q => match s.vc q with
    | some x => x.dec && !x.jobs.isEmpty && s.serves Src.VCD x.ctx
    | none => false))

/-- VC_DECODE_START: the decode engine is free and takes its next job (R349, R355), not while throttling holds (R485); a
session with too few buffers ends its job at once (R361). -/
def execVcDecodeStart (dt : Nat) (s : State) : Host.Outcome State Fault Refusal :=
  let s := s.tick dt
  .next (if s.vcd.dec.isSome || s.throttled then s
    else match s.decNext with
    | none => s
    | some q =>
      match s.vc q with
      | none => s
      | some x =>
        match x.jobs with
        | [] => s
        | j :: rest => s.decBegin q x j rest)

/-- Decode job `j` reads its access unit (R328); an uncorrectable word is reported (R370, R327), the CTB row it belongs to being
open. -/
def State.decRead (s : State) (q : Nat) (x : VcSession) (j : VcJob) : Bool × State :=
  let bad := s.poisoned j.inAddr j.inLen
  let s := s.dmaGet Port.vcd x.ctx j.inAddr j.inLen
  if bad then
    let (v, s) := s.fresh
    (true, s.faultItem Src.VCD 2 q (v % 65536) [Fin.ofNat 4096 x.ctx])
  else (false, s)

/-- Rows of the planes of a `w` × `h` picture at mid-level in format `fmt` (R368, Table 9-3). -/
def midPlanes (fmt w h : Nat) : List (List (List Byte)) :=
  let plane := fun rows n => List.replicate rows ((List.replicate n (leBytes 2 512)).flatten)
  if fmt = 3 then [plane h w, plane (h / 2) w] else [plane h w, plane h (w / 2), plane h (w / 2)]

/-- What the decode engine delivers for session `x`: parameter sets larger than the session's picture, or a stream that needs more
references than the session holds, conceal the whole picture at mid-level (R368). -/
def State.decGuard (s : State) (x : VcSession) (out : DecOut) : DecOut :=
  if out.paramError || decide (x.maxW < out.w) || decide (x.maxH < out.h) ||
      decide (x.bufs / s.vcK x.profile x.maxW x.maxH ≤ out.refs) then
    { out with paramError := true, concealed := ceilDiv out.w 64 * ceilDiv out.h 64
               planes := midPlanes (if out.yc422 then 2 else 3) out.w out.h }
  else out

/-- Job `j` of session `q` ends with `out`: its picture and record are written, within the output buffer only (R367, R368); an
aborted job leaves its output buffer undefined (R358). -/
def State.decEnd (s : State) (q : Nat) (x : VcSession) (j : VcJob) (rest : List VcJob) (out : DecOut) : State :=
  let (bad, s) := s.decRead q x j
  let s := s.setVc q { x with jobs := rest }
  if j.abort then
    let (bs, s) := s.freshBytes j.outLen
    ((s.dmaPut Port.vcd x.ctx j.outAddr bs).vcJobDone q j.tag St.ABORTED).vcTryClose q
  else
    let out := s.decGuard x out
    let fmt := if out.yc422 then 2 else 3
    let shapes := planeShapes fmt out.h j.strideY j.strideC
    let (offs, size) := planeOffsets shapes
    if j.outLen < size then (s.vcJobDone q j.tag St.BUFFER_SMALL).vcTryClose q
    else
      let k := s.vcK x.profile x.maxW x.maxH
      let refs := min 15 (min out.refs (x.bufs / k - 1))
      let s := if refs = 0 then s
        else s.vcOpen_ x.ctx (s.poolSpans (x.nextBufs k) 0 (refBytes x.profile x.maxW x.maxH))
      let s := s.setVc q { x with jobs := rest, decRefs := refs }
      let s := (List.range shapes.length).foldl (fun s k =>
        let (rows, stride) := shapes.getD k (0, 0)
        (List.range rows).foldl (fun s y =>
          s.dmaPut Port.vcd x.ctx (j.outAddr + nth offs k + stride * y) (((out.planes.getD k []).getD y []).take stride)) s) s
      let rec_ := s.tagNow x.ctx Kind.coder Src.VCD
      let tag := rec_.take 16 ++ leBytes 5 0 ++ rec_.drop 21
      let dflags := b2n out.output + 2 * b2n (bad || decide (0 < out.concealed)) + 4 * b2n out.irap + 8 * b2n out.paramError
      let s := s.dmaPut Port.vcd x.ctx j.outAddr (tag ++ leBytes 4 out.poc.toNat ++ leBytes 2 out.w ++ leBytes 2 out.h ++
        leBytes 2 dflags ++ leBytes 1 fmt ++ leBytes 1 0 ++ leBytes 4 out.concealed ++ leBytes 8 0)
      let s := s.bump R.VCD_CONCEAL_CNT 0 32 out.concealed
      let s := s.wr (R.VCD_SES_PICS q) (s.rd (R.VCD_SES_PICS q) + 1)
      let s := if 0 < out.concealed then s.vcEvent q 0x0705 St.OK (q + j.tag * 65536) else s
      (s.vcJobDone q j.tag St.OK).vcTryClose q

/-- VC_DECODE_DONE: the running job ends: its picture and record are written, within the output buffer only (R367,
R368); an aborted job leaves its output buffer undefined (R358). -/
def execVcDecodeDone (dt : Nat) (out : DecOut) (s : State) : Host.Outcome State Fault Refusal :=
  let s := s.tick dt
  .next (match s.vcd.dec with
  | none => s
  | some q =>
    let s := s.decFree q
    match s.vc q with
    | none => s
    | some x =>
      match x.jobs with
      | [] => s.vcTryClose q
      | j :: rest => s.decEnd q x j rest out)

end Sys2Proof.Machine
end

