-- ==== Sys2Proof/Machine/Validate.lean ====
section
/-!
DEFINITION. Validation of a commit against the resulting configuration (R20), acceptance (R21 to R24), and the settings
that a commit carries into its queue.
-/

set_option Elab.async false

namespace Sys2Proof.Machine

/-! ### Power and thermal settings (R480, R483, Tables 19-2, 19-12) -/

/-- The thermal thresholds lie in the ranges of Table 19-2 and in their order (R483). -/
def thmLimitOk (v : Word) : Bool :=
  let warn := fld v 0 8
  let thr := fld v 8 8
  let shut := fld v 16 8
  let re := fld v 24 8
  decide (60 ≤ warn) && decide (warn ≤ 120) && decide (70 ≤ thr) && decide (thr ≤ 124) && decide (110 ≤ shut) &&
    decide (shut ≤ 125) && decide (60 ≤ re) && decide (re ≤ 100)

/-- WARN < THROTTLE < SHUTDOWN and REARM ≤ SHUTDOWN − 10 (R483). -/
def thmOrderOk (v : Word) : Bool :=
  decide (fld v 0 8 < fld v 8 8) && decide (fld v 8 8 < fld v 16 8) && decide (fld v 24 8 + 10 ≤ fld v 16 8)

/-- The checks of the always-on domain. -/
def State.chkAon (s : State) (es : Over) : Option (Nat × Nat) :=
  let warn := s.of es R.AON_BAK_CFG 0 12
  let ex := s.of es R.AON_BAK_CFG 16 12
  refuse1 0 [
    (decide (warn ≤ ex) || decide (warn < 2000) || decide (3600 < warn) || decide (ex < 1800) || decide (2600 < ex), 0),
    (!thmOrderOk (s.ov es R.THM_LIMIT) || !thmLimitOk (s.ov es R.THM_LIMIT), 0),
    (decide (s.of es R.THM_RATE 0 10 = 0) || decide (s.of es R.THM_RATE 10 2 = 3), 0)]

/-! ### The whole configuration -/

/-- The refusals of a configuration: `es` overlays the active epoch (the latest entry first), `own` are the commit's own
entries, `hdr` the sparse header it runs with. -/
def State.refusals (s : State) (es own : Over) (hdr : List Nat × Bool) : List (Nat × Nat) :=
  [s.chkCtx es own, s.chkEvt es, s.chkLna es own, s.chkSlk es own, s.chkPsc es hdr, s.chkBkc es, s.chkCpl es, s.chkCrs es,
    s.chkLnd es own, s.chkVcd es own, s.chkMon es own, s.chkTim es, s.chkAud es own, s.chkHlk es, s.chkAudRing es own,
    s.chkCbs es, s.chkDmc es, s.chkAon es].filterMap id

/-- The refused checks leave their causes in their blocks' REJ_CAUSE registers. -/
def State.rejected (s : State) (l : List (Nat × Nat)) : State :=
  (l.filter (fun e => decide (e.1 ≠ 0))).foldl (fun s e => s.wr e.1 (w32 e.2)) s

/-- The entries of queued commits, latest first. -/
def State.queuedOver (s : State) : Over := s.ep.queue.reverse.flatMap (·.entries)

/-- The sparse header in force once the commits `q` act: that of the latest one that read it at the list address `a`, or the
active epoch's (R203). -/
def State.sparseNow (s : State) (q : List Commit) (a : Nat) : List Nat :=
  match (q.filter (fun c => decide (c.sparseAt = a))).reverse.filterMap (·.sparse) with
  | h :: _ => h
  | [] => s.sparseOfEpoch s.ep.epoch

/-- A configuration uses a sparse list: its header is read when the commit is validated (R202, R203). -/
def State.usesSparse (s : State) (es : Over) : Bool := !s.ob es R.PSC_CFG 0 && s.ob es R.PSC_SPARSE_CFG 0

/-- Commits of partition `p` in the queue. -/
def State.depth (s : State) (p : Nat) : Nat := (s.ep.queue.filter (fun c => decide (c.part = p))).length

/-- `a` is after the frame `b` by signed 40-bit difference. -/
def frameAfter (a b : Nat) : Bool := !leMod 40 a b

/-- A commit of `entries` for partition `p` and context `ctx` (R20 to R24): the status, and when accepted the commit's place
in the order and its COMMIT_ID. -/
def State.submit (s : State) (p ctx : Nat) (entries : Over) (target : Nat) (sensor : List SensorWrite) :
    Nat × Option (Nat × Nat) × State :=
  if 8 ≤ s.depth p then (St.QUEUE_FULL, none, s)
  else
    let es := entries ++ s.queuedOver
    let hdr := if s.usesSparse es then s.sparseHeader (s.oSparse es) else ([], true)
    match s.refusals es entries hdr with
    | [] =>
      let id := (tabGet (fun _ => 0) s.ep.commitCnt p + 1) % 65536
      let c : Commit := {
        seq := s.ep.seq, part := p, ctx := ctx, id := id, tAm := s.now, tAshort := s.short, target := target
        past := decide (target ≠ 0) && !frameAfter target s.ep.frame, entries := entries, sensor := sensor
        sparse := some hdr.1, sparseAt := s.oSparse es, late := false, hold := false }
      (St.OK, some (s.ep.seq, id), { s with ep := { s.ep with
        seq := s.ep.seq + 1, queue := s.ep.queue ++ [c], commitCnt := tabSet (fun _ => 0) s.ep.commitCnt p id } })
    | l => (St.INVALID_CONFIG, none, s.rejected l)

/-- The answer of a command that submits a commit (R21, R30). -/
def submitAnswer (r : Req) (x : Nat × Option (Nat × Nat) × State) : Ans :=
  match x with
  | (_, some (seq, id), s) =>
    if r.wait then .wait (.commit seq) s else .done St.OK [w32 id, w32 s.short] s
  | (st, none, s) => .done st [] s

/-- A partition's staging set is emptied (R18, R21, R32). -/
def State.unstage (s : State) (p : Nat) : State :=
  { s with ep := { s.ep with stage := tabClear s.ep.stage (p * 2 ^ 40) ((p + 1) * 2 ^ 40) } }

/-- `EPOCH_COMMIT` (R20 to R24). Sensor writes belong to the sensor link, which is part 0's (R35, R99). -/
def epochCommit (sensor : List SensorWrite) (r : Req) (s : State) : Ans :=
  let (st, acc, s) := s.submit r.part r.ctx (s.stageSet r.part) ((r.w 0).toNat + r.f 1 0 8 * 2 ^ 32)
    (if r.part = 0 then sensor else [])
  submitAnswer r (st, acc, if acc.isSome then s.unstage r.part else s)

/-- The command `EPOCH_COMMIT` (0x0202). -/
def execEpochCommit (dt : Nat) (c : Call) (sensor : List SensorWrite) (s : State) : Host.Outcome State Fault Refusal :=
  .next (kilel 0x0202 (fun _ _ => true) (epochCommit sensor) dt c s)

/-- The entry that clears EN of stream `i` (R453). -/
def State.closeEntry (s : State) (i : Nat) : Over := [(R.HLK_STREAM_CFG i, setFld (s.rd (R.HLK_STREAM_CFG i)) 0 1 0)]

end Sys2Proof.Machine
end

