-- ==== Sys2Proof/Machine/Resets.lean ====
section
/-!
DEFINITION. Resets (R100 to R107, Table 3-12): draining resets of levels 1 to 3, and what a level 4 or 5 reset, a shutdown
or the loss of main power leaves of the state.
-/

set_option Elab.async false

namespace Sys2Proof.Machine

/-! ### Contexts and partitions in scope -/

/-- The contexts that are owned by one of the partitions `ps`. -/
def State.ctxsOf (s : State) (ps : List Nat) : List Nat :=
  selIdx 4096 (fun c => match s.ctxOwner c with | some p => ps.contains p | none => false)

/-- CTX_FREE_COUNT and PART_CTX_COUNT as the context table stands. -/
def State.ctxCounts (s : State) : State :=
  let own := (List.range 4096).filterMap s.ctxOwner
  let s := s.wr R.CTX_FREE_COUNT (w32 (4096 - own.length))
  (List.range 64).foldl (fun s p => s.wr (R.PART_CTX_COUNT p) (w32 (own.filter (fun q => decide (q = p))).length)) s

/-- STATE of context `c`: 0 FREE, 1 ACTIVE, 2 DRAINING. -/
def State.setCtxState (s : State) (c st : Nat) : State := s.wrF (R.CTX_ENT_OWN c) 8 2 st

/-- The device is powered and not shut down: P0 or P1. -/
def State.awakeDev (s : State) : Bool := decide (s.fd R.AON_PWR_STAT 0 2 ≤ 1) && !s.bt R.AON_PWR_STAT 2

/-! ### Mailboxes (R76, R73) -/

/-- The BAR2 window closes (R73). -/
def State.bar2Close (s : State) : State := (s.wrF (R.MBX 0 0x04) 2 1 0).wrF (R.MBX 0 0x24) 31 1 0

/-- FW_READY of function `p` changes, with READY_CHG. -/
def State.setReady (s : State) (p : Nat) (v : Bool) : State :=
  if s.bt (R.MBX p 0x04) 0 = v then s else (s.wrF (R.MBX p 0x04) 0 1 (b2n v)).intSet p 0x10000

/-- The slot waits on a reset of its own function, whose response survives R76 (R102). -/
def State.ownReset (s : State) (w : Wait) : Bool :=
  match w.kind with
  | .reset i => s.resets.any (fun j => decide (j.id = i) && j.scope.contains w.part)
  | _ => false

/-- Step 1 of R76: FW_READY goes to 0; commands that wait never execute, and the responses of those that started are lost,
but for that of a `RESET` whose scope includes the function. -/
def State.mbxDown (s : State) (p : Nat) : State :=
  let s := s.setReady p false
  let s := { s with mbx := { s.mbx with
    posted := s.mbx.posted.filter (fun x => decide (x.part ≠ p))
    waits := s.mbx.waits.filter (fun w => decide (w.part ≠ p) || s.ownReset w) } }
  if p = 0 then s.bar2Close else s

/-- The end of R76: slots FREE, their SLOT_DONE bits and the retry cache clear, FW_READY 1 where the function is served. -/
def State.mbxUp (s : State) (p : Nat) : State :=
  let s := (s.wr (R.MBX p 0x0C) 0).wrF (R.MBX p 0x14) 0 16 0
  let s := { s with mbx := { s.mbx with cache := s.mbx.cache.filter (fun e => decide (e.part ≠ p)) } }
  s.setReady p (s.enabled p && (decide (p = 0) || !s.camp))

/-! ### Steps 1 and 2 of R103 -/

/-- Coder jobs of the contexts `cs`: those that wait complete RESET_DISCARDED, a running one stops at its next packet. -/
def State.bkcReset (s : State) (cs : List Nat) : State :=
  let cons := s.fd R.BKC_JOB_CONS 0 13
  let n := (s.fd R.BKC_JOB_PROD 0 13 + 8192 - cons) % 8192
  let inScope := fun i => cs.contains (jobOf (s.jobDesc (cons + i))).ctx && !s.ing.jobGone.contains ((cons + i) % 8192)
  let first := if s.bkcJob.isSome then 1 else 0
  let s := ((List.range n).filter (fun i => decide (first ≤ i) && inScope i)).foldl (fun s i =>
    ({ s with ing := { s.ing with jobGone := (cons + i) % 8192 :: s.ing.jobGone } }).jobEvent
      (jobOf (s.jobDesc (cons + i))) St.RESET_DISCARDED 0) s
  match s.bkcJob with
  | none => s.jobPass s.ing.jobGone.length
  | some b =>
    if !cs.contains (jobOf b.desc).ctx then s
    else if b.startedAt = s.now then s.jobNext.jobEvent (jobOf b.desc) St.RESET_DISCARDED 0
    else { s with bkcJob := some { b with aborted := true } }

/-- Kilel commands of contexts `cs` that have not started complete with RESET_DISCARDED. -/
def State.mbxDiscard (s : State) (cs : List Nat) : State :=
  (s.mbx.posted.filter (fun x => cs.contains (fld (s.reqWord x.part x.slot 1) 0 12))).foldl
    (fun s x => (s.unpost x.part x.slot).answer x.part x.slot St.RESET_DISCARDED []) s

/-- IN_PROGRESS of every partition as the jobs stand (Table 3-7). -/
def State.resetFlags (s : State) (ps : List Nat) : State :=
  ps.foldl (fun s p =>
    let busy := s.resets.any (fun j => j.scope.contains p || j.ctxs.any (fun c => decide (s.ctxOwner c = some p)))
    s.wrF (R.PART_RST_STAT p) 3 1 (b2n busy)) s

/-- The streams of the partitions `ps`, and those bound to rings of the contexts `cs`, close as under `STREAM_CLOSE`
(R106). -/
def State.closeStreams (s : State) (ps cs : List Nat) : State :=
  (selIdx 10 (fun i => s.bt (R.HLK_STREAM_CFG i) 0 && (ps.contains (s.streamOwner i) ||
      cs.contains (s.fd (R.HLK_STREAM_CFG i) 16 14 / 4)))).foldl (fun s i =>
    (s.submit (s.streamOwner i) (s.fd (R.HLK_STREAM_CFG i) 16 14 / 4) (s.closeEntry i) 0 []).2.2) s

/-- The contexts `cs` stop: they drain, then their work that has not started is discarded, the rest told to stop (R103). -/
def State.drainCtxs (s : State) (cs : List Nat) : State :=
  let s := cs.foldl (fun s c => s.setCtxState c 2) s
  (((s.mbxDiscard cs).bkcReset cs).resetRings cs 1).vcReset cs |>.sqReset cs

/-- A partition's own part of steps 1 and 2. -/
def State.drainPart (s : State) (p : Nat) : State :=
  let s := (s.mbxDown p).unstage p
  { s with ep := { s.ep with queue := s.ep.queue.filter (fun c => decide (c.part ≠ p)) } }

/-- A reset of level 1 to 3 starts (R103, R104): over partitions `ps` (levels 2 and 3) or contexts `cs` (level 1); `free`:
contexts that a commit frees. Answers its number. -/
def State.startReset (s : State) (level : Nat) (ps cs : List Nat) (free : List (Nat × Nat)) : Nat × State :=
  let ps := if level = 3 ∧ ps.contains 0 then (0 :: (List.range 63).map (· + 1)).filter s.enabled else ps
  let cs := (if level = 1 then cs else s.ctxsOf ps).filter (fun c => (s.ctxOwner c).isSome)
  let above := s.resets.filter (fun j => decide (level ≤ j.level))
  let drain := cs.filter (fun c => !above.any (fun j => j.drain.contains c))
  let parts := ps.filter (fun p => !above.any (fun j => j.parts.contains p))
  let id := s.resetSeq
  let job : ResetJob := { id := id, level := level, scope := ps, ctxs := cs, parts := parts, drain := drain, free := free }
  let touched := (ps ++ cs.filterMap s.ctxOwner).dedup
  let cut := fun (j : ResetJob) =>
    { j with drain := j.drain.filter (fun c => !drain.contains c), parts := j.parts.filter (fun p => !parts.contains p) }
  let s := { s with resetSeq := id + 1, resets := s.resets.map cut ++ [job] }
  let s := touched.foldl (fun s p => (s.wrF (R.PART_RST_STAT p) 0 3 level).bump (R.PART_RST_STAT p) 16 16 1) s
  let s := s.resetFlags touched
  let s := s.drainCtxs drain
  let s := parts.foldl (fun s p => s.drainPart p) s
  let s := s.closeStreams parts (if level = 1 then drain else [])
  let s := ((s.i2cReset parts).lndReset parts)
  (id, s)

/-! ### Steps 3 to 6 -/

/-- Work of the contexts `cs` that had started still runs. -/
def State.busyCtxs (s : State) (cs : List Nat) : Bool :=
  s.sqBusy cs || s.vcBusy cs || (match s.bkcJob with | some b => cs.contains (jobOf b.desc).ctx | none => false)

/-- The event queue of context `c` after a reset: kept rings start again at index 0 (R103). The gap of EVQ_MOD runs on
(R87). -/
def State.resetQueue (s : State) (c : Nat) (drop : Bool) : State :=
  s.setEvq c (if drop then { lastMsg := (s.evq c).lastMsg } else
    { base := (s.evq c).base, n := (s.evq c).n, lastMsg := (s.evq c).lastMsg })

/-- A context's DRAM allocations are freed; stores of take slots are not its allocations (R85). -/
def State.freeCtxMem (s : State) (c : Nat) : State :=
  (s.allocs.filter (fun x => decide (x.ctx = some c) && x.slot.isNone)).foldl (fun s x => s.dropAlloc x) s

/-- Steps 5 and 6 for context `c` under level `level`; `free`: the PART that the commit that frees it wrote. -/
def State.endCtx (s : State) (level : Nat) (free : List (Nat × Nat)) (c : Nat) : State :=
  let s := s.resetQueue c (decide (3 ≤ level))
  let rings := [4 * c, 4 * c + 1, 4 * c + 2, 4 * c + 3]
  let s := if 3 ≤ level then rings.foldl (fun s r => s.clearRing r) s else s
  let s := if 2 ≤ level then s.freeCtxMem c else s
  let s := s.setCtxState c 1
  let s := if (s.evq c).n = 0 then s else s.raise c 0x0301 St.OK Src.CTX level
  match free.find? (fun e => e.1 = c) with
  | some (_, p) =>
    let s := ((rings.foldl (fun s r => s.clearRing r) s).resetQueue c true).freeCtxMem c
    let s := { s with allocs := s.allocs.map (fun (x : Alloc) => if x.ctx = some c then { x with ctx := none } else x) }
    (s.wr (R.CTX_ST_USED c) 0).wr (R.CTX_ENT_OWN c) (w32 p)
  | none => s

/-- Step 5 for partition `p`. -/
def State.endPart (s : State) (level p : Nat) : State :=
  let s := (s.allocs.filter (fun x => decide (x.part = p) && x.slot.isNone)).foldl (fun s x => s.dropAlloc x) s
  let s := (s.spdReset p).fbDrop p
  if level < 3 then s
  else
    let m := s.mbx
    let s := { s with mbx := { m with
      vecMask := tabClear m.vecMask (4096 * p) (4096 * (p + 1)), msixPend := tabClear m.msixPend (4096 * p) (4096 * (p + 1))
      fnMask := tabClear m.fnMask p (p + 1), bme := tabClear m.bme p (p + 1)
      held := m.held.filter (fun h => decide (h.fn ≠ p)) } }
    if p = 0 then { s with mbx := { s.mbx with numVfs := 0 } } else s

/-- A reset that has nothing left to drain completes: its callers are answered (R102). -/
def State.endJob (s : State) (j : ResetJob) : State :=
  let s := { s with resets := s.resets.filter (fun x => decide (x.id ≠ j.id)) }
  s.finish (fun k => match k with | .reset i => decide (i = j.id) | _ => false) St.OK []

/-- Jobs whose whole scope has been drained complete (R104); `n` bounds them. -/
def State.endJobs (s : State) : Nat → State
  | 0 => s
  | n + 1 =>
    match s.resets.find? (fun j => !s.resets.any (fun k => j.ctxs.any (fun c => k.drain.contains c) ||
        j.scope.any (fun p => k.parts.contains p))) with
    | some j => (s.endJob j).endJobs n
    | none => s

/-- A job's contexts and partitions are drained (steps 5 and 6 of R103). A caller whose own mailbox is in scope keeps its
slot for the one response that survives R76. The delivered marks clear here (R122, log entry 93). -/
def State.endDrain (s : State) (j : ResetJob) : State :=
  let frees := s.resets.flatMap (·.free)
  let cs := j.drain
  let touched := (j.scope ++ j.ctxs.filterMap s.ctxOwner).dedup
  let owners := (cs.filterMap s.ctxOwner).dedup
  let s := ((s.vcFreeCtx cs).sqRelease cs).clearMarks cs
  let s := cs.foldl (fun s c => s.endCtx j.level frees c) s
  let s := owners.foldl (fun s p => s.sqRegs p) s
  let s := if cs.any (fun c => frees.any (fun e => decide (e.1 = c))) then s.ctxCounts else s
  let s := j.parts.foldl (fun s p => s.endPart j.level p) s
  let s := j.parts.foldl (fun s p => s.mbxUp p) s
  let off := fun (x : ResetJob) => if x.id = j.id then { x with drain := [], parts := [] } else x
  let s := { s with resets := s.resets.map off }
  let n := s.resets.length
  (s.endJobs n).resetFlags touched

/-- RESET_DRAIN_COMPLETE: the last write of the reset's scope has reached the host (R103). Nothing happens while work of
the scope still runs. -/
def execResetDrainComplete (dt : Nat) (id : Nat) (s : State) : Host.Outcome State Fault Refusal :=
  let s := s.tick dt
  .next (match s.resets.find? (fun j => j.id = id) with
    | none => s
    | some j => if s.busyCtxs j.drain then s else s.endDrain j)

/-! ### Levels 4 and 5, shutdown and loss of main power -/

/-- What the end of an attempt before step 6 means (R492): a failure with `cause`, which boot control records; or a success,
where `ok` says that a `RESET` of level 4 or an image commit ends it after FW_READY. The next attempt is due. -/
def State.attemptEnds (s : State) (cause : Nat) (ok : Bool) : State :=
  let b := s.pwr.boot
  let due := fun (s : State) (prev : Nat) => { s with pwr := { s.pwr with boot := { b with
    pend := true, wait := none, readyAt := none, prev := prev } } }
  if b.readyAt.isSome && ok then (due s 0).setConsecAs 0 0
  else if b.readyAt.isSome || b.wait.isSome then (due s cause).setConsecAs (s.fd R.AON_BOOT_STAT 0 8) cause
  else due s b.prev

/-- Registers that every reset keeps: the AON block but for its settings and counters, the landing store's slots and their
owners, the DRAM fitted, the count of log entries held, the levels at the GPIO pins. -/
def keptReg (a : Nat) : Bool :=
  (decide (a / 0x100000000 = 0x3F) && !([R.AON_WAKE, R.AON_BAK_CFG, R.THM_LIMIT, R.THM_RATE, R.THM_CNT].contains a)) ||
    (decide (R.LND_SLOT_STAT 0 ≤ a) && decide (a < R.LND_SLOT_STAT 16) && decide (a % 0x20 ≠ 0x0C)) ||
    (decide (R.LND_SLOT_OWN 0 ≤ a) && decide (a < R.LND_SLOT_OWN 16)) ||
    a = R.DMC_INFO || a = R.EVT_NVLOG_STAT || a = R.CBS_GPIO_IN

/-- What AON keeps through P1 to P3 and through shutdown: the settings of AON and THM (R483), CBS_TGT_ADDR (R465), the
owners of the scratchpad banks (R337), and the ECC mode that the next level 4 or 5 reset brings (R318). -/
def aonSetting (a : Nat) : Bool :=
  [R.AON_WAKE, R.AON_BAK_CFG, R.THM_LIMIT, R.THM_RATE, R.CBS_TGT_ADDR, R.DMC_CFG].contains a ||
    (decide (R.SPD_BANK_OWN 0 ≤ a) && decide (a < R.SPD_BANK_OWN 64))

/-- What stands when every domain but AON and memory has lost its state. `aon`: AON's settings and the epoch counter and
frame number are kept too (R38). `level`: 4 or 5, as PART_RST_STAT shows it. A level 4 reset lets I²C transfers end at their next
byte (R464). -/
def State.wipe (s : State) (level : Nat) (aon : Bool) : State :=
  let rst := if level = 4 then (List.range 64).map (fun p =>
      (R.PART_RST_STAT p, w32 (4 + s.fd (R.PART_RST_STAT p) 16 16 * 65536))) ++
      [(R.DMC_TRAIN_STAT, w32 (s.fd R.DMC_TRAIN_STAT 16 16 * 65536))] ++
      ((List.range 4).filter (fun c => (s.xfer c).isSome)).map (fun c => (R.CBS_I2C_STAT c, 1#32)) else []
  let xfers := if level = 4 then s.cbs.xfers.map (fun e => (e.1, e.2.map (fun x => { x with abort := true }))) else []
  let s := s.padsOff
  let regs := s.regs.filter (fun e => keptReg e.1 || (aon && aonSetting e.1))
  let slots := s.lnd.slots.map (fun e => (e.1, { e.2 with reads := [] }))
  let t : State := {
    pending := s.pending
    clk := s.clk
    straps := s.straps
    nv := s.nv
    out := s.out
    free := s.free
    regs := regs
    mem := tabClear s.mem 0 0x8000000000
    ep := if aon then { epoch := s.ep.epoch, first := s.ep.first, frame := s.ep.frame } else {}
    evt := { rootNext := s.evt.rootNext, logIdx := s.evt.logIdx, logHeld := s.evt.logHeld }
    resetSeq := s.resetSeq
    allocs := s.allocs.filter (fun x => x.slot.isSome)
    lnd := { slots := slots, takeNext := s.lnd.takeNext, readSeq := s.lnd.readSeq }
    dmc := { err := tabClear s.dmc.err 0 0x8000000000, since := s.clk.now }
    pwr := { s.pwr with p2At := none, p2Ack := false, acts := [], imgOpen := none, warm := false, retrainAt := s.clk.now }
    cbs := { xfers := xfers }
    nvHeld := s.nvHeld }
  t.wrs ([(R.LND_TAG_FREE, 1024#32), (R.LND_RET_STAT, s.rd R.LND_RET_STAT),
      (R.CTX_FREE_COUNT, 3840#32), (R.PART_CTX_COUNT 0, 256#32)] ++ rst)

/-- The ECC mode that DMC_CFG named comes into force, and stands in DMC_CFG until epoch 0 is loaded; a change of it keeps no
contents of DRAM (R318). -/
def State.eccReset (s : State) (next : Nat) : State :=
  let t := s.wrF R.DMC_CFG 0 2 next
  if next = s.fd R.DMC_INFO 10 2 then t
  else { t.wrF R.DMC_INFO 10 2 next with mem := [], dmc := { since := s.now } }

/-- PART_DRAM_QUOTA of part 0 under the factory defaults (R85). -/
def State.quota0 (s : State) : State := s.wr (R.PART_DRAM_QUOTA 0) (w32 (s.dramMiB - 1024))

/-- Every domain but AON and memory starts again under the factory defaults (R107, R303); `held`: the slots are treated as
after RESULT 1. Epoch counter and frame number return to 0. -/
def State.coldStart (s : State) (level : Nat) (held : Bool) : State :=
  let next := s.fd R.DMC_CFG 0 2
  let s := (((s.wipe level false).eccReset next).quota0).wrF R.AON_PWR_STAT 0 4 0
  let s := s.usedAll
  { s with pwr := { s.pwr with dramHold := false, p3At := none, p3Cmd := false, boot := { s.pwr.boot with held := held } } }

/-- A level 4 (warm) or level 5 (cold) reset of the device (R100, R107, R303); a boot attempt follows (R491). At level 4
FW_READY falls first, and READY_CHG stands after it (R76). -/
def State.deviceReset (s : State) (level cause : Nat) (ok : Bool) : State :=
  let s := s.attemptEnds cause ok
  if level = 4 then
    let ps := (List.range 64).filter (fun p => s.bt (R.MBX p 0x04) 0)
    let s := (ps.foldl (fun s p => s.setReady p false) s).lndReset (List.range 64)
    let s := s.coldStart 4 s.pwr.boot.held
    ps.foldl (fun s p => s.wr (R.MBX p 0x14) 0x10000) s
  else s.coldStart 5 true

/-- A level 4 reset, while the device is powered. -/
def State.warmReset (s : State) (cause : Nat) : State := if s.awakeDev then s.deviceReset 4 cause false else s

/-- A level 4 reset that a response left due begins (R102, R499). -/
def State.warmDue (s : State) : State := if s.pwr.warm then s.deviceReset 4 5 true else s

/-! ### The commands -/

/-- `RESET` (R101, R102). -/
def resetCmd (r : Req) (s : State) : Ans :=
  let level := r.f 0 0 3
  let p := r.f 0 8 6
  let c := r.f 0 16 12
  if r.part ≠ 0 ∧ (3 ≤ level ∨ (level = 2 ∧ p ≠ r.part)) then .done St.NOT_PERMITTED [] s
  else if level = 4 then
    if r.wait then .done St.BAD_ARGUMENT [] s
    else .done St.OK [] { s with pwr := { s.pwr with warm := true } }
  else if level = 1 ∧ r.part ≠ 0 ∧ s.owns r.part c = false then .done St.OK [] (s.viol r.part Viol.ctx r.ctx c)
  else
    let own := decide (level ≠ 1) && (decide (p = r.part) || (decide (level = 3) && decide (p = 0)))
    let (id, s) := s.startReset level (if level = 1 then [] else [p]) [c] []
    if r.wait || own then .wait (.reset id) s else .done St.OK [] s

/-- The command `RESET` (0x0305): levels 0 and 5 to 7 are BAD_ARGUMENT. -/
def execReset (dt : Nat) (c : Call) (s : State) : Host.Outcome State Fault Refusal :=
  .next (kilel 0x0305 (fun r _ => decide (1 ≤ r.f 0 0 3) && decide (r.f 0 0 3 ≤ 4)) resetCmd dt c s).warmDue

/-- PCIE_HOT_RESET: a level 4 reset (R442). -/
def execPcieHotReset (dt : Nat) (s : State) : Host.Outcome State Fault Refusal := .next ((s.tick dt).warmReset 5)

/-- PCIE_DL_DOWN: a level 4 reset, but for the link-down of P2 entry (R442, R476), which follows the PME handshake. -/
def execPcieDlDown (dt : Nat) (s : State) : Host.Outcome State Fault Refusal :=
  let s := s.tick dt
  .next (if s.pwr.p2At.isSome && s.pwr.p2Ack then s else s.warmReset 5)

/-- PCIE_PERST_N_ASSERT: a level 4 reset in P0 and P1 (R442). -/
def execPciePerstNAssert (dt : Nat) (s : State) : Host.Outcome State Fault Refusal :=
  .next ((s.tick dt).warmReset 5)

/-- VF_FLR: a level 3 reset of part `p` (R442); part 0 is the PF's. -/
def execVfFlr (dt : Nat) (p : Fin 64) (s : State) : Host.Outcome State Fault Refusal :=
  let s := s.tick dt
  .next (if p = 0 ∨ s.awakeDev = false then s else (s.startReset 3 [p.val] [] []).2)

/-- PF_FLR: a level 3 reset of part 0 and every enabled partition (R442, R105). -/
def execPfFlr (dt : Nat) (s : State) : Host.Outcome State Fault Refusal :=
  let s := s.tick dt
  .next (if s.awakeDev then (s.startReset 3 [0] [] []).2 else s)

/-- FIRMWARE_WATCHDOG: its expiry causes a level 4 reset (R492). -/
def execFirmwareWatchdog (dt : Nat) (s : State) : Host.Outcome State Fault Refusal := .next ((s.tick dt).warmReset 1)

end Sys2Proof.Machine
end

