-- ==== Sys2Proof/Machine/Adopt.lean ====
section
/-!
DEFINITION. What follows when settings become active, at a boundary (R34) or at boot: the registers computed from them
(R332 and the subject chapters), and the blocks that take them over.
-/

set_option Elab.async false

namespace Sys2Proof.Machine

/-- Bytes of the planes of a picture. -/
def pictureBytes (fmt h strideY strideC : Nat) : Nat := ((planeShapes fmt h strideY strideC).map (fun e => e.1 * e.2)).sum

/-- Plane bytes of scaler `o`'s output. -/
def State.scBytes (s : State) (o : Nat) : Nat :=
  pictureBytes (s.fd (R.CPL_SC_CFG o) 2 3) (s.fd (R.CPL_SC_OUT_WH o) 16 16) (s.fd (R.CPL_SC_STRIDE o) 0 16)
    (s.fd (R.CPL_SC_STRIDE o) 16 16)

/-- Plane bytes of layer `l` of output `o`, 0 while it is off. -/
def State.layerBytes (s : State) (o l : Nat) : Nat :=
  let cfg := s.rd (R.MON_LY_CFG o l)
  if !bit cfg 0 then 0
  else if bit cfg 1 then pictureBytes (fld cfg 5 3) (s.fd (R.MON_LY_SIZE o l) 16 16) (s.fd (R.MON_LY_STRIDE o l) 0 16)
    (s.fd (R.MON_LY_STRIDE o l) 16 16)
  else s.scBytes (fld cfg 2 3)

/-- Frames a second of output `o` as a ratio. -/
def State.outRate (s : State) (o : Nat) : Nat × Nat :=
  if o < 2 then (100000, max 1 (s.fd (R.MON_OUT_DSI_T o) 16 16)) else sdiRate (s.fd (R.MON_OUT_CTRL o) 4 4)

/-- The sum of exact quantities, each a numerator and a denominator. -/
def sumQ (l : List (Nat × Nat)) : Nat × Nat := l.foldl (fun a b => (a.1 * b.2 + b.1 * a.2, a.2 * b.2)) (0, 1)

/-- Engine demand of the active epoch in bytes per second, exact, as a numerator and a denominator (R332, R530). -/
def State.demand (s : State) : Nat × Nat :=
  let p := max 1 (s.rd R.SLK_PERIOD_MIN).toNat
  let per := fun bytes div => (bytes * 10 ^ 9, p * max 1 div)
  let n := s.fd R.CPL_DEC 0 16
  let coded := s.oFrameBytes []
  let tap := if s.bt R.CPL_CFG 0 then [per (2 * tapBytes (s.oWidth []) (s.oHeight [])) n] else []
  let scal := if s.bt R.CPL_CFG 0 then
      (selIdx 8 (fun o => s.bt (R.CPL_SC_CFG o) 0)).map (fun o => per (s.scBytes o) (n * max 1 (s.fd (R.CPL_SC_CTX o) 16 8)))
    else []
  let mon := (selIdx 6 (fun o => s.bt (R.MON_OUT_CTRL o) 0)).map (fun o =>
    (((List.range 4).map (s.layerBytes o)).sum * (s.outRate o).1, max 1 (s.outRate o).2))
  sumQ ([per (s.pscDemand8 [] (nth (s.sparseOfEpoch s.ep.epoch) 0)) 8, per (if s.bt R.BKC_CFG 7 then 2 * coded else 0) 1,
    per s.liveU 1] ++ tap ++ scal ++ mon)

/-- B and the ingest limit in bytes per second, exact, as numerators over 17: 0.75 × 546.1 × E and 0.6 × 546.1 × E GB/s, E being
16/17 with INLINE ECC and 1 without (R332, Table 12-2). -/
def State.budget (s : State) : Nat × Nat :=
  let e := if 2 ≤ s.fd R.DMC_INFO 10 2 then 16 else 17
  (409575000000 * e, 327660000000 * e)

/-- The engine demand exceeds B (R332). -/
def State.overBudget (s : State) : Bool := decide (s.budget.1 * s.demand.2 < s.demand.1 * 17)

/-- The registers that the active settings determine. -/
def State.derived (s : State) : State :=
  let d := unitsUp s.demand.1 (s.demand.2 * 10 ^ 8) 16
  let hdr := s.sparseOfEpoch s.ep.epoch
  let p := max 1 (s.rd R.SLK_PERIOD_MIN).toNat
  let s := s.wrs [
    (R.BKC_FRAME_BYTES, w32 (s.oFrameBytes [])), (R.PSC_STAT, w32 (nth hdr 0 % 2 ^ 24)),
    (R.PSC_DEMAND, w32 (unitsUp (s.pscDemand8 [] (nth hdr 0) * 100) (8 * p) 16)),
    (R.DMC_DEMAND, w32 (d + b2n s.overBudget * 65536)),
    (R.DMC_BUDGET, w32 (unitsUp s.budget.1 (17 * 10 ^ 8) 16 + unitsUp s.budget.2 (17 * 10 ^ 8) 16 * 65536))]
  ((s.crsLoad.lndRate).vcPoolRegs 0)

/-- The settings that were `old` have become those of the register file, under epoch `s.ep.epoch`: boundary-bound blocks
take them over (R34). -/
def State.adopt (s : State) (old : Nat → Word) : State :=
  (((((s.derived.lnaBoundary old).timBoundary).strobeBoundary old).monBoundary s.ep.epoch).audBoundary).gpioBoundary old

end Sys2Proof.Machine
end

