-- ==== Sys2Proof/Machine/Sha.lean ====
section
/-!
DEFINITION. SHA-256 (FIPS 180-4), which DIGEST of an image header names (Table 19-6).
-/

set_option Elab.async false

namespace Sys2Proof.Machine

/-- The first 64 primes. -/
def shaPrimes : List Nat :=
  (List.range 312).filter (fun n => decide (2 ≤ n) && (List.range 18).all (fun d => decide (d < 2) || d = n || decide (n % d ≠ 0)))

/-- The largest `r` below `2^n`, from `r` upwards, with `r^k ≤ x`. -/
def rootBits (k x : Nat) : Nat → Nat → Nat
  | 0, r => r
  | n + 1, r => rootBits k x n (if (r + 2 ^ n) ^ k ≤ x then r + 2 ^ n else r)

/-- The first 32 bits of the fraction of the `k`th root of `p`. -/
def rootFrac (k p : Nat) : Nat := rootBits k (p * 2 ^ (32 * k)) 40 0 % 2 ^ 32

/-- The round constants: cube roots of the primes. -/
def shaK : List Nat := shaPrimes.map (rootFrac 3)

/-- The initial hash value: square roots of the first eight primes. -/
def shaInit : List Nat := (shaPrimes.take 8).map (rootFrac 2)

/-- Rotation of a 32-bit number to the right. -/
def rotr (n x : Nat) : Nat := x / 2 ^ n + x % 2 ^ n * 2 ^ (32 - n)

/-- Exclusive or of three numbers. -/
def xor3 (a b c : Nat) : Nat := Nat.xor (Nat.xor a b) c

/-- The message schedule, latest word first: `n` more words. -/
def shaSched : Nat → List Nat → List Nat
  | 0, w => w
  | n + 1, w =>
    let s0 := fun x => xor3 (rotr 7 x) (rotr 18 x) (x / 8)
    let s1 := fun x => xor3 (rotr 17 x) (rotr 19 x) (x / 1024)
    shaSched n ((s1 (nth w 1) + nth w 6 + s0 (nth w 14) + nth w 15) % 2 ^ 32 :: w)

/-- One round with its constant plus message word. -/
def shaRound (h : List Nat) (kw : Nat) : List Nat :=
  let a := nth h 0
  let e := nth h 4
  let ch := Nat.xor (Nat.land e (nth h 5)) (Nat.land (2 ^ 32 - 1 - e) (nth h 6))
  let maj := xor3 (Nat.land a (nth h 1)) (Nat.land a (nth h 2)) (Nat.land (nth h 1) (nth h 2))
  let t1 := nth h 7 + xor3 (rotr 6 e) (rotr 11 e) (rotr 25 e) + ch + kw
  let t2 := xor3 (rotr 2 a) (rotr 13 a) (rotr 22 a) + maj
  [(t1 + t2) % 2 ^ 32, a, nth h 1, nth h 2, (nth h 3 + t1) % 2 ^ 32, e, nth h 5, nth h 6]

/-- One block of 16 big-endian words. -/
def shaBlock (h : List Nat) (m : List Nat) : List Nat :=
  let w := (shaSched 48 m.reverse).reverse
  let r := ((shaK.zip w).map (fun x => x.1 + x.2)).foldl shaRound h
  (h.zip r).map (fun x => (x.1 + x.2) % 2 ^ 32)

/-- A big-endian word of a byte list at word `i`. -/
def beWord (bs : List Byte) (i : Nat) : Nat := ((bs.drop (4 * i)).take 4).foldl (fun a b => a * 256 + b.toNat) 0

/-- The padded message. -/
def shaPad (bs : List Byte) : List Byte :=
  bs ++ [0x80#8] ++ List.replicate ((119 - bs.length % 64) % 64) 0#8 ++ (leBytes 8 (8 * bs.length)).reverse

/-- Blocks of a padded message; `n` bounds them. -/
def shaRun : Nat → List Nat → List Byte → List Nat
  | 0, h, _ => h
  | n + 1, h, bs => if bs.isEmpty then h else shaRun n (shaBlock h ((List.range 16).map (beWord bs))) (bs.drop 64)

/-- SHA-256 of a byte list: 32 bytes. -/
def sha256 (bs : List Byte) : List Byte :=
  (shaRun (bs.length / 64 + 2) shaInit (shaPad bs)).flatMap (fun w => (leBytes 4 w).reverse)

end Sys2Proof.Machine
end

