-- ==== Sys2Proof/Machine/NvImage.lean ====
section
/-!
DEFINITION. Boot images in NV memory (R494 to R501), system records of the event log (R503), and the commands of group
0x0D.
-/

set_option Elab.async false

namespace Sys2Proof.Machine

/-! ### System records (Table 19-7) -/

/-- A system record: kind, cause, image bits, trip temperature, settings skipped, ARG, device time. -/
def State.sysRecord (s : State) (kind cause image trip skipped arg time : Nat) : List Byte :=
  tagBytes time s.ep.epoch 0 Kind.event s.ep.frame Src.AON s.unlockFlag ++ leBytes 4 0 ++ leBytes 1 kind ++ leBytes 1 cause ++
    leBytes 1 image ++ leBytes 1 (s.fd R.AON_BOOT_STAT 0 8) ++ leBytes 2 trip ++ leBytes 2 (s.fd R.THM_TJ 16 16) ++
    leBytes 2 (unsx 16 s.pwr.thm.rise) ++ leBytes 2 skipped ++ leBytes 4 arg ++ List.replicate 20 0

/-! ### Images (R494 to R501) -/

/-- NV address of image slot `k`. -/
def imgBase (k : Nat) : Nat := 0x400000 * k

/-- A little-endian number of the image in slot `k`. -/
def State.imgNum (s : State) (k off n : Nat) : Nat := ofBytes (s.nvBytes (imgBase k + off) n)

/-- The checks of R496, in their order. -/
def State.imgOk (s : State) (k : Nat) : Bool :=
  let len := s.imgNum k 4 4
  decide (s.imgNum k 0 2 = 1) && decide (s.imgNum k 0xFC 4 = crc32 (s.nvBytes (imgBase k) 0xFC)) &&
    decide (512 ≤ len) && decide (len ≤ 0x400000) &&
    (let body := s.nvBytes (imgBase k + 0x100) (len - 0x100)
     decide (s.imgNum k 0x14 4 = crc32 body) && decide (s.nvBytes (imgBase k + 0x18) 32 = sha256 body))

/-- Entry `i` of the settings section of slot `k`: address and value (R501). -/
def State.imgEntry (s : State) (k i : Nat) : Nat × Word :=
  let a := s.imgNum k 0x0C 4 + 12 * i
  (s.imgNum k a 5, w32 (s.imgNum k (a + 8) 4))

/-! ### The commands -/

/-- `NV_IMAGE_BEGIN` (R497). -/
def imageBegin (_ : Req) (s : State) : Ans :=
  if s.pwr.imgOpen.isSome then .done St.STATE_CONFLICT [] s
  else
    let k := 1 - s.imgCtl.sel
    let s := s.setImgCtl (s.imgCtl.setSt k 1)
    .done St.OK [w32 k] { s with pwr := { s.pwr with imgOpen := some k } }

/-- The command `NV_IMAGE_BEGIN` (0x0D01). -/
def execNvImageBegin (dt : Nat) (c : Call) (s : State) : Host.Outcome State Fault Refusal :=
  .next (kilel 0x0D01 (fun _ _ => true) imageBegin dt c s)

/-- `NV_IMAGE_WRITE` (R79, R498): the last 4 KiB block is filled with zeros. Without an open session it is answered
STATE_CONFLICT (log entry 94). -/
def imageWrite (r : Req) (s : State) : Ans :=
  if !s.nvRange then .done St.NV_TEMP_RANGE [] s
  else match s.pwr.imgOpen with
    | none => .done St.STATE_CONFLICT [] s
    | some k =>
      let d := r.input
      let pad := (d.length + 4095) / 4096 * 4096 - d.length
      .done St.OK [] (s.nvStore (imgBase k + (r.w 0).toNat) (d ++ List.replicate pad 0))

/-- The command `NV_IMAGE_WRITE` (0x0D02): an offset in whole 4 KiB, at most 1 MiB, inside the 4 MiB of the slot. -/
def execNvImageWrite (dt : Nat) (c : Call) (s : State) : Host.Outcome State Fault Refusal :=
  .next (kilel 0x0D02 (fun r _ => decide ((r.w 0).toNat % 4096 = 0) && decide (r.inLen ≤ 0x100000) &&
    decide ((r.w 0).toNat + r.inLen ≤ 0x400000)) imageWrite dt c s)

/-- `NV_IMAGE_COMMIT` (R79, R499). Without an open session it is answered STATE_CONFLICT (log entry 94). -/
def imageCommit (r : Req) (s : State) : Ans :=
  if !s.nvRange then .done St.NV_TEMP_RANGE [] s
  else match s.pwr.imgOpen with
  | none => .done St.STATE_CONFLICT [] s
  | some k =>
    if !s.imgOk k then .done St.INVALID_CONFIG [] s
    else
      let c := (s.imgCtl.setSt k 2).setVer k (s.imgNum k 8 4)
      let s := (s.setImgCtl (if bit (r.w 0) 0 then { c with sel := k } else c)).setConsec 0
      .done St.OK [] { s with pwr := { s.pwr with imgOpen := none, warm := bit (r.w 0) 1 } }

/-- The command `NV_IMAGE_COMMIT` (0x0D03); with BOOT_NOW a level 4 reset follows the response. -/
def execNvImageCommit (dt : Nat) (c : Call) (s : State) : Host.Outcome State Fault Refusal :=
  .next (kilel 0x0D03 (fun _ _ => true) imageCommit dt c s).warmDue

/-- `NV_IMAGE_STATUS`: the image control record (R500; its layout is log entry 23). -/
def imageStatus (_ : Req) (s : State) : Ans := .done St.OK (bytesWords 3 s.imgCtl.bytes) s

/-- The command `NV_IMAGE_STATUS` (0x0D04). -/
def execNvImageStatus (dt : Nat) (c : Call) (s : State) : Host.Outcome State Fault Refusal :=
  .next (kilel 0x0D04 (fun _ _ => true) imageStatus dt c s)

/-- `NV_IMAGE_SELECT` (R500). -/
def imageSelect (k : Nat) (_ : Req) (s : State) : Ans :=
  if s.imgCtl.st k ≠ 2 then .done St.STATE_CONFLICT [] s
  else .done St.OK [] ((s.setImgCtl { s.imgCtl with sel := k }).setConsec 0)

/-- The command `NV_IMAGE_SELECT` (0x0D05). -/
def execNvImageSelect (dt : Nat) (c : Call) (slot : Fin 2) (s : State) : Host.Outcome State Fault Refusal :=
  .next (kilel 0x0D05 (fun _ _ => true) (imageSelect slot) dt c s)

/-- `NV_LOG_READ` (R130): entries of the log from the ring index `first` on, in log order. -/
def nvLogRead (first count : Nat) (r : Req) (s : State) : Ans :=
  dmaOut r ((List.range count).flatMap (fun i => s.nvBytes (nvLogBase + 64 * ((first + i) % 32768)) 64)) s s

/-- The command `NV_LOG_READ` (0x0D06). -/
def execNvLogRead (dt : Nat) (c : Call) (first : Fin 32768) (count : Fin 32769) (s : State) :
    Host.Outcome State Fault Refusal :=
  .next (kilel 0x0D06 (fun _ _ => true) (nvLogRead first count) dt c s)

end Sys2Proof.Machine
end

