-- ==== Sys2Proof/Machine/Boot.lean ====
section
/-!
DEFINITION. Boot (R491 to R493, Table 19-4): retention result and take recovery (R300 to R302), the choice of the image,
DRAM training (R323, R324), epoch 0 (R501), Base camp mode (R493) and the boot timers.
-/

set_option Elab.async false

namespace Sys2Proof.Machine

/-! ### Pins and memory -/

/-- The DRAM_HOLD pin. -/
def State.setDramHold (s : State) (v : Bool) : State :=
  if s.pwr.dramHold = v then s else { s with pwr := { s.pwr with dramHold := v } }.emit (.pin "DRAM_HOLD" v)

/-- DRAM loses its contents. -/
def State.dramLost (s : State) : State :=
  { s with mem := tabClear s.mem 0x8000000000 (2 ^ 40), dmc := { since := s.now } }

/-- The boot state replaced. -/
def State.setBoot (s : State) (b : BootSt) : State := { s with pwr := { s.pwr with boot := b } }

/-! ### Step 1: the retention result and the takes (R301, R302) -/

/-- RECORDING slots keep what they hold when the core stops: a stop that is not known becomes this moment (R303, R478). -/
def State.freezeTakes (s : State) : State :=
  (selIdx 16 (fun k => decide (s.slotSt k = 3))).foldl (fun s k =>
    s.setSlotT k { s.slot k with stop := some ((s.slot k).stop.getD s.dev) }) s

/-- A directory body with STATE LOST (Table 11-4). -/
def lostBody (b : List Byte) : List Byte := b.take 8 ++ leBytes 1 2 ++ (b.drop 9).take 115

/-- After a loss of AON the slots that NV holds an entry for are HOLDING. -/
def State.slotsFromNv (s : State) : State :=
  (List.range 16).foldl (fun s k =>
    match s.nvRead (dirAddr k).1 (dirAddr k).2 128 0x5C with
    | none => s
    | some b =>
      if ofBytes (b.take 4) = 0 then s
      else
        let s := s.setSlotT k { s.slot k with takeId := ofBytes (b.take 4), ctx := ofBytes ((b.drop 6).take 2) % 4096 }
        (s.wr (R.LND_SLOT_TAKE k) (w32 (ofBytes (b.take 4)))).setSlotSt k 5) s

/-- The slots at a boot (R302): `keep` after RESULT 0 and 1. -/
def State.bootSlots (s : State) (keep : Bool) : State :=
  (List.range 16).foldl (fun s k =>
    let t := s.slot k
    let st := s.slotSt k
    if st = 2 then s.toIdle k
    else if st = 3 then (if keep then (s.setSlotT k { t with recovered := true }).finalise k else s.toIdle k)
    else if keep then s
    else if st = 4 then (s.setSlotT k { t with entry := lostBody t.entry }).freeStore k
    else if st = 5 then
      (s.nvUpdate { a0 := (dirAddr k).1, a1 := (dirAddr k).2, seqOff := 0x5C
                    body := lostBody ((s.dirEntry k).take 124) }).freeStore k
    else s) s

/-- A RETENTION record: the arbiter's result and decision time (Table 19-7). It is written after step 2, as its CONSEC asks. -/
def State.retentionRecord (s : State) : State :=
  let b := s.pwr.boot
  if b.result = 0 then s
  else s.logRecord (s.sysRecord 4 b.result 0 0 0 (s.rd R.AON_HOLD_TIME).toNat b.resultAt)

/-- Step 1: RESULT 4 where AON had lost power; the result in LND_RET_STAT and NV; the slots; the thermal marker
(R301, R302, R488). -/
def State.bootStep1 (s : State) : State :=
  let b := s.pwr.boot
  let b := if b.aonLost then { b with result := 4, resultAt := s.dev } else b
  let (marker, _, _) := s.nvMarker
  let s := (s.setBoot b).wr R.LND_RET_STAT (w32 b.result)
  let s := if b.result = 0 || b.told then s else s.setMarker marker b.result b.resultAt
  let s := s.wrF R.AON_BOOT_STAT 22 3 b.result
  let s := if b.told then s else (if b.aonLost then s.slotsFromNv else s).bootSlots (decide (b.result ≤ 1))
  let s := (s.wrF R.THM_STAT 4 1 (b2n marker)).setBoot { b with told := true }
  s.wrF R.AON_BOOT_STAT 20 2 (if marker && b.aonLost then 3 else if s.pwr.thm.record.isSome then 2 else 0)

/-! ### Step 3: the image (R496) -/

/-- The scratchpad banks are zeroed and OWNED before any port is served (R337). -/
def State.spdReady (s : State) : State :=
  (List.range 64).foldl (fun s b => s.wr (R.SPD_BANK_OWN b) (w32 (s.fd (R.SPD_BANK_OWN b) 0 6))) s

/-- The image that boots, the image control record after the checks, and FALLBACK. -/
def State.pickImage (s : State) : Option Nat × ImgCtl × Bool :=
  let c := s.imgCtl
  let try1 := fun (c : ImgCtl) (k : Nat) =>
    if c.st k ≠ 2 then (false, c) else if s.imgOk k then (true, c) else (false, c.setSt k 1)
  let (ok, c) := try1 c c.sel
  if ok then (some c.sel, c, false)
  else
    let k := 1 - c.sel
    let (ok, c) := try1 c k
    if ok then (some k, c, true) else (none, c, false)

/-- IMAGE, FALLBACK, A_PARTIAL and B_PARTIAL of AON_BOOT_STAT (Table 19-13). -/
def State.imageStat (s : State) (k : Nat) (fallback : Bool) (c : ImgCtl) : State :=
  s.wrF R.AON_BOOT_STAT 16 4 (k + b2n fallback * 2 + b2n (decide (c.a = 1)) * 4 + b2n (decide (c.b = 1)) * 8)

/-! ### Step 4: training (R323, R324) -/

/-- The training record, if a copy is valid. -/
def State.trainRecord (s : State) : Option (List Byte) := s.record 0x806000 0x80E000 256

/-- What channel `c` trained to. -/
def State.trainedTo (s : State) (c : Nat) : BitVec 56 := tabGet (fun _ => 0) s.dmc.trained c

/-- Channel `c` has new training values. -/
def State.setTrained (s : State) (c : Nat) (v : BitVec 56) : State :=
  { s with dmc := { s.dmc with trained := tabSet (fun _ => 0) s.dmc.trained c v } }

/-- Channel `c` is fully trained: to what is open. -/
def State.trainFull (s : State) (c : Nat) : State :=
  let (v, s) := s.fresh
  s.setTrained c (BitVec.ofNat 56 v)

/-- A new training record, of the values of every channel (R324); its layout is log entry 23. -/
def State.putTraining (s : State) : State :=
  s.putRecord2 0x806000 0x80E000 ((List.range 32).flatMap (fun c => leBytes 7 (s.trainedTo c).toNat) ++ List.replicate 24 0)

/-- Channels load their values from the training record, where a copy is valid (R323). -/
def State.fastRestore (s : State) : State :=
  match s.trainRecord with
  | none => s
  | some b => (List.range 32).foldl (fun s c => s.setTrained c (BitVec.ofNat 56 (ofBytes ((b.drop (7 * c)).take 7)))) s

/-- The densities that a board may fit: 2, 4 or 8 GiB a channel, as DMC_INFO codes them (R317). -/
def densityCode (g : Nat) : Option Nat := if g = 2 then some 0 else if g = 4 then some 1 else if g = 8 then some 2 else none

/-- The density that the devices are to have in common: that of the first channel with a supported one (log entry 99). -/
def State.density (s : State) : Option Nat := (s.straps.densities.filterMap densityCode).head?

/-- The density of channel `c` is not the common one, or is not supported (R317). -/
def State.oddDensity (s : State) (c : Nat) : Bool :=
  let d := densityCode (s.straps.densities.getD c 0)
  d.isNone || decide (d ≠ s.density)

/-- Boot reads the density from the devices (R317). -/
def State.readDensity (s : State) : State :=
  match s.density with
  | some d => s.wrF R.DMC_INFO 8 2 d
  | none => s

/-- Training of every channel, which leaves self-refresh for it (R322, R323): answers the channels that fail. -/
def State.train (s : State) (trainFail fastFail : List (Fin 32)) : List Nat × State :=
  let valid := s.trainRecord.isSome
  let full := selIdx 32 (fun c => !valid || fastFail.any (fun f => decide (f.val = c)))
  let bad := selIdx 32 (fun c => s.oddDensity c || (full.contains c && trainFail.any (fun f => decide (f.val = c))))
  let s := { s with dmc := { s.dmc with sr := [] } }.fastRestore
  let s := (full.filter (fun c => !bad.contains c)).foldl State.trainFull s
  let s := if full.isEmpty || !bad.isEmpty then s else s.putTraining
  let s := (List.range 32).foldl (fun s c => s.wrF (R.DMC_CH_STAT c) 1 1 (b2n (!bad.contains c))) s
  let how := if !valid then 0 else if full.isEmpty then 1 else 2
  (bad, s.wrF R.DMC_TRAIN_STAT 0 3 (how + b2n s.trainRecord.isSome * 4))

/-- DRAM_TRAIN_FAIL for each of the channels `bad`, at training step `step` (R323). -/
def State.trainFaults (s : State) (bad : List Nat) (step : Nat) : State :=
  bad.foldl (fun s ch => s.fault { src := BitVec.ofNat 8 Src.DMC, unit := BitVec.ofNat 16 ch, code := 2, cls := .device
                                   detail := w32 step, ctxs := [] }) s

/-! ### Step 5: epoch 0 and the functions -/

/-- The settings of AON and the slot owners, which outlive a wipe, return to the factory defaults before epoch 0 loads. -/
def State.factory (s : State) : State :=
  let s := s.wrs ([R.AON_WAKE, R.AON_BAK_CFG, R.THM_LIMIT, R.THM_RATE, R.CBS_TGT_ADDR, R.DMC_CFG].map (fun a => (a, regReset a)))
  s.regClear (R.LND_SLOT_OWN 0) (R.LND_SLOT_OWN 16)

/-- One entry of the settings section: skipped when its address is no settings register (R501). -/
def State.load1 (s : State) (e : Nat × Word) : Bool × State :=
  if s.where_ e.1 = .window && isSetting e.1 then (false, s.wr e.1 (e.2 &&& w32 (regMask e.1))) else (true, s)

/-- The next entry of the settings section of image `k`, with the count of entries skipped so far. -/
def loadNext (k : Nat) (acc : Nat × State) (i : Nat) : Nat × State :=
  match acc.2.load1 (acc.2.imgEntry k i) with
  | (skip, s) => (acc.1 + b2n skip, s)

/-- The first `n` entries of the settings section of image `k`: how many were skipped. -/
def State.loadSection (s : State) (k n : Nat) : Nat × State := (List.range n).foldl (loadNext k) (0, s)

/-- STATE of every context as ALLOC says (Table 3-2). -/
def State.ctxStates (s : State) : State :=
  (List.range 4096).foldl (fun s c =>
    let v := s.rd (R.CTX_ENT_OWN c)
    if bit v 6 ∧ fld v 8 2 = 0 then s.setCtxState c 1 else if !bit v 6 ∧ fld v 8 2 ≠ 0 then s.setCtxState c 0 else s) s

/-- The sparse header of epoch 0 (R191, R203). -/
def State.firstSparse (s : State) : State :=
  { s with ing := { s.ing with sparse := [(s.ep.epoch, (s.sparseHeader (s.oSparse [])).1)] } }

/-- Epoch 0: the factory defaults overlaid by the settings section of the image that booted (R501). -/
def State.loadEpoch0 (s : State) (k : Nat) : Nat × State :=
  let (skipped, s) := s.factory.loadSection k (min 16384 (s.imgNum k 0x10 4))
  let s := (s.ctxStates).ctxCounts
  let s := s.usedAll
  (skipped, s.firstSparse.adopt (fun _ => 0))

/-- The PCIe link as it trained: speed and width are open (R439). -/
def State.linkTrain (s : State) : State :=
  let (v, s) := s.fresh
  s.wr R.HLK_LINK_STAT (w32 (v % 5 + 1 + 2 ^ (v / 8 % 5) * 8 + 256))

/-- The held records go to NV and the log, entries left FINALISING are completed (R295, R490, R129). -/
def State.completeHeld (s : State) : State :=
  let s := s.nvFlush.logFlush
  if s.nvRange then (selIdx 16 (fun k => decide (s.slotSt k = 4))).foldl (fun s k => s.entryWritten k) s else s

/-- The thermal record is copied to the log, and the marker clears (R488). -/
def State.copyThermal (s : State) : State :=
  match s.pwr.thm.record with
  | none => s
  | some r =>
    if !s.nvRange then s
    else
      let s := s.logRecord r
      let s := { s with pwr := { s.pwr with thm := { s.pwr.thm with record := none } } }
      let s := ((s.setMarker false (s.rd R.LND_RET_STAT).toNat s.pwr.boot.resultAt).wrF R.THM_STAT 4 1 0)
      s.wrF R.AON_BOOT_STAT 20 2 1

/-- The BOOT record of an attempt (Table 19-7); the peak of Tj starts anew. -/
def State.bootRecord (s : State) (cause skipped : Nat) : State :=
  let s := s.logRecord (s.sysRecord 1 cause (s.fd R.AON_BOOT_STAT 16 4) 0 skipped (s.rd R.AON_BOOT_COUNT).toNat s.dev)
  s.wrF R.THM_TJ 16 16 (s.fd R.THM_TJ 0 16)

/-! ### Base camp mode -/

/-- Base camp mode with the reason of the last failure (R493): the PF's mailbox is served, DRAM stays in self-refresh where
its contents were retained. -/
def State.enterCamp (s : State) (kept : Bool) : State :=
  let reason := s.pwr.boot.prev
  let s := (s.setConsecAs (s.fd R.AON_BOOT_STAT 0 8) reason).wrF R.AON_BOOT_STAT 8 8 reason
  let s := ((s.wrF R.AON_PWR_STAT 2 1 0).wrF R.AON_PWR_STAT 3 1 1).wr (R.MBX 0 0x20) (w32 reason)
  let s := (List.range 64).foldl (fun s p => s.wrF (R.MBX p 0x04) 1 1 1) s
  let s := (List.range 64).foldl (fun s p => s.intSet p 0x20000) s
  let s := if kept then { s with dmc := { s.dmc with sr := (List.range 32).map (fun c => (c, true)) } } else s.dramLost
  let s := s.logRecord (s.sysRecord 2 reason (s.fd R.AON_BOOT_STAT 16 4) 0 0 0 s.dev)
  let s := s.linkTrain
  let b : BootSt := { s.pwr.boot with pend := false, result := 0, told := false, aonLost := false, held := false }
  (s.setBoot { b with hot := false, ver := none }).setReady 0 true

/-! ### The attempt -/

/-- An attempt may run: main power stands, no P3, the sensor reads valid (R509), and after a shutdown Tj has come down to
REARM (R487). -/
def State.bootMay (s : State) : Bool :=
  let b := s.pwr.boot
  b.pend && s.pwr.mainGood && s.pwr.p3At.isNone && !s.pwr.thm.sensorBad &&
    !(b.hot && decide (((s.fd R.THM_LIMIT 24 8 * 16 : Nat) : Int) < s.tj))

/-- Step 3 or 4 failed with `cause`: the next attempt starts at once (R492). -/
def State.bootFails (s : State) (cause old : Nat) : State :=
  let s := (s.bootRecord old 0).setConsecAs (s.fd R.AON_BOOT_STAT 0 8) cause
  s.setBoot { s.pwr.boot with pend := true, prev := cause, aonLost := false }

/-- The end of step 5: `x` is what `loadEpoch0` answers; the record, the link, FW_READY of every enabled function, and
RETENTION_RESULT. -/
def bootServe (k old : Nat) (x : Nat × State) : State :=
  let s := (x.2.bootRecord old x.1).linkTrain
  let res := s.pwr.boot.result
  let s := s.setBoot { s.pwr.boot with pend := false, wait := none, readyAt := some s.now, aonLost := false, held := false
                                       result := 0, told := false, hot := false, ver := some (s.imgNum k 8 4) }
  let s := (List.range 64).foldl (fun s p => if s.enabled p then s.setReady p true else s) s
  if res = 0 then s else s.raise 0 0x0505 St.OK Src.LND res

/-- Step 5 for image `k`; `old`: how the attempt before ended. -/
def State.bootStep5 (s : State) (k old : Nat) : State :=
  bootServe k old (s.completeHeld.copyThermal.chuteBoot.loadEpoch0 k)

/-- Steps 2 to 5 after step 1: `told` says that an earlier attempt told of the retention result, `kept` that the contents of DRAM
stand. DRAM_TRAIN_FAIL, of class DEVICE, ends the attempt in
a level 4 reset (Table 4-5, R492). -/
def State.bootSteps (s : State) (trainFail fastFail : List (Fin 32)) (step : Nat) (ready told kept : Bool) : State :=
  let s := s.bump R.AON_BOOT_COUNT 0 32 1
  let b := s.pwr.boot
  let (n, cause) := if b.aonLost then s.nvConsec else (s.fd R.AON_BOOT_STAT 0 8, b.prev)
  let s := (s.setBoot { b with prev := cause }).wrF R.AON_BOOT_STAT 0 8 n
  let s := if 3 ≤ n then s.imageStat 0 false s.imgCtl else (s.setConsecAs (n + 1) 5).wrF R.AON_BOOT_STAT 8 8 0
  let s := if told then s else s.retentionRecord
  if 3 ≤ n then (s.bootRecord cause 0).enterCamp kept
  else
    let (img, c, fb) := s.pickImage
    let s := if c = s.imgCtl then s else s.setImgCtl c
    match img with
    | none => (s.imageStat 0 false c).bootFails 2 cause
    | some k =>
      let s := ((s.imageStat k fb c).setDramHold false).readDensity.quota0
      let (bad, s) := s.train trainFail fastFail
      if !bad.isEmpty then
        let s := (s.trainFaults bad step).bootFails 3 cause
        s.coldStart 4 s.pwr.boot.held
      else
        let s := s.wrF R.AON_PWR_STAT 0 4 0
        if ready then s.bootStep5 k cause
        else
          let s := s.bootRecord cause 0
          s.setBoot { s.pwr.boot with pend := false, wait := some s.now, aonLost := false, held := false, hot := false }

/-- BOOT_ATTEMPT: the steps of Table 19-4. `trainFail` and `fastFail`: the channels that would fail full training and the
verification of fast restore; `step`: the training step that failed; `ready`: FW_READY comes within 2 s of step 3. -/
def execBootAttempt (dt : Nat) (trainFail fastFail : List (Fin 32)) (step : Fin 16) (ready : Bool) (s : State) :
    Host.Outcome State Fault Refusal :=
  let s := s.tick dt
  .next (if s.bootMay then
      let told := s.pwr.boot.told
      let s := s.bootStep1.spdReady
      s.bootSteps trainFail fastFail step ready told (decide (s.pwr.boot.result ≤ 1))
    else s)

/-- BOOT_WATCHDOG: FW_READY was not set within 2 s of step 3; the attempt fails with WATCHDOG (Table 19-4), and the next
one starts from a level 4 reset. -/
def execBootWatchdog (dt : Nat) (s : State) : Host.Outcome State Fault Refusal :=
  let s := s.tick dt
  .next (match s.pwr.boot.wait with
    | some t => if t + 2 * 10 ^ 9 ≤ s.now then s.deviceReset 4 1 false else s
    | none => s)

/-- BOOT_SUCCESS_TIMER: FW_READY held for 10 s: CONSEC is 0 in AON and NV (step 6). -/
def execBootSuccessTimer (dt : Nat) (s : State) : Host.Outcome State Fault Refusal :=
  let s := s.tick dt
  .next (match s.pwr.boot.readyAt with
    | some t =>
      if t + 10 ^ 10 ≤ s.now then
        (s.setBoot { s.pwr.boot with readyAt := none, prev := 0 }).setConsecAs 0 0
      else s
    | none => s)

end Sys2Proof.Machine
end

