-- ==== Sys2Proof/Machine/Boundary.lean ====
section
/-!
DEFINITION. Frame boundaries (R25 to R38): activation of commits, what a boundary latches, and the retirement of epochs
(R19).
-/

set_option Elab.async false

namespace Sys2Proof.Machine

/-! ### Epochs in flight -/

/-- Epochs of the items in each frame-bound engine: SLK, PSC, BKC, CPL, CRS, VCD and HLK (R33, R36). -/
def State.engineEpochs (s : State) : List (List Nat) :=
  let pics := s.vcIds.flatMap (fun q => match s.vc q with
    | some x => (x.queue.map (·.epoch)) ++ (match x.cur with | some p => [p.epoch] | none => [])
    | none => [])
  let of := fun (t : Frame → Bool) => (s.ing.frames.filter t).map (·.epoch)
  [of (fun f => !f.closed), of (fun f => !s.allCorrected f), of (fun f => !f.shipped), of (fun f => f.tap.isSome),
    s.crs.due.map (·.epoch), s.vcd.pend.map (·.out.epoch) ++ pics,
    (s.items.filter (fun i => decide (i.kind ≠ 6) && decide (i.kind ≠ 7))).map (·.epoch)]

/-- Epochs of the frame-bound items that have not left the engines, frames that a take's unit is owed among them (R19). -/
def State.flightEpochs (s : State) : List Nat := (s.ing.frames.map (·.epoch) ++ s.engineEpochs.flatten).dedup

/-- An engine holds settings for four epochs: a new epoch would need a fifth bank in it (R36). -/
def State.banksFull (s : State) : Bool := s.engineEpochs.any (fun l => decide (4 ≤ l.dedup.length))

/-- Some item of epoch `e` remains in an engine, audio blocks among them (R19); take units were complete when stored. -/
def State.inFlight (s : State) (e : Nat) : Bool :=
  s.flightEpochs.contains e || s.items.any (fun i => decide (i.kind = 6) && decide (i.epoch = e))

/-- EPOCH_RETIREMENT: the oldest epoch that is not active retires once none of its items remains (R19). -/
def execEpochRetirement (dt : Nat) (s : State) : Host.Outcome State Fault Refusal :=
  let s := s.tick dt
  .next (match s.ep.banks with
    | [] => s
    | b :: bs =>
      if s.inFlight b.epoch then s
      else
        let sp := s.ing.sparse.filter (fun x => decide (x.1 ≠ b.epoch))
        let s : State := { s with ep := { s.ep with banks := bs }, ing := { s.ing with sparse := sp } }
        b.ctxs.foldl (fun s c => s.raiseEv { s.evNow c 0x0202 St.OK Src.CTX 0 with epoch := b.epoch }) s)

/-! ### Which commits activate -/

/-- The head commits, the oldest of each partition, in order of acceptance (R25, R27). -/
def heads : List Commit → List Commit
  | [] => []
  | c :: cs => c :: (heads cs).filter (fun d => decide (d.part ≠ c.part))

/-- Entries without the quotas: R91 holds these against what is held when a commit is accepted, not when it activates. -/
def noQuotas (es : Over) : Over :=
  es.filter (fun e => !((decide (R.CTX_ENT_OWN 0 ≤ e.1) && decide (e.1 < R.CTX_ENT_OWN 4096) && decide (e.1 % 16 = 12)) ||
    (selIdx 64 (fun p => decide (e.1 = R.PART_DRAM_QUOTA p) || decide (e.1 = R.PART_POOL_QUOTA p))) ≠ []))

/-- One head commit at the boundary of frame `no`, beside the commits already taken (R25, R28, R36): the commit with its
marks, and whether it activates. `full`: the bank hold stands. The 2 µs run on the monotonic clock, not as the difference
of two device times that a step of the time base may lie between (log entry 96). -/
def State.tryCommit (s : State) (no : Nat) (full : Bool) (taken : List Commit) (c : Commit) : Commit × Bool :=
  let due := c.target = 0 || leMod 40 c.target no
  let margin := decide (c.tAm + 2000 ≤ s.now)
  let es := c.entries ++ taken.reverse.flatMap (·.entries)
  let hdr := (s.sparseNow (taken ++ [c]) (s.oSparse es), true)
  if !due then (c, false)
  else if full || !(s.refusals es (noQuotas c.entries) hdr).isEmpty then ({ c with hold := c.hold || margin }, false)
  else if !margin then ({ c with late := true }, false)
  else (c, true)

/-- The head commits in order: those that activate, and the others with their marks. -/
def State.takeCommits (s : State) (no : Nat) (full : Bool) : List Commit → List Commit → List Commit → List Commit × List Commit
  | taken, kept, [] => (taken, kept)
  | taken, kept, c :: cs =>
    let (c', t) := s.tryCommit no full taken c
    if t then s.takeCommits no full (taken ++ [c']) kept cs else s.takeCommits no full taken (kept ++ [c']) cs

/-! ### Activation -/

/-- The context whose OWN word is at `a`. -/
def entOwn (a : Nat) : Option Nat :=
  if R.CTX_ENT_OWN 0 ≤ a ∧ a < R.CTX_ENT_OWN 4096 ∧ a % 16 = 0 then some ((a - R.CTX_ENT_OWN 0) / 16) else none

/-- One entry becomes active. STATE of a context follows ALLOC, but a context being freed stays owned until its reset ends
(R85); part 0's ENABLE reads 1. -/
def State.applyEntry (s : State) (e : Nat × Word) : State :=
  match entOwn e.1 with
  | some _ =>
    if s.fd e.1 8 2 = 0 then s.wr e.1 (setFld e.2 8 2 (fld e.2 6 1))
    else if bit e.2 6 then s
    else s.wrF e.1 6 1 0
  | none => if e.1 = R.PART_CTRL 0 then s.wr e.1 (setFld e.2 0 1 1) else s.wr e.1 e.2

/-- The contexts that entries free, with the PART each entry wrote. -/
def State.freed (s : State) (es : Over) : List (Nat × Nat) :=
  es.filterMap (fun e => match entOwn e.1 with
    | some c => if s.fd e.1 8 2 ≠ 0 ∧ bit e.2 6 = false then some (c, fld e.2 0 6) else none
    | none => none)

/-- The epoch after `e` (R31). -/
def epochSucc (e : Nat) : Nat := if 0xFFFFFFFF ≤ e then 1 else e + 1

/-- The sensor's state for a new epoch: one without writes is acknowledged with the latest earlier epoch that has some, or
at its own tF (R179). -/
def State.sensorEpoch (s : State) (e : Nat) (writes : Bool) : SensorEpoch :=
  let free := match (s.ep.sensor.filter (·.writes)).getLast? with
    | none => true
    | some x => x.ack.isSome
  { epoch := e, writes := writes, ack := if !writes && free then some s.dev else none, failed := false }

/-- The sensor writes of epoch `e` join the back-channel queue in staging order; the last carries EPOCH_LAST (R179). -/
def State.queueWrites (s : State) (e : Nat) : List SensorWrite → State
  | [] => s
  | w :: ws =>
    let b : BcCmd := { kind := 1, type := 1, tag := 0, count := w.vals.length, addr := w.addr.toNat, vals := w.vals
                       last := ws.isEmpty, epoch := e, from_ := 0, to_ := 0, tries := 0, sentAt := none }
    (s.bcPush b).2.queueWrites e ws

/-- The map in use is that of SLK_LANE_MAP: GROUP and POS of data lanes only (Table 6-11), with no swap (R174). -/
def State.loadMap (s0 : State) : State :=
  let s : State := { s0 with lnk := { s0.lnk with swapped := [] } }
  (List.range 64).foldl (fun (s : State) l =>
    let m := s.rd (R.SLK_LANE_MAP l)
    let v := if fld m 12 2 = 1 then fld m 0 14 else fld m 12 2 * 2 ^ 12
    s.wr (R.SLK_LANE_STAT l) (setFld (s.rd (R.SLK_LANE_STAT l)) 0 14 v)) s

/-- The commits `cs` form a new epoch (R26): their settings become active, the old epoch keeps its bank. -/
def State.activate (s : State) (cs : List Commit) : State :=
  let es : Over := cs.flatMap (·.entries)
  let b : Bank := { epoch := s.ep.epoch, first := s.ep.first, regs := s.regs.filter (fun r => isFrameBound r.1 || isOwner r.1)
                    ctxs := s.ep.committers }
  let sparse := s.sparseNow cs (s.oSparse es.reverse)
  let e := epochSucc s.ep.epoch
  let sw := cs.flatMap (·.sensor)
  let s := es.foldl (fun s x => s.applyEntry x) s
  let s := if es.any (fun x => (entOwn x.1).isSome) then s.ctxCounts else s
  let s := if es.any (fun x => decide (R.SLK_LANE_MAP 0 ≤ x.1) && decide (x.1 < R.SLK_LANE_MAP 64)) then s.loadMap else s
  let se := s.sensorEpoch e (!sw.isEmpty)
  let s : State := { s with
    ep := { s.ep with
      epoch := e
      first := s.ep.frame
      banks := s.ep.banks ++ [b]
      committers := (cs.map (·.ctx)).dedup
      sensor := s.ep.sensor ++ [se] }
    ing := { s.ing with sparse := s.ing.sparse ++ [(e, sparse)] } }
  s.queueWrites e sw

/-- EPOCH_APPLIED for each commit, and the answer of one that waits (R30). -/
def State.applied (s : State) (cs : List Commit) : State :=
  cs.foldl (fun s c =>
    let st := if c.late || c.past then St.LATE else St.OK
    let s := s.raise c.ctx 0x0201 st Src.CTX c.id
    s.finish (fun k => k = .commit c.seq) st
      [w32 c.id, w32 c.tAshort, w32 s.ep.epoch, w32 s.ep.frame, w32 (s.ep.frame / 2 ^ 32 % 256)]) s

/-- What the activation of entries starts: partitions newly enabled are served, those disabled and contexts freed are reset
(R85, R104). `off`, `on`: partitions whose ENABLE fell and rose. -/
def State.activated (s : State) (free : List (Nat × Nat)) (off on : List Nat) : State :=
  let s := on.foldl (fun s p => s.setReady p (!s.camp && s.bt (R.MBX 0 0x04) 0)) s
  let s := if free.isEmpty then s else (s.startReset 1 [] (free.map (·.1)) free).2
  off.foldl (fun s p => (s.startReset 2 [p] [] []).2) s

/-! ### The boundary -/

/-- QOS_OVERDUE for the contexts with MISS_EVT whose frame had overdue requests (R95). -/
def State.qosEvents (s : State) : State :=
  (selIdx 4096 (fun c => s.bt (R.CTX_ENT_QOS c) 16)).foldl (fun s c =>
    let v := viewQos s.view c false
    if 0 < fld v 16 16 then s.raise c 0x0302 St.OK Src.CTX v.toNat else s) s

/-- The DRAM traffic of the frame that ends stayed within the bandwidth budget and the ingest limit (R332): `d.moved` bytes
in its time are at most 0.75 and 0.6 of 546.1 GB/s, times the ECC mode's factor. -/
def State.withinBudget (s : State) : Bool :=
  let (k, l) := if s.fd R.DMC_INFO 10 2 < 2 then (1, 1) else (16, 17)
  let t := s.now - s.dmc.since
  decide (s.dmc.moved * 40 * l ≤ 3 * 5461 * k * t) && decide (s.dmc.ingest * 50 * l ≤ 3 * 5461 * k * t)

/-- The counters of a new boundary (R14, R95, R331). -/
def State.count (s : State) (synth : Bool) : State :=
  let (q, d) := s.dmc.latch (s.fd R.DMC_PAGE_IDLE 0 11) s.now s.withinBudget
  let s : State := { s with
    ep := { s.ep with
      frame := (s.ep.frame + 1) % 2 ^ 40
      synth := synth
      tFm := s.now
      qos := q }
    dmc := d }
  (selIdx 64 (fun l => s.bt (R.SLK_LANE_STAT l) 14)).foldl (fun s l => s.bump (R.SLK_LANE_STAT l) 16 8 1) s

/-- The activated commits leave the queues; of those that stay, `kept` says what the boundary noted about them. -/
def State.keepCommits (s : State) (cs kept : List Commit) : State :=
  { s with ep := { s.ep with
      queue := s.ep.queue.filterMap (fun c =>
        if cs.any (fun d => decide (d.seq = c.seq)) then none else some ((kept.find? (fun d => decide (d.seq = c.seq))).getD c)) } }

/-- The status images are latched (R42). -/
def State.latch (s : State) : State := { s with ep := { s.ep with snap := s.view } }

/-- A frame boundary (R25 to R38). `slk`: what SLK reports at it, after the blocks of lower rank (R119). Answers EPOCH_NEW,
LATE and HOLD of the frame that begins. -/
def State.boundary (s : State) (synth : Bool) (slk : State → State) : Nat × State :=
  let s := s.count synth
  let (cs, kept) := s.takeCommits s.ep.frame s.banksFull [] [] (heads s.ep.queue)
  let s := s.keepCommits cs kept
  if cs.isEmpty then (0, (slk s).qosEvents.latch)
  else
    let es : Over := cs.flatMap (·.entries)
    let old := fun a => s.rd a
    let free := s.freed es
    let was := fun p => s.enabled p
    let s := (s.activate cs)
    let off := (List.range 64).filter (fun p => was p && !s.enabled p)
    let on := (List.range 64).filter (fun p => !was p && s.enabled p)
    let s := (s.derived.lnaBoundary old).timBoundary
    let s := slk s
    let s := ((s.monBoundary s.ep.epoch).audBoundary).gpioBoundary old
    let s := ((s.applied cs).qosEvents).activated free off on
    let flags := Fl.EPOCH_NEW + (if cs.any (fun c => c.late || c.past) then Fl.LATE else 0) +
      (if cs.any (·.hold) then Fl.HOLD else 0)
    (flags, s.latch)

/-- No frame boundary falls in P1 to P3 or after a shutdown (R475, Table 1-3). -/
def State.mayBound (s : State) : Bool := decide (s.fd R.AON_PWR_STAT 0 2 = 0) && !s.bt R.AON_PWR_STAT 2

/-- What the tick of cadence 0 at device time `t` does: it is a boundary while the link is not active (R37), and it requests an
exposure where TIM_EXP_SRC says so, as a scheduled edge at the tick would (R411). -/
def State.cadZero (s : State) (t : Int) : State :=
  let s := if s.fd (R.TIM_CAD_CFG 0) 0 2 ≠ 3 && !s.linkOn then (s.boundary true id).2 else s
  if s.bt R.TIM_EXP_SRC 4 then s.expose t.toNat 0 (shortOf t.toNat) else s

/-- CADENCE_TICK: the tick of cadence `cad` that has come, once (R409); those of cadences 1 to 3 only start output frames. -/
def execCadenceTick (dt : Nat) (cad : Fin 4) (s : State) : Host.Outcome State Fault Refusal :=
  let s := s.tick dt
  let last := tabGet (fun _ => none) s.tim.ticks cad
  .next (match s.cadLast cad with
    | none => s
    | some t =>
      if !newTick last (some t) || !s.mayBound then s
      else
        let s := { s with tim := { s.tim with ticks := tabSet (fun _ => none) s.tim.ticks cad (some t) } }
        if cad = 0 then s.cadZero t else s)

/-- SYNTHETIC_BOUNDARY: with neither link nor frame cadence, a boundary falls 2 µs or more after a commit was accepted
(R37, Table 1-4). -/
def execSyntheticBoundary (dt : Nat) (s : State) : Host.Outcome State Fault Refusal :=
  let s := s.tick dt
  let ref := s.fd (R.TIM_CAD_CFG 0) 0 2
  let due := s.ep.queue.any (fun c => decide (c.tAm + 2000 ≤ s.now) && decide (s.ep.tFm < c.tAm + 2000))
  .next (if s.mayBound && !s.linkOn && (ref = 0 || ref = 3) && due then (s.boundary true id).2 else s)

end Sys2Proof.Machine
end

