-- ==== Sys2Proof/Machine/Thermal.lean ====
section
/-!
DEFINITION. Thermal protection and the backup cell (R480 to R488): the samples of AON, shutdown and re-arm, and the
commands that read and set them.
-/

set_option Elab.async false

namespace Sys2Proof.Machine

/-- An event of AON and THM (Table 19-9), while EVT is powered. -/
def State.aonEvent (s : State) (code arg : Nat) : State := if s.awakeDev then s.raise 0 code St.OK Src.AON arg else s

/-- THERM_N is asserted: WARN stands, or a shutdown holds it (Table 19-2, R486). -/
def State.thermN (s : State) : Bool := s.bt R.THM_STAT 0 || s.pwr.thm.hold

/-- THERM_N follows what asserts it; `was`: it was asserted before. The pin is low while asserted. -/
def State.driveThermN (s : State) (was : Bool) : State :=
  if s.thermN = was then s else s.emit (.pin "THERM_N" (!s.thermN))

/-- The thermal state replaced. -/
def State.setThm (s : State) (t : ThmSt) : State := { s with pwr := { s.pwr with thm := t } }

/-! ### Shutdown and re-arm -/

/-- Thermal shutdown (R486); `cause`: 1 threshold, 2 rate. -/
def State.shutdown (s : State) (cause : Nat) : State :=
  let rec_ := s.sysRecord 3 cause 0 (s.fd R.THM_TJ 0 16) 0 (s.rd R.THM_LIMIT).toNat s.dev
  let s := ((s.freezeTakes).attemptEnds 6 false).wipe 5 true
  let s := { s with dmc := { s.dmc with sr := (List.range 32).map (fun c => (c, true)) } }
  let s := s.setThm { s.pwr.thm with hold := true, record := some rec_ }
  (s.setBoot { s.pwr.boot with pend := false, hot := true }).wrF R.AON_PWR_STAT 2 1 1

/-- Once Tj ≤ REARM after a shutdown THERM_N is released, and with AUTO_RESTART the device boots as for a level 5 reset, unless
PORST_N has restarted it (R487). -/
def State.rearm (s : State) : State :=
  if s.pwr.thm.hold && decide (s.tj ≤ ((s.fd R.THM_LIMIT 24 8 * 16 : Nat) : Int)) then
    let off := s.bt R.AON_PWR_STAT 2
    let s := s.setThm { s.pwr.thm with hold := false }
    if off && s.bt R.THM_RATE 16 then
      let p3 := (s.pwr.p3At, s.pwr.dramHold)
      let s := s.coldStart 5 true
      { s with pwr := { s.pwr with p3At := p3.1, dramHold := p3.2, boot := { s.pwr.boot with pend := true } } }
    else s
  else s

/-! ### Samples -/

/-- WARN with its hysteresis of 3 °C (Table 19-2). -/
def State.thmWarn (s : State) (t : Int) : State :=
  let lim : Int := s.fd R.THM_LIMIT 0 8 * 16
  if !s.bt R.THM_STAT 0 && decide (lim ≤ t) then (s.wrF R.THM_STAT 0 1 1).aonEvent 0x0E01 (unsx 32 t)
  else if s.bt R.THM_STAT 0 && decide (t ≤ lim - 48) then s.wrF R.THM_STAT 0 1 0
  else s

/-- The rate of rise (R484): three samples in a row at or above RATE trip, 100 below it clear. -/
def State.thmRate (s : State) : State :=
  let th := s.pwr.thm
  let rate : Int := s.fd R.THM_RATE 0 10
  let up := if rate ≤ th.rise then min 3 (th.up + 1) else 0
  let down := if rate ≤ th.rise then 0 else min 100 (th.down + 1)
  let s := s.setThm { th with up := up, down := down }
  if !s.bt R.THM_STAT 2 && decide (3 ≤ up) then
    ((s.wrF R.THM_STAT 2 1 1).bump R.THM_CNT 16 16 1).aonEvent 0x0E04 (unsx 32 th.rise)
  else if s.bt R.THM_STAT 2 && decide (100 ≤ down) then s.wrF R.THM_STAT 2 1 0
  else s

/-- Throttling: Tj at THROTTLE with its hysteresis, or a rate trip that acts so (R485). -/
def State.thmThrottle (s : State) (t : Int) : State :=
  let lim : Int := s.fd R.THM_LIMIT 8 8 * 16
  let hot := decide (lim ≤ t) || (s.pwr.thm.hotThr && decide (lim - 48 < t))
  let s := s.setThm { s.pwr.thm with hotThr := hot }
  let now := hot || (s.bt R.THM_STAT 2 && decide (s.fd R.THM_RATE 10 2 = 1))
  if now && !s.throttled then ((s.wrF R.THM_STAT 1 1 1).bump R.THM_CNT 0 16 1).aonEvent 0x0E02 (unsx 32 t)
  else if !now && s.throttled then (s.wrF R.THM_STAT 1 1 0).aonEvent 0x0E03 (unsx 32 t)
  else s

/-- The thermal marker in NV: set at 94 °C, cleared at 92 °C without a shutdown (R488). -/
def State.thmMarker (s : State) (t : Int) : State :=
  let put := fun (s : State) (m : Bool) =>
    (s.setMarker m (s.rd R.LND_RET_STAT).toNat s.pwr.boot.resultAt).wrF R.THM_STAT 4 1 (b2n m)
  if !s.bt R.THM_STAT 4 && decide (94 * 16 ≤ t) then put s true
  else if s.bt R.THM_STAT 4 && decide (t ≤ 92 * 16) && s.pwr.thm.record.isNone then put s false
  else s

/-- A valid sample of `t`, in 1/16 °C (R482 to R488). -/
def State.thmValid (s : State) (t : Int) : State :=
  let th := s.pwr.thm
  let old := th.hist[99]?
  let rise := match old with | some x => t - x | none => 0
  let peak := max t (sx 16 (s.fd R.THM_TJ 16 16))
  let was := s.thermN
  let s := s.wr R.THM_TJ (w32 (unsx 16 t + unsx 16 peak * 65536))
  let s := s.wrF R.THM_STAT 3 1 (b2n (decide (0 ≤ t) && decide (t ≤ 95 * 16)))
  let s := s.setThm { th with hist := (t :: th.hist).take 100, rise := rise, sensorBad := false }
  let s := (((s.thmWarn t).thmRate).thmThrottle t).thmMarker t
  let over_ := decide (((s.fd R.THM_LIMIT 16 8 * 16 : Nat) : Int) ≤ t)
  let rate := s.bt R.THM_STAT 2 && decide (s.fd R.THM_RATE 10 2 = 2)
  let off := s.bt R.AON_PWR_STAT 2
  let s := s.rearm
  let s := if off then s
    else if over_ then s.shutdown 1
    else if rate then s.shutdown 2
    else s
  s.driveThermN was

/-- A sample that the sensor could not give: THM_SENSOR_FAIL (Table 19-10), of class DEVICE, so a level 4 reset (R492). -/
def State.thmFail (s : State) (raw : Word) : State :=
  if s.pwr.thm.sensorBad then s
  else
    let s := s.setThm { s.pwr.thm with sensorBad := true }
    if s.awakeDev then
      (s.fault { src := BitVec.ofNat 8 Src.AON, unit := 0, code := 1, cls := .device, detail := raw, ctxs := [] }).warmReset 4
    else s

/-- THM_SAMPLE: the sample of each millisecond. `tj`: Tj in 1/16 °C, or none where the sensor fails, with its raw reading. -/
def execThmSample (dt : Nat) (tj : Option (BitVec 16)) (raw : Word) (s : State) : Host.Outcome State Fault Refusal :=
  let s := s.tick dt
  .next (match tj with
    | some t => s.thmValid (sx 16 t.toNat)
    | none => s.thmFail raw)

/-- The state of the backup cell at a voltage in mV: 0 OK, 1 LOW, 2 EXHAUSTED, 3 ABSENT (R480). -/
def State.bakState (s : State) (mv : Nat) : Nat :=
  if mv < 1000 then 3
  else if mv < s.fd R.AON_BAK_CFG 16 12 then 2
  else if mv < s.fd R.AON_BAK_CFG 0 12 then 1
  else 0

/-- The backup cell measures `mv` millivolts (R480). -/
def State.bakSample (s : State) (mv : Nat) : State :=
  let was := s.fd R.AON_BAK_STAT 12 2
  let now := s.bakState mv
  let s := s.wr R.AON_BAK_STAT (w32 (mv + now * 4096))
  let s := { s with pwr := { s.pwr with bakEx := decide (2 ≤ now) } }
  let s := if (was = 0) = (now = 0) then s else s.emit (.pin "BAK_OK" (decide (now = 0)))
  if now = 1 ∧ was ≠ 1 then s.aonEvent 0x0E05 mv else s

/-- VBAK_SAMPLE: the measurement of each millisecond (R480). -/
def execVbakSample (dt : Nat) (mv : Fin 4096) (s : State) : Host.Outcome State Fault Refusal :=
  .next ((s.tick dt).bakSample mv)

/-- NV_HELD_WRITE_FLUSH: with Tj in the NV write range, held updates and log entries are written in order (R490, R129), and
a latched thermal record is copied (R488). -/
def execNvHeldWriteFlush (dt : Nat) (s : State) : Host.Outcome State Fault Refusal :=
  let s := s.tick dt
  .next (if s.awakeDev then (s.nvFlush.logFlush).copyThermal else s)

/-! ### Commands -/

/-- `THERMAL_READ` (Table 19-12). -/
def thermalRead (_ : Req) (s : State) : Ans :=
  .done St.OK [s.rd R.THM_TJ, s.rd R.THM_LIMIT, s.rd R.THM_RATE, s.rd R.THM_STAT] s

/-- The command `THERMAL_READ` (0x0E02). -/
def execThermalRead (dt : Nat) (c : Call) (s : State) : Host.Outcome State Fault Refusal :=
  .next (kilel 0x0E02 (fun _ _ => true) thermalRead dt c s)

/-- The command `THERMAL_CONFIG` (0x0E03): thresholds within Table 19-2, RATE and RATE_ACT defined (R483). -/
def execThermalConfig (dt : Nat) (c : Call) (limit rate : Word) (s : State) : Host.Outcome State Fault Refusal :=
  .next (kilel 0x0E03 (fun _ _ => thmLimitOk limit && decide (fld rate 0 10 ≠ 0) && decide (fld rate 10 2 ≠ 3) &&
      decide (rate &&& ~~~0x10FFF#32 = 0))
    (fun r s => stageAnswer r [(R.THM_LIMIT, limit), (R.THM_RATE, rate)] s) dt c s)

/-- The command `BACKUP_STATUS` (0x0E04, R481). -/
def execBackupStatus (dt : Nat) (c : Call) (s : State) : Host.Outcome State Fault Refusal :=
  .next (kilel 0x0E04 (fun _ _ => true) (fun _ s => .done St.OK [s.rd R.AON_BAK_STAT, s.rd R.AON_HOLD_TIME] s) dt c s)

/-- The command `BOOT_INFO` (0x0E05, R502). -/
def execBootInfo (dt : Nat) (c : Call) (s : State) : Host.Outcome State Fault Refusal :=
  .next (kilel 0x0E05 (fun _ _ => true) (fun _ s => .done St.OK [s.rd R.AON_BOOT_STAT, s.rd R.AON_BOOT_COUNT] s) dt c s)

end Sys2Proof.Machine
end

