-- ==== Sys2Proof/Machine/Power.lean ====
section
/-!
DEFINITION. Power states (R473 to R479), the retention arbiter (R300, R301), loss of AON power (R516), PORST_N (R518), and
the end of storage commands, which a request for P3 waits for (R313).
-/

set_option Elab.async false

namespace Sys2Proof.Machine

/-! ### P2 -/

/-- The configuration of every function at its PCIe reset values (R477, R491). -/
def State.pcieReset (s : State) : State :=
  { s with mbx := { s.mbx with vecMask := [], fnMask := [], msixPend := [], bme := [], numVfs := 0, held := [] } }

/-- Every lane is OFF (R147). -/
def State.lanesOff (s : State) : State := (List.range 64).foldl (fun s n => s.setLane n 0) s

/-- P2 entry (R476): rings stop, mailboxes close, DRAM goes into self-refresh, the pins of the domains that go off are released. -/
def State.enterP2 (s : State) : State :=
  let s := (selIdx 16384 s.ringOn).foldl (fun s r => s.stopRing r St.ABORTED St.ABORTED_NOT_STARTED 0 0 0) s
  let s := (List.range 64).foldl (fun s p => s.mbxDown p) s
  let s := (s.pcieReset).lanesOff.padsOff
  let s := { s with dmc := { s.dmc with sr := (List.range 32).map (fun c => (c, true)), rows := [] }
                    cbs := { s.cbs with awake := false }
                    pwr := { s.pwr with p2At := none, p2Ack := false } }
  (s.wr R.HLK_LINK_STAT 0).setPower 2

/-- Wake from P2 (R477): slots FREE, retry caches empty, READY_CHG set; the rest stands as it was saved. The channels are trained
first (R323): which of them fail, and at which of the steps, are open values (log entry 99). Where one fails, DRAM_TRAIN_FAIL of
class DEVICE ends in a level 4 reset (Table 4-5). -/
def State.wakeP2 (s : State) : State :=
  let s := (s.setPower 0).resumeTime
  let (v, s) := s.fresh
  let (step, s) := s.fresh
  let (bad, s) := s.train ((List.finRange 32).filter (fun c => v.testBit c)) ((List.finRange 32).filter (fun c => v.testBit (c + 32)))
  if !bad.isEmpty then (s.trainFaults bad (step % 16)).warmReset 4
  else
  let s := { s.linkTrain with lnd := { s.linkTrain.lnd with sqStop := false } }
  let s := (s.ethStart.strobeBoundary (fun _ => 0)).gpioBoundary (fun _ => 0)
  (List.range 64).foldl (fun s p => s.mbxUp p) s

/-! ### P3 -/

/-- P3 entry (R478): ingest stops, the ring state of RECORDING slots is in AON, DRAM is in self-refresh under DRAM_HOLD.
`good`: MAIN_GOOD still stands. -/
def State.enterP3 (s : State) (good : Bool) : State :=
  let s := ((s.freezeTakes).attemptEnds 5 false).wipe 5 true
  let s := { s with dmc := { s.dmc with sr := (List.range 32).map (fun c => (c, true)) } }
  let b := s.pwr.boot
  let s := s.setBoot (if b.told || decide (b.result ≤ 1) then { b with result := 0, told := false } else b)
  let s := { s with pwr := { s.pwr with mainGood := good, p3At := some s.now, p3Cmd := false } }
  (s.wrF R.AON_PWR_STAT 0 2 3).setDramHold true

/-- A request for P3 that waited for storage commands proceeds once none is started (R313). -/
def State.p3Due (s : State) : State :=
  if s.pwr.p3Cmd && s.sqStarted.isEmpty then (s.setPower 3).enterP3 true else s

/-- A request for P2 proceeds after the PME handshake, once no storage command is started (R476, R313). -/
def State.p2Due (s : State) : State :=
  if s.pwr.p2At.isSome && s.pwr.p2Ack && s.sqStarted.isEmpty then s.enterP2 else s

/-! ### `POWER_STATE` -/

/-- A coder or video-coder job or a maintenance activity runs or waits, an audio port is not STOPPED, a monitor output is
enabled, or the sensor link is not STOPPED (R474). -/
def State.powerBusy (s : State) : Bool :=
  s.linkUp || (List.range 8).any (fun p => decide (s.audSt p ≠ 0)) ||
    (List.range 6).any (fun o => s.bt (R.MON_OUT_CTRL o) 0) ||
    s.bkcJob.isSome || decide (s.fd R.BKC_JOB_PROD 0 13 ≠ s.fd R.BKC_JOB_CONS 0 13) ||
    s.vcd.ses.any (fun e => match e.2 with
      | some x => !x.jobs.isEmpty || !x.queue.isEmpty || x.cur.isSome
      | none => false) || !s.pwr.acts.isEmpty

/-- `POWER_STATE` (R474): the refusals in their order; the transition follows acceptance. -/
def powerState (r : Req) (s : State) : Ans :=
  let t := r.f 0 0 2
  if t = s.power then .done St.OK [] s
  else if t ≠ 0 ∧ s.anyArmed = true then .done St.REFUSED_ARMED [] s
  else if (t = 1 ∨ t = 2) ∧ s.powerBusy = true then .done St.STATE_CONFLICT [] s
  else if t = 2 ∧ s.ep.queue ≠ [] then .done St.STATE_CONFLICT [] s
  else if t = 0 then .done St.OK [] s.wakeP1
  else if t = 1 then .done St.OK [] (s.setPower 1)
  else if t = 2 then
    .done St.OK [] { s with pwr := { s.pwr with p2At := some s.now }, lnd := { s.lnd with sqStop := true } }
  else .done St.OK [] { s with pwr := { s.pwr with p3Cmd := true }, lnd := { s.lnd with sqStop := true } }

/-- The command `POWER_STATE` (0x0E01); P3 is entered once its response is written. -/
def execPowerState (dt : Nat) (c : Call) (s : State) : Host.Outcome State Fault Refusal :=
  .next (kilel 0x0E01 (fun _ _ => true) powerState dt c s).p3Due

/-- SQ_COMMAND_DONE: a storage command finishes (R309, R313). -/
def execSqCommandDone (dt : Nat) (qid tag : Fin 32) (blocks : Nat) (fail : Option (Fin 2048)) (s : State) :
    Host.Outcome State Fault Refusal :=
  .next ((s.tick dt).sqDone qid tag blocks fail).p3Due.p2Due

/-- PME_HANDSHAKE_COMPLETE: an accepted request for P2 proceeds, where the handshake comes within 1 s of acceptance (R476). -/
def execPmeHandshakeComplete (dt : Nat) (s : State) : Host.Outcome State Fault Refusal :=
  let s := s.tick dt
  .next (match s.pwr.p2At with
    | some t => if s.now ≤ t + 10 ^ 9 then { s with pwr := { s.pwr with p2Ack := true } }.p2Due else s
    | none => s)

/-- P2_HANDSHAKE_TIMEOUT: the device stays in P0 (R476). -/
def execP2HandshakeTimeout (dt : Nat) (s : State) : Host.Outcome State Fault Refusal :=
  let s := s.tick dt
  .next (match s.pwr.p2At with
    | some t =>
      if t + 10 ^ 9 ≤ s.now && !s.pwr.p2Ack then
        ({ s with pwr := { s.pwr with p2At := none }, lnd := { s.lnd with sqStop := false } }).raise 0 0x0E06 St.OK Src.AON 0
      else s
    | none => s)

/-- PCIE_PERST_N_DEASSERT: wakes the device from P2 (Table 19-1), its channels trained as at a boot attempt (R323). -/
def execPciePerstNDeassert (dt : Nat) (s : State) : Host.Outcome State Fault Refusal :=
  let s := s.tick dt
  .next (if s.power = 2 then s.wakeP2 else s)

/-! ### Main power and AON -/

/-- MAIN_GOOD_FALL: P3 entry starts at the falling edge (R478); in P3 the board has removed the main rails. -/
def execMainGoodFall (dt : Nat) (s : State) : Host.Outcome State Fault Refusal :=
  let s := s.tick dt
  .next (if !s.pwr.mainGood then s
    else if s.power = 3 then { s with pwr := { s.pwr with mainGood := false } }
    else s.enterP3 false)

/-- The arbiter latches a result at this sample (R300): 2 and 3 release DRAM_HOLD, and the landing store is lost (R479). -/
def State.arbitrate (s : State) (good : Bool) : State :=
  let b := s.pwr.boot
  let code := if good && s.pwr.bakEx then 3 else if good then 1 else if s.pwr.bakEx then 2 else 0
  if b.result ≠ 0 || code = 0 || b.aonLost then s
  else
    let s := s.setBoot { b with result := code, resultAt := s.dev }
    if code = 1 then s else (s.setDramHold false).dramLost

/-- The arbiter samples MAIN_GOOD; `t` is when P3 began (R300, R479). -/
def State.retained (s : State) (t : Nat) (good : Bool) : State :=
  let s := s.arbitrate good
  if good then
    let s := s.wr R.AON_HOLD_TIME (w32 (min 0xFFFFFFFF ((s.now - t) / 10 ^ 9)))
    let s := (s.resumeTime).wrF R.AON_PWR_STAT 0 2 0
    { s with pwr := { s.pwr with mainGood := true, p3At := none, boot := { s.pwr.boot with pend := true } } }
  else s

/-- RETENTION_ARBITRATION: a sample of the arbiter in P3, with MAIN_GOOD as it stands (R300). MAIN_GOOD recognised ends P3 in
a boot (R479). -/
def execRetentionArbitration (dt : Nat) (good : Bool) (s : State) : Host.Outcome State Fault Refusal :=
  let s := s.tick dt
  .next (match s.pwr.p3At with
    | none => s
    | some t =>
      if s.pwr.mainGood then s else s.retained t good)

/-- AON loses what it holds; NV stands (R516, R301, R129), and device time restarts at 0 (R394). -/
def State.aonDrop (s : State) : State :=
  let t : State := {
    pending := s.pending
    clk := { now := s.clk.now, tod := 0 }
    straps := s.straps
    nv := s.nv
    out := s.out
    free := s.free
    evt := { logIdx := s.evt.logIdx }
    resetSeq := s.resetSeq
    lnd := { readSeq := s.lnd.readSeq }
    pwr := { mainGood := false, p3At := some s.clk.now, bakEx := true, boot := { pend := false } } }
  let dens := s.fd R.DMC_INFO 8 2
  let t := (t.wrs [(R.DMC_INFO, w32 (0x420 + dens * 256)), (R.CTX_FREE_COUNT, 3840#32), (R.PART_CTX_COUNT 0, 256#32),
    (R.LND_TAG_FREE, 1024#32), (R.AON_PWR_STAT, 3#32)]).quota0
  if s.pwr.dramHold then t.emit (.pin "DRAM_HOLD" false) else t

/-- AON_POWER_LOSS: with the main rails off and the cell EXHAUSTED or ABSENT, AON loses what it holds; NV stands (R516,
R301, R129). Device time restarts at 0 (R394). -/
def execAonPowerLoss (dt : Nat) (s : State) : Host.Outcome State Fault Refusal :=
  let s := s.tick dt
  .next (if s.pwr.mainGood || !s.pwr.bakEx then s
    else s.aonDrop)

/-- PORST_N_ASSERT: a level 5 reset while PWRGD_MAIN is high (R518); DRAM first goes into self-refresh, and the slots are
treated at boot as after RESULT 1 (R303). -/
def execPorstNAssert (dt : Nat) (s : State) : Host.Outcome State Fault Refusal :=
  let s := s.tick dt
  .next (if s.pwr.mainGood then s.freezeTakes.deviceReset 5 5 false else s)

end Sys2Proof.Machine
end

