-- ==== Sys2Proof/Machine/Cbs.lean ====
section
/-!
DEFINITION. The commands of the control buses that the board and the pins send (chapter 18).
-/

set_option Elab.async false

namespace Sys2Proof.Machine

/-- A read of `n` completed bytes that the target acknowledged. -/
def State.targetRead (s : State) (n : Nat) (cut : Bool) : State :=
  let (bs, a) := s.tgtRead s.cbs.ptr n
  let s := (if bs.isEmpty then s else s.emit (.i2cTarget bs))
  let s : State := { s with cbs := { s.cbs with ptr := a } }
  if cut then s.tgtCut else s

/-- I2C_TARGET_READ: a read transaction of `n` completed bytes at address `addr`; `cut`: it ended inside a byte. Every byte
comes from the latch taken at the address phase (R46, R466 to R468). Its START ends a write transaction. -/
def execI2cTargetRead (dt : Nat) (addr : BitVec 7) (n : Nat) (cut : Bool) (s : State) : Host.Outcome State Fault Refusal :=
  .next (match (s.tick dt).tgtEnd.tgtAck addr.toNat with
    | (ack, s) => if ack then s.targetRead n cut else s)

/-- Bytes of a write transaction at address `addr` (R466 to R468, R312). -/
def State.targetWrite (s : State) (addr : Nat) (start : Bool) (bytes : List Byte) (cut stop : Bool) : State :=
  let s := if start then
      let (ack, s) := s.tgtEnd.tgtAck addr
      if ack then s.setTxn (some {}) else s
    else s
  let on := s.cbs.txn.isSome
  let s := bytes.foldl (fun s b => s.tgtWriteByte b) s
  let s := if cut && on then s.tgtCut else s
  if stop then s.tgtEnd else s

/-- I2C_TARGET_WRITE: bytes of a write transaction (R466 to R468, R312). `start`: they follow a START with address `addr`;
`cut`: the last byte was not completed; `stop`: a STOP or repeated START ends the transaction here. -/
def execI2cTargetWrite (dt : Nat) (addr : BitVec 7) (start : Bool) (bytes : List Byte) (cut stop : Bool) (s : State) :
    Host.Outcome State Fault Refusal :=
  let s := s.tick dt
  .next (s.targetWrite addr.toNat start bytes cut stop)

/-- I2C_TRANSFER_END: the transfer of a controller ends with a result of Table 18-1 and the bytes read (R464). One that a
reset asked to end has RESULT ABORTED. -/
def execI2cTransferEnd (dt : Nat) (ctl : Fin 4) (result : Fin 4) (idx : Fin 17) (data : List Byte) (s : State) :
    Host.Outcome State Fault Refusal :=
  let s := s.tick dt
  .next (match s.xfer ctl with
    | none => s
    | some x => s.i2cEnd ctl (if x.abort then 5 else result) idx data)

/-- I2C_SCL_TIMEOUT: SCL held low for more than 25 ms ends the transfer with TIMEOUT (R464). -/
def execI2cSclTimeout (dt : Nat) (ctl : Fin 4) (s : State) : Host.Outcome State Fault Refusal :=
  .next ((s.tick dt).i2cEnd ctl 4 0 [])

/-- GPIO_PIN_EDGE: an edge at a pin is stamped and raised where selected (R469), and wakes the device from P1 or P2 where
AON_WAKE selects the pin (Table 19-1). -/
def execGpioPinEdge (dt : Nat) (pin : Fin 32) (falling : Bool) (s : State) : Host.Outcome State Fault Refusal :=
  let s := s.tick dt
  let wakes := s.bt R.AON_WAKE pin
  let low := s.wrF R.CBS_GPIO_IN pin 1 (b2n !falling)
  .next (if s.bt R.AON_PWR_STAT 2 then low
    else if s.power = 2 then (if wakes then (low.emit (.pin "PCIE_WAKE_N" false)).wakeP2 else low)
    else if s.power = 3 then low
    else
      let s := s.gpioEdge pin falling
      if wakes then s.wakeP1 else s)

end Sys2Proof.Machine
end

