-- ==== Sys2Proof/Machine/Control.lean ====
section
/-!
DEFINITION. The control and status commands of Kilel groups 0x01 to 0x03 (Table 2-15): liveness, DRAM allocations and
copies (R92, R319), staging (R15 to R18), snapshots (R42 to R46), contexts and partitions (R82, R83), violations (R110),
event rings (R113, R116); and the bindings of streams and statistics to rings (R275, R453).
-/

set_option Elab.async false

namespace Sys2Proof.Machine

/-! ### Group 0x01 -/

/-- The command `NOP` (0x0100). -/
def execNop (dt : Nat) (c : Call) (s : State) : Host.Outcome State Fault Refusal :=
  .next (kilel 0x0100 (fun _ _ => true) (fun _ s => .done St.OK [] s) dt c s)

/-- `SYS_INFO` (Table 2-15). -/
def sysInfo (_ : Req) (s : State) : Ans :=
  .done St.OK [s.regVal R.SYS_ID, (s.pwr.boot.ver.map w32).getD Config.romVersion,
    w32 (1 + Config.kilelMinor.toNat * 256), s.rd R.DMC_INFO, w32 s.dramMiB, w32 (s.fd R.AON_BOOT_STAT 16 2)] s

/-- The command `SYS_INFO` (0x0101). -/
def execSysInfo (dt : Nat) (c : Call) (s : State) : Host.Outcome State Fault Refusal :=
  .next (kilel 0x0101 (fun _ _ => true) sysInfo dt c s)

/-- The command `FW_LOG_READ` (0x0105); `log` is the firmware's log (log entry 9). -/
def execFwLogRead (dt : Nat) (c : Call) (log : List Byte) (s : State) : Host.Outcome State Fault Refusal :=
  .next (kilel 0x0105 (fun _ _ => true) (fun r s => dmaOut r log s s) dt c s)

/-- `MEM_ALLOC` of `n` bytes for the caller's context (R92). -/
def memAlloc (n : Nat) (r : Req) (s : State) : Ans :=
  if s.overQuota r.part (some r.ctx) n then .done St.QUOTA_EXCEEDED [] s
  else match s.findRange n with
    | (none, _) => .done St.NO_SPACE [] s
    | (some a, s) =>
      .done St.OK [w32 a, w32 (a / 2 ^ 32)] (s.addAlloc { addr := a, size := n, ctx := some r.ctx, part := r.part, slot := none })

/-- The command `MEM_ALLOC` (0x0106) of `pages` × 4 KiB (log entry 9). -/
def execMemAlloc (dt : Nat) (c : Call) (pages : Nat) (s : State) : Host.Outcome State Fault Refusal :=
  .next (kilel 0x0106 (fun _ _ => decide (0 < pages)) (memAlloc (pages * 4096)) dt c s)

/-- `MEM_FREE` of the caller's allocation at `a`. -/
def memFree (a : Nat) (r : Req) (s : State) : Ans :=
  match s.allocs.find? (fun x => decide (x.addr = a) && decide (x.part = r.part) && x.slot.isNone) with
  | none => .done St.BAD_ARGUMENT [] s
  | some x => .done St.OK [] (s.dropAlloc x)

/-- The command `MEM_FREE` (0x0107). -/
def execMemFree (dt : Nat) (c : Call) (addr : BitVec 40) (s : State) : Host.Outcome State Fault Refusal :=
  .next (kilel 0x0107 (fun _ _ => true) (memFree addr.toNat) dt c s)

/-- The first 4 KiB piece of `[a, a + n)` that partition `p` may not touch (R319, R83): `none`, all may be. -/
def State.memBad (s : State) (p a n : Nat) : Option Nat :=
  ((List.range ((a + n - 1) / 4096 - a / 4096 + 1)).map (fun i => max a ((a / 4096 + i) * 4096))).find? (fun x =>
    !(decide (x < s.fwBase) && s.inPart p x (min (a + n) ((x / 4096 + 1) * 4096) - x)))

/-- A copy that reaches memory the caller does not own is suppressed and counted (R8, R319). -/
def State.memViol (s : State) (p ctx x : Nat) : State :=
  s.viol p (if s.where_ x = .nowhere then Viol.noWindow else Viol.dram) ctx x

/-- `MEM_WRITE` of the input buffer to DRAM at `a`. -/
def memWrite (a : Nat) (r : Req) (s : State) : Ans :=
  if r.inLen = 0 then .done St.OK [] s
  else match s.memBad r.part a r.inLen with
    | some x => .done St.OK [] (s.memViol r.part r.ctx x)
    | none => .done St.OK [] ((s.ask Port.hlk r.ctx a r.inLen).eccStore r.ctx a r.input)

/-- The command `MEM_WRITE` (0x0108). -/
def execMemWrite (dt : Nat) (c : Call) (addr : BitVec 40) (s : State) : Host.Outcome State Fault Refusal :=
  .next (kilel 0x0108 (fun _ _ => true) (memWrite addr.toNat) dt c s)

/-- `MEM_READ` of `n` bytes of DRAM at `a` to the output buffer. -/
def memRead (a n : Nat) (r : Req) (s : State) : Ans :=
  if n = 0 then dmaOut r [] s s
  else match s.memBad r.part a n with
    | some x => dmaOut r (List.replicate n 0) s (s.memViol r.part r.ctx x)
    | none =>
      let (bs, s') := (s.ask Port.hlk r.ctx a n).eccReads r.ctx a n
      dmaOut r bs s s'

/-- The command `MEM_READ` (0x0109): at most 16 MiB. -/
def execMemRead (dt : Nat) (c : Call) (addr : BitVec 40) (len : Nat) (s : State) : Host.Outcome State Fault Refusal :=
  .next (kilel 0x0109 (fun _ _ => decide (len % 4 = 0) && decide (len ≤ 2 ^ 24)) (memRead addr.toNat len) dt c s)

/-! ### Staging (R15 to R18, R45) -/

/-- The staging entries in a list of words, three to an entry (R16); `none` where one is misaligned or has reserved bits. -/
def parseEntries : List Word → Option Over
  | [] => some []
  | a :: b :: v :: r =>
    if a.toNat % 4 ≠ 0 ∨ 256 ≤ b.toNat then none
    else (parseEntries r).map (fun l => (a.toNat + b.toNat * 2 ^ 32, v) :: l)
  | _ => none

/-- The lengths that R16 allows: inline 1 to 20 entries, by DMA 12 to 196,608 bytes. -/
def stageArgs (r : Req) (_ : State) : Bool :=
  if r.dma then decide (r.len = 8) && decide (r.inLen % 12 = 0) && decide (12 ≤ r.inLen) && decide (r.inLen ≤ 196608) &&
    decide (r.outLen = 0)
  else decide (r.len % 3 = 0) && decide (3 ≤ r.len) && (parseEntries r.pay).isSome

/-- `SETTINGS_STAGE` (R16, R17, R93). -/
def settingsStage (r : Req) (s : State) : Ans :=
  match parseEntries (if r.dma then bytesWords (r.inLen / 4) r.input else r.pay) with
  | none => .done St.BAD_ARGUMENT [] s
  | some es => stageAnswer r es s

/-- The command `SETTINGS_STAGE` (0x0201). -/
def execSettingsStage (dt : Nat) (c : Call) (s : State) : Host.Outcome State Fault Refusal :=
  .next (kilel 0x0201 stageArgs settingsStage dt c s)

/-- The command `EPOCH_DISCARD` (0x0203, R18). -/
def execEpochDiscard (dt : Nat) (c : Call) (s : State) : Host.Outcome State Fault Refusal :=
  .next (kilel 0x0203 (fun _ _ => true) (fun r s => .done St.OK [] (s.unstage r.part)) dt c s)

/-- The address in the first two payload words. -/
def Req.setAddr (r : Req) : Nat := (r.w 0).toNat + r.f 1 0 8 * 2 ^ 32

/-- `SETTINGS_READ` of the register at `a` (R45): the caller's staged value, or the active one as R529 lets it be read. -/
def settingsReadAt (a : Nat) (r : Req) (s : State) : Ans :=
  match s.staged r.part a with
  | some v => .done St.OK [1, v] s
  | none =>
    let (v, _, s) := s.readAt r.part r.ctx a
    .done St.OK [0, v] s

/-- `SETTINGS_READ`: the payload names the register. -/
def settingsRead (r : Req) (s : State) : Ans := settingsReadAt r.setAddr r s

/-- The command `SETTINGS_READ` (0x0205). -/
def execSettingsRead (dt : Nat) (c : Call) (s : State) : Host.Outcome State Fault Refusal :=
  .next (kilel 0x0205 (fun r _ => isSetting r.setAddr) settingsRead dt c s)

/-- `EPOCH_STATUS` (R45, Table 2-15): epoch, its first frame, the depth of each commit queue. -/
def epochStatus (_ : Req) (s : State) : Ans :=
  .done St.OK ([w32 s.ep.epoch, w32 s.ep.first, w32 (s.ep.first / 2 ^ 32 % 256)] ++
    (List.range 8).map (fun i => w32 (((List.range 8).map (fun j => s.depth (8 * i + j) * 16 ^ j)).sum))) s

/-- The command `EPOCH_STATUS` (0x0206). -/
def execEpochStatus (dt : Nat) (c : Call) (s : State) : Host.Outcome State Fault Refusal :=
  .next (kilel 0x0206 (fun _ _ => true) epochStatus dt c s)

/-! ### Snapshots (R42 to R44) -/

/-- The epoch that a boundary-bound block still runs at the latch `v`, when it has not applied the device epoch: of several
outputs or ports the one furthest behind (R43). -/
def State.behind (s : State) (v : View) (src : Nat) : Option Nat :=
  let lag := fun (e : Nat) => (s.ep.epoch + 2 ^ 32 - e) % 2 ^ 32
  let es := if src = Src.MON then (List.range 6).map (fun o => (tabGet regReset v.regs (R.MON_OUT_EPOCH o)).toNat)
    else if src = Src.AUD then v.audEpochs else []
  es.foldl (fun (m : Option Nat) e => if lag e = 0 then m else match m with
    | some x => if lag x < lag e then some e else m
    | none => some e) none

/-- The image of a block; the registers of MBX belong to the host's own BAR0 and read 0 (R47). -/
def State.blockImage (s : State) (v : View) (p src : Nat) : List Word :=
  if src = Src.MBX then List.replicate 320 0 else s.image v p src

/-- A block's part of a snapshot (R43). -/
def State.snapBlock (s : State) (v : View) (p src : Nat) : List Byte :=
  let ws := s.blockImage v p src
  let b := s.behind v src
  leBytes 8 (src + b2n b.isSome * 256 + ws.length % 65536 * 2 ^ 16 + b.getD s.ep.epoch * 2 ^ 32) ++ wordBytes ws

/-- The blocks of Table 1-1, by SOURCE. -/
def blockSrcs : List Nat :=
  [0x10, 0x11, 0x12, 0x20, 0x21, 0x22, 0x23, 0x24, 0x25, 0x26, 0x27, 0x28, 0x29, 0x2A, 0x2B, 0x2C, 0x30, 0x31, 0x32, 0x3F]

/-- `STATUS_SNAPSHOT` (R42): MODE 0 the images latched at the latest boundary, 1 those of this cycle. -/
def statusSnapshot (r : Req) (s : State) : Ans :=
  let v := if bit (r.w 2) 0 then s.view else s.ep.snap
  let mask := r.w64 0
  let srcs := blockSrcs.filter (fun x => decide (mask / 2 ^ (x - 0x10) % 2 = 1))
  dmaOut r (tagBytes (v.tod / 2 ^ 32) s.ep.epoch r.ctx Kind.snapshot s.ep.frame Src.MBX s.unlockFlag ++
    srcs.flatMap (fun x => s.snapBlock v r.part x)) s s

/-- The command `STATUS_SNAPSHOT` (0x0204): IN_LEN 0. -/
def execStatusSnapshot (dt : Nat) (c : Call) (s : State) : Host.Outcome State Fault Refusal :=
  .next (kilel 0x0204 (fun r _ => decide (r.inLen = 0)) statusSnapshot dt c s)

/-! ### Contexts and partitions (R82, R83, R93) -/

/-- Whether `n` contexts from `first` on may be named: not ctx 0, none beyond ctx 4,095. -/
def rangeOk (first n : Nat) : Bool := decide (1 ≤ n) && decide (1 ≤ first) && decide (first + n ≤ 4096)

/-- The argument checks of `CTX_ALLOC`; no partition comes to own more than 4,095 contexts (R93). -/
def ctxAllocArgs (r : Req) (s : State) : Bool :=
  let first := r.f 0 0 12
  let n := r.f 1 0 13
  let p := r.f 0 16 6
  rangeOk first n &&
    decide ((selIdx 4096 (fun c => decide (first ≤ c ∧ c < first + n) || s.owns p c)).length ≤ 4095)

/-- `CTX_ALLOC` stages ALLOC 1 and PART for a range of contexts. -/
def ctxAlloc (r : Req) (s : State) : Ans :=
  stageAnswer r ((List.range (r.f 1 0 13)).map (fun i => (R.CTX_ENT_OWN (r.f 0 0 12 + i), w32 (r.f 0 16 6 + 64)))) s

/-- The command `CTX_ALLOC` (0x0301). -/
def execCtxAlloc (dt : Nat) (c : Call) (s : State) : Host.Outcome State Fault Refusal :=
  .next (kilel 0x0301 ctxAllocArgs ctxAlloc dt c s)

/-- `CTX_FREE` stages ALLOC 0 for a range of contexts, PART as it stands. -/
def ctxFree (r : Req) (s : State) : Ans :=
  stageAnswer r ((List.range (r.f 1 0 13)).map (fun i =>
    (R.CTX_ENT_OWN (r.f 0 0 12 + i), setFld (s.stagedOr r.part (R.CTX_ENT_OWN (r.f 0 0 12 + i))) 6 1 0))) s

/-- The command `CTX_FREE` (0x0302). -/
def execCtxFree (dt : Nat) (c : Call) (s : State) : Host.Outcome State Fault Refusal :=
  .next (kilel 0x0302 (fun r _ => rangeOk (r.f 0 0 12) (r.f 1 0 13)) ctxFree dt c s)

/-- The selected entries among registers and their values: bit `i` of `sel` selects the `i`-th. -/
def selected (sel : Nat) (l : List (Nat × Word)) : Over :=
  (List.range l.length).filterMap (fun i => if sel / 2 ^ i % 2 = 1 then l[i]? else none)

/-- No entry sets a bit that its register reserves (R58). -/
def entriesDefined (es : Over) : Bool := es.all (fun e => definedBits e.1 e.2)

/-- The entries of `CTX_CONFIG`. -/
def ctxConfigEntries (r : Req) : Over :=
  selected (r.f 0 0 3) [(R.CTX_ENT_IRQ r.ctx, r.w 1), (R.CTX_ENT_QOS r.ctx, r.w 2), (R.CTX_ENT_MEM r.ctx, r.w 3)]

/-- The command `CTX_CONFIG` (0x0303). -/
def execCtxConfig (dt : Nat) (c : Call) (s : State) : Host.Outcome State Fault Refusal :=
  .next (kilel 0x0303 (fun r _ => entriesDefined (ctxConfigEntries r)) (fun r s => stageAnswer r (ctxConfigEntries r) s) dt c s)

/-- The partition registers that `PART_CONFIG` selects. -/
def partConfigEntries (r : Req) : Over :=
  let p := r.f 0 0 6
  selected (r.f 1 0 5) [(R.PART_CTRL p, r.w 2), (R.PART_DRAM_QUOTA p, r.w 3), (R.PART_LAT_DEFAULT p, r.w 4),
    (R.PART_STAGE_QUOTA p, r.w 5), (R.PART_POOL_QUOTA p, r.w 6)]

/-- An offset of CTX_RES_OWN that names a resource (Table 3-9). -/
def resOffset (o : Nat) : Bool := decide (o < 0x0A) || (decide (0x0C ≤ o) && decide (o < 0x44))

/-- The argument checks of `PART_CONFIG`. -/
def partConfigArgs (r : Req) (_ : State) : Bool :=
  let first := r.f 7 0 8
  let n := r.f 7 8 8
  entriesDefined ((partConfigEntries r).map (fun e => (e.1, if e.1 = R.PART_CTRL 0 then e.2 &&& ~~~1#32 else e.2))) &&
    (!bit (r.w 1) 5 || (decide (1 ≤ n) && decide (n ≤ 68) && (List.range n).all (fun i => resOffset (first + i))))

/-- The CTX_RES_OWN words that hold the bytes `first` to `first + n - 1`, those bytes set to PART. -/
def State.resEntries (s : State) (by_ p first n : Nat) : Over :=
  (List.range ((first + n + 3) / 4 - first / 4)).map (fun k =>
    let a := R.CTX_RES_OWN (first / 4 + k)
    (a, (List.range 4).foldl (fun v i =>
      let o := 4 * (first / 4 + k) + i
      if decide (first ≤ o ∧ o < first + n) then setFld v (8 * i) 8 p else v) (s.stagedOr by_ a)))

/-- `PART_CONFIG` (R82, Table 2-15). -/
def partConfig (r : Req) (s : State) : Ans :=
  stageAnswer r (partConfigEntries r ++
    (if bit (r.w 1) 5 then s.resEntries r.part (r.f 0 0 6) (r.f 7 0 8) (r.f 7 8 8) else [])) s

/-- The command `PART_CONFIG` (0x0304). -/
def execPartConfig (dt : Nat) (c : Call) (s : State) : Host.Outcome State Fault Refusal :=
  .next (kilel 0x0304 partConfigArgs partConfig dt c s)

/-- `VIOLATION_READ` (R110). -/
def violationRead (r : Req) (s : State) : Ans :=
  let p := r.f 0 0 6
  if r.part ≠ 0 ∧ (p ≠ r.part ∨ bit (r.w 0) 6) then .done St.NOT_PERMITTED [] s
  else
    let ws := (List.range 16).map (fun k => s.rd (R.CTX_VIOL_CNT p k)) ++ (List.range 4).map (fun k => s.rd (R.CTX_VIOL_LAST p k))
    .done St.OK ws (if bit (r.w 0) 6 then s.regClear (R.CTX_VIOL_CNT p 0) (R.CTX_VIOL_CNT (p + 1) 0) else s)

/-- The command `VIOLATION_READ` (0x0306). -/
def execViolationRead (dt : Nat) (c : Call) (s : State) : Host.Outcome State Fault Refusal :=
  .next (kilel 0x0306 (fun _ _ => true) violationRead dt c s)

/-- `EVQ_CONFIG`: the context's ring, with PROD, CONS and LOST at 0 (R113, R116); base 0 with n 0 removes it. -/
def evqConfig (r : Req) (s : State) : Ans :=
  .done St.OK [] (s.setEvq r.ctx { s.evq r.ctx with
    base := r.w64 0, n := r.f 2 0 4, prod := 0, cons := 0, lost := 0, lostTag := [] })

/-- The command `EVQ_CONFIG` (0x0307). -/
def execEvqConfig (dt : Nat) (c : Call) (s : State) : Host.Outcome State Fault Refusal :=
  .next (kilel 0x0307 (fun r _ => if r.f 2 0 4 = 0 then decide (r.w64 0 = 0)
    else decide (6 ≤ r.f 2 0 4) && decide (r.w64 0 % 4096 = 0)) evqConfig dt c s)

/-! ### Streams and statistics (R275, R452, R453) -/

/-- Stream `i` exists and is partition `p`'s. -/
def State.myStream (s : State) (p i : Nat) : Bool := decide (i ≤ 9) && decide (s.streamOwner i = p)

/-- `STREAM_OPEN` (R453). -/
def streamOpen (r : Req) (s : State) : Ans :=
  let i := r.f 0 0 4
  let ring := r.f 0 16 16
  if s.myStream r.part i && s.bindOk r.part ring false then
    stageAnswer r [(R.HLK_STREAM_CFG i, w32 (1 + ring * 65536))] s
  else .done St.BAD_ARGUMENT [] s

/-- The command `STREAM_OPEN` (0x0601). -/
def execStreamOpen (dt : Nat) (c : Call) (s : State) : Host.Outcome State Fault Refusal :=
  .next (kilel 0x0601 (fun _ _ => true) streamOpen dt c s)

/-- `STREAM_CLOSE` (R453): a commit of one entry, answered as `EPOCH_COMMIT`. -/
def streamClose (r : Req) (s : State) : Ans :=
  let i := r.f 0 0 4
  if !s.myStream r.part i then .done St.BAD_ARGUMENT [] s
  else if !s.bt (R.HLK_STREAM_CFG i) 0 then .done St.STATE_CONFLICT [] s
  else submitAnswer r (s.submit r.part r.ctx (s.closeEntry i) 0 [])

/-- The command `STREAM_CLOSE` (0x0602). -/
def execStreamClose (dt : Nat) (c : Call) (s : State) : Host.Outcome State Fault Refusal :=
  .next (kilel 0x0602 (fun _ _ => true) streamClose dt c s)

/-- The entries of a route: CRS_ROUTE for routes 0 to 6, for the histogram of scaler `route - 7` its destination and its
enable (R275). -/
def State.routeEntries (s : State) (p route ctx : Nat) (en : Bool) : Over :=
  if route < 7 then [(R.CRS_ROUTE route, w32 (ctx + b2n en * 4096))]
  else
    let o := route - 7
    [(R.CRS_SC_ROUTE o, w32 ctx), (R.CRS_SC_CFG o, setFld (s.stagedOr p (R.CRS_SC_CFG o)) 0 1 (b2n en))]

/-- `STATS_ROUTE` (R275): the route is staged, and the context's statistics ring is bound at once (R452). -/
def statsRoute (route ctx : Nat) (en : Bool) (ring : Nat) (r : Req) (s : State) : Ans :=
  if !s.owns r.part ctx || !s.bindOk r.part ring false then .done St.BAD_ARGUMENT [] s
  else match stageAnswer r (s.routeEntries r.part route ctx en) s with
    | .done st pay s' =>
      if st = St.OK then .done st pay { s' with crs := { s'.crs with ring := tabSet (fun _ => 0) s'.crs.ring ctx (ring + 1) } }
      else .done st pay s'
    | a => a

/-- The command `STATS_ROUTE` (0x0604). -/
def execStatsRoute (dt : Nat) (c : Call) (route : Fin 15) (ctx : Fin 4096) (en : Bool) (ring : Fin 16384) (s : State) :
    Host.Outcome State Fault Refusal :=
  .next (kilel 0x0604 (fun _ _ => true) (statsRoute route ctx en ring) dt c s)

end Sys2Proof.Machine
end

