-- ==== Sys2Proof/Machine/Cpl.lean ====
section
/-!
DEFINITION. The colour pipeline's and cruise statistics' own commands (chapters 9 and 10): the start of a development, a
scaler's output record, a statistics record, and `PIPE_STATUS`.
-/

set_option Elab.async false

namespace Sys2Proof.Machine

/-- The frame the pipeline develops next: the oldest tapped one with its first 16 rows in the buffer (R243). -/
def State.devNext (s : State) : Option Frame :=
  s.ing.frames.find? (fun f => f.tap.isSome &&
    (List.range (min 16 (s.frameHeight f.epoch))).all (fun y => s.corrected f y))

/-- Scaler `o` starts its output of frame `f`: overhanging crop, buffer pick, tone curves (R251, R254, R258, R259). -/
def State.scStart (s : State) (f : Frame) (lutUe : List (Fin 8 × Fin 3)) (o : Nat) (d : Dev) : Dev × State :=
  let e := f.epoch
  let (dw, dh) := s.devSize e
  let xy := s.cfg e (R.CPL_SC_CROP_XY o)
  let wh := s.cfg e (R.CPL_SC_CROP_WH o)
  let hang := decide (dw < fld xy 0 16 + fld wh 0 16) || decide (dh < fld xy 16 16 + fld wh 16 16)
  let s := if hang && decide ((s.scaler o).clipEpoch ≠ some e) then
      ((s.setScaler o { s.scaler o with clipEpoch := some e }).bump (R.CPL_SC_CLIP o) 0 32 1).scEvent e f.no o 0x06A2 o
    else s
  match s.pickBuf e o with
  | none =>
    let s := s.bump (R.CPL_SC_DROP o) 0 32 1
    (d, if (s.scaler o).dropRun then s
        else (s.setScaler o { s.scaler o with dropRun := true }).scEvent e f.no o 0x06A1 o)
  | some b =>
    let x := s.scaler o
    let s := s.setScaler o { x with dropRun := false, done := x.done.filter (fun y => y.buf ≠ b) }
    let lut := s.readLut e o
    let ctx := s.cf e (R.CPL_SC_CTX o) 0 12
    let at_ := fun c => s.cfAddr e (R.CPL_SC_LUT_LO o) (R.CPL_SC_LUT_HI o) + 0xA00 * c
    let hurt := fun (c : Fin 3) => lutUe.any (fun u => decide (u.1.val = o) && decide (u.2 = c)) || s.poisoned (at_ c.val) 2050
    let bad := [(0 : Fin 3), 1, 2].filter (fun c => decide (c.val < lut.length) && hurt c)
    let s := s.dmaGets Port.cplRd ctx ((List.range lut.length).map (fun c => (at_ c, 2050)))
    let s := bad.foldl (fun s c => s.faultItem Src.CPL 2 o c [Fin.ofNat 4096 ctx]) s
    let x : DevOut := { sc := o, buf := b, lut := if bad.isEmpty then lut else [] }
    ({ d with todo := d.todo ++ [x], outs := d.outs ++ [x] }, s)

/-- The pipeline takes frame `f`; each scaler that outputs it picks its buffer (R243). -/
def State.devBegin (s : State) (f : Frame) (tapUe : List (Nat × Nat × Nat)) (lutUe : List (Fin 8 × Fin 3)) : State :=
  let slot := f.tap.getD 0
  let tapUe := tapUe ++ s.tapHurt f.epoch slot
  let s := s.dmaGet Port.cplRd 0 (s.tapBase f.epoch slot) (tapBytes (s.frameWidth f.epoch) (s.frameHeight f.epoch))
  let s := tapUe.foldl (fun s u => s.faultItem Src.CPL 1 slot (u.1 % 65536) []) s
  let d : Dev := { no := f.no, slot := slot, todo := [], outs := [], tapUe := tapUe }
  let os := selIdx 8 (fun o => s.outputs f.epoch o f.no)
  let (d, s) := os.foldl (fun (a : Dev × State) o => a.2.scStart f lutUe o a.1) (d, s)
  (({ s with cpl := { s.cpl with dev := some d } }).wrF R.CPL_STAT 0 2 (1 + 2 * slot)).devSettle

/-- DEVELOPMENT_START: the pipeline is free and takes the next frame (R243). -/
def execDevelopmentStart (dt : Nat) (tapUe : List (Nat × Nat × Nat)) (lutUe : List (Fin 8 × Fin 3)) (s : State) :
    Host.Outcome State Fault Refusal :=
  let s := s.tick dt
  .next (match s.cpl.dev, s.devNext with
  | none, some f => s.devBegin f tapUe lutUe
  | _, _ => s)

/-- Drop the bytes of `n` from buffers taken in turn; a buffer carries one item only (R449). -/
def useBufs : List Nat → Nat → List Nat
  | [], _ => []
  | b :: bs, n => if n = 0 then b :: bs else useBufs bs (n - b)

/-- The ring can take a further item of `size` bytes behind those that wait (R454). -/
def State.canQueue (s : State) (r size : Nat) : Bool :=
  let x := s.ring r
  let lens := (x.taken.filter (fun t => !t.bad)).map (fun t => t.desc.len.toNat)
  let lens := match lens with | b :: bs => (b - x.bufPos) :: bs | [] => []
  let left := (s.items.filter (fun i => i.ring = r)).foldl (fun l i => useBufs l (i.size - i.pos)) lens
  s.bme (s.ringFn r) && decide (size ≤ left.sum)

/-- The host stream of scaler `o` takes the buffer, or its ring cannot (R452, R454, R456). -/
def State.scHost (s : State) (e o b size : Nat) : State :=
  if s.cf e (R.HLK_STREAM_CFG (2 + o)) 0 1 = 0 || s.cf e (R.CPL_SC_CFG o) 13 1 = 0 then s
  else
    let r := s.cf e (R.HLK_STREAM_CFG (2 + o)) 16 14
    if !s.ringOn r then s.countDrop r 2
    else if s.ringIn r then s.countDrop r 3
    else if !s.canQueue r size then s.countDrop r 0
    else (s.hold { sc := o, buf := b, who := 2, what := 0 }).arrive
      { ring := r, kind := 3, epoch := e, size := size, runs := [(s.scBuf e o b, size)], ctx := s.cf e (R.CPL_SC_CTX o) 0 12
        staged := false, scaler := some (o, b) }

/-- Scaler `o` writes the planes and then the output record `x` of frame `f`, which development `d` holds (R257, R258, R261). -/
def State.scRecord (s : State) (o : Nat) (d : Dev) (x : DevOut) (f : Frame) : State :=
  let e := f.epoch
  let cfg := s.cfg e (R.CPL_SC_CFG o)
  let out := s.cfg e (R.CPL_SC_OUT_WH o)
  let st := s.cfg e (R.CPL_SC_STRIDE o)
  let fmt := fld cfg 2 3
  let w := fld out 0 16
  let h := fld out 16 16
  let base := s.scBuf e o x.buf
  let ctx := s.cf e (R.CPL_SC_CTX o) 0 12
  let pic := s.scaled e o x.lut (s.devPicture f d)
  let shapes := planeShapes fmt h (fld st 0 16) (fld st 16 16)
  let (offs, size) := planeOffsets shapes
  let planes := packPlanes fmt (bit cfg 7) (bit cfg 8) w h pic
  let s := (List.range planes.length).foldl (fun s k =>
    let rows := planes.getD k []
    (List.range rows.length).foldl (fun s y =>
      s.dmaPut Port.scWr ctx (base + nth offs k + (shapes.getD k (0, 0)).2 * y) (rows.getD y [])) s) s
  let s := s.dmaPut Port.scWr ctx base (tagBytes s.dev e ctx Kind.scaler f.no Src.CPL f.flags ++
    leBytes 1 (o + x.buf * 8 + fmt * 32) ++ leBytes 3 0 ++ leBytes 2 w ++ leBytes 2 h)
  let b : OutBuf := { buf := x.buf, frame := f.no, epoch := e, flags := f.flags, tF := f.tF, w := w, h := h
                      fmt := fmt, strideY := fld st 0 16, strideC := fld st 16 16, addr := base, at_ := s.now
                      owner := s.resOwnerAt e o, destMon := bit cfg 11 }
  let s := s.setScaler o { s.scaler o with done := (s.scaler o).done ++ [b] }
  let s := (s.wrF (R.CPL_SC_STAT o) 0 2 x.buf).wrs
    [(R.CPL_SC_LAST_LO o, w32 f.no), (R.CPL_SC_LAST_HI o, w32 (f.no / 2 ^ 32 % 256))]
  let s := if bit cfg 14 then s.scEvent e f.no o 0x06A3 (o + x.buf * 8) else s
  let s := s.scHost e o x.buf size
  let s := s.vcOutput o b (bit cfg 7) (bit cfg 8) (bit cfg 12)
  ({ s with cpl := { s.cpl with dev := some { d with todo := d.todo.erase x } } }).devSettle

/-- SCALER_OUTPUT_RECORD: the planes and then the output record of a scaler are written (R257, R258, R261). -/
def execScalerOutputRecord (dt : Nat) (scaler : Fin 8) (s : State) : Host.Outcome State Fault Refusal :=
  let s := s.tick dt
  .next (match s.cpl.dev with
  | none => s
  | some d =>
    match d.todo.find? (fun x => x.sc = scaler.val), s.ing.frames.find? (fun f => f.no = d.no) with
    | some x, some f => if !f.tapDone || !f.closed then s else s.scRecord scaler d x f
    | _, _ => s)

/-- Record `x` is discarded; the first of a run of discards is reported (R278). -/
def State.statsDrop (s : State) (x : Stat) : State :=
  let s := s.bump R.CRS_DROP_CNT 0 32 1
  if s.crs.dropRun then s
  else
    let s := { s with crs := { s.crs with dropRun := true } }
    let arg := x.point + x.scaler * 4 + (x.kind - 1) * 32
    if x.point = 3 then
      let p := s.resOwnerAt x.epoch x.scaler
      let c := s.cf x.epoch (R.CPL_SC_CTX x.scaler) 0 12
      s.raiseIf (s.ownsAt x.epoch p c) p (s.evOf x.epoch x.frame c 0x06B0 St.OK Src.CRS arg)
    else s.raiseOf x.epoch x.frame 0 0x06B0 St.OK Src.CRS arg

/-- STATS_RECORD_COMPLETE: the next record due enters the chute to HLK; it is discarded whole where the chute cannot take
it (`full`) or its accumulator failed parity (R276, R278). -/
def execStatsRecordComplete (dt : Nat) (full parity : Bool) (s : State) : Host.Outcome State Fault Refusal :=
  let s := s.tick dt
  .next (match s.crs.due with
  | [] => s
  | x :: rest =>
    let s := { s with crs := { s.crs with due := rest } }
    let r := tabGet (fun _ => 0) s.crs.ring x.ctx
    if parity then
      (s.bump R.CRS_DROP_CNT 0 32 1).faultItem Src.CRS 1 x.point x.kind [Fin.ofNat 4096 x.ctx]
    else if full || r = 0 then
      s.statsDrop x
    else
      ({ s with crs := { s.crs with dropRun := false } }).stage
        { ring := r - 1, kind := 4, epoch := x.epoch, ctx := (r - 1) / 4 }
        (tagBytes s.dev x.epoch x.ctx Kind.stats x.frame Src.CRS x.flags ++ x.rest))

/-- `PIPE_STATUS` (R265): the pipeline's status and that of each scaler the caller owns. -/
def pipeStatus (r : Req) (s : State) : Ans :=
  .done St.OK ([s.rd R.CPL_STAT, s.rd R.CPL_DEV_FRAME_LO, s.rd R.CPL_DEV_FRAME_HI] ++
    (selIdx 8 (fun o => decide (s.resOwner o = r.part))).flatMap (fun o =>
      [s.rd (R.CPL_SC_STAT o), s.rd (R.CPL_SC_LAST_LO o), s.rd (R.CPL_SC_LAST_HI o)])) s

/-- The command `PIPE_STATUS` (0x0603). -/
def execPipeStatus (dt : Nat) (c : Call) (s : State) : Host.Outcome State Fault Refusal :=
  .next (kilel 0x0603 (fun _ _ => true) pipeStatus dt c s)

end Sys2Proof.Machine
end

