-- ==== Sys2Proof/Machine/Maint.lean ====
section
/-!
DEFINITION. Maintenance activities (R504 to R507, R326, R153): requests, the order in which deferred ones start, their steps
and their ends.
-/

set_option Elab.async false

namespace Sys2Proof.Machine

/-- Activities `a` and `b` conflict (Table 19-8). -/
def actConflict (a b : Nat) : Bool :=
  if a = 1 then decide (b = 1 ∨ b = 2 ∨ b = 4) else if a = 2 then decide (b = 1 ∨ b = 2)
  else if a = 3 then decide (b = 3) else decide (b = 4 ∨ b = 1)

/-- The activities. -/
def State.setActs (s : State) (l : List Act) : State := { s with pwr := { s.pwr with acts := l } }

/-- Activity `a` replaces the one of its number. -/
def State.putAct (s : State) (a : Act) : State := s.setActs (s.pwr.acts.map (fun x => if x.id = a.id then a else x))

/-- The running activity of a code. -/
def State.runningAct (s : State) (code : Nat) : Option Act :=
  s.pwr.acts.find? (fun a => a.running && decide (a.code = code))

/-- An activity of this code may start now: not while throttling (R485), not while an activity among `l` conflicts, and an
NV_SCRUB not while an image session is open (Table 19-8). -/
def State.actFree (s : State) (code : Nat) (l : List Act) : Bool :=
  !s.throttled && !l.any (fun a => actConflict code a.code) && !(decide (code = 3) && s.pwr.imgOpen.isSome)

/-- A scheduled DRAM_RETRAIN waits while a slot is ARMED or RECORDING and, without LIVE, while the sensor link is up
(R326). -/
def State.schedWaits (s : State) (a : Act) : Bool :=
  a.sched && (s.anyArmed || (s.linkUp && !s.bt R.DMC_RETRAIN 16))

/-- Channels of an activity's mask word, 0 meaning all (Table 19-8). -/
def chanMask (m : Nat) : List Nat := selIdx 32 (fun c => decide (m = 0) || decide (m / 2 ^ c % 2 = 1))

/-- Activity `a` starts. -/
def State.actStart (s : State) (a : Act) : State :=
  let (chans, before) := if a.code = 1 then (chanMask (nth a.words 0), (List.range 32).map s.trainedTo) else ([], [])
  let a := { a with running := true, startAt := s.now, stepAt := s.now, chans := chans, before := before }
  let s := s.setActs (a :: s.pwr.acts.filter (fun x => decide (x.id ≠ a.id)))
  if a.code ≠ 1 then s
  else
    let s := { s.bump R.DMC_TRAIN_STAT 16 16 1 with pwr := { s.pwr with retrainAt := s.now } }
    match a.chans with
    | c :: _ => s.wrF (R.DMC_CH_STAT c) 2 1 1
    | [] => s

/-- Bytes of the eye scan's grid: 64 phase steps × 63 voltage steps of 32-bit counts for each lane named (R153). -/
def eyeBytes (words : List Nat) : Nat := 4 * 64 * 63 * (selIdx 64 (fun l =>
  decide ((if l < 32 then nth words 0 / 2 ^ l else nth words 1 / 2 ^ (l - 32)) % 2 = 1))).length

/-- The payload of the answer that a waiting `MAINT_START` gets: ACT_ID in word 0 (R504), with OUT_USED before it where an
output buffer was written (R68), or the ROOT_ID of a failure (R77, R122). -/
def Act.payload (a : Act) (status : Nat) : List Word :=
  if status = St.HW_FAULT then [w32 a.root]
  else if a.code = 2 && decide (status = St.OK) then [w32 (eyeBytes a.words), w32 a.id]
  else [w32 a.id]

/-- Activity `a` completes with a status: MAINT_DONE to the requesting context, and the waiting command is answered (R504,
R507, R508). -/
def State.actEnd (s : State) (a : Act) (status : Nat) : State :=
  let s := s.setActs (s.pwr.acts.filter (fun x => decide (x.id ≠ a.id)))
  let s := if a.code = 1 && a.running then (List.range 32).foldl (fun s c => s.wrF (R.DMC_CH_STAT c) 2 1 0) s else s
  let s := s.raise a.ctx 0x0C01 status Src.AON (a.id + a.code * 256)
  s.finish (fun k => match k with | .maint i => decide (i = a.id) | _ => false) status (a.payload status)

/-! ### `MAINT_START`, `MAINT_STATUS`, `MAINT_CANCEL` -/

/-- The words of each activity (Table 19-8), with their reserved bits 0; a DMA block comes with the eye scan only. -/
def maintArgs (r : Req) (_ : State) : Bool :=
  let code := (r.w 0).toNat
  let len := r.pay.length
  if code = 1 then decide (len = 2) && !r.dma
  else if code = 2 then decide (len = 4) && r.dma && decide ((r.w 3).toNat ≤ 13)
  else decide (code = 3 ∨ code = 4) && decide (len = 1) && !r.dma

/-- The next ACT_ID that no activity carries. -/
def State.actId (s : State) : Nat :=
  ((List.range 256).map (fun i => (s.pwr.actNext + i) % 256)).find? (fun i => !s.pwr.acts.any (fun a => decide (a.id = i)))
    |>.getD 0

/-- A request joins the activities, running or deferred. -/
def State.actRequest (s : State) (a : Act) : State × Bool :=
  let s := { s with pwr := { s.pwr with actNext := (a.id + 1) % 256 } }
  if s.actFree a.code s.pwr.acts && !s.schedWaits a then (s.actStart a, true) else (s.setActs (s.pwr.acts ++ [a]), false)

/-- `MAINT_START` (R504, R505, R507). A LANE_EYE_SCAN without WAIT is answered at its start (R504), before its output is
written (log entry 94). -/
def maintStart (r : Req) (s : State) : Ans :=
  let code := (r.w 0).toNat
  let words := (r.pay.drop 1).map (·.toNat)
  let a : Act := { id := s.actId, code := code, ctx := r.ctx, words := words, addr := r.outAddr, len := r.outLen
                   running := false, startAt := s.now }
  if code = 4 ∧ s.fd R.DMC_INFO 10 2 < 2 then .done St.STATE_CONFLICT [] s
  else if code ≤ 2 ∧ s.anyArmed = true then .done St.REFUSED_ARMED [] s
  else if code = 2 ∧ r.outLen < eyeBytes words then .done St.BUFFER_SMALL [w32 (eyeBytes words)] s
  else if s.actFree code s.pwr.acts = false ∧ 8 ≤ (s.pwr.acts.filter (fun x => !x.running)).length then
    .done St.QUEUE_FULL [] s
  else
    let (s, run) := s.actRequest a
    if r.wait then .wait (.maint a.id) s else .done (if run then St.OK else St.DEFERRED) [w32 a.id] s

/-- The command `MAINT_START` (0x0C01). -/
def execMaintStart (dt : Nat) (c : Call) (s : State) : Host.Outcome State Fault Refusal :=
  .next (kilel 0x0C01 maintArgs maintStart dt c s)

/-- The words of `MAINT_STATUS` (R506). -/
def Act.word (a : Act) : Word := w32 (a.id + a.code * 256 + (if a.running then 1 else 2) * 65536 + a.pct * 2 ^ 24)

/-- The command `MAINT_STATUS` (0x0C02). -/
def execMaintStatus (dt : Nat) (c : Call) (s : State) : Host.Outcome State Fault Refusal :=
  .next (kilel 0x0C02 (fun _ _ => true) (fun _ s => .done St.OK (s.pwr.acts.map Act.word) s) dt c s)

/-- `MAINT_CANCEL` (R506). -/
def maintCancel (id : Nat) (_ : Req) (s : State) : Ans :=
  match s.pwr.acts.find? (fun a => decide (a.id = id)) with
  | none => .done St.BAD_ARGUMENT [] s
  | some a =>
    if !a.running || decide (a.startAt = s.now) then .done St.OK [] (s.actEnd a St.ABORTED_NOT_STARTED)
    else .done St.OK [] (s.putAct { a with abort := true })

/-- The command `MAINT_CANCEL` (0x0C03). -/
def execMaintCancel (dt : Nat) (c : Call) (act : Fin 256) (s : State) : Host.Outcome State Fault Refusal :=
  .next (kilel 0x0C03 (fun _ _ => true) (maintCancel act) dt c s)

/-! ### Starts -/

/-- The scheduled retraining is due: it is on, its time has come, none is requested, firmware serves (R326), and it may start or be
deferred (R505). -/
def State.schedDue (s : State) : Bool :=
  let sec := s.fd R.DMC_RETRAIN 0 16
  decide (sec ≠ 0) && decide (s.pwr.retrainAt + sec * 10 ^ 9 ≤ s.now) && !s.pwr.acts.any (·.sched) &&
    s.bt (R.MBX 0 0x04) 0 && !s.camp &&
    (s.actFree 1 s.pwr.acts || decide ((s.pwr.acts.filter (fun x => !x.running)).length < 8))

/-- SCHEDULED_RETRAIN_DUE: DMC_RETRAIN_S seconds after the last start firmware requests a DRAM_RETRAIN for ctx 0 (R326). -/
def execScheduledRetrainDue (dt : Nat) (s : State) : Host.Outcome State Fault Refusal :=
  let s := s.tick dt
  .next (if !s.schedDue then s
    else (s.actRequest { id := s.actId, code := 1, ctx := 0, words := [0], addr := 0, len := 0, running := false
                         startAt := s.now, sched := true }).1)

/-- The first deferred activity that may start, each waiting for those requested before it that it conflicts with (R505). -/
def State.nextDeferred (s : State) (before : List Act) : List Act → Option Act
  | [] => none
  | a :: r => if s.actFree a.code before && !s.schedWaits a then some a else s.nextDeferred (before ++ [a]) r

/-- Deferred activity `a` starts, or completes REFUSED_ARMED (R505). -/
def State.deferStart (s : State) (a : Act) : State :=
  if a.code ≤ 2 && s.anyArmed then s.actEnd a St.REFUSED_ARMED
  else (s.actStart a).raise 0 0x0C02 St.OK Src.AON (a.id + a.code * 256)

/-- DEFERRED_ACTIVITY_START: the first deferred activity that nothing blocks starts, or completes REFUSED_ARMED (R505). -/
def execDeferredActivityStart (dt : Nat) (s : State) : Host.Outcome State Fault Refusal :=
  let s := s.tick dt
  .next (match s.nextDeferred (s.pwr.acts.filter (·.running)) (s.pwr.acts.filter (fun a => !a.running)) with
    | none => s
    | some a => s.deferStart a)

/-! ### Steps and ends -/

/-- What a stopped DRAM_RETRAIN leaves: its results so far in the training record (R324, R326), or, where an armed slot stopped it,
the values that its channels had, under the record as it stands (R505). -/
def State.retrainStop (s : State) (a : Act) : State :=
  if a.armed then a.before.zipIdx.foldl (fun s e => s.setTrained e.2 e.1) s else s.putTraining.wrF R.DMC_TRAIN_STAT 2 1 1

/-- An activity at a step boundary: it ends when it is to stop (R505, R506), waits while throttling holds (R485), or goes on. -/
def State.atStep (s : State) (code : Nat) (go : Act → State → State) : State :=
  match s.runningAct code with
  | none => s
  | some a =>
    if a.abort then (if code = 1 then s.retrainStop a else s).actEnd a St.ABORTED else if s.throttled then s else go a s

/-- Percent done after `k` steps of a DRAM_RETRAIN. -/
def retrainPct (a : Act) : Nat :=
  let total := (chanMask (nth a.words 0)).length
  if total = 0 then 100 else (16 * (total - a.chans.length) + a.step) * 100 / (16 * total)

/-- One step of the channel at the front, which it holds for at most 2 µs: after 16 it is retrained; a failure leaves its values
and ends it (R326, Table 12-6). -/
def State.retrainStep (fail : Bool) (a : Act) (s : State) : State :=
  match a.chans with
  | [] => s
  | c :: r =>
    if s.now < a.stepAt + 10 ^ 6 then s
    else
      let over_ := fail || decide (15 ≤ a.step)
      let s := if over_ && !fail then s.trainFull c else s
      let (v, s) := s.fresh
      let s := { s with dmc := { s.dmc.holdTo c (s.now + v % 2001) with held := true } }
      let s := if fail then s.faultItem Src.DMC 3 c a.step [] else s
      let root := if fail && !a.failed then s.rootId Src.DMC 3 c else a.root
      let b := { a with stepAt := s.now, failed := a.failed || fail, root := root, chans := if over_ then r else a.chans
                        step := if over_ then 0 else a.step + 1 }
      let s := s.putAct { b with pct := retrainPct b }
      if over_ then
        let s := s.wrF (R.DMC_CH_STAT c) 2 1 0
        match r with
        | d :: _ => s.wrF (R.DMC_CH_STAT d) 2 1 1
        | [] => s
      else s

/-- DRAM_RETRAIN_STEP: a step of the channel in retraining, at least 1 ms after the one before; `fail`: it fails (R326). -/
def execDramRetrainStep (dt : Nat) (fail : Bool) (s : State) : Host.Outcome State Fault Refusal :=
  .next ((s.tick dt).atStep 1 (State.retrainStep fail))

/-- Every channel of the retraining is done: its results go to the training record (R324, R326). -/
def State.retrainDone (a : Act) (s : State) : State :=
  if a.chans ≠ [] then s
  else (s.putTraining.wrF R.DMC_TRAIN_STAT 2 1 1).actEnd a (if a.failed then St.HW_FAULT else St.OK)

/-- DRAM_RETRAIN_DONE: every channel is done, and the results go to the training record (R326, R324). -/
def execDramRetrainDone (dt : Nat) (s : State) : Host.Outcome State Fault Refusal :=
  .next ((s.tick dt).atStep 1 State.retrainDone)

/-- The eye scan is over: its grid goes by DMA (R153). -/
def State.eyeDone (counts : List Word) (outOk : Bool) (a : Act) (s : State) : State :=
  let n := eyeBytes a.words
  let given := (wordBytes counts).take n
  let (rest, s) := s.freshBytes (n - given.length)
  if !outOk || !s.bme 0 then s.actEnd a St.DMA_ERROR
  else (if n = 0 then s else s.emit (.host 0 a.addr (given ++ rest))).actEnd a St.OK

/-- LANE_EYE_SCAN_DONE: the grid goes by DMA, lanes in order; counts not given are open (R153). `outOk`: the write met no
error. -/
def execLaneEyeScanDone (dt : Nat) (counts : List Word) (outOk : Bool) (s : State) : Host.Outcome State Fault Refusal :=
  .next ((s.tick dt).atStep 2 (State.eyeDone counts outOk))

/-- Every NV block has been read (R507). -/
def State.nvScrubbed (a : Act) (s : State) : State :=
  if s.pwr.imgOpen.isSome || !s.nvRange then s else s.actEnd a St.OK

/-- NV_SCRUB_DONE: every NV block has been read; it pauses while an image session is open or Tj is out of range (R507). -/
def execNvScrubDone (dt : Nat) (s : State) : Host.Outcome State Fault Refusal :=
  .next ((s.tick dt).atStep 3 State.nvScrubbed)

/-- One stored error met by the scrub: a corrected line is rewritten, an uncorrectable one raises DRAM_UE (R507, R327). -/
def State.scrub1 (s : State) (line kind : Nat) : State :=
  if kind = 1 then
    let s := s.dramCe line
    { s with dmc := { s.dmc with err := tabSet (fun _ => 0) s.dmc.err line 0 } }
  else s.dramUe 0 line

/-- Every DRAM line has been read, at 1 GB/s, and corrected lines rewritten (R507). -/
def State.dramScrubbed (a : Act) (s : State) : State :=
  if s.now < a.startAt + s.dramMiB * 0x100000 then s
  else ((s.dmc.err.filter (fun e => decide (0x8000000000 ≤ e.1))).foldl (fun s e => s.scrub1 e.1 e.2) s).actEnd a St.OK

/-- DRAM_SCRUB_DONE: every line has been read and corrected lines rewritten (R507). -/
def execDramScrubDone (dt : Nat) (s : State) : Host.Outcome State Fault Refusal :=
  .next ((s.tick dt).atStep 4 State.dramScrubbed)

end Sys2Proof.Machine
end

