-- ==== Sys2Proof/Machine/RegWrite.lean ====
section
/-!
DEFINITION. Register access by the host (R69 to R73, R529): `REG_READ`, `REG_WRITE`, the BAR2 window, and what a write of a
register that has a behaviour of its own does.
-/

set_option Elab.async false

namespace Sys2Proof.Machine

/-! ### Ring registers (R445, R451) -/

/-- A write of HLK_RING_CTRL of ring `r` that changes EN or the ring's set-up; `more`: bytes of the current buffer written
before a stop. What setting EN does not name stays: blocks read, the run of drops, the gap of RING_CPL. -/
def State.ringCtrl (s : State) (r : Nat) (v : Word) (more : Nat) : State :=
  let a := R.HLK_RING_CTRL r
  let old := s.rd a
  let v := v &&& w32 (regMask a)
  let n := fld v 2 4
  let poll := fld v 6 7
  let bad := decide (n < 4) || decide (14 < n) || decide (poll < 1) || decide (100 < poll)
  if bad || (bit old 0 && decide (v ≠ setFld old 0 1 (b2n (bit v 0)))) then s.bump R.HLK_ERR 0 16 1
  else if bit old 0 then
    (if bit v 0 then s else s.stopRing r St.ABORTED St.ABORTED_NOT_STARTED 0 0 more)
  else if bit v 0 then
    let x := s.ring r
    (s.wrs [(a, v), (R.HLK_RING_STAT r, 1)]).setRing r
      { blocks := x.blocks, dropRun := x.dropRun, lastCpl := x.lastCpl, cplPend := x.cplPend }
  else s.wr a v

/-- A write of another register of ring `r`, discarded and counted while EN is set. -/
def State.ringReg (s : State) (r a : Nat) (v : Word) : State :=
  if s.ringOn r then s.bump R.HLK_ERR 0 16 1 else s.wr a (v &&& w32 (regMask a))

/-! ### One register write -/



/-- A write of EVT_ROOT_CLOSE: it closes the open record that has this ROOT_ID (R124). -/
def State.rootCloseWrite (s : State) (v : Word) : State :=
  match s.evt.roots.find? (fun r => r.open_ && decide (r.id = v.toNat)) with
  | some r => s.closeRoot r
  | none => s

/-- What a write does to a register that the writer owns, in row `r` at `a`. `more`: as for
`ringCtrl`. -/
def State.putReg (s : State) (a : Nat) (r : RegRow) (v : Word) (more : Nat) : State :=
  let i := r.idx1 a
  if a = R.EVT_ROOT_CLOSE then s.rootCloseWrite v
  else if r.base = R.LNA_PRBS_CTRL 0 then s.prbsWrite i v
  else if a = R.BKC_KEY_REQ then s.keyReq v
  else if a = R.BKC_JOB_PROD then s.jobProd v
  else if a = R.BKC_JOB_BASE_LO ∨ a = R.BKC_JOB_BASE_HI ∨ a = R.BKC_JOB_CTRL then s.jobSetup a v
  else if a = R.BKC_JOB_ABORT then s.jobAbort (fld v 0 16)
  else if r.base = R.SPD_BANK_HO 0 then
    (if s.hoRefused i v then s.wrF (R.SPD_BANK_OWN i) 7 1 1 else s.hoAccept i v)
  else if r.base = R.HLK_RING_CTRL 0 then s.ringCtrl i v more
  else if r.own = .ring then (if r.ty = .rw then s.ringReg i a v else s)
  else if r.base = R.CBS_I2C_XFER 0 then s.i2cXferWrite i v
  else if a = R.AON_BOOT_STAT then s
  else s.wr a (plainValue r a (s.rd a) v)

/-- A write of the word `v` at `a` by partition `p`, charged to context `ctx` (R70, R7, R8, R529). Settings registers are
not written here. -/
def State.writeAt (s : State) (p ctx a : Nat) (v : Word) (more : Nat) : State :=
  match s.where_ a with
  | .nowhere => s.viol p Viol.noWindow ctx a
  | .spd =>
    if s.spdMay p a then (s.spdTouch 4 true (spdWord a)).2.2.store a (leBytes 4 v.toNat) else s.viol p Viol.bank ctx a
  | .dram =>
    if a < s.fwBase && s.inPart p a 4 then (s.ask Port.hlk ctx a 4).eccStore ctx a (leBytes 4 v.toNat) else s.viol p Viol.dram ctx a
  | .window =>
    if a / 0x100000000 = 0x10 then s.viol p Viol.reg ctx a
    else match regRow a with
      | none => s
      | some r =>
        if a = R.CBS_GPIO_SET then s.gpioWrite p ctx true v.toNat
        else if a = R.CBS_GPIO_CLR then s.gpioWrite p ctx false v.toNat
        else if s.mayWrite p r a then s.putReg a r v more
        else s.viol p Viol.reg ctx a

/-! ### `REG_READ` and `REG_WRITE` -/

/-- The address of `REG_READ` and `REG_WRITE`. -/
def Req.regAddr (r : Req) : Nat := (r.w 0).toNat + r.f 1 0 8 * 2 ^ 32

/-- The argument checks of R69. -/
def regReadArgs (r : Req) (_ : State) : Bool :=
  decide (r.pay.length = 2) && decide (r.regAddr % 4 = 0) && decide (1 ≤ r.f 1 8 8) && decide (r.f 1 8 8 ≤ 59) &&
    decide (r.f 1 16 16 = 0)

/-- `REG_READ` (R69): STATE_CONFLICT where a scratchpad port answered BUSY (R336). -/
def regRead (r : Req) (s : State) : Ans :=
  let (vs, busy, s') := s.readRun r.part r.ctx r.regAddr (r.f 1 8 8)
  if busy then .done St.STATE_CONFLICT [] s' else .done St.OK (w32 s.ep.epoch :: vs) s'

/-- The command `REG_READ` (0x0102). -/
def execRegRead (dt : Nat) (c : Call) (s : State) : Host.Outcome State Fault Refusal :=
  .next (kilel 0x0102 regReadArgs regRead dt c s)

/-- The argument checks of R70. -/
def regWriteArgs (r : Req) (_ : State) : Bool :=
  decide (r.pay.length = 2 + r.f 1 8 8) && decide (r.regAddr % 4 = 0) && decide (1 ≤ r.f 1 8 8) && decide (r.f 1 8 8 ≤ 58) &&
    decide (r.f 1 16 16 = 0)

/-- The target is a bank's handover register whose write by partition `p` would be refused (R335). -/
def State.hoBad (s : State) (p a : Nat) (v : Word) : Bool :=
  decide (R.SPD_BANK_HO 0 ≤ a) && decide (a < R.SPD_BANK_HO 64) &&
    (match regRow a with | some r => s.mayWrite p r a | none => false) && s.hoRefused ((a - R.SPD_BANK_HO 0) / 4) v

/-- The writes of a `REG_WRITE`, lowest address first. -/
def State.writeRun (s : State) (p ctx : Nat) : List (Nat × Word) → State
  | [] => s
  | (a, v) :: l => (s.writeAt p ctx a v 0).writeRun p ctx l

/-- `REG_WRITE` (R70, R335). -/
def regWrite (r : Req) (s : State) : Ans :=
  let l := (List.range (r.f 1 8 8)).map (fun i => (r.regAddr + 4 * i, r.w (2 + i)))
  if l.any (fun e => isSetting e.1) then .done St.SETTINGS_REGISTER [] s
  else if l.any (fun e => s.hoBad r.part e.1 e.2) then .done St.STATE_CONFLICT [] s
  else .done St.OK [] (s.writeRun r.part r.ctx l)

/-- The command `REG_WRITE` (0x0103). -/
def execRegWrite (dt : Nat) (c : Call) (s : State) : Host.Outcome State Fault Refusal :=
  .next (kilel 0x0103 regWriteArgs regWrite dt c s)

/-! ### BAR2 (R71 to R73) -/

/-- The command `BAR2_ENABLE` (0x0104). -/
def execBar2Enable (dt : Nat) (c : Call) (s : State) : Host.Outcome State Fault Refusal :=
  .next (kilel 0x0104 (fun _ _ => true) (fun r s =>
    .done St.OK [] ((s.wrF (R.MBX 0 0x04) 2 1 (r.f 0 0 1)).wrF (R.MBX 0 0x24) 31 1 (r.f 0 0 1))) dt c s)

/-- The BAR2 window is open. -/
def State.bar2On (s : State) : Bool := s.bt (R.MBX 0 0x04) 2

/-- The internal address that BAR2 offset `off` reaches (R71). -/
def State.bar2Addr (s : State) (off : Nat) : Nat := s.fd (R.MBX 0 0x24) 0 16 * 2 ^ 24 + off

/-- The access is 32-bit or 64-bit and naturally aligned. -/
def bar2Ok (off size : Nat) : Bool := (size = 4 || size = 8) && decide (off % size = 0)

/-- The part answers BAR accesses: the PCIe link is up. -/
def State.linkAlive (s : State) : Bool := s.awakeDev

/-- BAR2_READ: a host read through BAR2 (R71, R72). -/
def execBar2Read (dt : Nat) (off : BitVec 24) (size : Nat) (s : State) : Host.Outcome State Fault Refusal :=
  let s := s.tick dt
  let a := s.bar2Addr off.toNat
  .next (if !s.linkAlive then s
    else if !s.bar2On || !bar2Ok off.toNat size then (s.viol 0 Viol.bar2 0 a).emit (.read 0)
    else
      let (vs, _, s) := s.readRun 0 0 a (size / 4)
      s.emit (.read (ofBytes (wordBytes vs))))

/-- One 32-bit part of a write through BAR2: settings registers are suppressed as kind 4 (R72). -/
def State.bar2Put (s : State) (a : Nat) (v : Word) (more : Nat) : State :=
  if isSetting a then s.viol 0 Viol.bar2Setting 0 a else s.writeAt 0 0 a v more

/-- A host write through BAR2. -/
def State.bar2Write (s : State) (off size v : Nat) (more : Nat) : State :=
  let a := s.bar2Addr off
  if !s.linkAlive then s
  else if !s.bar2On || !bar2Ok off size then s.viol 0 Viol.bar2 0 a
  else
    let s := s.bar2Put a (w32 v) more
    if size = 8 then s.bar2Put (a + 4) (w32 (v / 2 ^ 32)) 0 else s

/-- BAR2_WRITE (R71, R72). -/
def execBar2Write (dt : Nat) (off : BitVec 24) (size : Nat) (v : BitVec 64) (s : State) : Host.Outcome State Fault Refusal :=
  .next ((s.tick dt).bar2Write off.toNat size v.toNat 0)

/-! ### Register writes that the table lists by themselves -/

/-- A write of the register at `a` by a path: by a partition's `REG_WRITE`, by part 0 through BAR2 (where the window
reaches `a`), or by BAR0, which reaches no register of a block. -/
def State.pathWrite (s : State) (path : WrPath) (a : Nat) (v : Word) (more : Nat) : State :=
  match path with
  | .regWrite p ctx =>
    if isSetting a || s.hoBad p a v || !s.bt (R.MBX p 0x04) 0 then s
    else if s.owns p ctx then s.writeAt p ctx a v more
    else s.viol p Viol.ctx ctx ctx
  | .bar2 => if a / 2 ^ 24 = s.fd (R.MBX 0 0x24) 0 16 then s.bar2Write (a % 2 ^ 24) 4 v.toNat more else s
  | .bar0 _ => s

/-- MBX_INT_EN or MBX_BAR2_WIN written through BAR0 (Table 2-2): enabling a bit that is set raises the vector (R49). VFs
ignore writes of MBX_BAR2_WIN. -/
def State.bar0Write (s : State) (p off : Nat) (v : Word) : State :=
  if !s.linkAlive then s
  else if off = 0x18 then
    let st := s.rd (R.MBX p 0x14)
    let old := s.rd (R.MBX p 0x18)
    let v := v &&& 0x3FFFF#32
    let s := s.wr (R.MBX p 0x18) v
    if st &&& old = 0 ∧ st &&& v ≠ 0 then s.msix p 0 else s
  else if off = 0x24 ∧ p = 0 then s.wrF (R.MBX 0 0x24) 0 16 (fld v 0 16)
  else s

/-- PLAIN_REGISTER_WRITE (R529). Through BAR0 the address is the function's BAR0 offset. -/
def execPlainRegisterWrite (dt : Nat) (path : WrPath) (addr : BitVec 40) (v : Word) (s : State) :
    Host.Outcome State Fault Refusal :=
  let s := s.tick dt
  .next (match path with
    | .bar0 p => s.bar0Write p addr.toNat v
    | _ => s.pathWrite path addr.toNat v 0)

/-- RING_ENABLE: a write of HLK_RING_CTRL (R451). -/
def execRingEnable (dt : Nat) (path : WrPath) (ring : Fin 16384) (v : Word) (s : State) : Host.Outcome State Fault Refusal :=
  .next ((s.tick dt).pathWrite path (R.HLK_RING_CTRL ring) v 0)

/-- RING_DISABLE: a write of HLK_RING_CTRL; `written`: bytes of the current buffer that went out before the stop (R451). -/
def execRingDisable (dt : Nat) (path : WrPath) (ring : Fin 16384) (v : Word) (written : Nat) (s : State) :
    Host.Outcome State Fault Refusal :=
  .next ((s.tick dt).pathWrite path (R.HLK_RING_CTRL ring) v written)

/-- EVT_ROOT_CLOSE: part 0 writes a ROOT_ID (R124). -/
def execEvtRootClose (dt : Nat) (path : WrPath) (v : Word) (s : State) : Host.Outcome State Fault Refusal :=
  .next ((s.tick dt).pathWrite path R.EVT_ROOT_CLOSE v 0)

/-- BKC_KEY_REQ (R219). -/
def execBkcKeyReq (dt : Nat) (path : WrPath) (v : Word) (s : State) : Host.Outcome State Fault Refusal :=
  .next ((s.tick dt).pathWrite path R.BKC_KEY_REQ v 0)

/-- BKC_JOB_PROD (R228). -/
def execBkcJobProd (dt : Nat) (path : WrPath) (v : Word) (s : State) : Host.Outcome State Fault Refusal :=
  .next ((s.tick dt).pathWrite path R.BKC_JOB_PROD v 0)

/-- BKC_JOB_ABORT (R233). -/
def execBkcJobAbort (dt : Nat) (path : WrPath) (v : Word) (s : State) : Host.Outcome State Fault Refusal :=
  .next ((s.tick dt).pathWrite path R.BKC_JOB_ABORT v 0)

/-- SPD_BANK_HO (R335). -/
def execSpdBankHo (dt : Nat) (path : WrPath) (bank : Fin 64) (v : Word) (s : State) : Host.Outcome State Fault Refusal :=
  .next ((s.tick dt).pathWrite path (R.SPD_BANK_HO bank) v 0)

/-- CBS_I2C_XFER (R464). -/
def execCbsI2cXfer (dt : Nat) (path : WrPath) (ctl : Fin 4) (v : Word) (s : State) : Host.Outcome State Fault Refusal :=
  .next ((s.tick dt).pathWrite path (R.CBS_I2C_XFER ctl) v 0)

/-- CBS_GPIO_SET (R469). -/
def execCbsGpioSet (dt : Nat) (path : WrPath) (v : Word) (s : State) : Host.Outcome State Fault Refusal :=
  .next ((s.tick dt).pathWrite path R.CBS_GPIO_SET v 0)

/-- CBS_GPIO_CLR (R469). -/
def execCbsGpioClr (dt : Nat) (path : WrPath) (v : Word) (s : State) : Host.Outcome State Fault Refusal :=
  .next ((s.tick dt).pathWrite path R.CBS_GPIO_CLR v 0)

end Sys2Proof.Machine
end

