-- ==== Sys2Proof/Machine/HostLink.lean ====
section
/-!
DEFINITION. The host link (chapter 17): masks and Bus Master Enable (R441, R443), the polls of the rings (R447), delivery
(R448, R449), audio output blocks (R450), failed reads (R444) and the moderation of RING_CPL (R459).
-/

set_option Elab.async false

namespace Sys2Proof.Machine

/-! ### Messages and bus mastering -/

/-- MSIX_UNMASK: of a vector, or of the function; messages held so far go (R441). -/
def execMsixUnmask (dt : Nat) (fn : Fin 64) (vec : Option (Fin 2048)) (s : State) : Host.Outcome State Fault Refusal :=
  let s := s.tick dt
  .next (if !s.linkAlive then s
    else
      let m := s.mbx
      let m := match vec with
        | some v => { m with vecMask := tabSet (fun _ => true) m.vecMask (vecKey fn v) false }
        | none => { m with fnMask := tabSet (fun _ => true) m.fnMask fn false }
      ({ s with mbx := m }).msixFlush fn)

/-- BME_CLEAR: nothing further is issued for the function (R443). -/
def execBmeClear (dt : Nat) (fn : Fin 64) (s : State) : Host.Outcome State Fault Refusal :=
  let s := s.tick dt
  .next (if !s.linkAlive then s
    else { s with mbx := { s.mbx with bme := tabSet (fun _ => false) s.mbx.bme fn false } })

/-- Bus Master Enable of `fn` set: completion entries and device words that waited, storage completions and held messages go
(R443). -/
def State.bmeOn (s : State) (fn : Nat) : State :=
  let s : State := { s with mbx := { s.mbx with bme := tabSet (fun _ => false) s.mbx.bme fn true } }
  let s := (s.sqIds.filter (fun q => match s.sq q with
    | some x => decide (s.ctxOwner x.ctx = some fn)
    | none => false)).foldl (fun s q => s.sqPush q) s
  (s.hostFlush fn).msixFlush fn

/-- BME_SET: storage completions that waited and held messages go; rings resume where they stopped (R443). -/
def execBmeSet (dt : Nat) (fn : Fin 64) (s : State) : Host.Outcome State Fault Refusal :=
  let s := s.tick dt
  .next (if !s.linkAlive then s
    else s.bmeOn fn)

/-! ### Rings -/

/-- Requests of ring `r` may be issued: it runs, its function's BME is set, and the engines are on. -/
def State.ringMay (s : State) (r : Nat) : Bool := s.ringOn r && s.bme (s.ringFn r) && decide (s.power = 0) && s.awakeDev

/-- A descriptor keeps Table 17-2, and on a host-to-device ring the LEN of R450. -/
def State.descBad (s : State) (r : Nat) (d : Desc) : Bool :=
  decide (d.addr.toNat % 4 ≠ 0) || decide (d.len.toNat < 4) || decide (2 ^ 24 < d.len.toNat) || decide (d.len.toNat % 4 ≠ 0) ||
    (s.ringIn r && (match s.audTxLen r with | some n => decide (d.len.toNat ≠ n) | none => false))

/-- Bad descriptors at the front complete BAD_ARGUMENT; on a host-to-device ring each stands for an absent block (R450). -/
def State.popAll (s : State) (r : Nat) : Nat → State
  | 0 => s
  | n + 1 =>
    match (s.ring r).taken with
    | t :: _ =>
      if t.bad then
        let s := if s.ringIn r then s.setRing r { s.ring r with blocks := (s.ring r).blocks ++ [none] } else s
        (s.complete1 r 0 St.BAD_ARGUMENT 0 0 (s.ring r).item).popAll r n
      else s
    | [] => s

/-- The host's index word and the descriptors that it posted, as far as a completion entry is free for them (R447). -/
def State.ringPoll (s : State) (r : Nat) (hostWord : BitVec 64) (descs : List Desc) : State :=
  let x := s.ring r
  let prod := hostWord.toNat % 65536
  let cons := hostWord.toNat / 2 ^ 32 % 65536
  let n := min (idxDiff prod x.subHead) (2 ^ s.ringN r - idxDiff x.subHead cons)
  let took := (descs.take n).map (fun d => ({ desc := d, bad := s.descBad r d } : Taken))
  let s := s.setRing r { x with
    subProd := prod
    cplCons := cons
    subHead := (x.subHead + took.length) % 65536
    taken := x.taken ++ took
    frontAt := if x.taken.isEmpty then s.now else x.frontAt }
  s.wrF (R.HLK_RING_STAT r) 16 16 (s.ring r).subHead

/-- HLK_RING_POLL: `hostWord` is the host's index word, `descs` the descriptors from SUB_HEAD on (R447). HLK takes those
posted for which a completion entry is free. -/
def execHlkRingPoll (dt : Nat) (ring : Fin 16384) (hostWord : BitVec 64) (descs : List Desc) (s : State) :
    Host.Outcome State Fault Refusal :=
  let s := s.tick dt
  let r := ring.val
  .next (if !s.ringMay r then s
    else
      let s := s.ringPoll r hostWord descs
      (s.popAll r (s.ring r).taken.length).startNext r (s.items.length + 1))

/-- The buffer of the first descriptor of host-to-device ring `r` has come: a block, and its completion entry (R450). -/
def State.ringRead (s : State) (r : Nat) (data : List Byte) : State :=
  let x := s.ring r
  let s := s.setRing r { x with blocks := x.blocks ++ [some data] }
  let s := s.complete1 r data.length St.OK (cflags true true false false) 0 x.item
  let s := s.setRing r { s.ring r with item := (x.item + 1) % 2 ^ 32 }
  s.popAll r (s.ring r).taken.length

/-- H2C_READ_COMPLETE: the buffer of the first descriptor of a host-to-device ring has been read (R450). -/
def execH2cReadComplete (dt : Nat) (ring : Fin 16384) (data : List Byte) (s : State) : Host.Outcome State Fault Refusal :=
  let s := s.tick dt
  let r := ring.val
  .next (match (s.ring r).taken with
    | t :: _ =>
      if s.ringMay r && s.ringIn r && decide (data.length = t.desc.len.toNat) && !t.bad then s.ringRead r data else s
    | [] => s)

/-- HLK_ITEM_DELIVERY: the next `bytes` bytes of the items of a ring go to the host (R448, R449). -/
def execHlkItemDelivery (dt : Nat) (ring : Fin 16384) (bytes : Nat) (s : State) : Host.Outcome State Fault Refusal :=
  let s := s.tick dt
  .next (if s.ringMay ring && !s.ringIn ring then
      let s := s.startNext ring (s.items.length + 1)
      s.fill ring (2 * ((s.ring ring).taken.length + s.items.length) + 2) bytes
    else s)

/-- HLK_RING_STAT.ERR_CAUSE of a failed read. -/
def errCause : RingRead → Nat
  | .descriptor => 1
  | .data => 2
  | .index => 3

/-- READ_COMPLETION_ERROR: the ring stops in ERROR, with HW_FAULT for the entry being served (R444, R451). -/
def execReadCompletionError (dt : Nat) (ring : Fin 16384) (what : RingRead) (s : State) :
    Host.Outcome State Fault Refusal :=
  let s := s.tick dt
  let r := ring.val
  .next (if !s.ringOn r then s
    else
      let s := (s.bump R.HLK_ERR 16 16 1).emit (.aer (s.ringFn r))
      let s := s.stopRing r St.HW_FAULT St.ABORTED_NOT_STARTED 2 (errCause what) 0
      s.raise (r / 4) 0x06C2 St.OK Src.HLK (r + errCause what * 0x4000))

/-- CPL_MOD_EXPIRY: one RING_CPL reports the entries written during the gap (R459). -/
def execCplModExpiry (dt : Nat) (ring : Fin 16384) (s : State) : Host.Outcome State Fault Refusal :=
  let s := s.tick dt
  let r := ring.val
  let x := s.ring r
  let over_ := match x.lastCpl with
    | some t => decide (t + s.fd (R.HLK_RING_CTRL r) 16 8 * 1000 ≤ s.now)
    | none => true
  .next (if x.cplPend && over_ then (s.setRing r { x with cplPend := false }).ringEvent r else s)

end Sys2Proof.Machine
end

