-- ==== Sys2Proof/Machine/Link.lean ====
section
/-!
DEFINITION. The Ridgeline sensor link (chapter 6): starting and stopping it, packets and frames, lost lanes and spares, and
the back-channel.
-/

set_option Elab.async false

namespace Sys2Proof.Machine

/-! ### Packet headers (Table 6-1) -/

/-- Bits of a header. -/
def hdrFld (h : BitVec 128) (lo n : Nat) : Nat := h.toNat / 2 ^ lo % 2 ^ n

/-- DT and VC as one number. -/
def hdrType (h : BitVec 128) : Nat := hdrFld h 0 6 + 64 * hdrFld h 6 2
def hdrStripe (h : BitVec 128) : Nat := hdrFld h 8 6
def hdrLen (h : BitVec 128) : Nat := hdrFld h 16 16
def hdrFrame (h : BitVec 128) : Nat := hdrFld h 32 32
def hdrRow (h : BitVec 128) : Nat := hdrFld h 64 16
def hdrCol32 (h : BitVec 128) : Nat := hdrFld h 80 16
/-- EXP_OFFSET_NS of an FS, EXPOSURE_NS of an FE. -/
def hdrNs (h : BitVec 128) : Nat := hdrFld h 64 32
def hdrTag (h : BitVec 128) : Nat := hdrFld h 96 8
def hdrTriggered (h : BitVec 128) : Bool := decide (hdrFld h 104 1 = 1)

/-- DT and VC of Table 6-2. -/
def Dt.fs : Nat := 0x01
def Dt.fe : Nat := 0x02
def Dt.raw : Nat := 0x10
def Dt.embed : Nat := 0x20 + 64
def Dt.reply : Nat := 0x31 + 192

/-- The packet is a NULL, on any VC. -/
def hdrNull (h : BitVec 128) : Bool := decide (hdrFld h 0 6 = 0x3F)

/-- The packet carries a row segment. -/
def hdrPixel (h : BitVec 128) : Bool := decide (Dt.raw ≤ hdrType h) && decide (hdrType h < Dt.raw + 4)

/-- The header stands: HCRC, reserved bits, and a DT and VC of Table 6-2 (R161, R162), with a PAYLOAD_LEN in the range of R160 (log
entry 64). -/
def hdrOk (h : BitVec 128) : Bool :=
  decide (hdrLen h ≤ 65504) && decide (crc16 (leBytes 14 h.toNat) = hdrFld h 112 16) && decide (hdrFld h 14 2 = 0) && decide (hdrFld h 105 7 = 0) &&
    (hdrNull h || hdrPixel h || [Dt.fs, Dt.fe, Dt.embed, Dt.reply].contains (hdrType h))

/-- The payload that the header announces. -/
def payloadOf (h : BitVec 128) (bs : List Byte) : List Byte := (bs ++ List.replicate (hdrLen h) 0).take (hdrLen h)

/-- The payload passes PCRC (R161); there is none without a payload. -/
def payloadOk (h : BitVec 128) (bs : List Byte) (pcrc : Word) : Bool :=
  decide (hdrLen h = 0) || decide (crc32 (payloadOf h bs) = pcrc.toNat)

/-! ### Frames -/

/-- The stripes `is` are lost in `f` unless complete; their later packets are still accepted. -/
def State.markLost (s : State) (f : Frame) (is : List Nat) : Frame :=
  { f with stripes := (List.range f.stripes.length).map (fun i =>
      let st := f.stripes.getD i {}
      if is.contains i && !s.complete f i then { st with lost := true } else st) }

/-- A header of group `g` fails: the group discards data blocks up to the next FILL (R162). -/
def State.hdrError (s : State) (g : Nat) : State :=
  let s := s.bump R.SLK_HCRC_ERR 0 32 1
  let s : State := { s with lnk := { s.lnk with grpSkip := g :: s.lnk.grpSkip.filter (fun x => decide (x ≠ g)) } }
  match s.openFrame with
  | some f => s.putFrame (s.markLost f (s.stripesOf f.epoch g))
  | none => s

/-- Frame `f` closes (R167): the stripes that are short are lost, the record and the EMBED bytes go to stream 1. -/
def State.closeFrame (s : State) (f : Frame) : State :=
  let f := s.loseStripes f (List.range f.stripes.length)
  let f := if 0 < f.lostCount then f.addFlag Fl.PARTIAL else f
  let s := s.putFrame { f with closed := true }
  (s.streamItem f.epoch 1 2 (s.frameRecord f ++ f.embed)).settle

/-- The frame SLK has open closes. -/
def State.closeOpen (s : State) : State :=
  match s.openFrame with
  | some f => s.closeFrame f
  | none => s

/-- Group `g` missed its FS (R166). -/
def State.groupDead (s : State) (f : Frame) (g : Nat) : State :=
  s.putFrame { s.loseStripes f (s.stripesOf f.epoch g) with dead := g :: f.dead }

/-- An FS of group `g` for the frame that is open (R166). -/
def State.fsAgain (s : State) (f : Frame) (g : Nat) : State :=
  if f.fs.contains g then s.bump R.SLK_PKT_DROP 0 32 1
  else if f.dead.contains g then s
  else if s.now ≤ s.ep.tFm + s.cf f.epoch R.SLK_LINK_CFG 0 10 * 1000 then s.putFrame { f with fs := g :: f.fs }
  else s.groupDead f g

/-- The exposure start of the frame that an FS opens (R169). The FS reached the balls an open time of up to 1 µs before its
recognition (Table 6-5). -/
def State.exposureStart (s : State) (h : BitVec 128) : Nat × State :=
  let e := s.ep.epoch
  let byTag := if hdrTriggered h then
      (s.lnk.exposes.find? (fun x => decide (x.tag = hdrTag h) && decide (x.at_ < s.now))).filter
        (fun x => decide (s.now ≤ x.at_ + 10 ^ 9))
    else none
  match byTag with
  | some x => (x.time, s)
  | none =>
    let (v, s) := s.fresh
    (s.dev - v % 1001 - s.cf e R.SLK_RX_LAT 0 20 - hdrNs h, s)

/-- A frame opens at the boundary just counted (R166, R171, R172). `flags`: those of its epoch; `gap`: the time since the
frame before, where it is below PERIOD_MIN. -/
def State.openNew (s : State) (g : Nat) (h : BitVec 128) (flags : Nat) (fast : Bool) : State :=
  let e := s.ep.epoch
  let (t, s) := s.exposureStart h
  let n := s.cf e R.SLK_STRIPE_COUNT 0 6
  let stripes := (List.range n).map (fun i =>
    let gi := s.cf e (R.SLK_STRIPE_CFG i) 16 6
    if fast || !s.groupUp gi || s.lnk.lossNext.contains gi then ({ lost := true, drop := true } : StripeSt) else {})
  let en := s.cf e R.BKC_CFG 0 1
  let geom := s.refGeom e
  let clear := decide (s.ing.geom.drop 1 ≠ geom) || (decide (en = 1) && decide (nth s.ing.geom 0 = 0))
  let asked := s.ing.keyReq.any (fun t => decide (t + 2000 ≤ s.now))
  let full := decide (s.cf e R.BKC_CFG 8 1 = 0) && keyDue 0 (s.cf e R.BKC_CFG 16 8) s.ep.frame 0
  let f : Frame := {
    no := s.ep.frame
    epoch := e
    sensorFrame := hdrFrame h
    tF := s.dev
    tFm := s.now
    flags := flags + (if fast then Fl.OVERFLOW else 0) + (if s.locked then 0 else Fl.TIME_UNLOCKED)
    synth := false
    expStart := t
    expNs := 0
    sensorEpoch := s.sensorEpochAt t
    fs := [g]
    fe := []
    dead := []
    embed := []
    stripes := stripes
    closed := false
    ovf := fast
    key := asked || full
    refClear := clear
    skips := 0
    coded := decide (en = 1)
    shipped := false
    landed := []
    tapSeen := false
    tap := none
    tapDone := false }
  let s := if clear then s.setRefValid (fun _ => false) else s
  let s : State := { s with
    ing := { s.ing with
      frames := s.ing.frames ++ [f]
      geom := en :: geom
      keyReq := s.ing.keyReq.filter (fun t => decide (s.now < t + 2000)) }
    lnk := { s.lnk with lastFrame := some s.now, lossNext := [] } }
  s.lndOpen t

/-! ### Lost lanes at a boundary (R173, R174) -/

/-- The swaps that apply at the FS of sensor frame `n`: GROUP and POS pass to the spare, the lost lane becomes a spare. -/
def State.swapLanes (s : State) (n : Nat) : List Swap × State :=
  let now := s.lnk.swaps.filter (fun w => decide (w.frame = n))
  let s : State := { s with lnk := { s.lnk with swaps := s.lnk.swaps.filter (fun w => decide (w.frame ≠ n)) } }
  (now, now.foldl (fun (s : State) w =>
    let m := s.fd (R.SLK_LANE_STAT w.lost) 0 12
    let s := (s.wr (R.SLK_LANE_STAT w.spare) (w32 (m + 0x1000))).wrF (R.SLK_LANE_STAT w.lost) 0 14 0x2000
    let s := match s.physOf w.spare with
      | some p => if s.laneSt p = 6 then s.setLane p 5 else s
      | none => s
    let s := match s.physOf w.lost with
      | some p => if s.laneSt p = 5 || s.laneSt p = 7 then s.setLane p 6 else s
      | none => s
    { s with lnk := { s.lnk with
        swapped := w.spare :: s.lnk.swapped.filter (fun l => decide (l ≠ w.lost) && decide (l ≠ w.spare))
        lossAt := tabSet (fun _ => 0) s.lnk.lossAt w.lost 0
        act := tabSet (fun _ => 0) s.lnk.act w.lost 0
        rejoin := tabSet (fun _ => 0) s.lnk.rejoin w.lost 0 } }) s)

/-- Lost lanes that reached REJOIN_READY before this boundary return to ACTIVE (R173). -/
def State.rejoinLanes (s : State) : List Nat × State :=
  let ls := s.dataLanes.filter (fun l =>
    let t := tabGet (fun _ => 0) s.lnk.rejoin l
    decide (0 < t) && decide (t < s.now + 1) && (match s.physOf l with | some p => s.laneSt p = 7 | none => false))
  (ls, ls.foldl (fun (s : State) l =>
    let s := match s.physOf l with | some p => s.setLane p 5 | none => s
    let s := s.wrF (R.SLK_LANE_STAT l) 14 1 0
    { s with lnk := { s.lnk with
        lossAt := tabSet (fun _ => 0) s.lnk.lossAt l 0
        act := tabSet (fun _ => 0) s.lnk.act l 0
        grpPos := tabSet (fun _ => 0) s.lnk.grpPos (s.groupOf l) 0
        rejoin := tabSet (fun _ => 0) s.lnk.rejoin l 0 } }) s)

/-- What SLK reports of swaps and rejoins; a spare that was not in STANDBY when it was swapped in is itself lost (R175). -/
def State.laneEvents (s : State) (ws : List Swap) (ls : List Nat) : State :=
  let s := ws.foldl (fun (s : State) w =>
    let s := s.raise 0 0x0403 St.OK Src.SLK (w.lost + w.spare * 256)
    if s.laneActive w.spare then s else s.laneLoss w.spare) s
  let s := ls.foldl (fun (s : State) l => s.raise 0 0x0402 St.OK Src.SLK l) s
  s.linkCounts.linkMode

/-! ### Starting and stopping -/

/-- The sensor lanes that are enabled. -/
def State.sensorLanes (s : State) : List Nat := selIdx 64 (fun n => s.laneFunc n = 1 && s.bt (R.LNA_LANE_CTRL n) 0)

/-- Lists of the link that a start begins anew. -/
def LinkSt.fresh (k : LinkSt) : LinkSt :=
  { k with
    lossAt := []
    act := []
    rejoin := []
    alignRun := []
    alignSeq := []
    alignBad := []
    laneInv := []
    wasLane := []
    alignAt := []
    hdrBad := []
    scr := []
    grpPos := []
    grpSkip := []
    lossNext := []
    swaps := []
    exposes := []
    stopReq := false
    lastFrame := none }

/-- The map in use returns to SLK_LANE_MAP with no lane lost (R174). -/
def State.freshMap (s : State) : State :=
  ((List.range 64).foldl (fun (s : State) l => s.wr (R.SLK_LANE_STAT l) 0) s).loadMap

/-- REVERSED of every quad as its lanes stand (R144). -/
def State.reversedAll (s : State) : State := (List.range 16).foldl (fun (s : State) q => s.reversedNow (4 * q)) s

/-- Bring-up begins: the link is STARTING, every enabled sensor lane is in CDR (Table 5-5), the PLLs of the sensor quads lock again,
and the back-channel begins with an ALIGN, whose SEQ is open. -/
def State.linkBegin (s : State) : State :=
  let s : State := { s with lnk := { s.lnk.fresh with startedAt := some s.now } }
  let s := (s.freshMap.setRefValid (fun _ => false)).wrF R.SLK_EXP_NEXT 0 8 0
  let s := s.sensorLanes.foldl (fun (s : State) n =>
    let s := s.wr (R.LNA_LANE_STAT n) 1
    if s.pllMay (n / 4) then s.wrF (R.LNA_QUAD_STAT (n / 4)) 0 1 1 else s) s
  let (v, s) := s.fresh
  (s.reversedAll.wr R.SLK_LINK_STAT 1).bcRestart (10 * s.now) v

/-- The link stops: sensor lanes OFF, RECORDING slots finalise (R294). -/
def State.linkEnd (s : State) : State :=
  let s : State := { s with lnk := s.lnk.fresh }
  let s := (selIdx 64 (fun n => s.laneFunc n = 1)).foldl (fun (s : State) n => s.wr (R.LNA_LANE_STAT n) 0) s
  ((s.reversedAll.freshMap).wr R.SLK_LINK_STAT 0).lndLinkStop

/-- `LINK_START` (Table 2-15). -/
def linkStart (r : Req) (s : State) : Ans :=
  if s.linkSt ≠ 0 then .done St.STATE_CONFLICT [] s
  else
    let s := s.linkBegin
    if r.wait then .wait .link s else .done St.OK [s.rd R.SLK_LINK_STAT] s

/-- The command `LINK_START` (0x0401). -/
def execLinkStart (dt : Nat) (c : Call) (s : State) : Host.Outcome State Fault Refusal :=
  .next (kilel 0x0401 (fun _ _ => true) linkStart dt c s)

/-- `LINK_STOP`: the link stops at the next frame boundary (Table 2-14); one that still starts has none and stops at once. -/
def linkStop (_ : Req) (s : State) : Ans :=
  if s.linkSt = 0 then .done St.STATE_CONFLICT [] s
  else if s.linkSt = 1 then .done St.OK [] s.linkEnd
  else .done St.OK [] { s with lnk := { s.lnk with stopReq := true } }

/-- The command `LINK_STOP` (0x0402). -/
def execLinkStop (dt : Nat) (c : Call) (s : State) : Host.Outcome State Fault Refusal :=
  .next (kilel 0x0402 (fun _ _ => true) linkStop dt c s)

/-- LINK_UP_TIMEOUT: a `LINK_START` that waits is answered TIMEOUT 40 ms after its start; the link keeps trying (Table 2-15,
Table 5-10). -/
def execLinkUpTimeout (dt : Nat) (s : State) : Host.Outcome State Fault Refusal :=
  let s := s.tick dt
  .next (match s.lnk.startedAt with
    | some t => if t + 40000000 ≤ s.now then s.finish (fun k => k = .link) St.TIMEOUT [s.rd R.SLK_LINK_STAT] else s
    | none => s)

/-! ### Packets -/

/-- The physical lane at a position of group `g`. -/
def State.lanePos (s : State) (g p : Nat) : Option Nat :=
  match (s.groupLanes g).find? (fun l => decide (s.fd (R.SLK_LANE_STAT l) 6 6 = p)) with
  | some l => s.physOf l
  | none => none

/-- One group block of a packet as its lane's injections leave it (R154): a payload bit flipped, or a sync header received as
invalid, whose block then holds open bytes. -/
def State.hurtBlock (s : State) (n : Nat) (bs : List Byte) : List Byte × State :=
  if s.injects 0 n then
    let (v, s) := s.fresh
    let j := v % 256
    ((List.range bs.length).map (fun i => let b := bs.getD i 0
      if i = j / 8 then b ^^^ BitVec.ofNat 8 (2 ^ (j % 8)) else b), (s.useInj 0 n).bump (R.LNA_INJ_CNT n) 0 32 1)
  else if s.injects 1 n then
    let (o, s) := s.freshBytes bs.length
    (o, ((s.useInj 1 n).bump (R.LNA_INJ_CNT n) 0 32 1).badHeader n)
  else (bs, s)

/-- The blocks of a packet in turn, from position `p` of group `g` on (R158). -/
def State.hurtBlocks (s : State) (g l : Nat) : Nat → List Byte → Nat → List Byte × State
  | 0, bs, _ => (bs, s)
  | k + 1, bs, p =>
    let (b, s) := match s.lanePos g (p % l) with | some n => s.hurtBlock n (bs.take 32) | none => (bs.take 32, s)
    let (r, s) := s.hurtBlocks g l k (bs.drop 32) (p + 1)
    (b ++ r, s)

/-- Lane `n`'s descrambler passes `k` data blocks (R138). -/
def State.descramble (s : State) (n k : Nat) : State :=
  let x := tabGet (fun _ => (0, 0)) s.lnk.scr n
  { s with lnk := { s.lnk with scr := tabSet (fun _ => (0, 0)) s.lnk.scr n (x.1, x.2 + k) } }

/-- A packet comes in on group `g` (R158, R160): it takes whole blocks, dealt to the positions in turn, each through its lane's
descrambler. The operands are its bytes after descrambling; pending injections change them. Answers the packet as received. -/
def State.receive (s : State) (g : Nat) (h : BitVec 128) (payload : List Byte) (pcrc : Word) :
    (BitVec 128 × List Byte × Word) × State :=
  let l := (s.groupLanes g).length
  let body := payloadOf h payload
  let n := (16 + body.length + (if body.isEmpty then 0 else 4) + 31) / 32
  let p := tabGet (fun _ => 0) s.lnk.grpPos g
  if l = 0 || !s.groupUp g then ((h, payload, pcrc), s)
  else
    let hurt := (List.range l).any (fun i => match s.lanePos g i with | some m => s.injects 0 m || s.injects 1 m | none => false)
    let s := (List.range l).foldl (fun (s : State) i => match s.lanePos g i with
      | some m =>
        let o := (i + l - p % l) % l
        if n ≤ o then s else s.descramble m ((n - o - 1) / l + 1)
      | none => s) s
    let s : State := { s with lnk := { s.lnk with grpPos := tabSet (fun _ => 0) s.lnk.grpPos g ((p + n) % l) } }
    if !hurt then ((h, payload, pcrc), s)
    else
      let raw := leBytes 16 h.toNat ++ body ++ (if body.isEmpty then [] else leBytes 4 pcrc.toNat)
      let (bs, s) := s.hurtBlocks g l n raw p
      let tail := (bs.drop (16 + body.length)).take 4
      ((BitVec.ofNat 128 (ofBytes (bs.take 16)), (bs.drop 16).take body.length, w32 (ofBytes tail)), s)

/-- An FS that opens a frame, where its group's stream exists once swaps and rejoins have acted (R166, R173, R174). A link
that is to stop does so at this boundary, and no frame opens. -/
def State.fsOpen (s0 : State) (g : Nat) (h : BitVec 128) : State :=
  let (ws, s) := s0.swapLanes (hdrFrame h)
  let (ls, s) := s.rejoinLanes
  if !s.groupUp g then s0
  else
    let s := s.closeOpen
    let gap := match s.lnk.lastFrame with | some t => some (s.now - t) | none => none
    let stops := s.lnk.stopReq
    let (flags, s) := s.boundary false (fun s =>
      let s := s.laneEvents ws ls
      match gap with
      | some d =>
        if d < (s.rd R.SLK_PERIOD_MIN).toNat && !stops then
          (s.bump R.SLK_OVF_CNT 0 32 1).raise 0 0x0407 St.OK Src.SLK (min 0xFFFFFFFF d)
        else s
      | none => s)
    if stops then s.linkEnd
    else
      let fast := match gap with | some d => decide (d < (s.rd R.SLK_PERIOD_MIN).toNat) | none => false
      let s := s.openNew g h flags fast
      { s with ep := { s.ep with snap := s.view } }

/-- FS_PACKET: a frame start on group `g` (R166). A FILL comes before it (R168). -/
def execFsPacket (dt : Nat) (g : Fin 48) (hdr : BitVec 128) (s : State) : Host.Outcome State Fault Refusal :=
  let s := s.tick dt
  .next (if !s.linkOn then s
    else
      let (x, s) := (s.fillSeen g).receive g hdr [] 0
      let hdr := x.1
      if !hdrOk hdr then (if s.groupUp g then s.hdrError g else s)
      else if hdrType hdr ≠ Dt.fs then s
      else match s.openFrame with
        | some f => if f.sensorFrame = hdrFrame hdr then (if s.groupUp g then s.fsAgain f g else s) else s.fsOpen g hdr
        | none => s.fsOpen g hdr)

/-- FS_SKEW_TIMEOUT: FS_SKEW_US after tF a group without an FS is lost in the frame (R166). -/
def execFsSkewTimeout (dt : Nat) (g : Fin 48) (s : State) : Host.Outcome State Fault Refusal :=
  let s := s.tick dt
  .next (match s.openFrame with
    | some f =>
      if s.ep.tFm + s.cf f.epoch R.SLK_LINK_CFG 0 10 * 1000 < s.now && !f.fs.contains g.val && !f.dead.contains g.val then
        s.groupDead f g
      else s
    | none => s)

/-- The groups that carry stripes under epoch `e`. -/
def State.groupsOf (s : State) (e : Nat) : List Nat :=
  ((List.range (s.cf e R.SLK_STRIPE_COUNT 0 6)).map (fun i => s.cf e (R.SLK_STRIPE_CFG i) 16 6)).dedup

/-- A packet of group `g` is one of the frame that is open: its FS came in time and nothing dropped the rest. -/
def Frame.takes (f : Frame) (g : Nat) (h : BitVec 128) : Bool :=
  decide (f.sensorFrame = hdrFrame h) && f.fs.contains g && !f.dead.contains g

/-- A packet of group `g` as received, its header standing: `f` is its meaning. After a header that failed the group discards
what comes up to the next FILL (R162). -/
def State.onPacket (s : State) (g : Nat) (h : BitVec 128) (payload : List Byte) (pcrc : Word)
    (f : BitVec 128 → List Byte → Word → State → State) : State :=
  if !s.linkOn || !s.groupUp g then s
  else
    let (x, s) := s.receive g h payload pcrc
    if s.lnk.grpSkip.contains g || !s.groupUp g then s else if !hdrOk x.1 then s.hdrError g else f x.1 x.2.1 x.2.2 s

/-- A frame whose last FE has come closes (R167). -/
def State.feTaken (s : State) (f : Frame) : State :=
  let s := s.putFrame f
  if (s.groupsOf f.epoch).all (fun k => f.fe.contains k) then s.closeFrame f else s

/-- FE_PACKET: a frame end (R167). -/
def execFePacket (dt : Nat) (g : Fin 48) (hdr : BitVec 128) (s : State) : Host.Outcome State Fault Refusal :=
  .next ((s.tick dt).onPacket g hdr [] 0 (fun hdr _ _ s =>
    match s.openFrame with
    | some f =>
      if hdrType hdr = Dt.fe && f.takes g hdr then s.feTaken { f with fe := g.val :: f.fe, expNs := hdrNs hdr } else s
    | none => s))

/-- The samples of a pixel payload at depth `d` (R164). -/
def samplesOf (d : Nat) (bs : List Byte) : List Nat :=
  let v := ofBytes bs
  (List.range (bs.length * 8 / d)).map (fun i => v / 2 ^ (d * i) % 2 ^ d)

/-- A row segment joins its stripe, where it continues it (R164); `ok`: its payload passed PCRC (R163). -/
def State.segment (s : State) (f : Frame) (g : Nat) (h : BitVec 128) (bs : List Byte) (ok : Bool) : State :=
  let e := f.epoch
  let i := hdrStripe h
  let d := s.frameDepth e
  let st := f.stripes.getD i {}
  let n := bs.length * 8 / d
  let good := decide (hdrType h = Dt.raw + (d - 10) / 2) && (s.stripesOf e g).contains i && decide (0 < n) &&
    decide (bs.length % (4 * d) = 0) && decide (hdrRow h = s.stripeTop e i + st.rows.length) &&
    decide (st.rows.length < s.stripeRows e i) && decide (32 * hdrCol32 h = st.seg.length) &&
    decide (st.seg.length + n ≤ s.frameWidth e)
  if !good then s.bump R.SLK_PKT_DROP 0 32 1
  else
    let row := st.seg ++ (if ok then samplesOf d bs else List.replicate n 0)
    let st := { st with lost := st.lost || !ok }
    let st := if row.length = s.frameWidth e then { st with rows := st.rows ++ [row], seg := [] } else { st with seg := row }
    s.putFrame { f with stripes := f.stripes.set i st }

/-- PIXEL_PACKET: a row segment (R163, R164). After a drop the rest of a frame or stripe is discarded (R166, R171, R176). -/
def execPixelPacket (dt : Nat) (g : Fin 48) (hdr : BitVec 128) (payload : List Byte) (pcrc : Word) (s : State) :
    Host.Outcome State Fault Refusal :=
  .next ((s.tick dt).onPacket g hdr payload pcrc (fun hdr payload pcrc s =>
    if !hdrPixel hdr then s
    else
      let ok := payloadOk hdr payload pcrc
      let s := if ok then s else s.bump R.SLK_PCRC_ERR 0 32 1
      match s.openFrame with
      | some f =>
        if f.ovf || f.dead.contains g.val || ((s.stripesOf f.epoch g).contains (hdrStripe hdr) &&
            (f.stripes.getD (hdrStripe hdr) {}).drop) then s
        else if f.takes g hdr then s.segment f g hdr (payloadOf hdr payload) ok
        else s.bump R.SLK_PKT_DROP 0 32 1
      | none => s.bump R.SLK_PKT_DROP 0 32 1))

/-- Metadata of group `g` joins frame `f`; bytes that fail PCRC read 0 and their stripe is lost (R163, R165). -/
def State.embedIn (s : State) (f : Frame) (g : Nat) (h : BitVec 128) (payload : List Byte) (ok : Bool) : State :=
  let bs := if ok then payloadOf h payload else List.replicate (hdrLen h) 0
  let f := if ok || !(s.stripesOf f.epoch g).contains (hdrStripe h) then f
    else { f with stripes := f.stripes.set (hdrStripe h) { f.stripes.getD (hdrStripe h) {} with lost := true } }
  let all := f.embed ++ bs
  (s.putFrame { f with embed := all.take 65536 }).bump R.SLK_EMBED_DROP 0 32 (all.length - 65536)

/-- EMBED_PACKET: sensor metadata, up to 64 KiB a frame (R163, R165). -/
def execEmbedPacket (dt : Nat) (g : Fin 48) (hdr : BitVec 128) (payload : List Byte) (pcrc : Word) (s : State) :
    Host.Outcome State Fault Refusal :=
  .next ((s.tick dt).onPacket g hdr payload pcrc (fun hdr payload pcrc s =>
    if hdrType hdr ≠ Dt.embed then s
    else
      let ok := payloadOk hdr payload pcrc
      let s := if ok then s else s.bump R.SLK_PCRC_ERR 0 32 1
      match s.openFrame with
      | some f =>
        if f.ovf || !f.takes g hdr then s else s.embedIn f g hdr payload ok
      | none => s))

/-- NULL_PACKET: discarded, not counted (Table 6-2). -/
def execNullPacket (dt : Nat) (g : Fin 48) (hdr : BitVec 128) (s : State) : Host.Outcome State Fault Refusal :=
  .next ((s.tick dt).onPacket g hdr [] 0 (fun _ _ _ s => s))

/-- A REPLY that stands ends the command whose TAG it echoes (R177, R178); one whose PCRC fails is counted and no reply. -/
def State.replyIn (s : State) (hdr : BitVec 128) (payload : List Byte) (pcrc : Word) : State :=
  if hdrType hdr ≠ Dt.reply then s
  else if !payloadOk hdr payload pcrc then s.bump R.SLK_PCRC_ERR 0 32 1
  else
    let bs := payloadOf hdr payload ++ List.replicate 32 0
    match s.lnk.bcOut.find? (fun b => decide (b.tag = ofBytes (bs.take 1))) with
    | some b =>
      let s : State := { s with lnk := { s.lnk with bcOut := s.lnk.bcOut.erase b } }
      s.bcReply b (bs.take 32)
    | none => s

/-- REPLY_PACKET: the reply to a back-channel command (R177, R178). -/
def execReplyPacket (dt : Nat) (g : Fin 48) (hdr : BitVec 128) (payload : List Byte) (pcrc : Word) (s : State) :
    Host.Outcome State Fault Refusal :=
  let s := s.tick dt
  .next (if s.linkSt = 0 || !s.groupUp g then s
    else
      let (x, s) := s.receive g hdr payload pcrc
      if s.lnk.grpSkip.contains g.val || !s.groupUp g then s
      else if !hdrOk x.1 then s.hdrError g
      else s.replyIn x.1 x.2.1 x.2.2)

/-! ### The back-channel (R177 to R179) -/

/-- `SENSOR_CMD` (R178, Table 2-15). -/
def sensorCmd (r : Req) (s : State) : Ans :=
  let b : BcCmd := { kind := 0, type := r.f 0 0 8, tag := 0, count := r.f 0 8 8, addr := (r.w 1).toNat
                     vals := [r.w 2, r.w 3, r.w 4, r.w 5], last := false, epoch := 0, from_ := 0, to_ := 0, tries := 0
                     sentAt := none, ctx := r.ctx }
  let (t, s) := s.bcPush b
  .wait (.sensor t) s

/-- The argument checks of `SENSOR_CMD`. -/
def sensorArgs (r : Req) (_ : State) : Bool :=
  let t := r.f 0 0 8
  let n := r.f 0 8 8
  if t = 1 ∨ t = 2 then decide (1 ≤ n) && decide (n ≤ 4) else t = 4 && n = 0

/-- The command `SENSOR_CMD` (0x0404). -/
def execSensorCmd (dt : Nat) (c : Call) (s : State) : Host.Outcome State Fault Refusal :=
  .next (kilel 0x0404 sensorArgs sensorCmd dt c s)

/-- Command `b` leaves; `bs` wait behind it (R177). On a stopped link nothing reaches the sensor. -/
def State.bcSend (s : State) (b : BcCmd) (bs : List BcCmd) : State :=
  let k := s.bcBlock
  let s : State := { s with lnk := { s.lnk with
    bcq := bs
    bcOut := s.lnk.bcOut ++ [{ b with sentAt := some (s.lnk.bcAt + 2064 * k) }] } }
  if s.linkSt = 0 then s else s.bcData k b.bytes

/-- BACKCHANNEL_COMMAND_SEND: the first waiting command of a context that the link serves leaves, one block for a command and
one FILL block after it (R177, Table 4-5). -/
def execBackchannelCommandSend (dt : Nat) (s : State) : Host.Outcome State Fault Refusal :=
  let s := s.tick dt
  .next (match s.lnk.bcq.find? (fun b => s.serves Src.SLK b.ctx) with
    | none => s
    | some b => if s.bcMay then s.bcSend b (s.lnk.bcq.erase b) else s)

/-- Command `b` had no reply in time: sent again with its TAG, or failed after the tries of SLK_BC_CFG (R178). -/
def State.bcRetry (s : State) (b : BcCmd) : State :=
  let s : State := { s with lnk := { s.lnk with bcOut := s.lnk.bcOut.erase b } }
  if b.tries < s.fd R.SLK_BC_CFG 16 4 then
    let s := s.bump R.SLK_BC_RETRY 0 32 1
    { s with lnk := { s.lnk with bcq := { b with tries := b.tries + 1, sentAt := none } :: s.lnk.bcq } }
  else s.bcFail b

/-- The command `b` with TAG `tag` was sent TIMEOUT_US or more ago. -/
def State.bcDue (s : State) (tag : Nat) (b : BcCmd) : Bool :=
  decide (b.tag = tag) && (match b.sentAt with
    | some t => decide (t + s.fd R.SLK_BC_CFG 0 16 * 10000 ≤ 10 * s.now)
    | none => false)

/-- BC_COMMAND_TIMEOUT: no reply within TIMEOUT_US: the command is sent again with its TAG, or fails (R178). -/
def execBcCommandTimeout (dt : Nat) (tag : BitVec 8) (s : State) : Host.Outcome State Fault Refusal :=
  let s := s.tick dt
  .next (match s.lnk.bcOut.find? (s.bcDue tag.toNat) with
    | none => s
    | some b => s.bcRetry b)

/-! ### Spares (R159, R174) -/

/-- `SPARE_MAP`'s list of lanes. -/
def spareList (r : Req) : List Nat := (List.range (r.f 0 0 3)).map (fun i => r.f 1 (8 * i) 6)

/-- The argument checks of `SPARE_MAP`: the count, no bit past its lanes (R58), and no data lane in the list. -/
def spareArgs (r : Req) (s : State) : Bool :=
  decide (1 ≤ r.f 0 0 3) && decide (r.f 0 0 3 ≤ 4) &&
    (List.range 4).all (fun i => decide (i < r.f 0 0 3) || decide (r.f 1 (8 * i) 8 = 0)) &&
    (spareList r).all (fun l => decide (s.fd (R.SLK_LANE_MAP l) 12 2 ≠ 1) && decide (s.role l ≠ 1))

/-- The command `SPARE_MAP` (0x0405); its order holds from its acceptance. -/
def execSpareMap (dt : Nat) (c : Call) (s : State) : Host.Outcome State Fault Refusal :=
  .next (kilel 0x0405 spareArgs (fun r s =>
    match stageAnswer r ((spareList r).map (fun l => (R.SLK_LANE_MAP l, 0x2000#32))) s with
    | .done 0 pay s => .done St.OK pay { s with lnk := { s.lnk with spareOrder := spareList r } }
    | a => a) dt c s)

/-- Data lane `l` is lost, firmware has not acted, and REJOIN_FRAMES boundaries have passed (R174). -/
def State.swapDue (s : State) (l : Nat) : Bool :=
  s.linkOn && s.bt (R.SLK_LANE_STAT l) 14 && decide (s.role l = 1) && decide (tabGet (fun _ => 0) s.lnk.act l = 0) &&
    leMod 40 (tabGet (fun _ => 0) s.lnk.lossAt l + s.fd R.SLK_LINK_CFG 16 8) s.ep.frame

/-- The spares promised to a swap that is under way. -/
def State.promised (s : State) : List Nat :=
  (s.lnk.bcq ++ s.lnk.bcOut).filterMap (fun b => if b.kind = 2 then some b.to_ else none) ++ s.lnk.swaps.map (·.spare)

/-- Firmware acts for lost lane `l`: a SPARE_SWAP for the first spare in STANDBY that is not promised, or the link degrades
(R174, R175). -/
def State.swapFor (s : State) (l : Nat) : State :=
  match (s.lnk.spareOrder ++ s.standby).find? (fun p => s.standby.contains p && !s.promised.contains p) with
  | none => s.degrade l
  | some p =>
    let b : BcCmd := { kind := 2, type := 3, tag := 0, count := 0, addr := 0, vals := [], last := false, epoch := 0
                       from_ := l, to_ := p, tries := 0, sentAt := none }
    ((s.bcPush b).2).setAct l 1

/-- SPARE_SWAP_DUE: firmware acts for lane `lane`, lost and not rejoined REJOIN_FRAMES boundaries on: the first spare in
STANDBY that is not promised gets a SPARE_SWAP, or the link degrades (R174, R175). -/
def execSpareSwapDue (dt : Nat) (lane : Fin 64) (s : State) : Host.Outcome State Fault Refusal :=
  let s := s.tick dt
  let l := lane.val
  .next (if s.swapDue l then s.swapFor l else s)

end Sys2Proof.Machine
end

