-- ==== Sys2Proof/Machine/Mailbox.lean ====
section
/-!
DEFINITION. BAR0 (R47 to R53): doorbells, request areas, acknowledges, the interrupt bits; the pending bitmap and the
event-queue heads (R48, R87, R88, R117); faults that units report and quiet root records (R120 to R125).
-/

set_option Elab.async false

namespace Sys2Proof.Machine

/-! ### Slots (R50 to R53) -/

/-- MBX_DOORBELL: a FREE slot of a served function is POSTED, any other doorbell is counted in DOORBELL_BUSY (R50). What R58,
R59, R75 and R531 answer without running the command is answered here (log entry 11). A doorbell wakes P1 (Table 19-1). -/
def State.doorbell (s : State) (p w : Nat) : State :=
  let slot := w % 16
  if !s.linkAlive then s
  else
    let s := s.wakeP1
    if s.slotState p slot ≠ Slot.FREE ∨ s.bt (R.MBX p 0x04) 0 = false then s.bump (R.MBX p 0x1C) 0 8 1
    else
      let s := s.setSlot p slot Slot.POSTED
      match s.gate p slot with
      | .run => { s with mbx := { s.mbx with posted := s.mbx.posted ++ [{ part := p, slot := slot, at_ := s.now }] } }
      | g => s.refuse p slot g

/-- MBX_DOORBELL: `w` is the word written. -/
def execMbxDoorbell (dt : Nat) (fn : Fin 64) (w : Word) (s : State) : Host.Outcome State Fault Refusal :=
  .next ((s.tick dt).doorbell fn w.toNat)

/-- REQUEST_AREA_WRITE: kept while the slot is FREE, discarded and counted in WR_BUSY otherwise (R52). -/
def execRequestAreaWrite (dt : Nat) (fn : Fin 64) (slot : Fin 16) (word : Fin 64) (v : Word) (s : State) :
    Host.Outcome State Fault Refusal :=
  let s := s.tick dt
  .next (if !s.linkAlive then s
    else if s.slotState fn slot = Slot.FREE then s.wr (R.MBX fn (0x1000 + 0x100 * slot + 4 * word)) v
    else s.bump (R.MBX fn 0x1C) 8 8 1)

/-- MBX_SLOT_ACK: DONE slots named in `w` become FREE (R53). -/
def execMbxSlotAck (dt : Nat) (fn : Fin 64) (w : Word) (s : State) : Host.Outcome State Fault Refusal :=
  let s := s.tick dt
  .next (if !s.linkAlive then s
    else (selIdx 16 (fun i => bit w i && decide (s.slotState fn i = Slot.DONE))).foldl
      (fun s i => s.setSlot fn i Slot.FREE) s)

/-- MBX_INT_STAT: bits written 1 clear (R49; log entry 10). -/
def execMbxIntStat (dt : Nat) (fn : Fin 64) (w : Word) (s : State) : Host.Outcome State Fault Refusal :=
  let s := s.tick dt
  .next (if !s.linkAlive then s else s.wr (R.MBX fn 0x14) (s.rd (R.MBX fn 0x14) &&& ~~~w))

/-- A BAR0 offset that Tables 2-1 and 2-2 reserve. -/
def bar0Reserved (o : Nat) : Bool :=
  (decide (0x28 ≤ o) && decide (o < 0x1000)) || (decide (0x3000 ≤ o) && decide (o < 0x4000)) ||
    (decide (0x4200 ≤ o) && decide (o < 0x8000))

/-- The head entry of context `c` (Table 4-3): its lower or upper word. -/
def EvQueue.head (q : EvQueue) (upper : Bool) : Word :=
  if upper then w32 (q.cons % 65536) else w32 (q.prod % 65536 + q.lost * 65536)

/-- A host read of the word at offset `o` of the BAR0 of function `p` (R47, R48, Tables 2-1 and 2-2): entries of contexts the
partition does not own read 0, and so do registers that are only the PF's in a VF; MBX_FN_ERR clears. -/
def State.bar0Read (s : State) (p o : Nat) : Word × State :=
  let v := s.rd (R.MBX p o)
  if o < 0x28 then
    if o = 0 then (w32 (p + b2n (decide (p = 0)) * 64), s)
    else if o = 4 then (setFld v 1 1 (b2n s.camp), s)
    else if o = 0x1C then (v, s.wr (R.MBX p o) 0)
    else ((if o = 8 ∨ o = 0x10 ∨ (0x20 ≤ o ∧ p ≠ 0) then 0 else v), s)
  else if o < 0x4000 then (v, s)
  else if o < 0x8000 then
    let c0 := (o - 0x4000) * 8
    (w32 (maskOf 32 (fun i => s.owns p (c0 + i) && (s.evq (c0 + i)).pend)), s)
  else
    let c := (o - 0x8000) / 8
    (if s.owns p c then (s.evq c).head (decide (o % 8 = 4)) else 0, s)

/-- BAR0_RESERVED_ACCESS: suppressed and counted as kind 3; a read returns 0 (R47). The table has no row for the read of any
other offset: this one's read form stands for it (log entry 97). -/
def execBar0ReservedAccess (dt : Nat) (fn : Fin 64) (off : BitVec 16) (write : Bool) (s : State) :
    Host.Outcome State Fault Refusal :=
  let s := s.tick dt
  let o := off.toNat / 4 * 4
  .next (if !s.linkAlive then s
    else if bar0Reserved off.toNat then
      let s := s.viol fn Viol.bar0 0 (R.MBX fn off.toNat)
      if write then s else s.emit (.read 0)
    else if write then s
    else (s.bar0Read fn o).2.emit (.read (s.bar0Read fn o).1.toNat))

/-! ### Pending bits and event-queue heads -/

/-- The pending bit of context `c` is written 1 by partition `p` (R88, R48). An event of the same cycle wins: the bit stays
1, and a message follows unless that event sent it. -/
def State.pendClear (s : State) (p c : Nat) : State :=
  if !s.owns p c then s.viol p Viol.ctx c c
  else
    let q := s.evq c
    if q.pend && decide (q.lastEv = some s.now) then
      (if q.lastMsg = some s.now then s else s.ctxMessage c)
    else s.setEvq c { q with pend := false }

/-- PENDING_BITMAP_CLEAR: word `word` of the bitmap is written. -/
def execPendingBitmapClear (dt : Nat) (fn : Fin 64) (word : Fin 128) (v : Word) (s : State) :
    Host.Outcome State Fault Refusal :=
  let s := s.tick dt
  .next (if !s.linkAlive then s
    else (selIdx 32 (fun i => bit v i)).foldl (fun s i => s.pendClear fn (32 * word + i)) s)

/-- EVQ_CONS_WRITE: once CONS has advanced, EVQ_LOST reports what was lost (R117). -/
def execEvqConsWrite (dt : Nat) (fn : Fin 64) (ctx : Fin 4096) (cons : BitVec 16) (s : State) :
    Host.Outcome State Fault Refusal :=
  let s := s.tick dt
  .next (if !s.linkAlive then s
    else if !s.owns fn ctx then s.viol fn Viol.ctx ctx ctx
    else
      let q := s.evq ctx
      let s := s.setEvq ctx { q with cons := cons.toNat }
      if q.cons = cons.toNat || !s.bme fn || s.draining ctx then s else s.flushLost ctx)

/-- EVQ_MOD_EXPIRY: the gap has passed; a held message goes if the pending bit is still 1 (R87). -/
def execEvqModExpiry (dt : Nat) (ctx : Fin 4096) (s : State) : Host.Outcome State Fault Refusal :=
  let s := s.tick dt
  let q := s.evq ctx
  let over_ := match q.lastMsg with
    | some t => decide (t + s.fd (R.CTX_ENT_IRQ ctx) 16 16 * 100 ≤ s.now)
    | none => true
  .next (if !q.held || !over_ then s
    else if q.pend then s.ctxMessage ctx
    else s.setEvq ctx { q with held := false })

/-! ### Faults -/

/-- What the reporting block counts or marks beside the report (R155, R327, R341, R344, R460, R509). -/
def State.repEffect (s : State) (f : FaultRep) : State :=
  let src := f.src.toNat
  let u := f.unit.toNat
  if src = Src.DMC ∧ u < 32 then
    if f.cls = .corrected then s.bump (R.DMC_CH_CE u) 0 32 1
    else if f.code = 1 then
      ((s.bump (R.DMC_CH_UE u) 0 32 1).wr (R.DMC_CH_UE_ADDR_LO u) (w32 (f.detail.toNat * 64))).wr (R.DMC_CH_UE_ADDR_HI u)
        (w32 (0x80 + f.detail.toNat / 2 ^ 26))
    else s
  else if src = Src.SPD then
    (if f.cls = .corrected then s.bump R.SPD_ERR 0 16 1 else if f.code = 1 then s.bump R.SPD_ERR 16 16 1 else s)
  else if src = Src.LNA ∧ f.code = 1 ∧ u < 16 then (s.bump (R.LNA_QUAD_STAT u) 16 16 1).wrF (R.LNA_QUAD_STAT u) 0 1 0
  else if src = Src.CHT ∧ f.code = 1 ∧ u < 128 then s.bump (R.CHT_ERR u) 8 8 1
  else if src = Src.HLK ∧ f.code = 1 then
    match s.items.find? (fun i => i.staged && decide (i.ring = f.detail.toNat)) with
    | some it => { s with items := repl1 it { it with poisoned := true } s.items }
    | none => s
  else if src = Src.AON ∧ f.code = 1 then { s with pwr := { s.pwr with thm := { s.pwr.thm with sensorBad := true } } }
  else s

/-- One report comes before another of the same cycle (R125): by rank of SOURCE, UNIT, FAULT_CODE. -/
def repBefore (a b : FaultRep) : Bool :=
  let k := fun (f : FaultRep) => srcRank f.src.toNat * 2 ^ 32 + f.unit.toNat * 2 ^ 16 + f.code.toNat
  decide (k a ≤ k b)

/-- A fault of the tables: its source, code and class, how many units it names, and the bits of DETAIL it fills. -/
structure FaultDef where
  src : Nat
  code : Nat
  cls : FaultClass
  units : Nat
  detail : Nat
deriving DecidableEq, Repr

/-- The faults of the blocks (Tables 5-9, 6-8, 7-7, 8-9, 9-7, 11-9, 12-4, 13-8, 15-6, 19-10; R278, R389, R437, R460). -/
def faultTable : List FaultDef := [
  ⟨Src.LNA, 1, .unit, 16, 4⟩, ⟨Src.LNA, 2, .item, 64, 8⟩, ⟨Src.SLK, 1, .item, 48, 6⟩, ⟨Src.SLK, 2, .unit, 1, 6⟩,
  ⟨Src.PSC, 1, .item, 3, 22⟩, ⟨Src.PSC, 2, .item, 48, 16⟩, ⟨Src.BKC, 1, .item, 2, 6⟩, ⟨Src.BKC, 2, .item, 2, 6⟩,
  ⟨Src.CPL, 1, .item, 2, 16⟩, ⟨Src.CPL, 2, .item, 8, 2⟩, ⟨Src.CRS, 1, .item, 4, 2⟩, ⟨Src.LND, 1, .item, 16, 32⟩,
  ⟨Src.LND, 2, .item, 1, 11⟩, ⟨Src.DMC, 1, .item, 32, 32⟩, ⟨Src.DMC, 2, .device, 32, 4⟩, ⟨Src.DMC, 3, .item, 32, 4⟩,
  ⟨Src.SPD, 1, .item, 64, 16⟩, ⟨Src.CHT, 1, .item, 128, 13⟩, ⟨Src.VCD, 1, .item, 64, 32⟩, ⟨Src.VCD, 2, .item, 64, 16⟩,
  ⟨Src.MON, 1, .item, 6, 32⟩, ⟨Src.TIM, 1, .device, 1, 0⟩, ⟨Src.TIM, 2, .item, 2, 4⟩, ⟨Src.AUD, 1, .item, 8, 32⟩,
  ⟨Src.HLK, 1, .item, 1, 14⟩, ⟨Src.AON, 1, .device, 1, 32⟩, ⟨Src.AON, 2, .item, 1, 13⟩, ⟨Src.AON, 3, .item, 1, 32⟩]

/-- A report as the fault tables give it: its class is that of its code, DETAIL fills its column's bits. A code or a UNIT
that no table has is never reported (`none`, log entry 38); a CORRECTED report carries no code (R120). -/
def tabled (f : FaultRep) : Option FaultRep :=
  if f.cls = .corrected then some f
  else (faultTable.find? (fun e => decide (e.src = f.src.toNat) && decide (e.code = f.code.toNat) &&
      decide (f.unit.toNat < e.units))).map (fun e => { f with cls := e.cls, detail := w32 (f.detail.toNat % 2 ^ e.detail) })

/-- A report; a DEVICE report that opens no record has its record logged once more, before the reset (Table 4-5). Answers
what R123 needs of the cycle. -/
def State.reported (s : State) (f : FaultRep) : List (Nat × Nat) × State :=
  let n := s.evt.order
  let (l, s) := (s.repEffect f).faultCore f
  (l, if f.cls = .device && decide (s.evt.order = n) then
    match (s.evt.roots.find? (fun r => r.open_ && decide (r.src = f.src.toNat) && decide (r.unit = f.unit.toNat) &&
        decide (r.code = f.code.toNat))) with
    | some r => s.logRoot r
    | none => match s.rootAt 255 with
      | some r => s.logRoot r
      | none => s
  else s)

/-- The reports of one cycle in order. -/
def State.reports (s : State) : List FaultRep → List (Nat × Nat) × State
  | [] => ([], s)
  | f :: fs =>
    let (l, s) := s.reported f
    let (l', s) := State.reports s fs
    (l ++ l', s)

/-- FAULT_REPORT: the reports of one cycle (R120 to R125). A report of class DEVICE ends in a level 4 reset. EVT is off below
P1 (Table 1-3). -/
def execFaultReport (dt : Nat) (reps : List FaultRep) (s : State) : Host.Outcome State Fault Refusal :=
  let s := s.tick dt
  .next (if !s.awakeDev then s
    else
      let reps := reps.filterMap tabled
      let (l, s) := s.reports (reps.insertionSort (fun a b => repBefore a b = true))
      let s := s.rootMessages l
      if reps.any (fun f => f.cls = .device) then s.warmReset 4 else s)

/-- ROOT_QUIET_CLOSE: the record `id` closes once no report matched it for QUIET_MS (R124). -/
def execRootQuietClose (dt : Nat) (id : Word) (s : State) : Host.Outcome State Fault Refusal :=
  let s := s.tick dt
  .next (match s.evt.roots.find? (fun r => r.open_ && decide (r.id = id.toNat)) with
    | some r => if r.lastMono + s.fd R.EVT_CTRL 0 10 * 10 ^ 6 ≤ s.now && s.awakeDev then s.closeRoot r else s
    | none => s)

end Sys2Proof.Machine
end

