-- ==== Sys2Proof/Machine/Dispatch.lean ====
section
/-!
DEFINITION. One arm per command: each is a direct call of its meaning.
-/

namespace Sys2Proof.Machine

/-- The effect of a command on everything but the queue of commands. -/
def exec (i : Instr) (s : State) : Host.Outcome State Fault Refusal :=
  match i with
  | .nop dt c => Sys2Proof.Machine.execNop dt c s
  | .sysInfo dt c => Sys2Proof.Machine.execSysInfo dt c s
  | .regRead dt c => Sys2Proof.Machine.execRegRead dt c s
  | .regWrite dt c => Sys2Proof.Machine.execRegWrite dt c s
  | .plainRegisterWrite dt path addr v => Sys2Proof.Machine.execPlainRegisterWrite dt path addr v s
  | .bar2Enable dt c => Sys2Proof.Machine.execBar2Enable dt c s
  | .bar2Read dt off size => Sys2Proof.Machine.execBar2Read dt off size s
  | .bar2Write dt off size v => Sys2Proof.Machine.execBar2Write dt off size v s
  | .fwLogRead dt c log => Sys2Proof.Machine.execFwLogRead dt c log s
  | .memAlloc dt c pages => Sys2Proof.Machine.execMemAlloc dt c pages s
  | .memFree dt c addr => Sys2Proof.Machine.execMemFree dt c addr s
  | .memWrite dt c addr => Sys2Proof.Machine.execMemWrite dt c addr s
  | .memRead dt c addr len => Sys2Proof.Machine.execMemRead dt c addr len s
  | .settingsStage dt c => Sys2Proof.Machine.execSettingsStage dt c s
  | .epochCommit dt c sensor => Sys2Proof.Machine.execEpochCommit dt c sensor s
  | .epochDiscard dt c => Sys2Proof.Machine.execEpochDiscard dt c s
  | .statusSnapshot dt c => Sys2Proof.Machine.execStatusSnapshot dt c s
  | .settingsRead dt c => Sys2Proof.Machine.execSettingsRead dt c s
  | .epochStatus dt c => Sys2Proof.Machine.execEpochStatus dt c s
  | .ctxAlloc dt c => Sys2Proof.Machine.execCtxAlloc dt c s
  | .ctxFree dt c => Sys2Proof.Machine.execCtxFree dt c s
  | .ctxConfig dt c => Sys2Proof.Machine.execCtxConfig dt c s
  | .partConfig dt c => Sys2Proof.Machine.execPartConfig dt c s
  | .reset dt c => Sys2Proof.Machine.execReset dt c s
  | .violationRead dt c => Sys2Proof.Machine.execViolationRead dt c s
  | .evqConfig dt c => Sys2Proof.Machine.execEvqConfig dt c s
  | .linkStart dt c => Sys2Proof.Machine.execLinkStart dt c s
  | .linkStop dt c => Sys2Proof.Machine.execLinkStop dt c s
  | .linkStatus dt c => Sys2Proof.Machine.execLinkStatus dt c s
  | .sensorCmd dt c => Sys2Proof.Machine.execSensorCmd dt c s
  | .spareMap dt c => Sys2Proof.Machine.execSpareMap dt c s
  | .takeConfig dt c => Sys2Proof.Machine.execTakeConfig dt c s
  | .takeDirRead dt c => Sys2Proof.Machine.execTakeDirRead dt c s
  | .takeArm dt c => Sys2Proof.Machine.execTakeArm dt c s
  | .takeDisarm dt c => Sys2Proof.Machine.execTakeDisarm dt c s
  | .takeStart dt c => Sys2Proof.Machine.execTakeStart dt c s
  | .takeStop dt c => Sys2Proof.Machine.execTakeStop dt c s
  | .takeTrigger dt c => Sys2Proof.Machine.execTakeTrigger dt c s
  | .takeDelete dt c => Sys2Proof.Machine.execTakeDelete dt c s
  | .takeRead dt c ue => Sys2Proof.Machine.execTakeRead dt c ue s
  | .landingStatus dt c => Sys2Proof.Machine.execLandingStatus dt c s
  | .streamOpen dt c => Sys2Proof.Machine.execStreamOpen dt c s
  | .streamClose dt c => Sys2Proof.Machine.execStreamClose dt c s
  | .pipeStatus dt c => Sys2Proof.Machine.execPipeStatus dt c s
  | .statsRoute dt c route ctx en ring => Sys2Proof.Machine.execStatsRoute dt c route ctx en ring s
  | .vcSessionOpen dt c => Sys2Proof.Machine.execVcSessionOpen dt c s
  | .vcSessionClose dt c session => Sys2Proof.Machine.execVcSessionClose dt c session s
  | .vcEncode dt c => Sys2Proof.Machine.execVcEncode dt c s
  | .vcDecode dt c => Sys2Proof.Machine.execVcDecode dt c s
  | .vcPoolAlloc dt c => Sys2Proof.Machine.execVcPoolAlloc dt c s
  | .vcMark dt c session poc mark => Sys2Proof.Machine.execVcMark dt c session poc mark s
  | .vcAbort dt c => Sys2Proof.Machine.execVcAbort dt c s
  | .monOutputConfig dt c output ctx => Sys2Proof.Machine.execMonOutputConfig dt c output ctx s
  | .monPush dt c => Sys2Proof.Machine.execMonPush dt c s
  | .monFbAlloc dt c => Sys2Proof.Machine.execMonFbAlloc dt c s
  | .monStatus dt c => Sys2Proof.Machine.execMonStatus dt c s
  | .timeRead dt c => Sys2Proof.Machine.execTimeRead dt c s
  | .timeSet dt c => Sys2Proof.Machine.execTimeSet dt c s
  | .ptpConfig dt c cfg intv servo step => Sys2Proof.Machine.execPtpConfig dt c cfg intv servo step s
  | .trigSchedule dt c => Sys2Proof.Machine.execTrigSchedule dt c s
  | .genlockConfig dt c cad cfg rate phase gl => Sys2Proof.Machine.execGenlockConfig dt c cad cfg rate phase gl s
  | .timecodeSet dt c => Sys2Proof.Machine.execTimecodeSet dt c s
  | .ptpStatus dt c => Sys2Proof.Machine.execPtpStatus dt c s
  | .audPortConfig dt c port cfg mask => Sys2Proof.Machine.execAudPortConfig dt c port cfg mask s
  | .audStart dt c => Sys2Proof.Machine.execAudStart dt c s
  | .audStop dt c parts => Sys2Proof.Machine.execAudStop dt c parts s
  | .audMute dt c => Sys2Proof.Machine.execAudMute dt c s
  | .audStatus dt c => Sys2Proof.Machine.execAudStatus dt c s
  | .sqCreate dt c => Sys2Proof.Machine.execSqCreate dt c s
  | .sqDelete dt c qid => Sys2Proof.Machine.execSqDelete dt c qid s
  | .sqAbort dt c qid tag => Sys2Proof.Machine.execSqAbort dt c qid tag s
  | .sqStatus dt c qid => Sys2Proof.Machine.execSqStatus dt c qid s
  | .maintStart dt c => Sys2Proof.Machine.execMaintStart dt c s
  | .maintStatus dt c => Sys2Proof.Machine.execMaintStatus dt c s
  | .maintCancel dt c act => Sys2Proof.Machine.execMaintCancel dt c act s
  | .prbsConfig dt c lane v => Sys2Proof.Machine.execPrbsConfig dt c lane v s
  | .errInject dt c kind target count => Sys2Proof.Machine.execErrInject dt c kind target count s
  | .loopbackSet dt c lane mode => Sys2Proof.Machine.execLoopbackSet dt c lane mode s
  | .nvImageBegin dt c => Sys2Proof.Machine.execNvImageBegin dt c s
  | .nvImageWrite dt c => Sys2Proof.Machine.execNvImageWrite dt c s
  | .nvImageCommit dt c => Sys2Proof.Machine.execNvImageCommit dt c s
  | .nvImageStatus dt c => Sys2Proof.Machine.execNvImageStatus dt c s
  | .nvImageSelect dt c slot => Sys2Proof.Machine.execNvImageSelect dt c slot s
  | .nvLogRead dt c first count => Sys2Proof.Machine.execNvLogRead dt c first count s
  | .powerState dt c => Sys2Proof.Machine.execPowerState dt c s
  | .thermalRead dt c => Sys2Proof.Machine.execThermalRead dt c s
  | .thermalConfig dt c limit rate => Sys2Proof.Machine.execThermalConfig dt c limit rate s
  | .backupStatus dt c => Sys2Proof.Machine.execBackupStatus dt c s
  | .bootInfo dt c => Sys2Proof.Machine.execBootInfo dt c s
  | .mbxDoorbell dt fn w => Sys2Proof.Machine.execMbxDoorbell dt fn w s
  | .requestAreaWrite dt fn slot word v => Sys2Proof.Machine.execRequestAreaWrite dt fn slot word v s
  | .mbxSlotAck dt fn w => Sys2Proof.Machine.execMbxSlotAck dt fn w s
  | .mbxIntStat dt fn w => Sys2Proof.Machine.execMbxIntStat dt fn w s
  | .bar0ReservedAccess dt fn off write => Sys2Proof.Machine.execBar0ReservedAccess dt fn off write s
  | .pendingBitmapClear dt fn word v => Sys2Proof.Machine.execPendingBitmapClear dt fn word v s
  | .evqConsWrite dt fn ctx cons => Sys2Proof.Machine.execEvqConsWrite dt fn ctx cons s
  | .evqModExpiry dt ctx => Sys2Proof.Machine.execEvqModExpiry dt ctx s
  | .msixUnmask dt fn vec => Sys2Proof.Machine.execMsixUnmask dt fn vec s
  | .bmeClear dt fn => Sys2Proof.Machine.execBmeClear dt fn s
  | .bmeSet dt fn => Sys2Proof.Machine.execBmeSet dt fn s
  | .pcieHotReset dt => Sys2Proof.Machine.execPcieHotReset dt s
  | .pcieDlDown dt => Sys2Proof.Machine.execPcieDlDown dt s
  | .vfFlr dt p => Sys2Proof.Machine.execVfFlr dt p s
  | .pfFlr dt => Sys2Proof.Machine.execPfFlr dt s
  | .pciePerstNAssert dt => Sys2Proof.Machine.execPciePerstNAssert dt s
  | .pciePerstNDeassert dt => Sys2Proof.Machine.execPciePerstNDeassert dt s
  | .readCompletionError dt ring what => Sys2Proof.Machine.execReadCompletionError dt ring what s
  | .ringEnable dt path ring v => Sys2Proof.Machine.execRingEnable dt path ring v s
  | .ringDisable dt path ring v written => Sys2Proof.Machine.execRingDisable dt path ring v written s
  | .hlkRingPoll dt ring hostWord descs => Sys2Proof.Machine.execHlkRingPoll dt ring hostWord descs s
  | .h2cReadComplete dt ring data => Sys2Proof.Machine.execH2cReadComplete dt ring data s
  | .hlkItemDelivery dt ring bytes => Sys2Proof.Machine.execHlkItemDelivery dt ring bytes s
  | .cplModExpiry dt ring => Sys2Proof.Machine.execCplModExpiry dt ring s
  | .syntheticBoundary dt => Sys2Proof.Machine.execSyntheticBoundary dt s
  | .epochRetirement dt => Sys2Proof.Machine.execEpochRetirement dt s
  | .resetDrainComplete dt id => Sys2Proof.Machine.execResetDrainComplete dt id s
  | .faultReport dt reps => Sys2Proof.Machine.execFaultReport dt reps s
  | .rootQuietClose dt id => Sys2Proof.Machine.execRootQuietClose dt id s
  | .evtRootClose dt path v => Sys2Proof.Machine.execEvtRootClose dt path v s
  | .laneCdrLock dt lane => Sys2Proof.Machine.execLaneCdrLock dt lane s
  | .laneCdrTimeout dt lane => Sys2Proof.Machine.execLaneCdrTimeout dt lane s
  | .laneBlockLock dt lane => Sys2Proof.Machine.execLaneBlockLock dt lane s
  | .laneLockLoss dt lane => Sys2Proof.Machine.execLaneLockLoss dt lane s
  | .laneSignalLoss dt lane => Sys2Proof.Machine.execLaneSignalLoss dt lane s
  | .alignBlock dt lane h0 h1 pay gap skewUi => Sys2Proof.Machine.execAlignBlock dt lane h0 h1 pay gap skewUi s
  | .laneAlignTimeout dt lane => Sys2Proof.Machine.execLaneAlignTimeout dt lane s
  | .prbsCheckerLock dt rx => Sys2Proof.Machine.execPrbsCheckerLock dt rx s
  | .fsPacket dt g hdr => Sys2Proof.Machine.execFsPacket dt g hdr s
  | .fsSkewTimeout dt g => Sys2Proof.Machine.execFsSkewTimeout dt g s
  | .fePacket dt g hdr => Sys2Proof.Machine.execFePacket dt g hdr s
  | .pixelPacket dt g hdr payload pcrc => Sys2Proof.Machine.execPixelPacket dt g hdr payload pcrc s
  | .embedPacket dt g hdr payload pcrc => Sys2Proof.Machine.execEmbedPacket dt g hdr payload pcrc s
  | .nullPacket dt g hdr => Sys2Proof.Machine.execNullPacket dt g hdr s
  | .replyPacket dt g hdr payload pcrc => Sys2Proof.Machine.execReplyPacket dt g hdr payload pcrc s
  | .backchannelCommandSend dt => Sys2Proof.Machine.execBackchannelCommandSend dt s
  | .bcCommandTimeout dt tag => Sys2Proof.Machine.execBcCommandTimeout dt tag s
  | .spareSwapDue dt lane => Sys2Proof.Machine.execSpareSwapDue dt lane s
  | .pscBeat dt stripe io => Sys2Proof.Machine.execPscBeat dt stripe io s
  | .bkcBeat dt stripe io => Sys2Proof.Machine.execBkcBeat dt stripe io s
  | .bkcKeyReq dt path v => Sys2Proof.Machine.execBkcKeyReq dt path v s
  | .bkcJobProd dt path v => Sys2Proof.Machine.execBkcJobProd dt path v s
  | .bkcJobStart dt => Sys2Proof.Machine.execBkcJobStart dt s
  | .bkcJobCompletion dt frames stripes ue par => Sys2Proof.Machine.execBkcJobCompletion dt frames stripes ue par s
  | .bkcJobAbort dt path v => Sys2Proof.Machine.execBkcJobAbort dt path v s
  | .landingUnitWrite dt slot cut => Sys2Proof.Machine.execLandingUnitWrite dt slot cut s
  | .takeFinalisation dt slot => Sys2Proof.Machine.execTakeFinalisation dt slot s
  | .takeEntryWritten dt slot => Sys2Proof.Machine.execTakeEntryWritten dt slot s
  | .developmentStart dt tapUe lutUe => Sys2Proof.Machine.execDevelopmentStart dt tapUe lutUe s
  | .scalerOutputRecord dt scaler => Sys2Proof.Machine.execScalerOutputRecord dt scaler s
  | .statsRecordComplete dt full parity => Sys2Proof.Machine.execStatsRecordComplete dt full parity s
  | .livePictureHold dt session => Sys2Proof.Machine.execLivePictureHold dt session s
  | .vcSliceBoundary dt out => Sys2Proof.Machine.execVcSliceBoundary dt out s
  | .vcDecodeStart dt => Sys2Proof.Machine.execVcDecodeStart dt s
  | .vcDecodeDone dt out => Sys2Proof.Machine.execVcDecodeDone dt out s
  | .outputFrameStart dt output => Sys2Proof.Machine.execOutputFrameStart dt output s
  | .teEdge dt port => Sys2Proof.Machine.execTeEdge dt port s
  | .teMissTimeout dt port => Sys2Proof.Machine.execTeMissTimeout dt port s
  | .dsiTransferDone dt port under ue => Sys2Proof.Machine.execDsiTransferDone dt port under ue s
  | .sdiLineStart dt output miss ue => Sys2Proof.Machine.execSdiLineStart dt output miss ue s
  | .sdiFrameEnd dt output => Sys2Proof.Machine.execSdiFrameEnd dt output s
  | .trigPinEdge dt pin falling => Sys2Proof.Machine.execTrigPinEdge dt pin falling s
  | .scheduleEntryDue dt pin strb => Sys2Proof.Machine.execScheduleEntryDue dt pin strb s
  | .strobeTrailingEdge dt strobe => Sys2Proof.Machine.execStrobeTrailingEdge dt strobe s
  | .cadenceTick dt cad => Sys2Proof.Machine.execCadenceTick dt cad s
  | .genlockEdge dt falling => Sys2Proof.Machine.execGenlockEdge dt falling s
  | .genlockEdgeTimeout dt cad => Sys2Proof.Machine.execGenlockEdgeTimeout dt cad s
  | .ltcInFrame dt tc => Sys2Proof.Machine.execLtcInFrame dt tc s
  | .ltcInTimeout dt => Sys2Proof.Machine.execLtcInTimeout dt s
  | .timecodeFrameStart dt => Sys2Proof.Machine.execTimecodeFrameStart dt s
  | .ethFrameReceived dt port frame residence busy => Sys2Proof.Machine.execEthFrameReceived dt port frame residence busy s
  | .ptpMessageReceived dt port msg => Sys2Proof.Machine.execPtpMessageReceived dt port msg s
  | .ptpMessageTransmit dt port type turn => Sys2Proof.Machine.execPtpMessageTransmit dt port type turn s
  | .announceReceiptTimeout dt => Sys2Proof.Machine.execAnnounceReceiptTimeout dt s
  | .audPortStartInstant dt port => Sys2Proof.Machine.execAudPortStartInstant dt port s
  | .audBlockEnd dt port data parity => Sys2Proof.Machine.execAudBlockEnd dt port data parity s
  | .audBlockStart dt port => Sys2Proof.Machine.execAudBlockStart dt port s
  | .followerFrameStart dt port clocks midOk => Sys2Proof.Machine.execFollowerFrameStart dt port clocks midOk s
  | .audClockLossTimeout dt port => Sys2Proof.Machine.execAudClockLossTimeout dt port s
  | .aes3Frame dt input z a b => Sys2Proof.Machine.execAes3Frame dt input z a b s
  | .sqPoll dt qid hostWord cmds => Sys2Proof.Machine.execSqPoll dt qid hostWord cmds s
  | .sqRead dt qid => Sys2Proof.Machine.execSqRead dt qid s
  | .sqWrite dt qid data => Sys2Proof.Machine.execSqWrite dt qid data s
  | .sqAtomicWrite dt qid data => Sys2Proof.Machine.execSqAtomicWrite dt qid data s
  | .sqNop dt qid => Sys2Proof.Machine.execSqNop dt qid s
  | .sqCommandDone dt qid tag blocks fail => Sys2Proof.Machine.execSqCommandDone dt qid tag blocks fail s
  | .i2cTargetRead dt addr n cut => Sys2Proof.Machine.execI2cTargetRead dt addr n cut s
  | .i2cTargetWrite dt addr start bytes cut stop => Sys2Proof.Machine.execI2cTargetWrite dt addr start bytes cut stop s
  | .uaHoldExpiry dt => Sys2Proof.Machine.execUaHoldExpiry dt s
  | .cbsI2cXfer dt path ctl v => Sys2Proof.Machine.execCbsI2cXfer dt path ctl v s
  | .i2cTransferEnd dt ctl result idx data => Sys2Proof.Machine.execI2cTransferEnd dt ctl result idx data s
  | .i2cSclTimeout dt ctl => Sys2Proof.Machine.execI2cSclTimeout dt ctl s
  | .cbsGpioSet dt path v => Sys2Proof.Machine.execCbsGpioSet dt path v s
  | .cbsGpioClr dt path v => Sys2Proof.Machine.execCbsGpioClr dt path v s
  | .gpioPinEdge dt pin falling => Sys2Proof.Machine.execGpioPinEdge dt pin falling s
  | .spdBankHo dt path bank v => Sys2Proof.Machine.execSpdBankHo dt path bank v s
  | .spdHandoverComplete dt bank => Sys2Proof.Machine.execSpdHandoverComplete dt bank s
  | .chuteWrite dt chute kind data poison => Sys2Proof.Machine.execChuteWrite dt chute kind data poison s
  | .chuteRead dt chute => Sys2Proof.Machine.execChuteRead dt chute s
  | .pageIdleExpiry dt ch bank => Sys2Proof.Machine.execPageIdleExpiry dt ch bank s
  | .selfRefreshEntry dt ch => Sys2Proof.Machine.execSelfRefreshEntry dt ch s
  | .dqsTracking dt ch => Sys2Proof.Machine.execDqsTracking dt ch s
  | .scheduledRetrainDue dt => Sys2Proof.Machine.execScheduledRetrainDue dt s
  | .deferredActivityStart dt => Sys2Proof.Machine.execDeferredActivityStart dt s
  | .dramRetrainStep dt fail => Sys2Proof.Machine.execDramRetrainStep dt fail s
  | .dramRetrainDone dt => Sys2Proof.Machine.execDramRetrainDone dt s
  | .laneEyeScanDone dt counts outOk => Sys2Proof.Machine.execLaneEyeScanDone dt counts outOk s
  | .nvScrubDone dt => Sys2Proof.Machine.execNvScrubDone dt s
  | .dramScrubDone dt => Sys2Proof.Machine.execDramScrubDone dt s
  | .thmSample dt tj raw => Sys2Proof.Machine.execThmSample dt tj raw s
  | .vbakSample dt mv => Sys2Proof.Machine.execVbakSample dt mv s
  | .nvHeldWriteFlush dt => Sys2Proof.Machine.execNvHeldWriteFlush dt s
  | .pmeHandshakeComplete dt => Sys2Proof.Machine.execPmeHandshakeComplete dt s
  | .p2HandshakeTimeout dt => Sys2Proof.Machine.execP2HandshakeTimeout dt s
  | .mainGoodFall dt => Sys2Proof.Machine.execMainGoodFall dt s
  | .retentionArbitration dt good => Sys2Proof.Machine.execRetentionArbitration dt good s
  | .porstNAssert dt => Sys2Proof.Machine.execPorstNAssert dt s
  | .bootAttempt dt trainFail fastFail step ready => Sys2Proof.Machine.execBootAttempt dt trainFail fastFail step ready s
  | .bootWatchdog dt => Sys2Proof.Machine.execBootWatchdog dt s
  | .bootSuccessTimer dt => Sys2Proof.Machine.execBootSuccessTimer dt s
  | .firmwareWatchdog dt => Sys2Proof.Machine.execFirmwareWatchdog dt s
  | .linkUpTimeout dt => Sys2Proof.Machine.execLinkUpTimeout dt s
  | .aonPowerLoss dt => Sys2Proof.Machine.execAonPowerLoss dt s

end Sys2Proof.Machine
end

