-- ==== Sys2Proof/WellFormed.lean ====
section
/-!
DEFINITION. Well-formed commands: what the outside world can supply. A meaning is total and takes ill-formed operands too.
-/

set_option Elab.async false

namespace Sys2Proof

/-- The input data of a request is at most 16 MiB, in whole words (R64, R65). -/
def Call.wf (c : Call) : Bool :=
  match c.inp with
  | some d => decide (d.length % 4 = 0) && decide (d.length ≤ 2 ^ 24)
  | none => true

/-- A sensor write carries 1 to 4 values (Table 6-3). -/
def SensorWrite.wf (w : SensorWrite) : Bool := decide (1 ≤ w.vals.length) && decide (w.vals.length ≤ 4)

/-- BAR0 reaches MBX_INT_EN and MBX_BAR2_WIN; every other path names an aligned register (R70, R71). -/
def plainOk (path : WrPath) (addr : BitVec 40) : Bool :=
  match path with
  | .bar0 _ => decide (addr.toNat = 0x18) || decide (addr.toNat = 0x24)
  | _ => decide (addr.toNat % 4 = 0)

/-- The command is one that the outside world can send. -/
def Instr.wf (i : Instr) : Bool :=
  match i with
  | .nop _ c => c.wf
  | .sysInfo _ c => c.wf
  | .regRead _ c => c.wf
  | .regWrite _ c => c.wf
  | .plainRegisterWrite _ path addr _ => plainOk path addr
  | .bar2Enable _ c => c.wf
  | .bar2Read _ _ _ => true
  | .bar2Write _ _ _ _ => true
  | .fwLogRead _ c log => c.wf && decide (log.length % 4 = 0) && decide (log.length ≤ 2 ^ 24)
  | .memAlloc _ c _ => c.wf
  | .memFree _ c _ => c.wf
  | .memWrite _ c _ => c.wf
  | .memRead _ c _ _ => c.wf
  | .settingsStage _ c => c.wf
  | .epochCommit _ c sensor => c.wf && sensor.all SensorWrite.wf
  | .epochDiscard _ c => c.wf
  | .statusSnapshot _ c => c.wf
  | .settingsRead _ c => c.wf
  | .epochStatus _ c => c.wf
  | .ctxAlloc _ c => c.wf
  | .ctxFree _ c => c.wf
  | .ctxConfig _ c => c.wf
  | .partConfig _ c => c.wf
  | .reset _ c => c.wf
  | .violationRead _ c => c.wf
  | .evqConfig _ c => c.wf
  | .linkStart _ c => c.wf
  | .linkStop _ c => c.wf
  | .linkStatus _ c => c.wf
  | .sensorCmd _ c => c.wf
  | .spareMap _ c => c.wf
  | .takeConfig _ c => c.wf
  | .takeDirRead _ c => c.wf
  | .takeArm _ c => c.wf
  | .takeDisarm _ c => c.wf
  | .takeStart _ c => c.wf
  | .takeStop _ c => c.wf
  | .takeTrigger _ c => c.wf
  | .takeDelete _ c => c.wf
  | .takeRead _ c _ => c.wf
  | .landingStatus _ c => c.wf
  | .streamOpen _ c => c.wf
  | .streamClose _ c => c.wf
  | .pipeStatus _ c => c.wf
  | .statsRoute _ c _ _ _ _ => c.wf
  | .vcSessionOpen _ c => c.wf
  | .vcSessionClose _ c _ => c.wf
  | .vcEncode _ c => c.wf
  | .vcDecode _ c => c.wf
  | .vcPoolAlloc _ c => c.wf
  | .vcMark _ c _ _ _ => c.wf
  | .vcAbort _ c => c.wf
  | .monOutputConfig _ c _ _ => c.wf
  | .monPush _ c => c.wf
  | .monFbAlloc _ c => c.wf
  | .monStatus _ c => c.wf
  | .timeRead _ c => c.wf
  | .timeSet _ c => c.wf
  | .ptpConfig _ c _ _ _ _ => c.wf
  | .trigSchedule _ c => c.wf
  | .genlockConfig _ c _ _ _ _ _ => c.wf
  | .timecodeSet _ c => c.wf
  | .ptpStatus _ c => c.wf
  | .audPortConfig _ c _ _ _ => c.wf
  | .audStart _ c => c.wf
  | .audStop _ c _ => c.wf
  | .audMute _ c => c.wf
  | .audStatus _ c => c.wf
  | .sqCreate _ c => c.wf
  | .sqDelete _ c _ => c.wf
  | .sqAbort _ c _ _ => c.wf
  | .sqStatus _ c _ => c.wf
  | .maintStart _ c => c.wf
  | .maintStatus _ c => c.wf
  | .maintCancel _ c _ => c.wf
  | .prbsConfig _ c _ _ => c.wf
  | .errInject _ c _ _ _ => c.wf
  | .loopbackSet _ c _ _ => c.wf
  | .nvImageBegin _ c => c.wf
  | .nvImageWrite _ c => c.wf
  | .nvImageCommit _ c => c.wf
  | .nvImageStatus _ c => c.wf
  | .nvImageSelect _ c _ => c.wf
  | .nvLogRead _ c _ _ => c.wf
  | .powerState _ c => c.wf
  | .thermalRead _ c => c.wf
  | .thermalConfig _ c _ _ => c.wf
  | .backupStatus _ c => c.wf
  | .bootInfo _ c => c.wf
  | .mbxDoorbell _ _ _ => true
  | .requestAreaWrite _ _ _ _ _ => true
  | .mbxSlotAck _ _ _ => true
  | .mbxIntStat _ _ _ => true
  | .bar0ReservedAccess _ _ _ _ => true
  | .pendingBitmapClear _ _ _ _ => true
  | .evqConsWrite _ _ _ _ => true
  | .evqModExpiry _ _ => true
  | .msixUnmask _ _ _ => true
  | .bmeClear _ _ => true
  | .bmeSet _ _ => true
  | .pcieHotReset _ => true
  | .pcieDlDown _ => true
  | .vfFlr _ _ => true
  | .pfFlr _ => true
  | .pciePerstNAssert _ => true
  | .pciePerstNDeassert _ => true
  | .readCompletionError _ _ _ => true
  | .ringEnable _ _ _ _ => true
  | .ringDisable _ _ _ _ _ => true
  | .hlkRingPoll _ _ _ descs => decide (descs.length ≤ 16384)
  | .h2cReadComplete _ _ data => decide (data.length % 4 = 0)
  | .hlkItemDelivery _ _ _ => true
  | .cplModExpiry _ _ => true
  | .syntheticBoundary _ => true
  | .epochRetirement _ => true
  | .resetDrainComplete _ _ => true
  | .faultReport _ reps => !reps.isEmpty
  | .rootQuietClose _ _ => true
  | .evtRootClose _ _ _ => true
  | .laneCdrLock _ _ => true
  | .laneCdrTimeout _ _ => true
  | .laneBlockLock _ _ => true
  | .laneLockLoss _ _ => true
  | .laneSignalLoss _ _ => true
  | .alignBlock _ _ _ _ _ _ _ => true
  | .laneAlignTimeout _ _ => true
  | .prbsCheckerLock _ _ => true
  | .fsPacket _ _ _ => true
  | .fsSkewTimeout _ _ => true
  | .fePacket _ _ _ => true
  | .pixelPacket _ _ _ payload _ => decide (payload.length < 65536)
  | .embedPacket _ _ _ payload _ => decide (payload.length < 65536)
  | .nullPacket _ _ _ => true
  | .replyPacket _ _ _ payload _ => decide (payload.length < 65536)
  | .backchannelCommandSend _ => true
  | .bcCommandTimeout _ _ => true
  | .spareSwapDue _ _ => true
  | .pscBeat _ _ _ => true
  | .bkcBeat _ _ _ => true
  | .bkcKeyReq _ _ _ => true
  | .bkcJobProd _ _ _ => true
  | .bkcJobStart _ => true
  | .bkcJobCompletion _ _ _ _ _ => true
  | .bkcJobAbort _ _ _ => true
  | .landingUnitWrite _ _ _ => true
  | .takeFinalisation _ _ => true
  | .takeEntryWritten _ _ => true
  | .developmentStart _ _ _ => true
  | .scalerOutputRecord _ _ => true
  | .statsRecordComplete _ _ _ => true
  | .livePictureHold _ _ => true
  | .vcSliceBoundary _ _ => true
  | .vcDecodeStart _ => true
  | .vcDecodeDone _ _ => true
  | .outputFrameStart _ _ => true
  | .teEdge _ _ => true
  | .teMissTimeout _ _ => true
  | .dsiTransferDone _ _ _ _ => true
  | .sdiLineStart _ _ _ _ => true
  | .sdiFrameEnd _ _ => true
  | .trigPinEdge _ _ _ => true
  | .scheduleEntryDue _ _ _ => true
  | .strobeTrailingEdge _ _ => true
  | .cadenceTick _ _ => true
  | .genlockEdge _ _ => true
  | .genlockEdgeTimeout _ _ => true
  | .ltcInFrame _ _ => true
  | .ltcInTimeout _ => true
  | .timecodeFrameStart _ => true
  | .ethFrameReceived _ _ frame _ _ => decide (14 ≤ frame.length)
  | .ptpMessageReceived _ _ _ => true
  | .ptpMessageTransmit _ _ _ _ => true
  | .announceReceiptTimeout _ => true
  | .audPortStartInstant _ _ => true
  | .audBlockEnd _ _ _ _ => true
  | .audBlockStart _ _ => true
  | .followerFrameStart _ _ _ _ => true
  | .audClockLossTimeout _ _ => true
  | .aes3Frame _ _ _ _ _ => true
  | .sqPoll _ _ _ cmds => decide (cmds.length ≤ 32768)
  | .sqRead _ _ => true
  | .sqWrite _ _ _ => true
  | .sqAtomicWrite _ _ _ => true
  | .sqNop _ _ => true
  | .sqCommandDone _ _ _ _ _ => true
  | .i2cTargetRead _ _ _ _ => true
  | .i2cTargetWrite _ _ _ _ _ _ => true
  | .uaHoldExpiry _ => true
  | .cbsI2cXfer _ _ _ _ => true
  | .i2cTransferEnd _ _ _ _ data => decide (data.length ≤ 16)
  | .i2cSclTimeout _ _ => true
  | .cbsGpioSet _ _ _ => true
  | .cbsGpioClr _ _ _ => true
  | .gpioPinEdge _ _ _ => true
  | .spdBankHo _ _ _ _ => true
  | .spdHandoverComplete _ _ => true
  | .chuteWrite _ _ _ _ _ => true
  | .chuteRead _ _ => true
  | .pageIdleExpiry _ _ _ => true
  | .selfRefreshEntry _ _ => true
  | .dqsTracking _ _ => true
  | .scheduledRetrainDue _ => true
  | .deferredActivityStart _ => true
  | .dramRetrainStep _ _ => true
  | .dramRetrainDone _ => true
  | .laneEyeScanDone _ _ _ => true
  | .nvScrubDone _ => true
  | .dramScrubDone _ => true
  | .thmSample _ _ _ => true
  | .vbakSample _ _ => true
  | .nvHeldWriteFlush _ => true
  | .pmeHandshakeComplete _ => true
  | .p2HandshakeTimeout _ => true
  | .mainGoodFall _ => true
  | .retentionArbitration _ _ => true
  | .porstNAssert _ => true
  | .bootAttempt _ _ _ _ _ => true
  | .bootWatchdog _ => true
  | .bootSuccessTimer _ => true
  | .firmwareWatchdog _ => true
  | .linkUpTimeout _ => true
  | .aonPowerLoss _ => true

/-- The time that a command carries: ns since the command before it (log entry 1). -/
def Instr.dt (i : Instr) : Nat :=
  match i with
  | .nop dt _ => dt
  | .sysInfo dt _ => dt
  | .regRead dt _ => dt
  | .regWrite dt _ => dt
  | .plainRegisterWrite dt _ _ _ => dt
  | .bar2Enable dt _ => dt
  | .bar2Read dt _ _ => dt
  | .bar2Write dt _ _ _ => dt
  | .fwLogRead dt _ _ => dt
  | .memAlloc dt _ _ => dt
  | .memFree dt _ _ => dt
  | .memWrite dt _ _ => dt
  | .memRead dt _ _ _ => dt
  | .settingsStage dt _ => dt
  | .epochCommit dt _ _ => dt
  | .epochDiscard dt _ => dt
  | .statusSnapshot dt _ => dt
  | .settingsRead dt _ => dt
  | .epochStatus dt _ => dt
  | .ctxAlloc dt _ => dt
  | .ctxFree dt _ => dt
  | .ctxConfig dt _ => dt
  | .partConfig dt _ => dt
  | .reset dt _ => dt
  | .violationRead dt _ => dt
  | .evqConfig dt _ => dt
  | .linkStart dt _ => dt
  | .linkStop dt _ => dt
  | .linkStatus dt _ => dt
  | .sensorCmd dt _ => dt
  | .spareMap dt _ => dt
  | .takeConfig dt _ => dt
  | .takeDirRead dt _ => dt
  | .takeArm dt _ => dt
  | .takeDisarm dt _ => dt
  | .takeStart dt _ => dt
  | .takeStop dt _ => dt
  | .takeTrigger dt _ => dt
  | .takeDelete dt _ => dt
  | .takeRead dt _ _ => dt
  | .landingStatus dt _ => dt
  | .streamOpen dt _ => dt
  | .streamClose dt _ => dt
  | .pipeStatus dt _ => dt
  | .statsRoute dt _ _ _ _ _ => dt
  | .vcSessionOpen dt _ => dt
  | .vcSessionClose dt _ _ => dt
  | .vcEncode dt _ => dt
  | .vcDecode dt _ => dt
  | .vcPoolAlloc dt _ => dt
  | .vcMark dt _ _ _ _ => dt
  | .vcAbort dt _ => dt
  | .monOutputConfig dt _ _ _ => dt
  | .monPush dt _ => dt
  | .monFbAlloc dt _ => dt
  | .monStatus dt _ => dt
  | .timeRead dt _ => dt
  | .timeSet dt _ => dt
  | .ptpConfig dt _ _ _ _ _ => dt
  | .trigSchedule dt _ => dt
  | .genlockConfig dt _ _ _ _ _ _ => dt
  | .timecodeSet dt _ => dt
  | .ptpStatus dt _ => dt
  | .audPortConfig dt _ _ _ _ => dt
  | .audStart dt _ => dt
  | .audStop dt _ _ => dt
  | .audMute dt _ => dt
  | .audStatus dt _ => dt
  | .sqCreate dt _ => dt
  | .sqDelete dt _ _ => dt
  | .sqAbort dt _ _ _ => dt
  | .sqStatus dt _ _ => dt
  | .maintStart dt _ => dt
  | .maintStatus dt _ => dt
  | .maintCancel dt _ _ => dt
  | .prbsConfig dt _ _ _ => dt
  | .errInject dt _ _ _ _ => dt
  | .loopbackSet dt _ _ _ => dt
  | .nvImageBegin dt _ => dt
  | .nvImageWrite dt _ => dt
  | .nvImageCommit dt _ => dt
  | .nvImageStatus dt _ => dt
  | .nvImageSelect dt _ _ => dt
  | .nvLogRead dt _ _ _ => dt
  | .powerState dt _ => dt
  | .thermalRead dt _ => dt
  | .thermalConfig dt _ _ _ => dt
  | .backupStatus dt _ => dt
  | .bootInfo dt _ => dt
  | .mbxDoorbell dt _ _ => dt
  | .requestAreaWrite dt _ _ _ _ => dt
  | .mbxSlotAck dt _ _ => dt
  | .mbxIntStat dt _ _ => dt
  | .bar0ReservedAccess dt _ _ _ => dt
  | .pendingBitmapClear dt _ _ _ => dt
  | .evqConsWrite dt _ _ _ => dt
  | .evqModExpiry dt _ => dt
  | .msixUnmask dt _ _ => dt
  | .bmeClear dt _ => dt
  | .bmeSet dt _ => dt
  | .pcieHotReset dt => dt
  | .pcieDlDown dt => dt
  | .vfFlr dt _ => dt
  | .pfFlr dt => dt
  | .pciePerstNAssert dt => dt
  | .pciePerstNDeassert dt => dt
  | .readCompletionError dt _ _ => dt
  | .ringEnable dt _ _ _ => dt
  | .ringDisable dt _ _ _ _ => dt
  | .hlkRingPoll dt _ _ _ => dt
  | .h2cReadComplete dt _ _ => dt
  | .hlkItemDelivery dt _ _ => dt
  | .cplModExpiry dt _ => dt
  | .syntheticBoundary dt => dt
  | .epochRetirement dt => dt
  | .resetDrainComplete dt _ => dt
  | .faultReport dt _ => dt
  | .rootQuietClose dt _ => dt
  | .evtRootClose dt _ _ => dt
  | .laneCdrLock dt _ => dt
  | .laneCdrTimeout dt _ => dt
  | .laneBlockLock dt _ => dt
  | .laneLockLoss dt _ => dt
  | .laneSignalLoss dt _ => dt
  | .alignBlock dt _ _ _ _ _ _ => dt
  | .laneAlignTimeout dt _ => dt
  | .prbsCheckerLock dt _ => dt
  | .fsPacket dt _ _ => dt
  | .fsSkewTimeout dt _ => dt
  | .fePacket dt _ _ => dt
  | .pixelPacket dt _ _ _ _ => dt
  | .embedPacket dt _ _ _ _ => dt
  | .nullPacket dt _ _ => dt
  | .replyPacket dt _ _ _ _ => dt
  | .backchannelCommandSend dt => dt
  | .bcCommandTimeout dt _ => dt
  | .spareSwapDue dt _ => dt
  | .pscBeat dt _ _ => dt
  | .bkcBeat dt _ _ => dt
  | .bkcKeyReq dt _ _ => dt
  | .bkcJobProd dt _ _ => dt
  | .bkcJobStart dt => dt
  | .bkcJobCompletion dt _ _ _ _ => dt
  | .bkcJobAbort dt _ _ => dt
  | .landingUnitWrite dt _ _ => dt
  | .takeFinalisation dt _ => dt
  | .takeEntryWritten dt _ => dt
  | .developmentStart dt _ _ => dt
  | .scalerOutputRecord dt _ => dt
  | .statsRecordComplete dt _ _ => dt
  | .livePictureHold dt _ => dt
  | .vcSliceBoundary dt _ => dt
  | .vcDecodeStart dt => dt
  | .vcDecodeDone dt _ => dt
  | .outputFrameStart dt _ => dt
  | .teEdge dt _ => dt
  | .teMissTimeout dt _ => dt
  | .dsiTransferDone dt _ _ _ => dt
  | .sdiLineStart dt _ _ _ => dt
  | .sdiFrameEnd dt _ => dt
  | .trigPinEdge dt _ _ => dt
  | .scheduleEntryDue dt _ _ => dt
  | .strobeTrailingEdge dt _ => dt
  | .cadenceTick dt _ => dt
  | .genlockEdge dt _ => dt
  | .genlockEdgeTimeout dt _ => dt
  | .ltcInFrame dt _ => dt
  | .ltcInTimeout dt => dt
  | .timecodeFrameStart dt => dt
  | .ethFrameReceived dt _ _ _ _ => dt
  | .ptpMessageReceived dt _ _ => dt
  | .ptpMessageTransmit dt _ _ _ => dt
  | .announceReceiptTimeout dt => dt
  | .audPortStartInstant dt _ => dt
  | .audBlockEnd dt _ _ _ => dt
  | .audBlockStart dt _ => dt
  | .followerFrameStart dt _ _ _ => dt
  | .audClockLossTimeout dt _ => dt
  | .aes3Frame dt _ _ _ _ => dt
  | .sqPoll dt _ _ _ => dt
  | .sqRead dt _ => dt
  | .sqWrite dt _ _ => dt
  | .sqAtomicWrite dt _ _ => dt
  | .sqNop dt _ => dt
  | .sqCommandDone dt _ _ _ _ => dt
  | .i2cTargetRead dt _ _ _ => dt
  | .i2cTargetWrite dt _ _ _ _ _ => dt
  | .uaHoldExpiry dt => dt
  | .cbsI2cXfer dt _ _ _ => dt
  | .i2cTransferEnd dt _ _ _ _ => dt
  | .i2cSclTimeout dt _ => dt
  | .cbsGpioSet dt _ _ => dt
  | .cbsGpioClr dt _ _ => dt
  | .gpioPinEdge dt _ _ => dt
  | .spdBankHo dt _ _ _ => dt
  | .spdHandoverComplete dt _ => dt
  | .chuteWrite dt _ _ _ _ => dt
  | .chuteRead dt _ => dt
  | .pageIdleExpiry dt _ _ => dt
  | .selfRefreshEntry dt _ => dt
  | .dqsTracking dt _ => dt
  | .scheduledRetrainDue dt => dt
  | .deferredActivityStart dt => dt
  | .dramRetrainStep dt _ => dt
  | .dramRetrainDone dt => dt
  | .laneEyeScanDone dt _ _ => dt
  | .nvScrubDone dt => dt
  | .dramScrubDone dt => dt
  | .thmSample dt _ _ => dt
  | .vbakSample dt _ => dt
  | .nvHeldWriteFlush dt => dt
  | .pmeHandshakeComplete dt => dt
  | .p2HandshakeTimeout dt => dt
  | .mainGoodFall dt => dt
  | .retentionArbitration dt _ => dt
  | .porstNAssert dt => dt
  | .bootAttempt dt _ _ _ _ => dt
  | .bootWatchdog dt => dt
  | .bootSuccessTimer dt => dt
  | .firmwareWatchdog dt => dt
  | .linkUpTimeout dt => dt
  | .aonPowerLoss dt => dt

end Sys2Proof
end

