-- ==== Sys2Proof/Safety.lean ====
section
/-!
DEFINITION. The words that claims use: a state whose tables are canonical, the parts that each command may touch, the commands that may move the epoch, and when a
Kilel command is served.
-/

set_option Elab.async false

namespace Sys2Proof.Machine

/-- The register file and the three memories are in canonical form. -/
def State.canonical (s : State) : Bool := tabWf regReset s.regs && Memory.wf s

/-- The commands in which a frame boundary falls (R14, R37) or the whole part is reset or loses its state (R107, R478, R516):
only these may change the active epoch and the device frame number. -/
def movesEpoch (i : Instr) : Bool :=
  match i with
  | .reset _ _ => true
  | .nvImageCommit _ _ => true
  | .powerState _ _ => true
  | .pcieHotReset _ => true
  | .pcieDlDown _ => true
  | .pciePerstNAssert _ => true
  | .pciePerstNDeassert _ => true
  | .syntheticBoundary _ => true
  | .faultReport _ _ => true
  | .fsPacket _ _ _ => true
  | .cadenceTick _ _ => true
  | .sqCommandDone _ _ _ _ _ => true
  | .gpioPinEdge _ _ _ => true
  | .thmSample _ _ _ => true
  | .mainGoodFall _ => true
  | .porstNAssert _ => true
  | .bootAttempt _ _ _ _ _ => true
  | .bootWatchdog _ => true
  | .firmwareWatchdog _ => true
  | .aonPowerLoss _ => true
  | .nop _ _ => false
  | .sysInfo _ _ => false
  | .regRead _ _ => false
  | .regWrite _ _ => false
  | .plainRegisterWrite _ _ _ _ => false
  | .bar2Enable _ _ => false
  | .bar2Read _ _ _ => false
  | .bar2Write _ _ _ _ => false
  | .fwLogRead _ _ _ => false
  | .memAlloc _ _ _ => false
  | .memFree _ _ _ => false
  | .memWrite _ _ _ => false
  | .memRead _ _ _ _ => false
  | .settingsStage _ _ => false
  | .epochCommit _ _ _ => false
  | .epochDiscard _ _ => false
  | .statusSnapshot _ _ => false
  | .settingsRead _ _ => false
  | .epochStatus _ _ => false
  | .ctxAlloc _ _ => false
  | .ctxFree _ _ => false
  | .ctxConfig _ _ => false
  | .partConfig _ _ => false
  | .violationRead _ _ => false
  | .evqConfig _ _ => false
  | .linkStart _ _ => false
  | .linkStop _ _ => false
  | .linkStatus _ _ => false
  | .sensorCmd _ _ => false
  | .spareMap _ _ => false
  | .takeConfig _ _ => false
  | .takeDirRead _ _ => false
  | .takeArm _ _ => false
  | .takeDisarm _ _ => false
  | .takeStart _ _ => false
  | .takeStop _ _ => false
  | .takeTrigger _ _ => false
  | .takeDelete _ _ => false
  | .takeRead _ _ _ => false
  | .landingStatus _ _ => false
  | .streamOpen _ _ => false
  | .streamClose _ _ => false
  | .pipeStatus _ _ => false
  | .statsRoute _ _ _ _ _ _ => false
  | .vcSessionOpen _ _ => false
  | .vcSessionClose _ _ _ => false
  | .vcEncode _ _ => false
  | .vcDecode _ _ => false
  | .vcPoolAlloc _ _ => false
  | .vcMark _ _ _ _ _ => false
  | .vcAbort _ _ => false
  | .monOutputConfig _ _ _ _ => false
  | .monPush _ _ => false
  | .monFbAlloc _ _ => false
  | .monStatus _ _ => false
  | .timeRead _ _ => false
  | .timeSet _ _ => false
  | .ptpConfig _ _ _ _ _ _ => false
  | .trigSchedule _ _ => false
  | .genlockConfig _ _ _ _ _ _ _ => false
  | .timecodeSet _ _ => false
  | .ptpStatus _ _ => false
  | .audPortConfig _ _ _ _ _ => false
  | .audStart _ _ => false
  | .audStop _ _ _ => false
  | .audMute _ _ => false
  | .audStatus _ _ => false
  | .sqCreate _ _ => false
  | .sqDelete _ _ _ => false
  | .sqAbort _ _ _ _ => false
  | .sqStatus _ _ _ => false
  | .maintStart _ _ => false
  | .maintStatus _ _ => false
  | .maintCancel _ _ _ => false
  | .prbsConfig _ _ _ _ => false
  | .errInject _ _ _ _ _ => false
  | .loopbackSet _ _ _ _ => false
  | .nvImageBegin _ _ => false
  | .nvImageWrite _ _ => false
  | .nvImageStatus _ _ => false
  | .nvImageSelect _ _ _ => false
  | .nvLogRead _ _ _ _ => false
  | .thermalRead _ _ => false
  | .thermalConfig _ _ _ _ => false
  | .backupStatus _ _ => false
  | .bootInfo _ _ => false
  | .mbxDoorbell _ _ _ => false
  | .requestAreaWrite _ _ _ _ _ => false
  | .mbxSlotAck _ _ _ => false
  | .mbxIntStat _ _ _ => false
  | .bar0ReservedAccess _ _ _ _ => false
  | .pendingBitmapClear _ _ _ _ => false
  | .evqConsWrite _ _ _ _ => false
  | .evqModExpiry _ _ => false
  | .msixUnmask _ _ _ => false
  | .bmeClear _ _ => false
  | .bmeSet _ _ => false
  | .vfFlr _ _ => false
  | .pfFlr _ => false
  | .readCompletionError _ _ _ => false
  | .ringEnable _ _ _ _ => false
  | .ringDisable _ _ _ _ _ => false
  | .hlkRingPoll _ _ _ _ => false
  | .h2cReadComplete _ _ _ => false
  | .hlkItemDelivery _ _ _ => false
  | .cplModExpiry _ _ => false
  | .epochRetirement _ => false
  | .resetDrainComplete _ _ => false
  | .rootQuietClose _ _ => false
  | .evtRootClose _ _ _ => false
  | .laneCdrLock _ _ => false
  | .laneCdrTimeout _ _ => false
  | .laneBlockLock _ _ => false
  | .laneLockLoss _ _ => false
  | .laneSignalLoss _ _ => false
  | .alignBlock _ _ _ _ _ _ _ => false
  | .laneAlignTimeout _ _ => false
  | .prbsCheckerLock _ _ => false
  | .fsSkewTimeout _ _ => false
  | .fePacket _ _ _ => false
  | .pixelPacket _ _ _ _ _ => false
  | .embedPacket _ _ _ _ _ => false
  | .nullPacket _ _ _ => false
  | .replyPacket _ _ _ _ _ => false
  | .backchannelCommandSend _ => false
  | .bcCommandTimeout _ _ => false
  | .spareSwapDue _ _ => false
  | .pscBeat _ _ _ => false
  | .bkcBeat _ _ _ => false
  | .bkcKeyReq _ _ _ => false
  | .bkcJobProd _ _ _ => false
  | .bkcJobStart _ => false
  | .bkcJobCompletion _ _ _ _ _ => false
  | .bkcJobAbort _ _ _ => false
  | .landingUnitWrite _ _ _ => false
  | .takeFinalisation _ _ => false
  | .takeEntryWritten _ _ => false
  | .developmentStart _ _ _ => false
  | .scalerOutputRecord _ _ => false
  | .statsRecordComplete _ _ _ => false
  | .livePictureHold _ _ => false
  | .vcSliceBoundary _ _ => false
  | .vcDecodeStart _ => false
  | .vcDecodeDone _ _ => false
  | .outputFrameStart _ _ => false
  | .teEdge _ _ => false
  | .teMissTimeout _ _ => false
  | .dsiTransferDone _ _ _ _ => false
  | .sdiLineStart _ _ _ _ => false
  | .sdiFrameEnd _ _ => false
  | .trigPinEdge _ _ _ => false
  | .scheduleEntryDue _ _ _ => false
  | .strobeTrailingEdge _ _ => false
  | .genlockEdge _ _ => false
  | .genlockEdgeTimeout _ _ => false
  | .ltcInFrame _ _ => false
  | .ltcInTimeout _ => false
  | .timecodeFrameStart _ => false
  | .ethFrameReceived _ _ _ _ _ => false
  | .ptpMessageReceived _ _ _ => false
  | .ptpMessageTransmit _ _ _ _ => false
  | .announceReceiptTimeout _ => false
  | .audPortStartInstant _ _ => false
  | .audBlockEnd _ _ _ _ => false
  | .audBlockStart _ _ => false
  | .followerFrameStart _ _ _ _ => false
  | .audClockLossTimeout _ _ => false
  | .aes3Frame _ _ _ _ _ => false
  | .sqPoll _ _ _ _ => false
  | .sqRead _ _ => false
  | .sqWrite _ _ _ => false
  | .sqAtomicWrite _ _ _ => false
  | .sqNop _ _ => false
  | .i2cTargetRead _ _ _ _ => false
  | .i2cTargetWrite _ _ _ _ _ _ => false
  | .uaHoldExpiry _ => false
  | .cbsI2cXfer _ _ _ _ => false
  | .i2cTransferEnd _ _ _ _ _ => false
  | .i2cSclTimeout _ _ => false
  | .cbsGpioSet _ _ _ => false
  | .cbsGpioClr _ _ _ => false
  | .spdBankHo _ _ _ _ => false
  | .spdHandoverComplete _ _ => false
  | .chuteWrite _ _ _ _ _ => false
  | .chuteRead _ _ => false
  | .pageIdleExpiry _ _ _ => false
  | .selfRefreshEntry _ _ => false
  | .dqsTracking _ _ => false
  | .scheduledRetrainDue _ => false
  | .deferredActivityStart _ => false
  | .dramRetrainStep _ _ => false
  | .dramRetrainDone _ => false
  | .laneEyeScanDone _ _ _ => false
  | .nvScrubDone _ => false
  | .dramScrubDone _ => false
  | .vbakSample _ _ => false
  | .nvHeldWriteFlush _ => false
  | .pmeHandshakeComplete _ => false
  | .p2HandshakeTimeout _ => false
  | .retentionArbitration _ _ => false
  | .bootSuccessTimer _ => false
  | .linkUpTimeout _ => false

/-- The parts of the state that a command may touch. -/
inductive Area where
  /-- Device time, beside what passes in `dt`. -/
  | time
  /-- The register file. -/
  | regs
  /-- DRAM and scratchpad. -/
  | mem
  /-- NV memory. -/
  | nv
  /-- Mailboxes, MSI-X and bus mastering. -/
  | mbx
  /-- Event queues, root records, the event log. -/
  | evt
  /-- Staging, commit queues and snapshots. -/
  | ep
  /-- Scoped resets in progress. -/
  | resets
  /-- The sensor link and the back-channel. -/
  | lnk
  /-- Frames between the link and the landing store. -/
  | ing
  /-- The coder job. -/
  | bkc
  /-- Items for rings and streams. -/
  | items
  /-- DMA rings. -/
  | rings
  /-- DRAM allocations. -/
  | allocs
  /-- The colour pipeline. -/
  | cpl
  /-- The statistics. -/
  | crs
  /-- The landing store, takes and storage queues. -/
  | lnd
  /-- The video coder. -/
  | vcd
  /-- The monitor outputs. -/
  | mon
  /-- The timing block beside device time. -/
  | tim
  /-- The audio ports. -/
  | aud
  /-- I2C, GPIO and trigger pins. -/
  | cbs
  /-- What the DRAM controllers keep beside contents. -/
  | dmc
  /-- The chutes. -/
  | chutes
  /-- Power, thermal state, boot and maintenance. -/
  | pwr
  /-- NV record updates held in AON. -/
  | nvHeld
  /-- The counter of open values (the model's own). -/
  | free
  /-- The trace of what left the part (the model's own). -/
  | out
  /-- Scratchpad handover and port state. -/
  | spd
  /-- Counters as the present core cycle found them. -/
  | rc
  /-- The active epoch, the device frame number and the frame that began the epoch, within `ep`. -/
  | epoch
deriving DecidableEq, Repr

/-- Part `p` stands from `s` to `t`. -/
def State.same (p : Area) (s t : State) : Prop :=
  match p with
  | .time => t.clk.tod = s.clk.tod
  | .regs => t.regs = s.regs
  | .mem => t.mem = s.mem
  | .nv => t.nv = s.nv
  | .mbx => t.mbx = s.mbx
  | .evt => t.evt = s.evt
  | .ep => t.ep = s.ep
  | .resets => t.resets = s.resets ∧ t.resetSeq = s.resetSeq
  | .lnk => t.lnk = s.lnk
  | .ing => t.ing = s.ing
  | .bkc => t.bkcJob = s.bkcJob
  | .items => t.items = s.items
  | .rings => t.rings = s.rings
  | .allocs => t.allocs = s.allocs
  | .cpl => t.cpl = s.cpl
  | .crs => t.crs = s.crs
  | .lnd => t.lnd = s.lnd
  | .vcd => t.vcd = s.vcd
  | .mon => t.mon = s.mon
  | .tim => t.tim = s.tim
  | .aud => t.aud = s.aud
  | .cbs => t.cbs = s.cbs
  | .dmc => t.dmc = s.dmc
  | .chutes => t.chutes = s.chutes
  | .pwr => t.pwr = s.pwr
  | .nvHeld => t.nvHeld = s.nvHeld
  | .free => t.free = s.free
  | .out => t.out = s.out
  | .spd => t.spdHo = s.spdHo ∧ t.spdAcc = s.spdAcc
  | .rc => t.rc = s.rc
  | .epoch => t.ep.epoch = s.ep.epoch ∧ t.ep.frame = s.ep.frame ∧ t.ep.first = s.ep.first

/-- The parts that a reset of the whole part clears or rebuilds (R107). -/
def wiped : List Area := [.regs, .mem, .mbx, .evt,
      .ep, .resets, .lnk, .ing, .bkc, .items, .rings, .allocs, .cpl, .crs, .lnd, .vcd, .mon, .tim, .aud, .cbs, .dmc, .chutes,
      .pwr, .out, .spd, .rc, .epoch]

/-- The parts that a command may change: no other part of the state stands otherwise after it. -/
def touches (i : Instr) : List Area :=
  match i with
  | .nop _ _ => [.regs, .mbx, .out, .rc]
  | .sysInfo _ _ => [.regs, .mbx, .out, .rc]
  | .regRead _ _ => [.regs, .nv, .mbx, .evt, .items, .dmc, .pwr, .free, .out, .spd, .rc]
  | .regWrite _ _ => [.regs, .mem, .nv, .mbx, .evt, .lnk, .ing, .bkc, .items, .rings, .cpl, .lnd, .cbs, .dmc, .pwr, .out,
      .spd, .rc]
  | .plainRegisterWrite _ _ _ _ => [.regs, .mem, .nv, .mbx, .evt, .lnk, .ing, .bkc, .items, .rings, .cpl, .lnd, .cbs, .dmc,
      .pwr, .out, .spd, .rc]
  | .bar2Enable _ _ => [.regs, .mbx, .out, .rc]
  | .bar2Read _ _ _ => [.regs, .nv, .mbx, .evt, .items, .dmc, .pwr, .free, .out, .spd, .rc]
  | .bar2Write _ _ _ _ => [.regs, .mem, .nv, .mbx, .evt, .lnk, .ing, .bkc, .items, .rings, .cpl, .lnd, .cbs, .dmc, .pwr,
      .out, .spd, .rc]
  | .fwLogRead _ _ _ => [.regs, .mbx, .out, .rc]
  | .memAlloc _ _ _ => [.regs, .mbx, .allocs, .free, .out, .rc]
  | .memFree _ _ _ => [.regs, .mbx, .allocs, .out, .rc]
  | .memWrite _ _ _ => [.regs, .mem, .nv, .mbx, .evt, .items, .dmc, .pwr, .out, .rc]
  | .memRead _ _ _ _ => [.regs, .nv, .mbx, .evt, .items, .dmc, .pwr, .out, .rc]
  | .settingsStage _ _ => [.regs, .mbx, .ep, .out, .rc]
  | .epochCommit _ _ _ => [.regs, .mbx, .ep, .out, .rc]
  | .epochDiscard _ _ => [.regs, .mbx, .ep, .out, .rc]
  | .statusSnapshot _ _ => [.regs, .mbx, .out, .rc]
  | .settingsRead _ _ => [.regs, .nv, .mbx, .evt, .items, .dmc, .pwr, .free, .out, .spd, .rc]
  | .epochStatus _ _ => [.regs, .mbx, .out, .rc]
  | .ctxAlloc _ _ => [.regs, .mbx, .ep, .out, .rc]
  | .ctxFree _ _ => [.regs, .mbx, .ep, .out, .rc]
  | .ctxConfig _ _ => [.regs, .mbx, .ep, .out, .rc]
  | .partConfig _ _ => [.regs, .mbx, .ep, .out, .rc]
  | .reset _ _ => [.nv, .nvHeld] ++ wiped
  | .violationRead _ _ => [.regs, .mbx, .out, .rc]
  | .evqConfig _ _ => [.regs, .mbx, .evt, .out, .rc]
  | .linkStart _ _ => [.regs, .mbx, .lnk, .free, .out, .rc]
  | .linkStop _ _ => [.regs, .mbx, .lnk, .lnd, .out, .rc]
  | .linkStatus _ _ => [.regs, .mbx, .out, .rc]
  | .sensorCmd _ _ => [.regs, .mbx, .lnk, .out, .rc]
  | .spareMap _ _ => [.regs, .mbx, .ep, .lnk, .out, .rc]
  | .takeConfig _ _ => [.regs, .mbx, .lnd, .out, .rc]
  | .takeDirRead _ _ => [.regs, .mbx, .out, .rc]
  | .takeArm _ _ => [.regs, .mbx, .ing, .allocs, .lnd, .pwr, .free, .out, .rc]
  | .takeDisarm _ _ => [.regs, .mbx, .allocs, .lnd, .out, .rc]
  | .takeStart _ _ => [.regs, .mbx, .evt, .lnd, .out, .rc]
  | .takeStop _ _ => [.regs, .mbx, .lnd, .out, .rc]
  | .takeTrigger _ _ => [.regs, .mbx, .evt, .lnd, .out, .rc]
  | .takeDelete _ _ => [.regs, .nv, .mbx, .allocs, .lnd, .nvHeld, .out, .rc]
  | .takeRead _ _ _ => [.regs, .mbx, .evt, .items, .rings, .cpl, .lnd, .out, .rc]
  | .landingStatus _ _ => [.regs, .mbx, .out, .rc]
  | .streamOpen _ _ => [.regs, .mbx, .ep, .out, .rc]
  | .streamClose _ _ => [.regs, .mbx, .ep, .out, .rc]
  | .pipeStatus _ _ => [.regs, .mbx, .out, .rc]
  | .statsRoute _ _ _ _ _ _ => [.regs, .mbx, .ep, .crs, .out, .rc]
  | .vcSessionOpen _ _ => [.regs, .mbx, .vcd, .free, .out, .rc]
  | .vcSessionClose _ _ _ => [.regs, .mem, .nv, .mbx, .evt, .items, .rings, .cpl, .lnd, .vcd, .dmc, .pwr, .free, .out, .spd, .rc]
  | .vcEncode _ _ => [.regs, .mbx, .vcd, .out, .rc]
  | .vcDecode _ _ => [.regs, .mbx, .vcd, .out, .rc]
  | .vcPoolAlloc _ _ => [.regs, .mbx, .vcd, .out, .rc]
  | .vcMark _ _ _ _ _ => [.regs, .mbx, .vcd, .out, .rc]
  | .vcAbort _ _ => [.regs, .mbx, .evt, .vcd, .out, .rc]
  | .monOutputConfig _ _ _ _ => [.regs, .mbx, .ep, .out, .rc]
  | .monPush _ _ => [.regs, .mbx, .mon, .free, .out, .rc]
  | .monFbAlloc _ _ => [.regs, .mbx, .mon, .free, .out, .rc]
  | .monStatus _ _ => [.regs, .mbx, .out, .rc]
  | .timeRead _ _ => [.regs, .mbx, .out, .rc]
  | .timeSet _ _ => [.time, .regs, .mbx, .evt, .mon, .tim, .out, .rc]
  | .ptpConfig _ _ _ _ _ _ => [.regs, .mbx, .ep, .out, .rc]
  | .trigSchedule _ _ => [.regs, .mbx, .tim, .out, .rc]
  | .genlockConfig _ _ _ _ _ _ _ => [.regs, .mbx, .ep, .out, .rc]
  | .timecodeSet _ _ => [.regs, .mbx, .tim, .out, .rc]
  | .ptpStatus _ _ => [.regs, .mbx, .out, .rc]
  | .audPortConfig _ _ _ _ _ => [.regs, .mbx, .ep, .out, .rc]
  | .audStart _ _ => [.regs, .mbx, .aud, .out, .rc]
  | .audStop _ _ _ => [.regs, .mem, .nv, .mbx, .evt, .items, .rings, .cpl, .lnd, .aud, .dmc, .pwr, .free, .out, .spd, .rc]
  | .audMute _ _ => [.regs, .mbx, .aud, .out, .rc]
  | .audStatus _ _ => [.regs, .mbx, .out, .rc]
  | .sqCreate _ _ => [.regs, .mbx, .lnd, .free, .out, .rc]
  | .sqDelete _ _ _ => [.regs, .mbx, .lnd, .out, .rc]
  | .sqAbort _ _ _ _ => [.regs, .mbx, .evt, .lnd, .out, .rc]
  | .sqStatus _ _ _ => [.regs, .mbx, .out, .rc]
  | .maintStart _ _ => [.regs, .mbx, .pwr, .out, .rc]
  | .maintStatus _ _ => [.regs, .mbx, .out, .rc]
  | .maintCancel _ _ _ => [.regs, .mbx, .evt, .pwr, .out, .rc]
  | .prbsConfig _ _ _ _ => [.regs, .mbx, .lnk, .out, .rc]
  | .errInject _ _ _ _ _ => [.regs, .mbx, .evt, .lnk, .ing, .dmc, .out, .rc]
  | .loopbackSet _ _ _ _ => [.regs, .mbx, .out, .rc]
  | .nvImageBegin _ _ => [.regs, .nv, .mbx, .pwr, .nvHeld, .out, .rc]
  | .nvImageWrite _ _ => [.regs, .nv, .mbx, .out, .rc]
  | .nvImageCommit _ _ => [.nv, .nvHeld] ++ wiped
  | .nvImageStatus _ _ => [.regs, .mbx, .out, .rc]
  | .nvImageSelect _ _ _ => [.regs, .nv, .mbx, .nvHeld, .out, .rc]
  | .nvLogRead _ _ _ _ => [.regs, .mbx, .out, .rc]
  | .powerState _ _ => [.time, .nv, .nvHeld, .free] ++ wiped
  | .thermalRead _ _ => [.regs, .mbx, .out, .rc]
  | .thermalConfig _ _ _ _ => [.regs, .mbx, .ep, .out, .rc]
  | .backupStatus _ _ => [.regs, .mbx, .out, .rc]
  | .bootInfo _ _ => [.regs, .mbx, .out, .rc]
  | .mbxDoorbell _ _ _ => [.time, .regs, .mbx, .evt, .tim, .free, .out, .rc]
  | .requestAreaWrite _ _ _ _ _ => [.regs, .rc]
  | .mbxSlotAck _ _ _ => [.regs]
  | .mbxIntStat _ _ _ => [.regs]
  | .bar0ReservedAccess _ _ _ _ => [.regs, .out]
  | .pendingBitmapClear _ _ _ _ => [.regs, .mbx, .evt, .out]
  | .evqConsWrite _ _ _ _ => [.regs, .mbx, .evt, .out]
  | .evqModExpiry _ _ => [.mbx, .evt, .out]
  | .msixUnmask _ _ _ => [.mbx, .out]
  | .bmeClear _ _ => [.mbx]
  | .bmeSet _ _ => [.regs, .mbx, .evt, .rings, .lnd, .out, .rc]
  | .pcieHotReset _ => [.nv, .nvHeld] ++ wiped
  | .pcieDlDown _ => [.nv, .nvHeld] ++ wiped
  | .vfFlr _ _ => [.regs, .nv, .mbx, .evt, .ep, .resets, .ing, .bkc, .items, .rings, .allocs, .cpl, .lnd, .vcd, .cbs, .dmc,
      .pwr, .out, .spd, .rc]
  | .pfFlr _ => [.regs, .nv, .mbx, .evt, .ep, .resets, .ing, .bkc, .items, .rings, .allocs, .cpl, .lnd, .vcd, .cbs, .dmc,
      .pwr, .out, .spd, .rc]
  | .pciePerstNAssert _ => [.nv, .nvHeld] ++ wiped
  | .pciePerstNDeassert _ => [.time, .nv, .nvHeld, .free] ++ wiped
  | .readCompletionError _ _ _ => [.regs, .nv, .mbx, .evt, .items, .rings, .cpl, .lnd, .dmc, .pwr, .out, .spd, .rc]
  | .ringEnable _ _ _ _ => [.regs, .mem, .nv, .mbx, .evt, .lnk, .ing, .bkc, .items, .rings, .cpl, .lnd, .cbs, .dmc, .pwr,
      .out, .spd, .rc]
  | .ringDisable _ _ _ _ _ => [.regs, .mem, .nv, .mbx, .evt, .lnk, .ing, .bkc, .items, .rings, .cpl, .lnd, .cbs, .dmc, .pwr,
      .out, .spd, .rc]
  | .hlkRingPoll _ _ _ _ => [.regs, .mbx, .evt, .items, .rings, .cpl, .lnd, .out, .rc]
  | .h2cReadComplete _ _ _ => [.regs, .mbx, .evt, .rings, .out, .rc]
  | .hlkItemDelivery _ _ _ => [.regs, .nv, .mbx, .evt, .items, .rings, .cpl, .lnd, .dmc, .pwr, .out, .spd, .rc]
  | .cplModExpiry _ _ => [.regs, .mbx, .evt, .rings, .out, .rc]
  | .syntheticBoundary _ => [.regs, .nv, .mbx, .evt, .ep, .resets, .lnk, .ing, .bkc, .items, .rings, .allocs, .cpl, .lnd,
      .vcd, .mon, .tim, .aud, .cbs, .dmc, .pwr, .out, .spd, .rc, .epoch]
  | .epochRetirement _ => [.regs, .mbx, .evt, .ep, .ing, .out, .rc]
  | .resetDrainComplete _ _ => [.regs, .mem, .mbx, .evt, .resets, .rings, .allocs, .cpl, .lnd, .vcd, .mon, .dmc, .out, .rc]
  | .faultReport _ _ => [.nv, .nvHeld] ++ wiped
  | .rootQuietClose _ _ => [.regs, .nv, .mbx, .evt, .out, .rc]
  | .evtRootClose _ _ _ => [.regs, .mem, .nv, .mbx, .evt, .lnk, .ing, .bkc, .items, .rings, .cpl, .lnd, .cbs, .dmc, .pwr,
      .out, .spd, .rc]
  | .laneCdrLock _ _ => [.regs]
  | .laneCdrTimeout _ _ => [.regs, .nv, .mbx, .evt, .items, .pwr, .out, .rc]
  | .laneBlockLock _ _ => [.regs, .lnk]
  | .laneLockLoss _ _ => [.regs, .mbx, .evt, .lnk, .ing, .out, .rc]
  | .laneSignalLoss _ _ => [.regs, .mbx, .evt, .lnk, .ing, .out, .rc]
  | .alignBlock _ _ _ _ _ _ _ => [.regs, .nv, .mbx, .evt, .lnk, .ing, .items, .dmc, .pwr, .out, .rc]
  | .laneAlignTimeout _ _ => [.regs, .nv, .mbx, .evt, .items, .pwr, .out, .rc]
  | .prbsCheckerLock _ _ => [.regs, .lnk, .dmc, .rc]
  | .fsPacket _ _ _ => [.regs, .mem, .nv, .mbx, .evt, .ep, .resets, .lnk, .ing, .bkc, .items, .rings, .allocs, .cpl, .crs,
      .lnd, .vcd, .mon, .tim, .aud, .cbs, .dmc, .pwr, .free, .out, .spd, .rc, .epoch]
  | .fsSkewTimeout _ _ => [.ing]
  | .fePacket _ _ _ => [.regs, .mem, .nv, .mbx, .evt, .lnk, .ing, .items, .rings, .cpl, .crs, .lnd, .dmc, .pwr, .free, .out,
      .spd, .rc]
  | .pixelPacket _ _ _ _ _ => [.regs, .mbx, .evt, .lnk, .ing, .dmc, .free, .out, .rc]
  | .embedPacket _ _ _ _ _ => [.regs, .mbx, .evt, .lnk, .ing, .dmc, .free, .out, .rc]
  | .nullPacket _ _ _ => [.regs, .mbx, .evt, .lnk, .ing, .dmc, .free, .out, .rc]
  | .replyPacket _ _ _ _ _ => [.regs, .mbx, .evt, .ep, .lnk, .ing, .dmc, .free, .out, .rc]
  | .backchannelCommandSend _ => [.lnk, .out]
  | .bcCommandTimeout _ _ => [.regs, .mbx, .evt, .ep, .lnk, .out, .rc]
  | .spareSwapDue _ _ => [.regs, .mbx, .evt, .lnk, .out, .rc]
  | .pscBeat _ _ _ => [.regs, .mem, .nv, .mbx, .evt, .ing, .items, .rings, .cpl, .crs, .lnd, .dmc, .pwr, .free, .out, .spd, .rc]
  | .bkcBeat _ _ _ => [.regs, .mem, .nv, .mbx, .evt, .ing, .items, .rings, .cpl, .crs, .lnd, .dmc, .pwr, .free, .out, .spd, .rc]
  | .bkcKeyReq _ _ _ => [.regs, .mem, .nv, .mbx, .evt, .lnk, .ing, .bkc, .items, .rings, .cpl, .lnd, .cbs, .dmc, .pwr, .out,
      .spd, .rc]
  | .bkcJobProd _ _ _ => [.regs, .mem, .nv, .mbx, .evt, .lnk, .ing, .bkc, .items, .rings, .cpl, .lnd, .cbs, .dmc, .pwr, .out,
      .spd, .rc]
  | .bkcJobStart _ => [.regs, .mbx, .evt, .ing, .bkc, .out, .rc]
  | .bkcJobCompletion _ _ _ _ _ => [.regs, .mem, .nv, .mbx, .evt, .ing, .bkc, .items, .dmc, .pwr, .free, .out, .spd, .rc]
  | .bkcJobAbort _ _ _ => [.regs, .mem, .nv, .mbx, .evt, .lnk, .ing, .bkc, .items, .rings, .cpl, .lnd, .cbs, .dmc, .pwr,
      .out, .spd, .rc]
  | .landingUnitWrite _ _ _ => [.regs, .mem, .nv, .mbx, .evt, .ing, .items, .rings, .cpl, .crs, .lnd, .dmc, .pwr, .free,
      .out, .spd, .rc]
  | .takeFinalisation _ _ => [.regs, .mem, .nv, .mbx, .evt, .ing, .items, .rings, .cpl, .crs, .lnd, .dmc, .pwr, .free, .out,
      .spd, .rc]
  | .takeEntryWritten _ _ => [.regs, .nv, .mbx, .evt, .lnd, .nvHeld, .out, .rc]
  | .developmentStart _ _ _ => [.regs, .nv, .mbx, .evt, .ing, .items, .cpl, .crs, .dmc, .pwr, .out, .spd, .rc]
  | .scalerOutputRecord _ _ => [.regs, .mem, .nv, .mbx, .evt, .ing, .items, .rings, .cpl, .crs, .lnd, .vcd, .dmc, .pwr, .out,
      .spd, .rc]
  | .statsRecordComplete _ _ _ => [.regs, .mem, .nv, .mbx, .evt, .items, .rings, .cpl, .crs, .lnd, .dmc, .pwr, .free, .out,
      .spd, .rc]
  | .livePictureHold _ _ => [.regs, .mbx, .evt, .cpl, .vcd, .out, .rc]
  | .vcSliceBoundary _ _ => [.regs, .mem, .nv, .mbx, .evt, .items, .rings, .cpl, .lnd, .vcd, .dmc, .pwr, .free, .out, .spd, .rc]
  | .vcDecodeStart _ => [.regs, .mem, .nv, .mbx, .evt, .items, .rings, .cpl, .lnd, .vcd, .dmc, .pwr, .free, .out, .spd, .rc]
  | .vcDecodeDone _ _ => [.regs, .mem, .nv, .mbx, .evt, .items, .rings, .cpl, .lnd, .vcd, .dmc, .pwr, .free, .out, .spd, .rc]
  | .outputFrameStart _ _ => [.regs, .cpl, .mon, .out, .rc]
  | .teEdge _ _ => [.regs, .mbx, .evt, .mon, .out, .rc]
  | .teMissTimeout _ _ => [.regs, .cpl, .mon, .out, .rc]
  | .dsiTransferDone _ _ _ _ => [.regs, .nv, .mbx, .evt, .items, .mon, .dmc, .pwr, .out, .spd, .rc]
  | .sdiLineStart _ _ _ _ => [.regs, .nv, .mbx, .evt, .items, .mon, .dmc, .pwr, .out, .spd, .rc]
  | .sdiFrameEnd _ _ => [.regs, .mbx, .evt, .mon, .out, .rc]
  | .trigPinEdge _ _ _ => [.regs, .mbx, .evt, .lnk, .lnd, .tim, .out, .rc]
  | .scheduleEntryDue _ _ _ => [.regs, .mbx, .evt, .lnk, .lnd, .tim, .out, .rc]
  | .strobeTrailingEdge _ _ => [.tim, .out]
  | .cadenceTick _ _ => [.regs, .nv, .mbx, .evt, .ep, .resets, .lnk, .ing, .bkc, .items, .rings, .allocs, .cpl, .lnd, .vcd,
      .mon, .tim, .aud, .cbs, .dmc, .pwr, .out, .spd, .rc, .epoch]
  | .genlockEdge _ _ => [.regs, .mbx, .evt, .tim, .out, .rc]
  | .genlockEdgeTimeout _ _ => [.regs, .mbx, .evt, .tim, .out, .rc]
  | .ltcInFrame _ _ => [.regs, .mbx, .evt, .tim, .out, .rc]
  | .ltcInTimeout _ => [.regs, .mbx, .evt, .tim, .out, .rc]
  | .timecodeFrameStart _ => [.regs, .tim, .out]
  | .ethFrameReceived _ _ _ _ _ => [.regs, .out, .rc]
  | .ptpMessageReceived _ _ _ => [.time, .regs, .mbx, .evt, .mon, .tim, .free, .out, .rc]
  | .ptpMessageTransmit _ _ _ _ => [.out]
  | .announceReceiptTimeout _ => [.regs, .mbx, .evt, .tim, .out, .rc]
  | .audPortStartInstant _ _ => [.regs, .mbx, .evt, .aud, .out, .rc]
  | .audBlockEnd _ _ _ _ => [.regs, .mem, .nv, .mbx, .evt, .items, .rings, .cpl, .lnd, .aud, .dmc, .pwr, .free, .out, .spd, .rc]
  | .audBlockStart _ _ => [.regs, .mbx, .evt, .rings, .aud, .out, .rc]
  | .followerFrameStart _ _ _ _ => [.regs, .mbx, .evt, .aud, .out, .rc]
  | .audClockLossTimeout _ _ => [.regs, .mbx, .evt, .aud, .out, .rc]
  | .aes3Frame _ _ _ _ _ => [.regs, .mbx, .evt, .aud, .out, .rc]
  | .sqPoll _ _ _ _ => [.time, .regs, .mbx, .evt, .lnd, .tim, .free, .out, .rc]
  | .sqRead _ _ => [.lnd]
  | .sqWrite _ _ _ => [.regs, .mbx, .evt, .lnd, .out, .rc]
  | .sqAtomicWrite _ _ _ => [.regs, .mbx, .evt, .lnd, .out, .rc]
  | .sqNop _ _ => [.regs, .mbx, .evt, .lnd, .out, .rc]
  | .sqCommandDone _ _ _ _ _ => [.nv, .nvHeld] ++ wiped
  | .i2cTargetRead _ _ _ _ => [.regs, .nv, .lnd, .cbs, .out, .rc]
  | .i2cTargetWrite _ _ _ _ _ _ => [.regs, .nv, .lnd, .cbs, .rc]
  | .uaHoldExpiry _ => [.nv, .lnd]
  | .cbsI2cXfer _ _ _ _ => [.regs, .mem, .nv, .mbx, .evt, .lnk, .ing, .bkc, .items, .rings, .cpl, .lnd, .cbs, .dmc, .pwr,
      .out, .spd, .rc]
  | .i2cTransferEnd _ _ _ _ _ => [.regs, .mbx, .evt, .cbs, .out, .rc]
  | .i2cSclTimeout _ _ => [.regs, .mbx, .evt, .cbs, .out, .rc]
  | .cbsGpioSet _ _ _ => [.regs, .mem, .nv, .mbx, .evt, .lnk, .ing, .bkc, .items, .rings, .cpl, .lnd, .cbs, .dmc, .pwr, .out,
      .spd, .rc]
  | .cbsGpioClr _ _ _ => [.regs, .mem, .nv, .mbx, .evt, .lnk, .ing, .bkc, .items, .rings, .cpl, .lnd, .cbs, .dmc, .pwr, .out,
      .spd, .rc]
  | .gpioPinEdge _ _ _ => [.time, .nv, .nvHeld, .free] ++ wiped
  | .spdBankHo _ _ _ _ => [.regs, .mem, .nv, .mbx, .evt, .lnk, .ing, .bkc, .items, .rings, .cpl, .lnd, .cbs, .dmc, .pwr,
      .out, .spd, .rc]
  | .spdHandoverComplete _ _ => [.regs, .mem, .dmc]
  | .chuteWrite _ _ _ _ _ => [.regs, .dmc, .chutes, .rc]
  | .chuteRead _ _ => [.regs, .nv, .mbx, .evt, .items, .dmc, .chutes, .pwr, .out, .rc]
  | .pageIdleExpiry _ _ _ => [.dmc]
  | .selfRefreshEntry _ _ => [.dmc]
  | .dqsTracking _ _ => [.dmc]
  | .scheduledRetrainDue _ => [.regs, .pwr, .rc]
  | .deferredActivityStart _ => [.regs, .mbx, .evt, .pwr, .out, .rc]
  | .dramRetrainStep _ _ => [.regs, .nv, .mbx, .evt, .ing, .items, .allocs, .lnd, .dmc, .pwr, .nvHeld, .free, .out, .rc]
  | .dramRetrainDone _ => [.regs, .nv, .mbx, .evt, .ing, .allocs, .lnd, .dmc, .pwr, .nvHeld, .out, .rc]
  | .laneEyeScanDone _ _ _ => [.regs, .nv, .mbx, .evt, .ing, .allocs, .lnd, .dmc, .pwr, .nvHeld, .free, .out, .rc]
  | .nvScrubDone _ => [.regs, .nv, .mbx, .evt, .ing, .allocs, .lnd, .dmc, .pwr, .nvHeld, .out, .rc]
  | .dramScrubDone _ => [.regs, .nv, .mbx, .evt, .ing, .items, .allocs, .lnd, .dmc, .pwr, .nvHeld, .out, .rc]
  | .thmSample _ _ _ => [.nv, .nvHeld] ++ wiped
  | .vbakSample _ _ => [.regs, .mbx, .evt, .pwr, .out, .rc]
  | .nvHeldWriteFlush _ => [.regs, .nv, .evt, .pwr, .nvHeld, .rc]
  | .pmeHandshakeComplete _ => [.regs, .nv, .mbx, .evt, .items, .rings, .cpl, .lnd, .tim, .cbs, .dmc, .pwr, .out, .spd, .rc]
  | .p2HandshakeTimeout _ => [.regs, .mbx, .evt, .lnd, .pwr, .out, .rc]
  | .mainGoodFall _ => [.nv, .nvHeld] ++ wiped
  | .retentionArbitration _ _ => [.time, .regs, .mem, .mbx, .evt, .tim, .dmc, .pwr, .free, .out, .rc]
  | .porstNAssert _ => [.nv, .nvHeld] ++ wiped
  | .bootAttempt _ _ _ _ _ => [.nv, .nvHeld, .free] ++ wiped
  | .bootWatchdog _ => [.nv, .nvHeld] ++ wiped
  | .bootSuccessTimer _ => [.regs, .nv, .pwr, .nvHeld]
  | .firmwareWatchdog _ => [.nv, .nvHeld] ++ wiped
  | .linkUpTimeout _ => [.regs, .mbx, .out]
  | .aonPowerLoss _ => [.time, .nvHeld] ++ wiped

/-- Partition `p` may write the register at `a` (R529): it is a register of a block, and `p` owns it. -/
def State.ownsReg (s : State) (p a : Nat) : Bool :=
  match regRow a with
  | some r => s.mayWrite p r a
  | none => false

/-! ### A Kilel command that is taken and served

The words below follow R531: the management core takes the command in the slot (R54), the front end lets it run, and its
arguments and its input data are in order. `code` is the opcode (Table 2-14). -/

/-- The state in which the management core has taken the command of slot `c.slot`, `dt` ns later. -/
def State.taken (s : State) (dt : Nat) (c : Call) : State := (s.tick dt).unpost c.part c.slot

/-- The request that it has taken. -/
def State.asked (s : State) (dt : Nat) (c : Call) : Req := (s.taken dt c).request c.part c.slot c.inp c.outOk

/-- The slot is EXECUTING (Table 2-7): the state that the opcode's meaning starts from. -/
def State.begun (s : State) (dt : Nat) (c : Call) : State := (s.taken dt c).setSlot c.part c.slot Slot.EXECUTING

/-- The slot holds opcode `code`, it is next in the order of R54, steps 1 to 8 of R531 pass, and the DMA block, LENGTH and
reserved bits are in order (R58, R64, R65, R532). -/
def State.opens (s : State) (code dt : Nat) (c : Call) : Bool :=
  (s.tick dt).takes code c && decide ((s.tick dt).gate c.part c.slot = .run) &&
    (match opRow code with
     | some o => (s.asked dt c).wellFormed o
     | none => false)

/-- The command is served: it opens, and its input data came back whole (R66, R67, R443). -/
def State.admits (s : State) (code dt : Nat) (c : Call) : Bool :=
  s.opens code dt c && (s.taken dt c).inputOk (s.asked dt c)

/-- A served command is answered with status OK and the payload `pay` (R53, R57). -/
def State.okay (t : State) (c : Call) (pay : List Word) : State := t.answer c.part c.slot St.OK pay

/-- A served command waits in its slot for an event (R62). -/
def State.await (t : State) (c : Call) (k : WaitKind) : State :=
  { t with mbx := { t.mbx with waits := t.mbx.waits ++ [{ part := c.part, slot := c.slot, kind := k }] } }

end Sys2Proof.Machine
end

