-- ==== Sys2Proof/Certificates/Slice0/Obligations.lean ====
section
/-!
DEFINITION. The statements for the provers (OBLIGATIONS.json lists them). `State.admits code dt c` is the condition under
which a Kilel command is served (R531), `State.begun` and `State.asked` the state and request its meaning starts from.
-/

set_option Elab.async false

open Sys2Proof Sys2Proof.Machine

/-- A step takes the command at the front of the queue and runs it on the state with the queue's rest. That an empty queue
idles is the model's choice (log entry 24). -/
def Obligations.StepRunsFrontCommand : Prop :=
  ∀ (c : Instr) (q : List Instr) (s : State),
    (s.pending = c :: q → step s = exec c { s with pending := q }) ∧ (s.pending = [] → step s = .next s)

/-- The part after a cold power-on: epoch and frame number 0 (R38), contexts 0 to 255 owned by part 0 and the rest FREE (R85),
every resource owned by part 0 (R98), every chute and the scratchpad empty. That memories read 0 and the queue is empty is the
model's choice (log entries 4 and 24). -/
def Obligations.ResetState : Prop :=
  State.reset.pending = [] ∧ State.reset.clk.now = 0 ∧ State.reset.dev = 0 ∧ State.reset.ep.epoch = 0 ∧ State.reset.ep.frame = 0 ∧
  State.reset.chutes = [] ∧ State.reset.mem = [] ∧ State.reset.nv = [] ∧
  (∀ c : Fin 4096, State.reset.ctxOwner c = if c.val < 256 then some 0 else none) ∧
  (∀ o : Fin 68, State.reset.resOwner o = 0) ∧
  (∀ p : Fin 64, State.reset.enabled p = decide (p = 0))

/-- The state after reset meets the invariant of StepKeepsCanonical. -/
def Obligations.ResetIsCanonical : Prop :=
  State.reset.canonical = true

/-- Register file, DRAM, scratchpad and NV memory stay in canonical form: addresses rise and no entry equals what an unlisted
address reads as (the model's own form, log entry 4). -/
def Obligations.StepKeepsCanonical : Prop :=
  ∀ s t : State, s.canonical = true → step s = .next t → t.canonical = true

/-- No command touches the queue or the board's straps; monotonic time passes by the command's `dt` and by nothing else; what
left the part is never taken back and open values are never drawn twice (the trace and the counter are the model's own, log
entries 1, 2 and 5). -/
def Obligations.CommandsKeepTimeQueueStraps : Prop :=
  ∀ (c : Instr) (s t : State), exec c s = .next t →
    t.pending = s.pending ∧ t.straps = s.straps ∧ t.clk.now = s.clk.now + c.dt ∧ s.free ≤ t.free ∧ ∃ l, t.out = l ++ s.out

/-- The epoch and the device frame number move only in a command in which a frame boundary falls (R14, R26, R37) or the whole
part is reset or loses its state (R38, R107, R478, R516): `movesEpoch` lists them. -/
def Obligations.EpochMovesOnlyAtBoundaryOrReset : Prop :=
  ∀ (c : Instr) (s t : State), movesEpoch c = false → exec c s = .next t →
    t.ep.epoch = s.ep.epoch ∧ t.ep.frame = s.ep.frame

/-- The frame of every command: each part of the state that `touches` does not name for it stands as its time leaves it, DRAM,
scratchpad, NV memory, device time and the registers among them. -/
def Obligations.CommandsTouchOnlyTheirParts : Prop :=
  ∀ (c : Instr) (s t : State), exec c s = .next t → ∀ p : Area, p ∉ touches c → State.same p (s.tick c.dt) t

/-- What a Kilel command comes to that is not served: where the slot does not hold the opcode or is not next in the order of
R54, only time passes (log entry 7); where its arguments break a rule it is answered BAD_ARGUMENT (R58, R65); where they do
not and its input read failed, it is answered DMA_ERROR (R67). In no case does the command's own effect occur. -/
def Obligations.KilelRefusals : Prop :=
  ∀ (code dt : Nat) (args : Req → State → Bool) (body : Req → State → Ans) (c : Call) (s u : State), u = s.taken dt c →
    ((s.tick dt).takes code c = false → kilel code args body dt c s = s.tick dt) ∧
    (s.opens code dt c = true → args (s.asked dt c) u = false →
      kilel code args body dt c s = u.answer c.part c.slot St.BAD_ARGUMENT []) ∧
    (s.opens code dt c = true → args (s.asked dt c) u = true → u.inputOk (s.asked dt c) = false →
      kilel code args body dt c s = u.answer c.part c.slot St.DMA_ERROR [])

/-- Liveness and host windows: what NOP, SYS_INFO, BAR2_ENABLE and FW_LOG_READ do once served (R56, R71, R78, Table 2-15). -/
def Obligations.LivenessCommandsComplete : Prop :=
  ∀ (dt : Nat) (c : Call) (s u : State) (r : Req), u = s.begun dt c → r = s.asked dt c →
    (s.admits 0x0100 dt c = true → exec (.nop dt c) s = .next (u.okay c [])) ∧
    (s.admits 0x0101 dt c = true →
      exec (.sysInfo dt c) s = .next (u.okay c [u.regVal R.SYS_ID, (u.pwr.boot.ver.map w32).getD Config.romVersion,
        w32 (1 + Config.kilelMinor.toNat * 256), u.rd R.DMC_INFO, w32 u.dramMiB, w32 (u.fd R.AON_BOOT_STAT 16 2)])) ∧
    (s.admits 0x0104 dt c = true →
      exec (.bar2Enable dt c) s =
        .next (((u.wrF (R.MBX 0 0x04) 2 1 (r.f 0 0 1)).wrF (R.MBX 0 0x24) 31 1 (r.f 0 0 1)).okay c [])) ∧
    (∀ log : List Byte, s.admits 0x0105 dt c = true → log ≠ [] → log.length ≤ r.outLen → c.outOk = true →
      exec (.fwLogRead dt c log) s = .next ((u.emit (.host c.part r.outAddr log)).okay c [w32 log.length]))

/-- DRAM allocations and copies once served: MEM_ALLOC, MEM_FREE, MEM_WRITE and MEM_READ (R92, R319, Table 2-15). The
operands of MEM_ALLOC, MEM_FREE and the address and length of the copies are the model's operand forms (log entry 9). -/
def Obligations.MemoryCommandsComplete : Prop :=
  ∀ (dt : Nat) (c : Call) (s u : State) (r : Req), u = s.begun dt c → r = s.asked dt c →
    (∀ (pages a : Nat) (v : State), s.admits 0x0106 dt c = true → 0 < pages →
      u.overQuota c.part (some r.ctx) (pages * 4096) = false → u.findRange (pages * 4096) = (some a, v) →
      exec (.memAlloc dt c pages) s =
        .next ((v.addAlloc { addr := a, size := pages * 4096, ctx := some r.ctx, part := c.part, slot := none }).okay c
          [w32 a, w32 (a / 2 ^ 32)])) ∧
    (∀ (addr : BitVec 40) (x : Alloc), s.admits 0x0107 dt c = true →
      u.allocs.find? (fun y => decide (y.addr = addr.toNat) && decide (y.part = c.part.val) && y.slot.isNone) = some x →
      exec (.memFree dt c addr) s = .next ((u.dropAlloc x).okay c [])) ∧
    (∀ addr : BitVec 40, s.admits 0x0108 dt c = true → r.inLen ≠ 0 → u.memBad c.part addr.toNat r.inLen = none →
      exec (.memWrite dt c addr) s = .next (((u.ask Port.hlk r.ctx addr.toNat r.inLen).eccStore r.ctx addr.toNat r.input).okay c [])) ∧
    (∀ (addr : BitVec 40) (len : Nat) (bs : List Byte) (v : State), s.admits 0x0109 dt c = true → 0 < len → len % 4 = 0 →
      len ≤ 2 ^ 24 → u.memBad c.part addr.toNat len = none → (u.ask Port.hlk r.ctx addr.toNat len).eccReads r.ctx addr.toNat len = (bs, v) →
      bs ≠ [] → bs.length ≤ r.outLen → c.outOk = true →
      exec (.memRead dt c addr len) s = .next ((v.emit (.host c.part r.outAddr bs)).okay c [w32 bs.length]))

/-- Register access once served: REG_READ answers the epoch and the values of its run of registers (R69), and REG_WRITE writes
its run, lowest address first, where no target is a settings register (R70) and no handover is refused (R335). -/
def Obligations.RegisterCommandsComplete : Prop :=
  ∀ (dt : Nat) (c : Call) (s u : State) (r : Req), u = s.begun dt c → r = s.asked dt c →
    (∀ (vs : List Word) (v : State), s.admits 0x0102 dt c = true → regReadArgs r (s.taken dt c) = true →
      u.readRun c.part r.ctx r.regAddr (r.f 1 8 8) = (vs, false, v) →
      exec (.regRead dt c) s = .next (v.okay c (w32 u.ep.epoch :: vs))) ∧
    (s.admits 0x0103 dt c = true → regWriteArgs r (s.taken dt c) = true →
      (∀ i < r.f 1 8 8, isSetting (r.regAddr + 4 * i) = false ∧ u.hoBad c.part (r.regAddr + 4 * i) (r.w (2 + i)) = false) →
      exec (.regWrite dt c) s = .next ((u.writeRun c.part r.ctx
        ((List.range (r.f 1 8 8)).map (fun i => (r.regAddr + 4 * i, r.w (2 + i))))).okay c []))

/-- Staging and commits once served: SETTINGS_STAGE, EPOCH_COMMIT, EPOCH_DISCARD, STATUS_SNAPSHOT, SETTINGS_READ and
EPOCH_STATUS (R16, R18, R21, R30, R42, R45, Table 2-15). What a commit carries to the sensor is an operand (log entry 12). -/
def Obligations.EpochCommandsComplete : Prop :=
  ∀ (dt : Nat) (c : Call) (s u : State) (r : Req), u = s.begun dt c → r = s.asked dt c →
    (∀ (es : Over) (sup : Nat) (v : State), s.admits 0x0201 dt c = true → stageArgs r (s.taken dt c) = true →
      parseEntries (if r.dma then bytesWords (r.inLen / 4) r.input else r.pay) = some es →
      u.stageAll c.part r.ctx es = (sup, v) → (v.stageSet c.part).length ≤ u.fd (R.PART_STAGE_QUOTA c.part) 0 15 →
      exec (.settingsStage dt c) s = .next (v.okay c [w32 (v.stageSet c.part).length, w32 sup])) ∧
    (∀ (sensor : List SensorWrite) (q id : Nat) (v : State), s.admits 0x0202 dt c = true →
      u.submit c.part r.ctx (u.stageSet c.part) ((r.w 0).toNat + r.f 1 0 8 * 2 ^ 32)
        (if c.part.val = 0 then sensor else []) = (St.OK, some (q, id), v) →
      (r.wait = false → exec (.epochCommit dt c sensor) s = .next ((v.unstage c.part).okay c [w32 id, w32 v.short])) ∧
      (r.wait = true → exec (.epochCommit dt c sensor) s = .next ((v.unstage c.part).await c (.commit q)))) ∧
    (s.admits 0x0203 dt c = true → exec (.epochDiscard dt c) s = .next ((u.unstage c.part).okay c [])) ∧
    (∀ bs : List Byte, s.admits 0x0204 dt c = true → r.inLen = 0 → c.outOk = true →
      bs = tagBytes ((if bit (r.w 2) 0 then u.view else u.ep.snap).tod / 2 ^ 32) u.ep.epoch r.ctx Kind.snapshot u.ep.frame
        Src.MBX u.unlockFlag ++ (blockSrcs.filter (fun x => decide (r.w64 0 / 2 ^ (x - 0x10) % 2 = 1))).flatMap
          (fun x => u.snapBlock (if bit (r.w 2) 0 then u.view else u.ep.snap) c.part x) →
      bs.length ≤ r.outLen →
      exec (.statusSnapshot dt c) s = .next ((u.emit (.host c.part r.outAddr bs)).okay c [w32 bs.length])) ∧
    (∀ w : Word, s.admits 0x0205 dt c = true → isSetting r.setAddr = true → u.staged c.part r.setAddr = some w →
      exec (.settingsRead dt c) s = .next (u.okay c [1, w])) ∧
    (∀ (w : Word) (b : Bool) (v : State), s.admits 0x0205 dt c = true → isSetting r.setAddr = true →
      u.staged c.part r.setAddr = none → u.readAt c.part r.ctx r.setAddr = (w, b, v) →
      exec (.settingsRead dt c) s = .next (v.okay c [0, w])) ∧
    (s.admits 0x0206 dt c = true →
      exec (.epochStatus dt c) s = .next (u.okay c ([w32 u.ep.epoch, w32 u.ep.first, w32 (u.ep.first / 2 ^ 32 % 256)] ++
        (List.range 8).map (fun i => w32 (((List.range 8).map (fun j => u.depth (8 * i + j) * 16 ^ j)).sum)))))

/-- Contexts and partitions once served: what CTX_ALLOC, CTX_FREE, CTX_CONFIG and PART_CONFIG stage (R82, R83), the violation
counters that VIOLATION_READ answers (R110), the ring of EVQ_CONFIG (R113, R116), and RESET by level (R101, R102). The order of
the parts of a RESET within its cycle is the model's choice (log entry 15). -/
def Obligations.ContextCommandsComplete : Prop :=
  ∀ (dt : Nat) (c : Call) (s u : State) (r : Req), u = s.begun dt c → r = s.asked dt c →
    (∀ (es : Over) (sup : Nat) (v : State), u.stageAll c.part r.ctx es = (sup, v) →
      (v.stageSet c.part).length ≤ u.fd (R.PART_STAGE_QUOTA c.part) 0 15 →
      (s.admits 0x0301 dt c = true → ctxAllocArgs r (s.taken dt c) = true →
        es = (List.range (r.f 1 0 13)).map (fun i => (R.CTX_ENT_OWN (r.f 0 0 12 + i), w32 (r.f 0 16 6 + 64))) →
        exec (.ctxAlloc dt c) s = .next (v.okay c [w32 (v.stageSet c.part).length, w32 sup])) ∧
      (s.admits 0x0302 dt c = true → rangeOk (r.f 0 0 12) (r.f 1 0 13) = true →
        es = (List.range (r.f 1 0 13)).map (fun i => (R.CTX_ENT_OWN (r.f 0 0 12 + i),
          setFld (u.stagedOr c.part (R.CTX_ENT_OWN (r.f 0 0 12 + i))) 6 1 0)) →
        exec (.ctxFree dt c) s = .next (v.okay c [w32 (v.stageSet c.part).length, w32 sup])) ∧
      (s.admits 0x0303 dt c = true → entriesDefined es = true →
        es = selected (r.f 0 0 3) [(R.CTX_ENT_IRQ r.ctx, r.w 1), (R.CTX_ENT_QOS r.ctx, r.w 2), (R.CTX_ENT_MEM r.ctx, r.w 3)] →
        exec (.ctxConfig dt c) s = .next (v.okay c [w32 (v.stageSet c.part).length, w32 sup])) ∧
      (s.admits 0x0304 dt c = true → partConfigArgs r (s.taken dt c) = true →
        es = partConfigEntries r ++
          (if bit (r.w 1) 5 then u.resEntries c.part (r.f 0 0 6) (r.f 7 0 8) (r.f 7 8 8) else []) →
        exec (.partConfig dt c) s = .next (v.okay c [w32 (v.stageSet c.part).length, w32 sup]))) ∧
    (s.admits 0x0305 dt c = true → r.f 0 0 3 = 4 → c.part.val = 0 → r.wait = false →
      exec (.reset dt c) s = .next (({ u with pwr := { u.pwr with warm := true } }).okay c []).warmDue) ∧
    (∀ (level id : Nat) (v : State), s.admits 0x0305 dt c = true → r.f 0 0 3 = level → 1 ≤ level → level ≤ 3 →
      (c.part.val = 0 ∨ (level = 1 ∧ u.owns c.part (r.f 0 16 12) = true) ∨ (level = 2 ∧ r.f 0 8 6 = c.part.val)) →
      u.startReset level (if level = 1 then [] else [r.f 0 8 6]) [r.f 0 16 12] [] = (id, v) →
      ((r.wait = true ∨ (level ≠ 1 ∧ (r.f 0 8 6 = c.part.val ∨ (level = 3 ∧ r.f 0 8 6 = 0)))) →
        exec (.reset dt c) s = .next (v.await c (.reset id)).warmDue) ∧
      (r.wait = false → (level = 1 ∨ (r.f 0 8 6 ≠ c.part.val ∧ (level = 3 → r.f 0 8 6 ≠ 0))) →
        exec (.reset dt c) s = .next (v.okay c []).warmDue)) ∧
    (s.admits 0x0306 dt c = true → (c.part.val = 0 ∨ (r.f 0 0 6 = c.part.val ∧ bit (r.w 0) 6 = false)) →
      exec (.violationRead dt c) s =
        .next ((if bit (r.w 0) 6 then u.regClear (R.CTX_VIOL_CNT (r.f 0 0 6) 0) (R.CTX_VIOL_CNT (r.f 0 0 6 + 1) 0) else u).okay c
          ((List.range 16).map (fun k => u.rd (R.CTX_VIOL_CNT (r.f 0 0 6) k)) ++
            (List.range 4).map (fun k => u.rd (R.CTX_VIOL_LAST (r.f 0 0 6) k))))) ∧
    (s.admits 0x0307 dt c = true →
      ((r.f 2 0 4 = 0 ∧ r.w64 0 = 0) ∨ (6 ≤ r.f 2 0 4 ∧ r.w64 0 % 4096 = 0)) →
      exec (.evqConfig dt c) s = .next ((u.setEvq r.ctx { u.evq r.ctx with
        base := r.w64 0, n := r.f 2 0 4, prod := 0, cons := 0, lost := 0, lostTag := [] }).okay c []))

/-- The sensor-link commands once served: LINK_START begins bring-up and waits or answers (Table 5-5, Table 2-15), LINK_STOP asks
for the stop at the next boundary or stops a link that still starts, LINK_STATUS answers, SENSOR_CMD queues its command and
waits (R178), SPARE_MAP stages the spares and sets their order (R174). -/
def Obligations.LinkCommandsComplete : Prop :=
  ∀ (dt : Nat) (c : Call) (s u : State) (r : Req), u = s.begun dt c → r = s.asked dt c →
    (s.admits 0x0401 dt c = true → u.linkSt = 0 →
      (r.wait = true → exec (.linkStart dt c) s = .next (u.linkBegin.await c .link)) ∧
      (r.wait = false → exec (.linkStart dt c) s = .next (u.linkBegin.okay c [u.linkBegin.rd R.SLK_LINK_STAT]))) ∧
    (s.admits 0x0402 dt c = true →
      (u.linkSt = 1 → exec (.linkStop dt c) s = .next (u.linkEnd.okay c [])) ∧
      (2 ≤ u.linkSt →
        exec (.linkStop dt c) s = .next (({ u with lnk := { u.lnk with stopReq := true } }).okay c []))) ∧
    (s.admits 0x0403 dt c = true → exec (.linkStatus dt c) s = .next (u.okay c u.linkStatus)) ∧
    (∀ (t : Nat) (v : State), s.admits 0x0404 dt c = true → sensorArgs r (s.taken dt c) = true →
      u.bcPush { kind := 0, type := r.f 0 0 8, tag := 0, count := r.f 0 8 8, addr := (r.w 1).toNat,
                 vals := [r.w 2, r.w 3, r.w 4, r.w 5], last := false, epoch := 0, from_ := 0, to_ := 0, tries := 0,
                 sentAt := none, ctx := r.ctx } = (t, v) →
      exec (.sensorCmd dt c) s = .next (v.await c (.sensor t))) ∧
    (∀ (sup : Nat) (v : State), s.admits 0x0405 dt c = true → spareArgs r (s.taken dt c) = true →
      u.stageAll c.part r.ctx ((spareList r).map (fun l => (R.SLK_LANE_MAP l, 0x2000#32))) = (sup, v) →
      (v.stageSet c.part).length ≤ u.fd (R.PART_STAGE_QUOTA c.part) 0 15 →
      exec (.spareMap dt c) s = .next (({ v with lnk := { v.lnk with spareOrder := spareList r } }).okay c
        [w32 (v.stageSet c.part).length, w32 sup]))

/-- The take commands on a slot of the caller's, once served (R281 to R284, R288, R289, R296 to R299). The order of TAKE_ARM's
parts within its cycle is the model's choice (log entry 15). -/
def Obligations.TakeCommandsComplete : Prop :=
  ∀ (dt : Nat) (c : Call) (s u : State) (r : Req) (k : Nat), u = s.begun dt c → r = s.asked dt c → k = r.f 0 0 4 →
    u.slotOwner k = c.part →
    (s.admits 0x0501 dt c = true → takeConfigArgs r (s.taken dt c) = true → u.slotSt k < 2 →
      (r.f 0 4 1 = 0 ∨ r.f 0 5 3 = 0 ∨ u.resOwner (0x10 + r.f 0 5 3 - 1) = c.part) →
      exec (.takeConfig dt c) s = .next (((u.setSlotT k
        { mode := r.f 0 4 1, trigSrc := r.f 0 5 3, leadEn := decide (r.f 0 8 1 = 1), embedKib := r.f 0 16 7,
          capMib := r.f 1 0 18, preNs := r.w64 2, postNs := r.w64 4, ctx := r.ctx }).setSlotSt k 1).okay c [])) ∧
    (∀ (h w n a : Nat) (own : Option Nat) (v : State), s.admits 0x0503 dt c = true → u.slotSt k = 1 → u.bt R.BKC_CFG 0 = true →
      u.fd R.DMC_CFG 0 2 = u.fd R.DMC_INFO 10 2 → (selIdx 16 u.slotLive).length < 4 → u.unitShape (u.slot k) = (h, w, n) →
      2 ≤ n → u.liveU + w ≤ 128 * (u.rd R.SLK_PERIOD_MIN).toNat →
      own = (if u.owns c.part (u.slot k).ctx then some (u.slot k).ctx else none) →
      u.overQuota c.part own ((u.slot k).capMib * 0x100000) = false →
      ((u.allocs.filter (fun x => x.slot.isSome)).map (·.size)).sum + (u.slot k).capMib * 0x100000 ≤ 240 * 2 ^ 30 →
      u.findRange ((u.slot k).capMib * 0x100000) = (some a, v) →
      exec (.takeArm dt c) s = .next ((v.armed k a ((u.slot k).capMib * 0x100000) own c.part h w n (u.slot k)).okay c
        [w32 v.lnd.takeNext, w32 w, w32 n])) ∧
    (s.admits 0x0504 dt c = true → u.slotSt k = 2 → exec (.takeDisarm dt c) s = .next ((u.toIdle k).okay c [])) ∧
    (s.admits 0x0505 dt c = true → r.f 1 0 30 < 10 ^ 9 → u.slotLive k = true → (u.slot k).mode ≠ 1 → (u.slot k).start = none →
      exec (.takeStart dt c) s = .next ((u.setStart k (takeTime r u)).okay c [])) ∧
    (s.admits 0x0506 dt c = true → r.f 1 0 30 < 10 ^ 9 → u.slotLive k = true → (u.slot k).mode ≠ 1 → (u.slot k).stop = none →
      exec (.takeStop dt c) s = .next ((u.setStop k (takeTime r u)).okay c [])) ∧
    (s.admits 0x0507 dt c = true → r.f 1 0 30 < 10 ^ 9 → u.slotSt k = 2 → (u.slot k).mode = 1 → (u.slot k).trig = none →
      exec (.takeTrigger dt c) s = .next ((u.trigger k (takeTime r u)).okay c [])) ∧
    (s.admits 0x0508 dt c = true → u.slotSt k = 5 → (u.slot k).reads = [] →
      exec (.takeDelete dt c) s = .next (((u.nvUpdate
        { a0 := (dirAddr k).1, a1 := (dirAddr k).2, seqOff := 0x5C, body := List.replicate 124 0 }).toIdle k).okay c []))

/-- TAKE_DIR_READ, TAKE_READ and LANDING_STATUS once served (R298, R299, Table 2-15). -/
def Obligations.TakeReadsComplete : Prop :=
  ∀ (dt : Nat) (c : Call) (s u : State) (r : Req), u = s.begun dt c → r = s.asked dt c →
    (∀ bs : List Byte, s.admits 0x0502 dt c = true →
      bs = (List.range 16).flatMap (fun k => if u.slotOwner k = c.part then u.dirEntry k else List.replicate 128 0) →
      bs ≠ [] → bs.length ≤ r.outLen → c.outOk = true →
      exec (.takeDirRead dt c) s = .next ((u.emit (.host c.part r.outAddr bs)).okay c [w32 bs.length])) ∧
    (∀ (ue : List Nat) (k : Nat), s.admits 0x0509 dt c = true → k = r.f 0 0 4 → u.slotOwner k = c.part → u.slotSt k = 5 →
      entryNum (u.dirEntry k) 0x08 1 ≠ 2 → (r.w 2).toNat ≠ 0 → u.bindOk c.part (r.f 0 16 16) false = true →
      -(entryNum (u.dirEntry k) 0x3C 2 : Int) ≤ sx 32 (r.w 1).toNat →
      sx 32 (r.w 1).toNat + ((r.w 2).toNat : Int) ≤ (entryNum (u.dirEntry k) 0x38 4 : Int) →
      exec (.takeRead dt c ue) s = .next ((u.readTake ue k (r.f 0 16 16) (sx 32 (r.w 1).toNat) (r.w 2).toNat r.ctx).okay c [])) ∧
    (s.admits 0x050A dt c = true →
      exec (.landingStatus dt c) s = .next (u.okay c ([u.rd R.LND_RET_STAT, u.rd R.LND_RATE,
        w32 (ceilDiv ((u.allocs.filter (fun x => x.slot.isSome)).map (·.size)).sum 0x100000)] ++
        (List.range 16).map (fun k => if u.slotOwner k = c.part then u.rd (R.LND_SLOT_STAT k) else 0))))

/-- Streams, the pipeline and statistics once served: STREAM_OPEN, STREAM_CLOSE (R453), PIPE_STATUS (R265) and STATS_ROUTE (R275).
The operands of STATS_ROUTE are the model's operand form (log entry 9). -/
def Obligations.StreamCommandsComplete : Prop :=
  ∀ (dt : Nat) (c : Call) (s u : State) (r : Req), u = s.begun dt c → r = s.asked dt c →
    (∀ (sup : Nat) (v : State), s.admits 0x0601 dt c = true → u.myStream c.part (r.f 0 0 4) = true →
      u.bindOk c.part (r.f 0 16 16) false = true →
      u.stageAll c.part r.ctx [(R.HLK_STREAM_CFG (r.f 0 0 4), w32 (1 + r.f 0 16 16 * 65536))] = (sup, v) →
      (v.stageSet c.part).length ≤ u.fd (R.PART_STAGE_QUOTA c.part) 0 15 →
      exec (.streamOpen dt c) s = .next (v.okay c [w32 (v.stageSet c.part).length, w32 sup])) ∧
    (∀ (q id : Nat) (v : State), s.admits 0x0602 dt c = true → u.myStream c.part (r.f 0 0 4) = true →
      u.bt (R.HLK_STREAM_CFG (r.f 0 0 4)) 0 = true →
      u.submit c.part r.ctx [(R.HLK_STREAM_CFG (r.f 0 0 4), setFld (u.rd (R.HLK_STREAM_CFG (r.f 0 0 4))) 0 1 0)] 0 [] =
        (St.OK, some (q, id), v) → r.wait = false →
      exec (.streamClose dt c) s = .next (v.okay c [w32 id, w32 v.short])) ∧
    (s.admits 0x0603 dt c = true →
      exec (.pipeStatus dt c) s = .next (u.okay c ([u.rd R.CPL_STAT, u.rd R.CPL_DEV_FRAME_LO, u.rd R.CPL_DEV_FRAME_HI] ++
        (selIdx 8 (fun o => decide (u.resOwner o = c.part.val))).flatMap (fun o =>
          [u.rd (R.CPL_SC_STAT o), u.rd (R.CPL_SC_LAST_LO o), u.rd (R.CPL_SC_LAST_HI o)])))) ∧
    (∀ (route : Fin 15) (ctx : Fin 4096) (en : Bool) (ring : Fin 16384) (sup : Nat) (v : State), s.admits 0x0604 dt c = true →
      u.owns c.part ctx = true → u.bindOk c.part ring false = true →
      u.stageAll c.part r.ctx (u.routeEntries c.part route ctx en) = (sup, v) →
      (v.stageSet c.part).length ≤ u.fd (R.PART_STAGE_QUOTA c.part) 0 15 →
      exec (.statsRoute dt c route ctx en ring) s = .next
        (({ v with crs := { v.crs with ring := tabSet (fun _ => 0) v.crs.ring ctx (ring.val + 1) } }).okay c
          [w32 (v.stageSet c.part).length, w32 sup]))

/-- The video-coder commands once served (R350, R351, R357 to R359, R361, R362). Which free session VC_SESSION_OPEN gets is an
open value; the operands of VC_SESSION_CLOSE and VC_MARK are the model's operand forms (log entry 9). -/
def Obligations.VideoCoderCommandsComplete : Prop :=
  ∀ (dt : Nat) (c : Call) (s u : State) (r : Req), u = s.begun dt c → r = s.asked dt c →
    (∀ (l : Level) (free : List Nat) (n : Nat) (v : State), s.admits 0x0701 dt c = true → vcOpenArgs r (s.taken dt c) = true →
      vcLevel (r.f 0 16 8) = some l → free = selIdx 64 (fun q => (u.vc q).isNone) → free ≠ [] → u.vcRefusal r l = none →
      u.fresh = (n, v) →
      exec (.vcSessionOpen dt c) s =
        .next (((v.setVc (nth free (n % free.length)) (vcSession r)).vcPoolRegs c.part).okay c
          [w32 (nth free (n % free.length)), w32 (v.vcK (r.f 0 8 2) (r.f 1 0 16) (r.f 1 16 16))])) ∧
    (∀ (q : Fin 64) (x : VcSession), s.admits 0x0702 dt c = true → u.vcNamed c.part q = some x → x.closing = false →
      exec (.vcSessionClose dt c q) s = .next ((u.vcShut q x).okay c [])) ∧
    (∀ x : VcSession, u.vcNamed c.part (r.f 0 0 6) = some x → x.live = false → x.closing = false → x.jobs.length < 16 →
      (s.admits 0x0703 dt c = true → x.dec = false → u.vcWithin false r = true →
        exec (.vcEncode dt c) s = .next ((u.vcAdd (r.f 0 0 6) x r).okay c [])) ∧
      (s.admits 0x0704 dt c = true → x.dec = true → u.vcWithin true r = true →
        exec (.vcDecode dt c) s = .next ((u.vcAdd (r.f 0 0 6) x r).okay c []))) ∧
    (∀ (x : VcSession) (n : Nat), s.admits 0x0705 dt c = true → u.vcNamed c.part (r.f 0 0 6) = some x →
      (sx 16 (r.f 0 16 16) = (n : Int) → n ≤ u.vcFree →
        (n = 0 ∨ u.vcHeld c.part + n ≤ u.fd (R.PART_POOL_QUOTA c.part) 0 8) →
        exec (.vcPoolAlloc dt c) s = .next (((u.setVc (r.f 0 0 6) { x with pool := x.pool ++ u.poolFree.take n }).vcPoolRegs c.part).okay c [])) ∧
      (∀ idle : List Nat, sx 16 (r.f 0 16 16) = -(n : Int) → 0 < n →
        idle = x.pool.filter (fun b => !(x.usedBufs (u.vcK x.profile x.maxW x.maxH)
          (x.cur.isSome || decide (u.vcd.dec = some (r.f 0 0 6)))).contains b) → n ≤ idle.length →
        exec (.vcPoolAlloc dt c) s = .next (((u.setVc (r.f 0 0 6)
          { x with pool := x.pool.filter (fun b => !(idle.take n).contains b) }).vcPoolRegs c.part).okay c []))) ∧
    (∀ (q : Fin 64) (poc : Word) (mark : Fin 3) (x : VcSession), s.admits 0x0706 dt c = true → u.vcNamed c.part q = some x →
      x.dec = false →
      exec (.vcMark dt c q poc mark) s =
        .next ((u.setVc q { x with marks := x.marks ++ [{ poc := poc.toNat, mark := mark, at_ := u.now }] }).okay c [])) ∧
    (∀ (x : VcSession) (j : VcJob), s.admits 0x0707 dt c = true → u.vcNamed c.part (r.f 0 0 6) = some x → x.live = false →
      x.jobs.find? (fun y => y.tag = r.f 0 16 16) = some j →
      (j.startAt = none → exec (.vcAbort dt c) s = .next (((u.setVc (r.f 0 0 6) { x with jobs := x.jobs.erase j }).vcJobDone
        (r.f 0 0 6) j.tag St.ABORTED_NOT_STARTED).okay c [])) ∧
      (j.startAt = some u.now →
        exec (.vcAbort dt c) s = .next (((((u.encFree (r.f 0 0 6)).decFree (r.f 0 0 6)).setVc (r.f 0 0 6)
          { x.unstart with jobs := x.jobs.erase j }).vcJobDone (r.f 0 0 6) j.tag St.ABORTED_NOT_STARTED).okay c [])) ∧
      (∀ t, j.startAt = some t → t ≠ u.now →
        exec (.vcAbort dt c) s = .next ((u.setVc (r.f 0 0 6) { x with
          jobs := repl1 j { j with abort := true } x.jobs, cur := x.cur.map (fun p => { p with abort := true }) }).okay c [])))

/-- The commands of the monitor outputs once served (R372, R382, R384, R391). -/
def Obligations.MonitorCommandsComplete : Prop :=
  ∀ (dt : Nat) (c : Call) (s u : State) (r : Req), u = s.begun dt c → r = s.asked dt c →
    (∀ (o : Fin 8) (x : Fin 4096) (sup : Nat) (v : State), s.admits 0x0801 dt c = true → o.val < 6 →
      u.resOwner (outputRes o) = c.part → u.owns c.part x = true →
      u.stageAll c.part r.ctx [(R.MON_OUT_CTRL o, setFld (u.stagedOr c.part (R.MON_OUT_CTRL o)) 8 12 x)] = (sup, v) →
      (v.stageSet c.part).length ≤ u.fd (R.PART_STAGE_QUOTA c.part) 0 15 →
      exec (.monOutputConfig dt c o x) s = .next (v.okay c [w32 (v.stageSet c.part).length, w32 sup])) ∧
    (∀ (w h t : Nat) (p : MonPush) (v : State), s.admits 0x0802 dt c = true → u.monOwned c.part (r.f 0 0 3) = true →
      w = r.f 2 0 16 → h = r.f 2 16 16 → (w = 0 ∨ h = 0 ∨ r.f 0 0 3 < 2) →
      (r.f 0 3 1 = 1 → u.fbHeld c.part (r.f 0 8 8) = true) →
      p = { output := r.f 0 0 3, layer := r.f 0 4 2, flip := if r.f 0 3 1 = 1 then some (r.f 0 8 8) else none,
            rect := if w ≠ 0 ∧ h ≠ 0 then some ⟨r.f 1 0 16, r.f 1 16 16, r.f 1 0 16 + w, r.f 1 16 16 + h⟩ else none, at_ := u.now } →
      ({ u with mon := { u.mon with pushes := u.mon.pushes ++ [p] } }).monNext (r.f 0 0 3) = (t, v) →
      exec (.monPush dt c) s = .next (v.okay c [w32 (shortOf t)])) ∧
    (∀ n : Nat, s.admits 0x0803 dt c = true → monFbArgs r (s.taken dt c) = true →
      (sx 16 (r.f 0 16 16) = (n : Int) → n ≤ u.fbFree.length →
        (n = 0 ∨ (u.fbOf c.part).length + n ≤ u.fd (R.PART_POOL_QUOTA c.part) 8 8) →
        exec (.monFbAlloc dt c) s =
          .next (((u.fbTake c.part n).fbRegs c.part).okay c (((u.fbTake c.part n).fbRegs c.part).fbWords c.part))) ∧
      (∀ v : State, sx 16 (r.f 0 16 16) = -(n : Int) → 0 < n → (fbMap r).length = n → (fbMap r).any u.fbShown = false →
        v = ((fbMap r).foldl (fun (t : State) b =>
          if t.fbHeld c.part b then t.setFb b none else t.viol c.part Viol.pool r.ctx b) u).fbRegs c.part →
        exec (.monFbAlloc dt c) s = .next (v.okay c (v.fbWords c.part)))) ∧
    (s.admits 0x0804 dt c = true →
      exec (.monStatus dt c) s = .next (u.okay c ((selIdx 6 (u.monOwned c.part)).flatMap (fun o =>
        [u.rd (R.MON_OUT_STAT o), u.rd (R.MON_OUT_EPOCH o), u.rd (R.MON_OUT_FRAMES o), u.rd (R.MON_OUT_UNDER o)]))))

/-- The commands of time, triggers, genlock and PTP once served (R393, R396, R397, R403, R407, R412, R413). The operands of
PTP_CONFIG and GENLOCK_CONFIG are the model's operand forms (log entry 9). -/
def Obligations.TimeCommandsComplete : Prop :=
  ∀ (dt : Nat) (c : Call) (s u : State) (r : Req), u = s.begun dt c → r = s.asked dt c →
    (s.admits 0x0901 dt c = true →
      exec (.timeRead dt c) s = .next (u.okay c [w32 (u.dev % 10 ^ 9), w32 (u.dev / 10 ^ 9), w32 (u.dev / 10 ^ 9 / 2 ^ 32 % 2 ^ 16),
        w32 (u.clk.tod / 2 ^ 16 % 2 ^ 16 + u.servo * 2 ^ 16 + b2n (!u.locked) * 2 ^ 19), w32 u.short])) ∧
    (s.admits 0x0902 dt c = true → timeSetArgs r (s.taken dt c) = true → u.servo ≠ 3 → u.servo ≠ 4 → u.tim.sched = [] →
      u.anyArmed = false →
      exec (.timeSet dt c) s = .next ((u.stepTime (timeTarget r u).toNat).okay c [])) ∧
    (∀ (cfg intv servo step : Word) (sup : Nat) (v : State), s.admits 0x0903 dt c = true → ptpBad cfg intv servo = false →
      definedBits R.TIM_PTP_CFG cfg = true → definedBits R.TIM_PTP_INTV intv = true →
      u.stageAll c.part r.ctx [(R.TIM_PTP_CFG, cfg), (R.TIM_PTP_INTV, intv), (R.TIM_PTP_SERVO, servo), (R.TIM_PTP_STEP, step)] =
        (sup, v) → (v.stageSet c.part).length ≤ u.fd (R.PART_STAGE_QUOTA c.part) 0 15 →
      exec (.ptpConfig dt c cfg intv servo step) s = .next (v.okay c [w32 (v.stageSet c.part).length, w32 sup])) ∧
    (∀ (n : Nat) (strb : Bool) (e : SchedEnt), s.admits 0x0904 dt c = true → n = r.f 0 0 2 → strb = decide (r.f 0 2 1 = 1) →
      2000 ≤ sx 32 ((r.w 1).toNat + 2 ^ 32 - u.short) → u.resOwner ((if strb then 0x14 else 0x10) + n) = c.part →
      e = { pin := n, strb := strb, ts := ((u.dev : Int) + sx 32 ((r.w 1).toNat + 2 ^ 32 - u.short)).toNat } →
      (r.f 0 3 1 = 0 → e ∉ u.tim.sched →
        (u.tim.sched.filter (fun x => decide (x.pin = n) && x.strb == strb)).length < 16 →
        exec (.trigSchedule dt c) s = .next (({ u with tim := { u.tim with sched := u.tim.sched ++ [e] } }).okay c [])) ∧
      (r.f 0 3 1 = 1 → e ∈ u.tim.sched →
        exec (.trigSchedule dt c) s = .next (({ u with tim := { u.tim with sched := u.tim.sched.erase e } }).okay c []))) ∧
    (∀ (k : Fin 4) (cfg rate phase gl : Word) (sup : Nat) (v : State), s.admits 0x0905 dt c = true → cadBad cfg rate = false →
      definedBits (R.TIM_CAD_CFG k) cfg = true → definedBits R.TIM_GL_CFG gl = true →
      u.stageAll c.part r.ctx [(R.TIM_CAD_CFG k, cfg), (R.TIM_CAD_RATE k, rate), (R.TIM_CAD_PHASE k, phase), (R.TIM_GL_CFG, gl)] =
        (sup, v) → (v.stageSet c.part).length ≤ u.fd (R.PART_STAGE_QUOTA c.part) 0 15 →
      exec (.genlockConfig dt c k cfg rate phase gl) s = .next (v.okay c [w32 (v.stageSet c.part).length, w32 sup])) ∧
    (s.admits 0x0906 dt c = true → (r.f 4 0 1 = 1 ∨ r.f 1 0 30 < 10 ^ 9) →
      (r.f 4 0 1 = 1 → exec (.timecodeSet dt c) s = .next (({ u with tim := { u.tim with jam := true } }).okay c [])) ∧
      (∀ m t : Nat, r.f 4 0 1 = 0 → tcIndex u.tcCode (r.w 0).toNat = some m →
        t = r.f 1 0 30 + ((r.w 2).toNat + r.f 3 0 16 * 2 ^ 32) * 10 ^ 9 →
        exec (.timecodeSet dt c) s = .next (({ u with tim := { u.tim with
          tcBase := some (tcBaseFor u.tcCode m (if t = 0 then u.dev else t)) } }).okay c []))) ∧
    (s.admits 0x0907 dt c = true →
      exec (.ptpStatus dt c) s = .next (u.okay c [u.rd R.TIM_PTP_STAT, u.rd R.TIM_PTP_OFFSET, u.rd R.TIM_PTP_PATH,
        u.rd R.TIM_ADJ, u.rd R.TIM_PTP_GM_LO, u.rd R.TIM_PTP_GM_HI]))

/-- The audio commands once served (R419, R426, R427, R429, R438). The operands of AUD_PORT_CONFIG are the model's operand form
(log entry 9); `parts` are the samples a serial port received of the block that AUD_STOP ends. -/
def Obligations.AudioCommandsComplete : Prop :=
  ∀ (dt : Nat) (c : Call) (s u : State) (r : Req), u = s.begun dt c → r = s.asked dt c →
    (∀ (p : Fin 8) (cfg mask : Word) (sup : Nat) (v : State), s.admits 0x0A01 dt c = true →
      cfg &&& ~~~(w32 (regMask (R.AUD_P_CFG p))) = 0 →
      u.stageAll c.part r.ctx [(R.AUD_P_CFG p, cfg), (R.AUD_P_MASK p, mask)] = (sup, v) →
      (v.stageSet c.part).length ≤ u.fd (R.PART_STAGE_QUOTA c.part) 0 15 →
      exec (.audPortConfig dt c p cfg mask) s = .next (v.okay c [w32 (v.stageSet c.part).length, w32 sup])) ∧
    (∀ (mine foreign : List Nat) (v : State), audMask r u = (mine, foreign) → v = audForeign r foreign u →
      (∀ ahead : Int, s.admits 0x0A02 dt c = true → ahead = sx 32 ((r.w 1).toNat + 2 ^ 32 - u.short) → 100000 ≤ ahead →
        (∀ p ∈ mine, v.audSt p = 0 ∧ v.audIdle p = false) →
        exec (.audStart dt c) s = .next ((mine.foldl (fun (t : State) p => t.audArm ((v.dev : Int) + ahead).toNat p) v).okay c [])) ∧
      (∀ parts : List (Fin 8 × List (List Nat)), s.admits 0x0A03 dt c = true →
        exec (.audStop dt c parts) s = .next ((mine.foldl (fun (t : State) p => t.audStop1 parts p) v).okay c []))) ∧
    (∀ (p : Nat) (on : Bool) (x : AudPort), s.admits 0x0A04 dt c = true → p = r.f 0 0 3 → u.audOwner p = c.part →
      on = decide (r.f 0 3 1 = 1) → x = u.audP p →
      exec (.audMute dt c) s = .next (((u.setAud p { x with
        mutes := (if u.audSt p = 0 then [] else x.mutes) ++ [(if u.audSt p = 0 then 0 else x.frameFrom p (u.dev + 1), on)] }).wrF
          (R.AUD_P_STAT p) 3 1 (b2n on)).okay c [])) ∧
    (s.admits 0x0A05 dt c = true →
      exec (.audStatus dt c) s = .next (u.okay c ((selIdx 8 (fun p => decide (u.audOwner p = c.part.val))).flatMap (fun p =>
        [u.rd (R.AUD_P_STAT p), u.rd (R.AUD_P_ERR p), u.rd (R.AUD_P_CLK p)]))))

/-- The storage-queue commands once served (R306, R307, R311). Which free QID SQ_CREATE gets is an open value; the operands of
SQ_DELETE, SQ_ABORT and SQ_STATUS are the model's operand forms (log entry 9). -/
def Obligations.StorageCommandsComplete : Prop :=
  ∀ (dt : Nat) (c : Call) (s u : State) (r : Req), u = s.begun dt c → r = s.asked dt c →
    (∀ (free : List Nat) (n : Nat) (v : State), s.admits 0x0B01 dt c = true → sqCreateArgs r (s.taken dt c) = true →
      u.fd (R.PART_POOL_USED c.part) 16 8 + 1 ≤ u.fd (R.PART_POOL_QUOTA c.part) 16 8 →
      free = selIdx 32 (fun q => (u.sq q).isNone) → free ≠ [] → u.fresh = (n, v) →
      exec (.sqCreate dt c) s =
        .next (((v.setSq (nth free (n % free.length)) (some (sqNew r))).sqRegs c.part).okay c [w32 (nth free (n % free.length))])) ∧
    (∀ (q : Fin 32) (x : SqQueue), s.admits 0x0B02 dt c = true → u.sqNamed c.part q = some x → x.cmds = [] → x.out = [] →
      exec (.sqDelete dt c q) s = .next (((u.setSq q none).sqRegs c.part).okay c [])) ∧
    (∀ (q tag : Fin 32) (x : SqQueue) (d : SqCmd), s.admits 0x0B03 dt c = true → u.sqNamed c.part q = some x →
      x.cmds.find? (fun y => y.tag = tag.val) = some d →
      ((d.started = false ∨ d.startAt = u.now) →
        exec (.sqAbort dt c q tag) s = .next ((u.sqEnd q d St.ABORTED_NOT_STARTED 0).okay c [])) ∧
      (d.started = true → d.startAt ≠ u.now → d.opc ≠ 3 →
        exec (.sqAbort dt c q tag) s =
          .next ((u.setSq q (some { x with cmds := repl1 d { d with abort := true } x.cmds })).okay c []))) ∧
    (∀ (q : Fin 32) (x : SqQueue), s.admits 0x0B04 dt c = true → u.sqNamed c.part q = some x →
      exec (.sqStatus dt c q) s = .next (u.okay c [w32 x.cmds.length,
        w32 (((x.cmds.filter (·.started)).flatMap (·.blocks)).dedup).length]))

/-- The maintenance and lane-test commands once served (R148 to R151, R154, R345, R504 to R506). The operands of MAINT_CANCEL,
PRBS_CONFIG, ERR_INJECT and LOOPBACK_SET are the model's operand forms (log entry 9). -/
def Obligations.MaintenanceCommandsComplete : Prop :=
  ∀ (dt : Nat) (c : Call) (s u : State) (r : Req), u = s.begun dt c → r = s.asked dt c →
    (∀ (a : Act) (v : State) (run : Bool), s.admits 0x0C01 dt c = true → maintArgs r (s.taken dt c) = true →
      a = { id := u.actId, code := (r.w 0).toNat, ctx := r.ctx, words := (r.pay.drop 1).map (·.toNat), addr := r.outAddr,
            len := r.outLen, running := false, startAt := u.now } →
      ((r.w 0).toNat = 4 → 2 ≤ u.fd R.DMC_INFO 10 2) → ((r.w 0).toNat ≤ 2 → u.anyArmed = false) →
      ((r.w 0).toNat = 2 → eyeBytes a.words ≤ r.outLen) →
      (u.actFree (r.w 0).toNat u.pwr.acts = true ∨ (u.pwr.acts.filter (fun x => !x.running)).length < 8) →
      u.actRequest a = (v, run) →
      (r.wait = true → exec (.maintStart dt c) s = .next (v.await c (.maint u.actId))) ∧
      (r.wait = false →
        exec (.maintStart dt c) s = .next (v.answer c.part c.slot (if run then St.OK else St.DEFERRED) [w32 u.actId]))) ∧
    (s.admits 0x0C02 dt c = true → exec (.maintStatus dt c) s = .next (u.okay c (u.pwr.acts.map Act.word))) ∧
    (∀ (id : Fin 256) (a : Act), s.admits 0x0C03 dt c = true → u.pwr.acts.find? (fun x => decide (x.id = id.val)) = some a →
      ((a.running = false ∨ a.startAt = u.now) →
        exec (.maintCancel dt c id) s = .next ((u.actEnd a St.ABORTED_NOT_STARTED).okay c [])) ∧
      (a.running = true → a.startAt ≠ u.now →
        exec (.maintCancel dt c id) s = .next ((u.putAct { a with abort := true }).okay c []))) ∧
    (∀ (n : Fin 64) (x : Word), s.admits 0x0C04 dt c = true → x &&& ~~~0x3F#32 = 0 → fld x 0 3 ≤ 5 →
      (u.funcRuns n = false ∨ (bit x 4 = false ∧ (bit x 3 = false ∨ (u.laneFunc n < 2 ∧ u.isBackLane n = false)))) →
      exec (.prbsConfig dt c n x) s = .next ((u.prbsWrite n x).okay c [])) ∧
    (∀ (kind count n : Nat) (target : BitVec 40) (v : State), s.admits 0x0C05 dt c = true → n = target.toNat →
      errInjectArgs kind n count r (s.taken dt c) = true →
      (5 ≤ kind → (kind / 16 = 2 ∨ u.anyArmed = false) →
        exec (.errInject dt c kind target count) s = .next (({ u with dmc := { u.dmc with
          inj := u.dmc.inj ++ [({ kind := kind, target := n, left := count } : Inj)] } }).okay c [])) ∧
      (kind < 5 → u.laneInject kind n = none → v = u.bump (R.LNA_INJ_CNT n) 0 32 (if kind = 4 then 1 else count) →
        (kind = 4 → exec (.errInject dt c kind target count) s = .next ((v.dropLane n false).okay c [])) ∧
        (kind = 1 → 16 ≤ count → exec (.errInject dt c kind target count) s =
          .next (((v.bump (R.LNA_LANE_ERR n) 0 16 count).dropLane n false).okay c [])) ∧
        (kind = 3 → u.nearLoop n = false → exec (.errInject dt c kind target count) s = .next (v.okay c [])) ∧
        (kind = 3 → u.nearLoop n = true → exec (.errInject dt c kind target count) s = .next (({ v with dmc := { v.dmc with
          inj := v.dmc.inj ++ [({ kind := kind, target := n, left := count } : Inj)] } }).okay c [])) ∧
        (kind < 3 → (kind = 1 → count < 16) → exec (.errInject dt c kind target count) s = .next (({ u with dmc := { u.dmc with
          inj := u.dmc.inj ++ [({ kind := kind, target := n, left := count } : Inj)] } }).okay c [])))) ∧
    (∀ (n : Fin 64) (mode : Fin 4), s.admits 0x0C06 dt c = true →
      (mode.val = 0 ∨ (mode.val < 3 ∧ u.funcRuns n = false) ∨ (mode.val = 3 ∧ (s.taken dt c).isBackLane n = false ∧
        (s.taken dt c).laneFunc n < 2 ∧ u.inService n = true ∧ u.bt (R.LNA_PRBS_CTRL n) 3 = false)) →
      exec (.loopbackSet dt c n mode) s = .next ((u.wr (R.LNA_LANE_LOOP n) (w32 mode.val)).okay c []))

/-- The image and log commands once served (R130, R497 to R500). The layout of NV_IMAGE_STATUS is log entry 23; the operands of
NV_IMAGE_SELECT and NV_LOG_READ are the model's operand forms (log entry 9). -/
def Obligations.ImageCommandsComplete : Prop :=
  ∀ (dt : Nat) (c : Call) (s u : State) (r : Req), u = s.begun dt c → r = s.asked dt c →
    (∀ (k : Nat) (v : State), s.admits 0x0D01 dt c = true → u.pwr.imgOpen = none → k = 1 - u.imgCtl.sel →
      v = u.setImgCtl (u.imgCtl.setSt k 1) →
      exec (.nvImageBegin dt c) s = .next (({ v with pwr := { v.pwr with imgOpen := some k } }).okay c [w32 k])) ∧
    (∀ k : Nat, u.pwr.imgOpen = some k → u.nvRange = true →
      (s.admits 0x0D02 dt c = true → (r.w 0).toNat % 4096 = 0 → r.inLen ≤ 0x100000 → (r.w 0).toNat + r.inLen ≤ 0x400000 →
        exec (.nvImageWrite dt c) s = .next ((u.nvStore (imgBase k + (r.w 0).toNat)
          (r.input ++ List.replicate ((r.input.length + 4095) / 4096 * 4096 - r.input.length) 0)).okay c [])) ∧
      (∀ (i : ImgCtl) (v : State), s.admits 0x0D03 dt c = true → u.imgOk k = true →
        i = (u.imgCtl.setSt k 2).setVer k (u.imgNum k 8 4) →
        v = (u.setImgCtl (if bit (r.w 0) 0 then { i with sel := k } else i)).setConsec 0 →
        exec (.nvImageCommit dt c) s =
          .next (({ v with pwr := { v.pwr with imgOpen := none, warm := bit (r.w 0) 1 } }).okay c []).warmDue)) ∧
    (s.admits 0x0D04 dt c = true → exec (.nvImageStatus dt c) s = .next (u.okay c (bytesWords 3 u.imgCtl.bytes))) ∧
    (∀ k : Fin 2, s.admits 0x0D05 dt c = true → u.imgCtl.st k = 2 →
      exec (.nvImageSelect dt c k) s = .next (((u.setImgCtl { u.imgCtl with sel := k }).setConsec 0).okay c [])) ∧
    (∀ (first : Fin 32768) (count : Fin 32769) (bs : List Byte), s.admits 0x0D06 dt c = true →
      bs = (List.range count).flatMap (fun i => u.nvBytes (nvLogBase + 64 * ((first.val + i) % 32768)) 64) → bs ≠ [] →
      bs.length ≤ r.outLen → c.outOk = true →
      exec (.nvLogRead dt c first count) s = .next ((u.emit (.host c.part r.outAddr bs)).okay c [w32 bs.length]))

/-- The power, thermal and boot commands once served (R474, R476, R478, R481, R483, R502). -/
def Obligations.PowerCommandsComplete : Prop :=
  ∀ (dt : Nat) (c : Call) (s u : State) (r : Req), u = s.begun dt c → r = s.asked dt c →
    (s.admits 0x0E01 dt c = true → u.power = r.f 0 0 2 → exec (.powerState dt c) s = .next (u.okay c []).p3Due) ∧
    (s.admits 0x0E01 dt c = true → u.power ≠ r.f 0 0 2 →
      (r.f 0 0 2 = 0 → exec (.powerState dt c) s = .next (u.wakeP1.okay c []).p3Due) ∧
      (r.f 0 0 2 = 1 → u.anyArmed = false → u.powerBusy = false →
        exec (.powerState dt c) s = .next ((u.setPower 1).okay c []).p3Due) ∧
      (r.f 0 0 2 = 2 → u.anyArmed = false → u.powerBusy = false → u.ep.queue = [] →
        exec (.powerState dt c) s = .next (({ u with
          pwr := { u.pwr with p2At := some u.now }
          lnd := { u.lnd with sqStop := true } }).okay c []).p3Due) ∧
      (r.f 0 0 2 = 3 → u.anyArmed = false →
        exec (.powerState dt c) s = .next (({ u with
          pwr := { u.pwr with p3Cmd := true }
          lnd := { u.lnd with sqStop := true } }).okay c []).p3Due)) ∧
    (s.admits 0x0E02 dt c = true →
      exec (.thermalRead dt c) s = .next (u.okay c [u.rd R.THM_TJ, u.rd R.THM_LIMIT, u.rd R.THM_RATE, u.rd R.THM_STAT])) ∧
    (∀ (limit rate : Word) (sup : Nat) (v : State), s.admits 0x0E03 dt c = true → thmLimitOk limit = true →
      fld rate 0 10 ≠ 0 → fld rate 10 2 ≠ 3 → rate &&& ~~~0x10FFF#32 = 0 →
      u.stageAll c.part r.ctx [(R.THM_LIMIT, limit), (R.THM_RATE, rate)] = (sup, v) →
      (v.stageSet c.part).length ≤ u.fd (R.PART_STAGE_QUOTA c.part) 0 15 →
      exec (.thermalConfig dt c limit rate) s = .next (v.okay c [w32 (v.stageSet c.part).length, w32 sup])) ∧
    (s.admits 0x0E04 dt c = true →
      exec (.backupStatus dt c) s = .next (u.okay c [u.rd R.AON_BAK_STAT, u.rd R.AON_HOLD_TIME])) ∧
    (s.admits 0x0E05 dt c = true →
      exec (.bootInfo dt c) s = .next (u.okay c [u.rd R.AON_BOOT_STAT, u.rd R.AON_BOOT_COUNT]))

/-- Accesses of BAR0 while the part answers: doorbell, request area, acknowledge, interrupt status, reserved offsets, the pending
bitmap and the event-queue heads (R47 to R53, R88, R117), and the end of the moderation gap (R87). What R531 answers without
running is answered at the doorbell (log entry 11). -/
def Obligations.MailboxAccessesComplete : Prop :=
  ∀ (dt : Nat) (s u : State) (fn : Fin 64), u = s.tick dt → u.linkAlive = true →
    (∀ (w : Word) (slot : Nat) (v : State), slot = w.toNat % 16 → u.wakeP1.slotState fn slot = Slot.FREE →
      u.wakeP1.bt (R.MBX fn 0x04) 0 = true → v = u.wakeP1.setSlot fn slot Slot.POSTED → v.gate fn slot = .run →
      exec (.mbxDoorbell dt fn w) s = .next { v with mbx := { v.mbx with
        posted := v.mbx.posted ++ [{ part := fn, slot := slot, at_ := v.now }] } }) ∧
    (∀ (slot : Fin 16) (word : Fin 64) (x : Word),
      (u.slotState fn slot = Slot.FREE →
        exec (.requestAreaWrite dt fn slot word x) s = .next (u.wr (R.MBX fn (0x1000 + 0x100 * slot + 4 * word)) x)) ∧
      (u.slotState fn slot ≠ Slot.FREE →
        exec (.requestAreaWrite dt fn slot word x) s = .next (u.bump (R.MBX fn 0x1C) 8 8 1))) ∧
    (∀ w : Word, exec (.mbxSlotAck dt fn w) s =
      .next ((selIdx 16 (fun i => bit w i && decide (u.slotState fn i = Slot.DONE))).foldl
        (fun (t : State) i => t.setSlot fn i Slot.FREE) u)) ∧
    (∀ w : Word, exec (.mbxIntStat dt fn w) s = .next (u.wr (R.MBX fn 0x14) (u.rd (R.MBX fn 0x14) &&& ~~~w))) ∧
    (∀ off : BitVec 16, bar0Reserved off.toNat = true →
      exec (.bar0ReservedAccess dt fn off true) s = .next (u.viol fn Viol.bar0 0 (R.MBX fn off.toNat)) ∧
      exec (.bar0ReservedAccess dt fn off false) s =
        .next ((u.viol fn Viol.bar0 0 (R.MBX fn off.toNat)).emit (.read 0))) ∧
    (∀ (word : Fin 128) (x : Word), exec (.pendingBitmapClear dt fn word x) s =
      .next ((selIdx 32 (fun i => bit x i)).foldl (fun (t : State) i => t.pendClear fn (32 * word + i)) u)) ∧
    (∀ (ctx : Fin 4096) (cons : BitVec 16) (v : State), u.owns fn ctx = true →
      v = u.setEvq ctx { u.evq ctx with cons := cons.toNat } →
      ((u.evq ctx).cons ≠ cons.toNat → v.bme fn = true → v.draining ctx = false →
        exec (.evqConsWrite dt fn ctx cons) s = .next (v.flushLost ctx)) ∧
      (((u.evq ctx).cons = cons.toNat ∨ v.bme fn = false ∨ v.draining ctx = true) →
        exec (.evqConsWrite dt fn ctx cons) s = .next v)) ∧
    (∀ (ctx : Fin 4096) (t : Nat), (u.evq ctx).held = true → (u.evq ctx).lastMsg = some t →
      t + u.fd (R.CTX_ENT_IRQ ctx) 16 16 * 100 ≤ u.now →
      ((u.evq ctx).pend = true → exec (.evqModExpiry dt ctx) s = .next (u.ctxMessage ctx)) ∧
      ((u.evq ctx).pend = false → exec (.evqModExpiry dt ctx) s = .next (u.setEvq ctx { u.evq ctx with held := false })))

/-- Register writes and the BAR2 window (R69 to R72, R529): plain registers through REG_WRITE and BAR2, MBX_INT_EN and
MBX_BAR2_WIN through BAR0 (Table 2-2), reads and writes through BAR2. -/
def Obligations.RegisterAccessesComplete : Prop :=
  ∀ (dt : Nat) (s u : State), u = s.tick dt →
    (∀ (p : Fin 64) (ctx : Fin 4096) (a : BitVec 40) (x : Word), isSetting a.toNat = false → u.hoBad p a.toNat x = false →
      u.bt (R.MBX p 0x04) 0 = true → u.owns p ctx = true →
      exec (.plainRegisterWrite dt (.regWrite p ctx) a x) s = .next (u.writeAt p ctx a.toNat x 0)) ∧
    (∀ (a : BitVec 40) (x : Word), u.linkAlive = true → u.bar2On = true → a.toNat / 2 ^ 24 = u.fd (R.MBX 0 0x24) 0 16 →
      a.toNat % 4 = 0 → isSetting a.toNat = false →
      exec (.plainRegisterWrite dt .bar2 a x) s = .next (u.writeAt 0 0 a.toNat x 0)) ∧
    (∀ (p : Fin 64) (a : BitVec 40) (x : Word), u.linkAlive = true → a.toNat = 0x18 →
      (¬ (u.rd (R.MBX p 0x14) &&& u.rd (R.MBX p 0x18) = 0 ∧ u.rd (R.MBX p 0x14) &&& (x &&& 0x3FFFF#32) ≠ 0) →
        exec (.plainRegisterWrite dt (.bar0 p) a x) s = .next (u.wr (R.MBX p 0x18) (x &&& 0x3FFFF#32))) ∧
      (u.rd (R.MBX p 0x14) &&& u.rd (R.MBX p 0x18) = 0 → u.rd (R.MBX p 0x14) &&& (x &&& 0x3FFFF#32) ≠ 0 →
        exec (.plainRegisterWrite dt (.bar0 p) a x) s = .next ((u.wr (R.MBX p 0x18) (x &&& 0x3FFFF#32)).msix p 0))) ∧
    (∀ (a : BitVec 40) (x : Word), u.linkAlive = true → a.toNat = 0x24 →
      exec (.plainRegisterWrite dt (.bar0 0) a x) s = .next (u.wrF (R.MBX 0 0x24) 0 16 (fld x 0 16))) ∧
    (∀ (off : BitVec 24) (size : Nat) (vs : List Word) (b : Bool) (v : State), u.linkAlive = true →
      (u.bar2On = true → bar2Ok off.toNat size = true → u.readRun 0 0 (u.bar2Addr off.toNat) (size / 4) = (vs, b, v) →
        exec (.bar2Read dt off size) s = .next (v.emit (.read (ofBytes (wordBytes vs))))) ∧
      ((u.bar2On = false ∨ bar2Ok off.toNat size = false) →
        exec (.bar2Read dt off size) s = .next ((u.viol 0 Viol.bar2 0 (u.bar2Addr off.toNat)).emit (.read 0)))) ∧
    (∀ (off : BitVec 24) (x : BitVec 64), u.linkAlive = true → u.bar2On = true →
      (bar2Ok off.toNat 4 = true →
        exec (.bar2Write dt off 4 x) s = .next (u.bar2Put (u.bar2Addr off.toNat) (w32 x.toNat) 0)) ∧
      (bar2Ok off.toNat 8 = true →
        exec (.bar2Write dt off 8 x) s = .next ((u.bar2Put (u.bar2Addr off.toNat) (w32 x.toNat) 0).bar2Put
          (u.bar2Addr off.toNat + 4) (w32 (x.toNat / 2 ^ 32)) 0)))

/-- The registers whose write the command table lists by itself: by REG_WRITE of a partition that owns the context it names,
the write reaches the register's own behaviour (R70, R124, R219, R228, R233, R335, R451, R464, R469, R529). -/
def Obligations.ListedRegisterWritesComplete : Prop :=
  ∀ (dt : Nat) (s u : State) (p : Fin 64) (ctx : Fin 4096) (x : Word), u = s.tick dt → u.bt (R.MBX p 0x04) 0 = true →
    u.owns p ctx = true →
    (∀ r : Fin 16384, u.ownsReg p (R.HLK_RING_CTRL r) = true →
      exec (.ringEnable dt (.regWrite p ctx) r x) s = .next (u.ringCtrl r x 0) ∧
      ∀ n : Nat, exec (.ringDisable dt (.regWrite p ctx) r x n) s = .next (u.ringCtrl r x n)) ∧
    (u.ownsReg p R.EVT_ROOT_CLOSE = true → exec (.evtRootClose dt (.regWrite p ctx) x) s = .next (u.rootCloseWrite x)) ∧
    (u.ownsReg p R.BKC_KEY_REQ = true → exec (.bkcKeyReq dt (.regWrite p ctx) x) s = .next (u.keyReq x)) ∧
    (u.ownsReg p R.BKC_JOB_PROD = true → exec (.bkcJobProd dt (.regWrite p ctx) x) s = .next (u.jobProd x)) ∧
    (u.ownsReg p R.BKC_JOB_ABORT = true →
      exec (.bkcJobAbort dt (.regWrite p ctx) x) s = .next (u.jobAbort (fld x 0 16))) ∧
    (∀ b : Fin 64, u.ownsReg p (R.SPD_BANK_HO b) = true → u.hoRefused b x = false →
      exec (.spdBankHo dt (.regWrite p ctx) b x) s = .next (u.hoAccept b x)) ∧
    (∀ n : Fin 4, u.ownsReg p (R.CBS_I2C_XFER n) = true →
      exec (.cbsI2cXfer dt (.regWrite p ctx) n x) s = .next (u.i2cXferWrite n x)) ∧
    exec (.cbsGpioSet dt (.regWrite p ctx) x) s = .next (u.gpioWrite p ctx true x.toNat) ∧
    exec (.cbsGpioClr dt (.regWrite p ctx) x) s = .next (u.gpioWrite p ctx false x.toNat)

/-- Functions and their resets while the part is powered (R441 to R443, R477, Table 19-1): masks, Bus Master Enable, function-level
resets, hot reset, link down and PERST_N. -/
def Obligations.PcieCommandsComplete : Prop :=
  ∀ (dt : Nat) (s u : State), u = s.tick dt →
    (u.awakeDev = true →
      (∀ (fn : Fin 64) (vec : Fin 2048), exec (.msixUnmask dt fn (some vec)) s = .next (({ u with mbx := { u.mbx with
        vecMask := tabSet (fun _ => true) u.mbx.vecMask (vecKey fn vec) false } } : State).msixFlush fn)) ∧
      (∀ fn : Fin 64, exec (.msixUnmask dt fn none) s = .next (({ u with mbx := { u.mbx with
        fnMask := tabSet (fun _ => true) u.mbx.fnMask fn false } } : State).msixFlush fn)) ∧
      (∀ fn : Fin 64, exec (.bmeClear dt fn) s = .next { u with mbx := { u.mbx with
        bme := tabSet (fun _ => false) u.mbx.bme fn false } }) ∧
      (∀ fn : Fin 64, exec (.bmeSet dt fn) s = .next (u.bmeOn fn)) ∧
      (∀ p : Fin 64, p ≠ 0 → exec (.vfFlr dt p) s = .next (u.startReset 3 [p.val] [] []).2) ∧
      exec (.pfFlr dt) s = .next (u.startReset 3 [0] [] []).2 ∧
      exec (.pcieHotReset dt) s = .next (u.deviceReset 4 5 false) ∧
      exec (.firmwareWatchdog dt) s = .next (u.deviceReset 4 1 false) ∧
      exec (.pciePerstNAssert dt) s = .next (u.deviceReset 4 5 false) ∧
      ((u.pwr.p2At = none ∨ u.pwr.p2Ack = false) → exec (.pcieDlDown dt) s = .next (u.deviceReset 4 5 false))) ∧
    (u.pwr.p2At ≠ none → u.pwr.p2Ack = true → exec (.pcieDlDown dt) s = .next u) ∧
    (u.awakeDev = false → exec (.pciePerstNAssert dt) s = .next u) ∧
    (u.power = 2 → exec (.pciePerstNDeassert dt) s = .next u.wakeP2)

/-- The host rings (R444, R447 to R450, R459): polls, buffers read, delivery, failed reads and the moderation of RING_CPL. -/
def Obligations.RingCommandsComplete : Prop :=
  ∀ (dt : Nat) (s u : State) (r : Fin 16384) (x : Ring), u = s.tick dt → x = u.ring r →
    (∀ (w : BitVec 64) (ds : List Desc) (v : State), u.ringMay r = true → v = u.ringPoll r w ds →
      exec (.hlkRingPoll dt r w ds) s = .next ((v.popAll r (v.ring r).taken.length).startNext r (v.items.length + 1))) ∧
    (∀ (t : Taken) (ts : List Taken) (data : List Byte), x.taken = t :: ts → u.ringMay r = true → u.ringIn r = true →
      t.bad = false → data.length = t.desc.len.toNat →
      exec (.h2cReadComplete dt r data) s = .next (u.ringRead r data)) ∧
    (∀ (n : Nat) (v : State), u.ringMay r = true → u.ringIn r = false → v = u.startNext r (u.items.length + 1) →
      exec (.hlkItemDelivery dt r n) s = .next (v.fill r (2 * ((v.ring r).taken.length + v.items.length) + 2) n)) ∧
    (∀ (what : RingRead) (v : State), u.ringOn r = true →
      v = ((u.bump R.HLK_ERR 16 16 1).emit (.aer (u.ringFn r))).stopRing r St.HW_FAULT St.ABORTED_NOT_STARTED 2 (errCause what) 0 →
      exec (.readCompletionError dt r what) s =
        .next (v.raise (r / 4) 0x06C2 St.OK Src.HLK (r + errCause what * 0x4000))) ∧
    (∀ t : Nat, x.cplPend = true → x.lastCpl = some t → t + u.fd (R.HLK_RING_CTRL r) 16 8 * 1000 ≤ u.now →
      exec (.cplModExpiry dt r) s = .next ((u.setRing r { x with cplPend := false }).ringEvent r))

/-- Boundaries that no FS makes (R37, R409), the retirement of an epoch (R19), the end of a reset's drain (R103), and the root-cause
table (R120 to R125). -/
def Obligations.BoundaryAndFaultCommandsComplete : Prop :=
  ∀ (dt : Nat) (s u : State), u = s.tick dt →
    (u.mayBound = true → u.linkOn = false → (u.fd (R.TIM_CAD_CFG 0) 0 2 = 0 ∨ u.fd (R.TIM_CAD_CFG 0) 0 2 = 3) →
      (∃ c ∈ u.ep.queue, c.tAm + 2000 ≤ u.now ∧ u.ep.tFm < c.tAm + 2000) →
      exec (.syntheticBoundary dt) s = .next (u.boundary true id).2) ∧
    (∀ (k : Fin 4) (t : Int) (v : State), u.mayBound = true → u.cadLast k = some t →
      newTick (tabGet (fun _ => none) u.tim.ticks k) (some t) = true →
      v = { u with tim := { u.tim with ticks := tabSet (fun _ => none) u.tim.ticks k (some t) } } →
      (k ≠ 0 → exec (.cadenceTick dt k) s = .next v) ∧
      (∀ w : State, k = 0 → ((v.fd (R.TIM_CAD_CFG 0) 0 2 ≠ 3 ∧ v.linkOn = false ∧ w = (v.boundary true id).2) ∨
          ((v.fd (R.TIM_CAD_CFG 0) 0 2 = 3 ∨ v.linkOn = true) ∧ w = v)) →
        (w.bt R.TIM_EXP_SRC 4 = true → exec (.cadenceTick dt k) s = .next (w.expose t.toNat 0 (shortOf t.toNat))) ∧
        (w.bt R.TIM_EXP_SRC 4 = false → exec (.cadenceTick dt k) s = .next w))) ∧
    (∀ (b : Bank) (bs : List Bank), u.ep.banks = b :: bs → u.inFlight b.epoch = false →
      exec (.epochRetirement dt) s = .next (b.ctxs.foldl
        (fun s c => s.raiseEv { s.evNow c 0x0202 St.OK Src.CTX 0 with epoch := b.epoch })
        ({ u with ep := { u.ep with banks := bs }, ing := { u.ing with
          sparse := u.ing.sparse.filter (fun x => decide (x.1 ≠ b.epoch)) } } : State))) ∧
    (∀ (id : Nat) (j : ResetJob), u.resets.find? (fun j => decide (j.id = id)) = some j → u.busyCtxs j.drain = false →
      exec (.resetDrainComplete dt id) s = .next (u.endDrain j)) ∧
    (∀ (given reps : List FaultRep) (l : List (Nat × Nat)) (v w : State), u.awakeDev = true → reps = given.filterMap tabled →
      u.reports (reps.insertionSort (fun a b => repBefore a b = true)) = (l, w) → v = w.rootMessages l →
      ((∀ f ∈ reps, f.cls ≠ .device) → exec (.faultReport dt given) s = .next v) ∧
      ((∃ f ∈ reps, f.cls = .device) → exec (.faultReport dt given) s = .next (v.warmReset 4))) ∧
    (∀ (id : Word) (r : Root), u.evt.roots.find? (fun r => r.open_ && decide (r.id = id.toNat)) = some r → u.awakeDev = true →
      r.lastMono + u.fd R.EVT_CTRL 0 10 * 10 ^ 6 ≤ u.now → exec (.rootQuietClose dt id) s = .next (u.closeRoot r))

/-- The lanes (R137 to R150, Tables 5-5 and 5-10): locks and losses, ALIGN blocks and the PRBS checkers. -/
def Obligations.LaneCommandsComplete : Prop :=
  ∀ (dt : Nat) (s u : State) (n : Fin 64), u = s.tick dt →
    (u.laneSt n = 1 → exec (.laneCdrLock dt n) s = .next (u.setLane n 2)) ∧
    (u.laneSt n = 1 → tabGet (fun _ => 0) u.lnk.wasLane n = 0 → exec (.laneCdrTimeout dt n) s = .next (u.failLane n 1)) ∧
    (∀ v : State, u.laneSt n = 2 → v = u.setLane n (if u.laneFunc n = 3 then 5 else 3) →
      exec (.laneBlockLock dt n) s = .next { v with lnk := { u.lnk with
        alignRun := tabSet (fun _ => 0) u.lnk.alignRun n 0 } }) ∧
    (u.laneLocked n = true → exec (.laneLockLoss dt n) s = .next ((u.bump (R.LNA_LANE_ERR n) 0 16
      (16 - (tabGet (fun _ => []) u.lnk.hdrBad n).length)).dropLane n false)) ∧
    (u.laneLocked n = false → exec (.laneLockLoss dt n) s = .next u) ∧
    exec (.laneSignalLoss dt n) s = .next (u.dropLane n true) ∧
    (∀ (h0 h1 : Bool) (hdr : BitVec 2) (pay : BitVec 256) (gap skew : Nat) (v : State), hdr = syncHdr h0 h1 →
      u.laneLocked n = true → u.laneFunc n = 1 →
      ((u.fd (R.LNA_LANE_LOOP n) 0 2 = 0 ∧ v = u) ∨ (u.fd (R.LNA_LANE_LOOP n) 0 2 = 3 ∧ v = u.emit (.retimed n hdr.toNat pay))) →
      (v.injects 1 n = true →
        exec (.alignBlock dt n h0 h1 pay gap skew) s = .next (((v.useInj 1 n).bump (R.LNA_INJ_CNT n) 0 32 1).badHeader n)) ∧
      (v.injects 1 n = false → (hdr = 0 ∨ hdr = 3) → exec (.alignBlock dt n h0 h1 pay gap skew) s = .next (v.badHeader n)) ∧
      (v.injects 1 n = false → v.injects 2 n = true → hdr ≠ 0 → hdr ≠ 3 → alignForm hdr pay = true →
        exec (.alignBlock dt n h0 h1 pay gap skew) s = .next ((v.useInj 2 n).bump (R.LNA_INJ_CNT n) 0 32 1)) ∧
      (v.injects 1 n = false → v.injects 2 n = false → hdr ≠ 0 → hdr ≠ 3 →
        (fillForm hdr pay = true → 4 ≤ v.laneSt n → exec (.alignBlock dt n h0 h1 pay gap skew) s = .next (v.fillBlock n)) ∧
        (v.laneSt n = 3 → exec (.alignBlock dt n h0 h1 pay gap skew) s = .next (v.alignSeek n hdr pay gap)) ∧
        (fillForm hdr pay = false → 4 ≤ v.laneSt n →
          exec (.alignBlock dt n h0 h1 pay gap skew) s = .next (v.alignKeep n hdr pay gap skew)))) ∧
    (u.laneSt n = 3 → tabGet (fun _ => 0) u.lnk.wasLane n = 0 → exec (.laneAlignTimeout dt n) s = .next (u.failLane n 2)) ∧
    (u.laneSt n = 3 → tabGet (fun _ => 0) u.lnk.wasLane n ≠ 0 → exec (.laneAlignTimeout dt n) s = .next (u.setLane n 1)) ∧
    (∀ (rx bits : List Bool) (v : State), u.bt (R.LNA_PRBS_CTRL n) 4 = true →
      ((u.fd (R.LNA_LANE_LOOP n) 0 2 ≠ 1 ∧ u.fd (R.LNA_LANE_LOOP n) 0 2 ≠ 2 ∧ bits = rx ∧ v = u) ∨
        ((u.fd (R.LNA_LANE_LOOP n) 0 2 = 1 ∨ u.fd (R.LNA_LANE_LOOP n) 0 2 = 2) ∧ u.prbsSend n rx.length = (bits, v))) →
      exec (.prbsCheckerLock dt { lane := n, bits := rx }) s = .next (bits.foldl (fun (t : State) b => t.prbsBit n b) v))

/-- The sensor link's packets (R162 to R167, R177, R178), its back-channel, its spares (R174) and the end of a wait for the link
(Table 2-15). -/
def Obligations.PacketCommandsComplete : Prop :=
  ∀ (dt : Nat) (s u : State) (g : Fin 48) (h : BitVec 128), u = s.tick dt →
    (∀ (x : BitVec 128 × List Byte × Word) (v : State), u.linkOn = true → (u.fillSeen g).receive g h [] 0 = (x, v) →
      (hdrOk x.1 = false → v.groupUp g = true → exec (.fsPacket dt g h) s = .next (v.hdrError g)) ∧
      (hdrOk x.1 = true → hdrType x.1 = Dt.fs →
        (v.openFrame = none → exec (.fsPacket dt g h) s = .next (v.fsOpen g x.1)) ∧
        ∀ f : Frame, v.openFrame = some f →
          (f.sensorFrame ≠ hdrFrame x.1 → exec (.fsPacket dt g h) s = .next (v.fsOpen g x.1)) ∧
          (f.sensorFrame = hdrFrame x.1 → v.groupUp g = true → exec (.fsPacket dt g h) s = .next (v.fsAgain f g)))) ∧
    (∀ f : Frame, u.openFrame = some f → u.ep.tFm + u.cf f.epoch R.SLK_LINK_CFG 0 10 * 1000 < u.now →
      f.fs.contains g.val = false → f.dead.contains g.val = false → exec (.fsSkewTimeout dt g) s = .next (u.groupDead f g)) ∧
    (∀ (payload body bytes : List Byte) (pcrc crc : Word) (y : BitVec 128) (v : State), u.groupUp g = true →
      u.receive g h payload pcrc = ((y, body, crc), v) → v.lnk.grpSkip.contains g.val = false → v.groupUp g = true →
      (u.linkOn = true → hdrOk y = true → ∀ (f : Frame) (ok : Bool) (w : State), v.openFrame = some f →
        ok = payloadOk y body crc → w = (if ok then v else v.bump R.SLK_PCRC_ERR 0 32 1) → f.takes g y = true →
        (payload = [] → pcrc = 0 → hdrType y = Dt.fe →
          exec (.fePacket dt g h) s = .next (v.feTaken { f with fe := g.val :: f.fe, expNs := hdrNs y })) ∧
        (hdrPixel y = true → f.ovf = false → (f.stripes.getD (hdrStripe y) {}).drop = false →
          exec (.pixelPacket dt g h payload pcrc) s = .next (w.segment f g y (payloadOf y body) ok)) ∧
        (hdrType y = Dt.embed → f.ovf = false →
          exec (.embedPacket dt g h payload pcrc) s = .next (w.embedIn f g y body ok))) ∧
      (u.linkOn = true → payload = [] → pcrc = 0 → hdrOk y = true → exec (.nullPacket dt g h) s = .next v) ∧
      (u.linkOn = true → payload = [] → pcrc = 0 → hdrOk y = false → exec (.nullPacket dt g h) s = .next (v.hdrError g)) ∧
      (∀ b : BcCmd, u.linkSt ≠ 0 → hdrOk y = true → hdrType y = Dt.reply → payloadOk y body crc = true →
        bytes = payloadOf y body ++ List.replicate 32 0 →
        v.lnk.bcOut.find? (fun b => decide (b.tag = ofBytes (bytes.take 1))) = some b →
        exec (.replyPacket dt g h payload pcrc) s =
          .next (({ v with lnk := { v.lnk with bcOut := v.lnk.bcOut.erase b } } : State).bcReply b (bytes.take 32)))) ∧
    (∀ b : BcCmd, u.lnk.bcq.find? (fun b => u.serves Src.SLK b.ctx) = some b → u.bcMay = true →
      exec (.backchannelCommandSend dt) s = .next (u.bcSend b (u.lnk.bcq.erase b))) ∧
    (∀ (tag : BitVec 8) (b : BcCmd), u.lnk.bcOut.find? (u.bcDue tag.toNat) = some b →
      exec (.bcCommandTimeout dt tag) s = .next (u.bcRetry b)) ∧
    (∀ l : Fin 64, u.swapDue l = true → exec (.spareSwapDue dt l) s = .next (u.swapFor l)) ∧
    (∀ t : Nat, u.lnk.startedAt = some t → t + 40000000 ≤ u.now →
      exec (.linkUpTimeout dt) s = .next (u.finish (fun k => decide (k = .link)) St.TIMEOUT [u.rd R.SLK_LINK_STAT]))

/-- Photosite correction and the coder (R185 to R236): a beat of a stripe, a job that starts, a job that ends. -/
def Obligations.CorrectionAndCoderCommandsComplete : Prop :=
  ∀ (dt : Nat) (s u : State), u = s.tick dt →
    (∀ (i : Fin 48) (f : Frame) (io : BeatIo), u.pscFrame i = some f → exec (.pscBeat dt i io) s = .next (u.pscStep i f io)) ∧
    (∀ (i : Fin 48) (f : Frame) (st : StripeSt) (io : CodeIo), u.bkcFrame = some f → st = f.stripes.getD i { done := true } →
      st.done = false → st.recon.length + 2 ≤ st.cor.length →
      (io.blocked = false → exec (.bkcBeat dt i io) s = .next (u.bkcCode i f st io)) ∧
      (io.blocked = true → exec (.bkcBeat dt i io) s = .next (u.bkcBlock i f))) ∧
    (u.jobMay = true → exec (.bkcJobStart dt) s = .next u.jobBegin) ∧
    (∀ (b : BkcJob) (frames stripes : Nat) (ue par : List (Fin 48)), u.bkcJob = some b →
      exec (.bkcJobCompletion dt frames stripes ue par) s = .next (u.jobFinish b frames stripes ue par))

/-- Landing, development and statistics (R243, R257, R276, R286, R294, R295). -/
def Obligations.LandingAndPipelineCommandsComplete : Prop :=
  ∀ (dt : Nat) (s u : State), u = s.tick dt →
    (∀ (k : Fin 16) (f : Frame) (cut : Option Nat), u.slotLive k = true → u.landNext k = some f →
      exec (.landingUnitWrite dt k cut) s = .next (u.landUnit k f cut)) ∧
    (∀ k : Fin 16, exec (.takeFinalisation dt k) s = .next (u.tryFinal k).settle) ∧
    (∀ k : Fin 16, u.slotSt k = 4 → u.nvRange = true → exec (.takeEntryWritten dt k) s = .next (u.entryWritten k)) ∧
    (∀ (f : Frame) (tapUe : List (Nat × Nat × Nat)) (lutUe : List (Fin 8 × Fin 3)), u.cpl.dev = none → u.devNext = some f →
      exec (.developmentStart dt tapUe lutUe) s = .next (u.devBegin f tapUe lutUe)) ∧
    (∀ (o : Fin 8) (d : Dev) (x : DevOut) (f : Frame), u.cpl.dev = some d → d.todo.find? (fun x => decide (x.sc = o.val)) = some x →
      u.ing.frames.find? (fun f => decide (f.no = d.no)) = some f → f.tapDone = true → f.closed = true →
      exec (.scalerOutputRecord dt o) s = .next (u.scRecord o d x f)) ∧
    (∀ (x : Stat) (rest : List Stat) (v : State) (full par : Bool), u.crs.due = x :: rest → v = { u with crs := { u.crs with due := rest } } →
      (par = true → exec (.statsRecordComplete dt full par) s =
        .next ((v.bump R.CRS_DROP_CNT 0 32 1).faultItem Src.CRS 1 x.point x.kind [Fin.ofNat 4096 x.ctx])) ∧
      (par = false → (full = true ∨ tabGet (fun _ => 0) v.crs.ring x.ctx = 0) →
        exec (.statsRecordComplete dt full par) s = .next (v.statsDrop x)) ∧
      (par = false → full = false → tabGet (fun _ => 0) v.crs.ring x.ctx ≠ 0 →
        exec (.statsRecordComplete dt full par) s = .next (({ v with crs := { v.crs with dropRun := false } } : State).stage
          { ring := tabGet (fun _ => 0) v.crs.ring x.ctx - 1, kind := 4, epoch := x.epoch
            ctx := (tabGet (fun _ => 0) v.crs.ring x.ctx - 1) / 4 }
          (tagBytes v.dev x.epoch x.ctx Kind.stats x.frame Src.CRS x.flags ++ x.rest))))

/-- The video coder's own steps (R352 to R361): a live picture held, a slice boundary, a decode job that starts and one that ends. -/
def Obligations.VideoEngineCommandsComplete : Prop :=
  ∀ (dt : Nat) (s u : State), u = s.tick dt →
    (∀ (q : Fin 64) (o : VcOut) (x : VcSession) (v : State), u.vcd.pend.find? (fun o => decide (o.session = q.val)) = some o →
      u.vc q = some x → v = { u with vcd := { u.vcd with pend := u.vcd.pend.erase o } } → o.dest = true → x.closing = false →
      x.queue.length + b2n x.cur.isSome < 2 → o.out.w ≤ x.maxW → o.out.h ≤ x.maxH →
      2 * v.vcK x.profile x.maxW x.maxH ≤ x.bufs → (o.out.fmt = 3 ∨ (o.out.fmt = 2 ∧ x.profile = 2)) →
      exec (.livePictureHold dt q) s = .next (v.liveQueue q x o)) ∧
    (∀ out : SliceOut,
      (u.vcd.enc = none → exec (.vcSliceBoundary dt out) s = .next (u.vcPick (u.vcWork + 1))) ∧
      ∀ (q : Nat) (v : State), u.vcd.enc = some q → v = u.vcSlice q out →
        exec (.vcSliceBoundary dt out) s = .next (v.vcPick (v.vcWork + 1))) ∧
    (∀ (q : Nat) (x : VcSession) (j : VcJob) (rest : List VcJob), u.vcd.dec = none → u.throttled = false → u.decNext = some q →
      u.vc q = some x → x.jobs = j :: rest → exec (.vcDecodeStart dt) s = .next (u.decBegin q x j rest)) ∧
    (∀ (q : Nat) (v : State) (x : VcSession) (j : VcJob) (rest : List VcJob) (out : DecOut), u.vcd.dec = some q →
      v = u.decFree q → v.vc q = some x →
      x.jobs = j :: rest → exec (.vcDecodeDone dt out) s = .next (v.decEnd q x j rest out))

/-- The monitor outputs (R374 to R388): frame starts, tearing-effect edges, DSI transfers and SDI lines. -/
def Obligations.MonitorOutputCommandsComplete : Prop :=
  ∀ (dt : Nat) (s u : State), u = s.tick dt →
    (∀ o : Fin 6, (u.monOut o).line = none →
      (u.monTe o = false → newTick (u.monOut o).tick (u.monTick o) = true → exec (.outputFrameStart dt o) s = .next (u.monStart o)) ∧
      (∀ t : Nat, u.monTe o = true → (u.monOut o).teDue = some t → t ≤ u.now →
        exec (.outputFrameStart dt o) s = .next (u.monStart o)) ∧
      (u.monTe o = true → (u.monOut o).teDue = none → u.bt (R.MON_OUT_STAT o) 1 = false → newTick (u.monOut o).tick (u.monTick o) = true →
        exec (.outputFrameStart dt o) s = .next (u.monCadence o))) ∧
    (∀ o : Fin 2, u.monTe o = true →
      exec (.teEdge dt o) s = .next (((u.setMon o { u.monOut o with
        teAt := some u.now
        teDue := some (u.now + 1000 * (u.monOut o).fd (R.MON_OUT_DSI_T o) 0 16) }).wrF (R.MON_OUT_STAT o) 1 1 1).monBlank o) ∧
      (((u.monOut o).teAt.getD 0) + 20000 * (u.monOut o).fd (R.MON_OUT_DSI_T o) 16 16 ≤ u.now →
        exec (.teMissTimeout dt o) s = .next ((u.wrF (R.MON_OUT_STAT o) 1 1 0).monCadence o))) ∧
    (∀ (o : Fin 2) (d : Rect) (under : List (Nat × Nat)) (ue : List Nat), (u.monOut o).dirty = some d →
      exec (.dsiTransferDone dt o under ue) s = .next (u.dsiSent o d under ue)) ∧
    (∀ (k : Fin 4) (o y : Nat), o = k.val + 2 → (u.monOut o).line = some y →
      (∀ (miss : Option Nat) (ue : Bool), y < ((u.monOut o).size o).2 →
        exec (.sdiLineStart dt k miss ue) s = .next (u.sdiLine o y ((u.monOut o).size o).1 miss ue)) ∧
      (y = ((u.monOut o).size o).2 →
        exec (.sdiFrameEnd dt k) s = .next (((u.setMon o { u.monOut o with line := none }).monDone o).monBlank o)))

/-- Time (R404 to R414): trigger pins, scheduled edges, strobes, genlock and timecode. -/
def Obligations.TimingEventCommandsComplete : Prop :=
  ∀ (dt : Nat) (s u : State), u = s.tick dt →
    (∀ (n : Fin 4) (fall : Bool), u.power = 0 → exec (.trigPinEdge dt n fall) s = .next (u.trigEdge n fall false u.dev)) ∧
    (∀ (n : Fin 4) (strb : Bool) (e : SchedEnt), u.schedFirst n strb = some e → e.ts ≤ u.dev + (if strb then 0 else 20) →
      exec (.scheduleEntryDue dt n strb) s = .next (u.schedFire n strb e)) ∧
    (∀ (n : Fin 4) (p : Pulse), tabGet (fun _ => none) u.tim.pulses n = some p → p.trail ≤ u.dev →
      exec (.strobeTrailingEdge dt n) s = .next (u.strobeEnd n)) ∧
    (∀ (fall : Bool) (v : State), v = (u.timLog 2 (b2n fall * 4) 0 u.dev).2 →
      (v.bt R.TIM_GL_CFG 0 = fall → exec (.genlockEdge dt fall) s = .next (v.genCads.foldl (fun s k => s.genEdge k s.dev) v)) ∧
      (v.bt R.TIM_GL_CFG 0 ≠ fall → exec (.genlockEdge dt fall) s = .next v)) ∧
    (∀ n : Fin 4, u.genCads.contains n.val = true → exec (.genlockEdgeTimeout dt n) s = .next (u.genBad n (u.gen n))) ∧
    (∀ (tc : Word) (m : Nat), u.bt R.TIM_TC_CFG 4 = true → tcIndex u.tcCode tc.toNat = some m →
      exec (.ltcInFrame dt tc) s = .next (u.ltcTaken m tc)) ∧
    (u.bt R.TIM_TC_CFG 4 = true → u.tim.ltcLost = false → u.ltcDue = true →
      exec (.ltcInTimeout dt) s = .next (({ u with tim := { u.tim with ltcLost := true } } : State).raise 0 0x0907 St.OK Src.TIM 0)) ∧
    (∀ v : State, v = u.tcBaseTaken →
      (v.bt R.TIM_TC_CFG 3 = true → exec (.timecodeFrameStart dt) s =
        .next (v.emit (.ltc (tcLabel v.tcCode (tcFrame v.tcCode v.tcBase v.dev % (tcDay v.tcCode : Nat)).toNat)
          (tcStart v.tcCode v.tcBase (tcFrame v.tcCode v.tcBase v.dev)).toNat))) ∧
      (v.bt R.TIM_TC_CFG 3 = false → exec (.timecodeFrameStart dt) s = .next v))

/-- Ethernet and the ordinary clock (R398 to R402). -/
def Obligations.PtpCommandsComplete : Prop :=
  ∀ (dt : Nat) (s u : State) (port : Fin 2), u = s.tick dt →
    (∀ (frame : List Byte) (res : Nat), u.ethTakes port frame = true →
      exec (.ethFrameReceived dt port frame res false) s = .next (u.ethForward port frame res) ∧
      exec (.ethFrameReceived dt port frame res true) s = .next (u.bump (R.TIM_PORT_CNT (1 - port.val)) 16 16 1)) ∧
    (u.fd R.TIM_PTP_CFG 0 2 ≠ 0 → u.ethUp port = true →
      (∀ (gm : BitVec 64) (rank : BitVec 48) (v : State), u.fd R.TIM_PTP_CFG 3 1 = port.val →
        (rank.toNat * 2 ^ 64 + gm.toNat < u.ptpOwn ∨ u.bt R.TIM_PTP_CFG 4 = true) →
        v = u.wrs [(R.TIM_PTP_GM_LO, w32 gm.toNat), (R.TIM_PTP_GM_HI, w32 (gm.toNat / 2 ^ 32))] →
        ((v.servo = 2 ∨ v.servo = 3) → exec (.ptpMessageReceived dt port (.announce gm rank)) s = .next v) ∧
        (v.servo ≠ 2 → v.servo ≠ 3 → exec (.ptpMessageReceived dt port (.announce gm rank)) s = .next (v.setServo 2))) ∧
      (∀ (gm : BitVec 64) (rank : BitVec 48), u.fd R.TIM_PTP_CFG 3 1 = port.val →
        u.ptpOwn ≤ rank.toNat * 2 ^ 64 + gm.toNat → u.bt R.TIM_PTP_CFG 4 = false → u.servo ≠ 5 →
        exec (.ptpMessageReceived dt port (.announce gm rank)) s = .next (u.setServo 5)) ∧
      (∀ (off : Int) (path : Nat), u.fd R.TIM_PTP_CFG 3 1 = port.val →
        exec (.ptpMessageReceived dt port (.offset off path)) s =
          .next (u.servoOffset (u.ptpCorrect port off path).1 (u.ptpCorrect port off path).2)) ∧
      (∀ x : Nat, exec (.ptpMessageReceived dt port (.linkDelay x)) s =
        .next { u with tim := { u.tim with linkDelay := tabSet (fun _ => 0) u.tim.linkDelay port (u.ptpCorrect port 0 x).2 } }) ∧
      exec (.ptpMessageReceived dt port .other) s = .next (u.bump (R.TIM_PORT_CNT port) 0 16 1)) ∧
    (∀ (type : Fin 4) (turn : Nat), u.ptpMay port type.val = true →
      exec (.ptpMessageTransmit dt port type turn) s =
        .next (u.emit (.ptp port type (if type.val = 3 then 0 else u.dev + u.fd (R.TIM_PORT_LAT port) 16 16)
          (if type.val = 3 then turn else 0)))) ∧
    (u.servo = 3 → exec (.announceReceiptTimeout dt) s = .next (u.setServo 4)) ∧
    ((u.servo = 1 ∨ u.servo = 2) → u.bt R.TIM_PTP_CFG 4 = true → exec (.announceReceiptTimeout dt) s = .next (u.setServo 1)) ∧
    ((u.servo = 1 ∨ u.servo = 2) → u.bt R.TIM_PTP_CFG 4 = false → exec (.announceReceiptTimeout dt) s = .next (u.setServo 5))

/-- Audio (R424 to R433): starts, blocks, followers, losses of clock and AES3 frames. -/
def Obligations.AudioEventCommandsComplete : Prop :=
  ∀ (dt : Nat) (s u : State), u = s.tick dt →
    (∀ p : Fin 8, u.audSt p = 1 → (u.audP p).at_ p (u.audP p).k0 ≤ u.dev →
      exec (.audPortStartInstant dt p) s =
        .next (((((u.audApply p).audNote p).setAudSt p 2).wr (R.AUD_P_SEQ p) 0).audEvent p 0x0A01 0)) ∧
    (∀ p : Fin 8, 2 ≤ u.audSt p →
      (∀ (data : List (List Nat)) (parity : List Nat),
        (u.audP p).at_ p ((u.audP p).first p + (u.audP p).len p) ≤ u.dev →
        exec (.audBlockEnd dt p data parity) s = .next (u.audBlockEnds p data parity)) ∧
      ((u.audP p).at_ p ((u.audP p).first p) ≤ u.dev → exec (.audBlockStart dt p) s = .next (u.audBegin p))) ∧
    (∀ (p : Fin 4) (clocks : Nat) (mid : Bool), (u.audP p).follows p = true → 2 ≤ u.audSt p →
      exec (.followerFrameStart dt p clocks mid) s = .next (u.audFollow p clocks mid)) ∧
    (∀ p : Fin 8, (u.audP p).follows p = true →
      exec (.audClockLossTimeout dt p) s = .next (u.audLost p ((u.audP p).now p u.dev))) ∧
    (∀ (i : Fin 2) (p : Nat) (z : Bool) (a b : AesSub), p = i.val + 4 → 2 ≤ u.audSt p →
      exec (.aes3Frame dt i z a b) s = .next (u.aesFrame p z a b))

/-- Storage queues (R305 to R315, R443): polls, starts and ends of commands, and the end of an I²C hold. -/
def Obligations.StorageQueueCommandsComplete : Prop :=
  ∀ (dt : Nat) (s u : State) (q : Fin 32), u = s.tick dt →
    (∀ (x : SqQueue) (w : BitVec 64) (cmds : List (BitVec 512)), u.sq q = some x → u.sqShut x = false →
      exec (.sqPoll dt q w cmds) s = .next (u.sqPolled q x w cmds)) ∧
    (∀ (x : SqQueue) (c : SqCmd), u.sqNext q 1 = some (x, c) →
      exec (.sqRead dt q) s = .next (u.sqStart q x c (u.sqReadData x c))) ∧
    (∀ (x : SqQueue) (c : SqCmd) (d : List Byte), u.nvRange = true → u.i2cHolds c = false → d.length = 4096 * c.count →
      (u.sqNext q 2 = some (x, c) → exec (.sqWrite dt q (some d)) s = .next (u.sqStart q x c d)) ∧
      (u.sqNext q 3 = some (x, c) → exec (.sqAtomicWrite dt q (some d)) s = .next (u.sqStart q x c d))) ∧
    (∀ (x : SqQueue) (c : SqCmd), u.sqNext q 4 = some (x, c) → exec (.sqNop dt q) s = .next (u.sqEnd q c St.OK 0)) ∧
    (∀ (x : SqQueue) (c : SqCmd) (tag : Fin 32) (n : Nat) (v : State), u.sq q = some x →
      x.cmds.find? (fun c => decide (c.tag = tag.val) && c.started) = some c → c.abort = false →
      (c.writes = false ∨ (u.i2cHolds c = false ∧
        u.sqStarted.any (fun d => d.writes && d.overlaps c && decide (d.seq < c.seq)) = false)) →
      v = ((u.sqEffect x c c.count).sqEnd q c St.OK c.count) →
      exec (.sqCommandDone dt q tag n none) s = .next v.p3Due.p2Due) ∧
    (∀ (b t : Nat) (bytes : List (Nat × Byte)), u.lnd.i2c = some (b, bytes, t) →
      exec (.uaHoldExpiry dt) s = .next (u.uaHeld b bytes))

/-- The I²C controllers and target and the GPIO pins (R464 to R469, Table 19-1). -/
def Obligations.ControlBusCommandsComplete : Prop :=
  ∀ (dt : Nat) (s u : State), u = s.tick dt →
    (∀ (addr : BitVec 7) (n : Nat) (cut : Bool) (v : State),
      (u.tgtEnd.tgtAck addr.toNat = (true, v) → exec (.i2cTargetRead dt addr n cut) s = .next (v.targetRead n cut)) ∧
      (u.tgtEnd.tgtAck addr.toNat = (false, v) → exec (.i2cTargetRead dt addr n cut) s = .next v)) ∧
    (∀ (addr : BitVec 7) (start : Bool) (bytes : List Byte) (cut stop : Bool),
      exec (.i2cTargetWrite dt addr start bytes cut stop) s = .next (u.targetWrite addr.toNat start bytes cut stop)) ∧
    (∀ (n : Fin 4) (x : I2cXfer), u.xfer n = some x →
      (∀ (r : Fin 4) (i : Fin 17) (data : List Byte),
        (x.abort = false → exec (.i2cTransferEnd dt n r i data) s = .next (u.i2cEnd n r i data)) ∧
        (x.abort = true → exec (.i2cTransferEnd dt n r i data) s = .next (u.i2cEnd n 5 i data))) ∧
      exec (.i2cSclTimeout dt n) s = .next (u.i2cEnd n 4 0 [])) ∧
    (∀ (n : Fin 32) (fall : Bool) (low : State), low = u.wrF R.CBS_GPIO_IN n 1 (b2n !fall) → u.bt R.AON_PWR_STAT 2 = false →
      (u.power = 3 → exec (.gpioPinEdge dt n fall) s = .next low) ∧
      (u.power = 2 → u.bt R.AON_WAKE n = false → exec (.gpioPinEdge dt n fall) s = .next low) ∧
      (u.power = 2 → u.bt R.AON_WAKE n = true →
        exec (.gpioPinEdge dt n fall) s = .next ((low.emit (.pin "PCIE_WAKE_N" false)).wakeP2)) ∧
      (u.power = 0 ∨ u.power = 1 → u.bt R.AON_WAKE n = false → exec (.gpioPinEdge dt n fall) s = .next (u.gpioEdge n fall)) ∧
      (u.power = 0 ∨ u.power = 1 → u.bt R.AON_WAKE n = true →
        exec (.gpioPinEdge dt n fall) s = .next (u.gpioEdge n fall).wakeP1))

/-- The memory system (R321, R322, R325, R335, R339 to R341): bank handover, chutes, idle pages, self-refresh and timing. -/
def Obligations.MemorySystemCommandsComplete : Prop :=
  ∀ (dt : Nat) (s u : State), u = s.tick dt →
    (∀ b : Fin 64, fld (u.rd (R.SPD_BANK_OWN b)) 8 2 = 1 → ∀ v : State,
      ((bit (u.rd (R.SPD_BANK_OWN b)) 6 = true ∧ v = u.spdZero b) ∨ (bit (u.rd (R.SPD_BANK_OWN b)) 6 = false ∧ v = u)) →
      exec (.spdHandoverComplete dt b) s = .next (v.wr (R.SPD_BANK_OWN b)
        (w32 (v.fd (R.SPD_BANK_HO b) 0 6 + fld (u.rd (R.SPD_BANK_OWN b)) 6 2 * 64)))) ∧
    (∀ (n : Fin 128) (k : Fin 3) (d : BitVec 64) (p : Bool) (w : ChuteWord),
      w = { data := d.toNat, good := true, poison := p, slot := false, at_ := u.now } →
      (u.chuteTakes n k = true → (u.chute n).held = [] → exec (.chuteWrite dt n k d p) s = .next (u.chutePut n k w)) ∧
      ((u.chuteTakes n k = false ∨ (u.chute n).held ≠ []) → exec (.chuteWrite dt n k d p) s =
        .next (u.setChute n { u.chute n with held := (u.chute n).held ++ [(k.val, w)] }))) ∧
    (∀ (n : Fin 128) (c x : Chute) (w d : ChuteWord) (ws : List ChuteWord) (v : State), c = u.chute n → c.words = w :: ws →
      c.readable u.now ≠ 0 → w.good = true → d = { w with poison := w.poison || !w.good } →
      x = { c with words := ws, last := some d, pend := c.pend.map (· - 1), rd := (c.rd + 1) % 2 ^ u.fd (R.CHT_CFG n) 0 4 } →
      v = u.setChute n x →
      exec (.chuteRead dt n) s = .next ((v.emit (.read d.out)).chuteOffer n c.held.length)) ∧
    (∀ (ch : Fin 32) (b : Fin 16) (row t : Nat) (v : State), v = u.dramDrain ch →
      tabGet (fun _ => (0, 0)) v.dmc.rows (ch.val * 16 + b.val) = (row, t) → row ≠ 0 → t ≠ v.now →
      t + v.fd R.DMC_PAGE_IDLE 0 11 ≤ v.now →
      exec (.pageIdleExpiry dt ch b) s = .next { v with dmc := { v.dmc with
        rows := tabSet (fun _ => (0, 0)) v.dmc.rows (ch.val * 16 + b.val) (0, 0) } }) ∧
    (∀ (ch : Fin 32) (v : State), v = u.dramDrain ch → v.fd R.DMC_SR_IDLE 0 16 ≠ 0 → v.dmc.waits ch = false →
      tabGet (fun _ => 0) v.dmc.last ch + v.fd R.DMC_SR_IDLE 0 16 * 1000 ≤ v.now → (v.power ≠ 0 ∨ v.linkUp = false) →
      exec (.selfRefreshEntry dt ch) s = .next { v with dmc := { v.dmc with sr := tabSet (fun _ => false) v.dmc.sr ch true } }) ∧
    (∀ ch : Fin 32, exec (.dqsTracking dt ch) s =
      .next { u with dmc := { u.dmc with dqs := tabSet (fun _ => 0) u.dmc.dqs ch u.now } })

/-- Maintenance (R324, R326, R503 to R507): activities that become due, start, take a step and end. -/
def Obligations.MaintenanceActivityCommandsComplete : Prop :=
  ∀ (dt : Nat) (s u : State), u = s.tick dt →
    (u.schedDue = true → exec (.scheduledRetrainDue dt) s = .next (u.actRequest
      { id := u.actId, code := 1, ctx := 0, words := [0], addr := 0, len := 0, running := false, startAt := u.now
        sched := true }).1) ∧
    (∀ a : Act, u.nextDeferred (u.pwr.acts.filter (·.running)) (u.pwr.acts.filter (fun a => !a.running)) = some a →
      exec (.deferredActivityStart dt) s = .next (u.deferStart a)) ∧
    (∀ (k : Nat) (a : Act), u.runningAct k = some a →
      (a.abort = true →
        (k = 1 → exec (.dramRetrainDone dt) s = .next ((u.retrainStop a).actEnd a St.ABORTED) ∧
          ∀ fail : Bool, exec (.dramRetrainStep dt fail) s = .next ((u.retrainStop a).actEnd a St.ABORTED)) ∧
        (k = 2 → ∀ (counts : List Word) (ok : Bool), exec (.laneEyeScanDone dt counts ok) s = .next (u.actEnd a St.ABORTED)) ∧
        (k = 3 → exec (.nvScrubDone dt) s = .next (u.actEnd a St.ABORTED)) ∧
        (k = 4 → exec (.dramScrubDone dt) s = .next (u.actEnd a St.ABORTED))) ∧
      (a.abort = false → u.throttled = false →
        (k = 1 → ∀ fail : Bool, exec (.dramRetrainStep dt fail) s = .next (u.retrainStep fail a)) ∧
        (k = 1 → a.chans = [] → exec (.dramRetrainDone dt) s =
          .next ((u.putTraining.wrF R.DMC_TRAIN_STAT 2 1 1).actEnd a (if a.failed then St.HW_FAULT else St.OK))) ∧
        (k = 2 → ∀ (counts : List Word) (ok : Bool), exec (.laneEyeScanDone dt counts ok) s = .next (u.eyeDone counts ok a)) ∧
        (k = 3 → u.pwr.imgOpen = none → u.nvRange = true → exec (.nvScrubDone dt) s = .next (u.actEnd a St.OK)) ∧
        (k = 4 → a.startAt + u.dramMiB * 0x100000 ≤ u.now → exec (.dramScrubDone dt) s = .next
          (((u.dmc.err.filter (fun e => decide (0x8000000000 ≤ e.1))).foldl (fun s e => s.scrub1 e.1 e.2) u).actEnd a St.OK))))

/-- Power, thermal state and boot (R300, R303, R476 to R490, R492, R516, Tables 19-1 and 19-4). -/
def Obligations.PowerAndBootCommandsComplete : Prop :=
  ∀ (dt : Nat) (s u : State), u = s.tick dt →
    (∀ (t : BitVec 16) (raw : Word), exec (.thmSample dt (some t) raw) s = .next (u.thmValid (sx 16 t.toNat))) ∧
    (∀ raw : Word, exec (.thmSample dt none raw) s = .next (u.thmFail raw)) ∧
    (∀ mv : Fin 4096, exec (.vbakSample dt mv) s = .next (u.bakSample mv)) ∧
    (u.awakeDev = true → exec (.nvHeldWriteFlush dt) s = .next (u.nvFlush.logFlush).copyThermal) ∧
    (∀ t : Nat, u.pwr.p2At = some t →
      (∀ v : State, u.now ≤ t + 10 ^ 9 → v = { u with pwr := { u.pwr with p2Ack := true } } →
        (v.sqStarted = [] → exec (.pmeHandshakeComplete dt) s = .next v.enterP2) ∧
        (v.sqStarted ≠ [] → exec (.pmeHandshakeComplete dt) s = .next v)) ∧
      (t + 10 ^ 9 ≤ u.now → u.pwr.p2Ack = false → exec (.p2HandshakeTimeout dt) s = .next (({ u with
        pwr := { u.pwr with p2At := none }
        lnd := { u.lnd with sqStop := false } } : State).raise 0 0x0E06 St.OK Src.AON 0))) ∧
    (u.pwr.mainGood = true →
      (u.power = 3 → exec (.mainGoodFall dt) s = .next { u with pwr := { u.pwr with mainGood := false } }) ∧
      (u.power ≠ 3 → exec (.mainGoodFall dt) s = .next (u.enterP3 false)) ∧
      exec (.porstNAssert dt) s = .next (u.freezeTakes.deviceReset 5 5 false)) ∧
    (u.pwr.mainGood = false →
      (∀ (t : Nat) (good : Bool), u.pwr.p3At = some t → exec (.retentionArbitration dt good) s = .next (u.retained t good)) ∧
      (u.pwr.bakEx = true → exec (.aonPowerLoss dt) s = .next u.aonDrop)) ∧
    (∀ (train fast : List (Fin 32)) (step : Fin 16) (ready : Bool), u.bootMay = true →
      exec (.bootAttempt dt train fast step ready) s =
        .next (u.bootStep1.spdReady.bootSteps train fast step ready u.pwr.boot.told
          (decide (u.bootStep1.spdReady.pwr.boot.result ≤ 1)))) ∧
    (∀ t : Nat, u.pwr.boot.wait = some t → t + 2 * 10 ^ 9 ≤ u.now → exec (.bootWatchdog dt) s = .next (u.deviceReset 4 1 false)) ∧
    (∀ t : Nat, u.pwr.boot.readyAt = some t → t + 10 ^ 10 ≤ u.now → exec (.bootSuccessTimer dt) s =
      .next ((u.setBoot { u.pwr.boot with readyAt := none, prev := 0 }).setConsecAs 0 0))

/-- The response of a command (R57, Table 2-9): OPCODE, SEQ, CTX and COOKIE echo the request, STATUS and LENGTH are the
answer's, REPLAYED tells a replay, and the reserved bits read 0; the payload follows, the slot is DONE and SLOT_DONE is set (R53). -/
def Obligations.ResponseHasHeader : Prop :=
  ∀ (s t : State) (p : Fin 64) (slot : Fin 16) (st a : Nat) (replayed : Bool) (pay : List Word),
    st < 256 → pay.length ≤ 60 → a = R.MBX p (0x2000 + 0x100 * slot) → t = s.writeResponse slot (s.response p slot st pay) replayed →
    t.fd a 0 16 = fld (s.reqWord p slot 0) 0 16 ∧ t.fd a 16 8 = fld (s.reqWord p slot 0) 16 8 ∧ t.fd a 24 8 = st ∧
    t.fd (a + 4) 0 12 = fld (s.reqWord p slot 1) 0 12 ∧ t.fd (a + 4) 12 4 = 0 ∧ t.fd (a + 4) 16 8 = pay.length ∧
    t.bt (a + 4) 24 = replayed ∧ t.fd (a + 4) 25 7 = 0 ∧ t.rd (a + 8) = s.reqWord p slot 2 ∧ t.rd (a + 12) = w32 s.short ∧
    (∀ i, i < pay.length → t.rd (a + 16 + 4 * i) = pay.getD i 0) ∧ t.slotState p slot = Slot.DONE ∧
    t.bt (R.MBX p 0x14) slot = true

/-- A partition's commit queue never passes 8 commits by an `EPOCH_COMMIT`; one that arrives when the queue is full is answered
QUEUE_FULL, and neither its staging set nor any queue changes (R22). -/
def Obligations.CommitQueueHoldsEight : Prop :=
  ∀ (dt : Nat) (c : Call) (sensor : List SensorWrite) (s u t : State), s.admits 0x0202 dt c = true → u = s.begun dt c →
    exec (.epochCommit dt c sensor) s = .next t →
    (8 ≤ u.depth c.part → t = u.answer c.part c.slot St.QUEUE_FULL [] ∧ t.stageSet c.part = s.stageSet c.part ∧
      t.ep.queue = s.ep.queue) ∧
    (u.depth c.part < 8 → ∀ p, s.depth p ≤ 8 → t.depth p ≤ 8)

/-- `VIOLATION_READ` (R110): the 16 counters and CTX_VIOL_LAST of the named partition; only part 0 names another one or sets
CLEAR, which zeroes the counters just read. -/
def Obligations.ViolationReadAnswers : Prop :=
  ∀ (dt : Nat) (c : Call) (s u v : State) (r : Req) (p : Nat), s.admits 0x0306 dt c = true → u = s.begun dt c → r = s.asked dt c →
    p = r.f 0 0 6 → v = (if bit (r.w 0) 6 then u.regClear (R.CTX_VIOL_CNT p 0) (R.CTX_VIOL_CNT (p + 1) 0) else u) →
    ((c.part = 0 ∨ (p = c.part ∧ bit (r.w 0) 6 = false)) →
      exec (.violationRead dt c) s = .next (v.okay c ((List.range 16).map (fun k => u.rd (R.CTX_VIOL_CNT p k)) ++
        (List.range 4).map (fun k => u.rd (R.CTX_VIOL_LAST p k))))) ∧
    (bit (r.w 0) 6 = true → ∀ k : Fin 16, v.rd (R.CTX_VIOL_CNT p k) = 0) ∧
    (c.part ≠ 0 → (p ≠ c.part ∨ bit (r.w 0) 6 = true) →
      exec (.violationRead dt c) s = .next (u.answer c.part c.slot St.NOT_PERMITTED []))

/-- `TAKE_DELETE` (R297) of a HOLDING slot of the caller: its directory entry is written over with zeros, its store is no longer
allocated and the slot is IDLE; while a `TAKE_READ` of it is in progress the answer is STATE_CONFLICT and nothing changes. -/
def Obligations.TakeDeleteFreesSlot : Prop :=
  ∀ (dt : Nat) (c : Call) (s u v : State) (k : Nat), s.admits 0x0508 dt c = true → u = s.begun dt c →
    k = (s.asked dt c).f 0 0 4 → u.slotOwner k = c.part → u.slotSt k = 5 →
    ((u.slot k).reads = [] → v = (u.nvUpdate { a0 := (dirAddr k).1, a1 := (dirAddr k).2, seqOff := 0x5C, body := List.replicate 124 0 }).toIdle k →
      exec (.takeDelete dt c) s = .next (v.okay c []) ∧ v.slotSt k = 1 ∧ ∀ x ∈ v.allocs, x.slot ≠ some k) ∧
    ((u.slot k).reads ≠ [] → exec (.takeDelete dt c) s = .next (u.answer c.part c.slot St.STATE_CONFLICT []))

/-- `POWER_STATE` for P2 or P3 while some slot is ARMED (2) or RECORDING (3) is answered REFUSED_ARMED (R304); the part is in P0
or P1 (Table 1-3). -/
def Obligations.PowerDownRefusedWhileArmed : Prop :=
  ∀ (dt : Nat) (c : Call) (s u : State) (k : Fin 16), s.admits 0x0E01 dt c = true → u = s.begun dt c →
    (u.slotSt k = 2 ∨ u.slotSt k = 3) → u.power < 2 → ((s.asked dt c).f 0 0 2 = 2 ∨ (s.asked dt c).f 0 0 2 = 3) →
    exec (.powerState dt c) s = .next ((u.answer c.part c.slot St.REFUSED_ARMED []).p3Due)

/-- WRITE and ATOMIC_WRITE issued outside the NV write range end with NV_TEMP_RANGE at once and leave NV memory, the records held
for it, DRAM and scratchpad as they were (R310). -/
def Obligations.StorageWritesKeepNvOutsideRange : Prop :=
  ∀ (dt : Nat) (qid : Fin 32) (data : Option (List Byte)) (s u : State) (x : SqQueue) (cmd : SqCmd), u = s.tick dt →
    u.nvRange = false →
    (u.sqNext qid 2 = some (x, cmd) → exec (.sqWrite dt qid data) s = .next (u.sqEnd qid cmd St.NV_TEMP_RANGE 0)) ∧
    (u.sqNext qid 3 = some (x, cmd) → exec (.sqAtomicWrite dt qid data) s = .next (u.sqEnd qid cmd St.NV_TEMP_RANGE 0)) ∧
    (u.sqEnd qid cmd St.NV_TEMP_RANGE 0).nv = s.nv ∧ (u.sqEnd qid cmd St.NV_TEMP_RANGE 0).nvHeld = s.nvHeld ∧
    (u.sqEnd qid cmd St.NV_TEMP_RANGE 0).mem = s.mem

/-- `BACKUP_STATUS` returns AON_BAK_STAT and AON_HOLD_TIME (R481), `BOOT_INFO` returns AON_BOOT_STAT in word 0 and AON_BOOT_COUNT
in word 1 (R502), each pair as it stands in one state. -/
def Obligations.BackupStatusAndBootInfo : Prop :=
  ∀ (dt : Nat) (c : Call) (s u : State), u = s.begun dt c →
    (s.admits 0x0E04 dt c = true →
      exec (.backupStatus dt c) s = .next (u.okay c [u.rd R.AON_BAK_STAT, u.rd R.AON_HOLD_TIME])) ∧
    (s.admits 0x0E05 dt c = true →
      exec (.bootInfo dt c) s = .next (u.okay c [u.rd R.AON_BOOT_STAT, u.rd R.AON_BOOT_COUNT]))

/-- An access at an address of no window, nor of DRAM or scratchpad, is suppressed (R8): a read returns 0, a write stores nothing,
the violation counter of the issuing partition goes up and saturates (R108), and no memory, message or event results. `readAt`
and `writeAt` are the accesses of `REG_READ`, `REG_WRITE` and BAR2. -/
def Obligations.UnmappedAccessIsSuppressed : Prop :=
  ∀ (s t : State) (p ctx a more : Nat) (v : Word),
    (((a / 0x1000000 ∉ ([0x10, 0x11, 0x12, 0x20, 0x21, 0x22, 0x23, 0x24, 0x25, 0x26, 0x27, 0x28, 0x29, 0x2A, 0x2B, 0x2C,
      0x30, 0x31, 0x32, 0x3F].map (· * 0x100)) ∧ a < 0x4000000000) ∨ (0x4002000000 ≤ a ∧ a < 0x8000000000) ∨
      (0x8000000000 ≤ a ∧ s.dramEnd ≤ a)) → s.where_ a = .nowhere) ∧
    (s.where_ a = .nowhere → t = s.viol p Viol.noWindow ctx a →
      s.readAt p ctx a = (0, false, t) ∧ s.writeAt p ctx a v more = t ∧ t = ({ s with regs := t.regs } : State) ∧
      t.rd (R.CTX_VIOL_CNT p Viol.noWindow) =
        w32 (min 0xFFFFFFFF ((s.rd (R.CTX_VIOL_CNT p Viol.noWindow)).toNat + 1)) ∧
      (∀ b, b ≠ R.CTX_VIOL_CNT p Viol.noWindow → (∀ j : Fin 4, b ≠ R.CTX_VIOL_LAST p j) → t.rd b = s.rd b))

/-- Writing 1 to a pending bit clears it, writing 0 has no effect; where an event of the same cycle set it, the bit stays 1 and a
message follows unless that event sent it (R88). No other context's queue is touched. -/
def Obligations.PendingBitClears : Prop :=
  ∀ (s t : State) (p c : Nat), s.owns p c = true → t = s.pendClear p c →
    ((s.evq c).pend = true → (s.evq c).lastEv = some s.now →
      (t.evq c).pend = true ∧ ((s.evq c).lastMsg ≠ some s.now → t = s.ctxMessage c)) ∧
    (((s.evq c).pend = false ∨ (s.evq c).lastEv ≠ some s.now) → (t.evq c).pend = false) ∧
    (∀ d, d ≠ c → t.evq d = s.evq d) ∧
    (∀ (dt : Nat) (fn : Fin 64) (word : Fin 128), (s.tick dt).linkAlive = true →
      exec (.pendingBitmapClear dt fn word 0) s = .next (s.tick dt))

/-- A frame boundary (R14, R26): the device frame number goes up by one; where no commit activates the epoch continues, where some
do they form one new epoch, whose first frame is that boundary's. -/
def Obligations.BoundaryFormsEpoch : Prop :=
  ∀ (s v t : State) (synth : Bool) (flags : Nat) (cs kept : List Commit), v = s.count synth →
    v.takeCommits v.ep.frame v.banksFull [] [] (heads v.ep.queue) = (cs, kept) → s.boundary synth id = (flags, t) →
    t.ep.frame = (s.ep.frame + 1) % 2 ^ 40 ∧
    (cs = [] → t.ep.epoch = s.ep.epoch ∧ t.ep.first = s.ep.first ∧ flags = 0) ∧
    (cs ≠ [] → t.ep.epoch = epochSucc s.ep.epoch ∧ t.ep.first = t.ep.frame ∧ Fl.EPOCH_NEW ≤ flags)

/-- Words leave a chute only by CHUTE_READ, of that chute, or when the whole part is reset, which empties every chute (R343). -/
def Obligations.ChutesLoseWordsOnlyByReads : Prop :=
  ∀ (c : Instr) (s t : State) (n : Nat), exec c s = .next t →
    ((∀ (dt : Nat) (k : Fin 128), c ≠ .chuteRead dt k) → movesEpoch c = false →
      (s.chute n).words.length ≤ (t.chute n).words.length) ∧
    (∀ (dt : Nat) (k : Fin 128), c = .chuteRead dt k → n ≠ k → t.chute n = s.chute n) ∧
    (∀ (level : Nat) (aon : Bool), (s.wipe level aon).chutes = [])

/-- What an answer leaves alone: it writes the response area, slot state and interrupt status of its own function, the retry
cache and the trace, and nothing else; the other slots of the function keep their state, requests and responses. -/
def Obligations.AnswerFrame : Prop :=
  ∀ (s t : State) (p : Fin 64) (slot : Fin 16) (st : Nat) (pay : List Word), pay.length ≤ 60 → t = s.answer p slot st pay →
    t = ({ s with regs := t.regs, mbx := t.mbx, out := t.out } : State) ∧
    t.mbx.posted = s.mbx.posted ∧ t.mbx.waits = s.mbx.waits ∧
    (∀ a, (a < R.MBX p 0 ∨ R.MBX (p + 1) 0 ≤ a) → t.rd a = s.rd a) ∧
    (∀ q : Fin 16, q ≠ slot → t.slotState p q = s.slotState p q ∧
      ∀ i, i < 64 → t.reqWord p q i = s.reqWord p q i ∧
        t.rd (R.MBX p (0x2000 + 0x100 * q + 4 * i)) = s.rd (R.MBX p (0x2000 + 0x100 * q + 4 * i)))

/-- The frame of the commands that only report: served, each leaves the whole state as its time left it but for its own answer,
and no register outside the mailbox window of the caller's function changes. The bound on the activities is one that R505
keeps. -/
def Obligations.ReportsChangeNothing : Prop :=
  ∀ (dt code : Nat) (c : Call) (qid : Fin 32) (s t : State) (i : Instr), (i, code) ∈ [
      (.nop dt c, 0x0100), (.sysInfo dt c, 0x0101), (.epochStatus dt c, 0x0206), (.linkStatus dt c, 0x0403),
      (.landingStatus dt c, 0x050A), (.pipeStatus dt c, 0x0603), (.monStatus dt c, 0x0804), (.timeRead dt c, 0x0901),
      (.ptpStatus dt c, 0x0907), (.audStatus dt c, 0x0A05), (.sqStatus dt c qid, 0x0B04), (.maintStatus dt c, 0x0C02),
      (.nvImageStatus dt c, 0x0D04), (.thermalRead dt c, 0x0E02), (.backupStatus dt c, 0x0E04), (.bootInfo dt c, 0x0E05)] →
    s.admits code dt c = true → s.pwr.acts.length ≤ 60 → exec i s = .next t →
    t = ({ s.tick dt with regs := t.regs, mbx := t.mbx, out := t.out } : State) ∧
    ∀ a, (a < R.MBX c.part 0 ∨ R.MBX (c.part + 1) 0 ≤ a) → t.rd a = s.rd a

/-- The frame of commands that change a few registers: under the condition that stands with the command (none for most), every
register but those listed with it reads as before. A lane that gives up outside a retraining reports a fault, and a packet into
which errors are injected is read as another: those two cases are what the conditions leave to the statements of lanes and packets. -/
def Obligations.OnlyListedRegistersChange : Prop :=
  ∀ (dt size : Nat) (fn : Fin 64) (slot : Fin 16) (word lane bank : Fin 64) (w crc : Word) (off : BitVec 16) (wr busy poi : Bool) (g : Fin 48)
    (hdr : BitVec 128) (bs : List Byte) (rx : List Bool) (port : Fin 2) (ch : Fin 128) (kind : Fin 3) (x : BitVec 64) (i : Instr) (l : List Nat)
    (s t : State) (c clean again : Bool), clean = s.dmc.inj.all (fun j => decide (2 ≤ j.kind)) →
    again = decide (tabGet (fun _ => 0) s.lnk.wasLane lane ≠ 0) → (i, c, l) ∈ [
      (.requestAreaWrite dt fn slot word w, true, [R.MBX fn (0x1000 + 0x100 * slot + 4 * word), R.MBX fn 0x1C]),
      (.mbxSlotAck dt fn w, true, [R.MBX fn 0x0C]), (.mbxIntStat dt fn w, true, [R.MBX fn 0x14]),
      (.bar0ReservedAccess dt fn off wr, true, R.MBX fn 0x1C :: R.CTX_VIOL_CNT fn 3 :: (List.range 4).map (R.CTX_VIOL_LAST fn)),
      (.laneCdrLock dt lane, true, [R.LNA_LANE_STAT lane]), (.laneCdrTimeout dt lane, again, []),
      (.laneBlockLock dt lane, true, [R.LNA_LANE_STAT lane]), (.laneAlignTimeout dt lane, again, [R.LNA_LANE_STAT lane]),
      (.prbsCheckerLock dt { lane := lane, bits := rx }, true,
        [R.LNA_PRBS_CTRL lane, R.LNA_PRBS_ERR lane, R.LNA_PRBS_BITS_LO lane, R.LNA_PRBS_BITS_HI lane]),
      (.pixelPacket dt g hdr bs crc, clean, [R.SLK_HCRC_ERR, R.SLK_PCRC_ERR, R.SLK_PKT_DROP]),
      (.embedPacket dt g hdr bs crc, clean, [R.SLK_HCRC_ERR, R.SLK_PCRC_ERR, R.SLK_EMBED_DROP]),
      (.nullPacket dt g hdr, clean, [R.SLK_HCRC_ERR]),
      (.chuteWrite dt ch kind x poi, true, [R.CHT_ERR ch]), (.spdHandoverComplete dt bank, true, [R.SPD_BANK_OWN bank]),
      (.timecodeFrameStart dt, true, [R.TIM_TC_BASE_NS, R.TIM_TC_BASE_SEC_LO, R.TIM_TC_BASE_SEC_HI]),
      (.ethFrameReceived dt port bs size busy, true, [R.TIM_PORT_CNT (1 - port)])] →
    c = true → exec i s = .next t → ∀ a, a ∉ l → t.rd a = s.rd a

/-- What stores change: a `MEM_WRITE` within the caller's allocations changes the bytes it names, in order, and no others; one that
reaches elsewhere, or of length 0, changes none; a register-path write to DRAM or scratchpad that may go there changes 4 bytes,
little-endian; a handover with SCRUB zeroes its bank (R319, R334, R335). -/
def Obligations.StoresChangeOnlyTheirBytes : Prop :=
  ∀ (dt k : Nat) (s t : State),
    (∀ (c : Call) (addr : BitVec 40) (u : State) (r : Req), s.admits 0x0108 dt c = true → u = s.begun dt c → r = s.asked dt c →
      exec (.memWrite dt c addr) s = .next t →
      ((r.inLen ≠ 0 ∧ u.memBad c.part addr.toNat r.inLen = none) →
        t.byte k = if addr.toNat ≤ k ∧ k < addr.toNat + r.input.length then r.input.getD (k - addr.toNat) 0 else s.byte k) ∧
      ((r.inLen = 0 ∨ u.memBad c.part addr.toNat r.inLen ≠ none) → t.byte k = s.byte k)) ∧
    (∀ (p ctx a more : Nat) (v : Word), t = s.writeAt p ctx a v more →
      ((s.where_ a = .spd ∧ s.spdMay p a = true) ∨ (s.where_ a = .dram ∧ a < s.fwBase ∧ s.inPart p a 4 = true)) →
      t.byte k = if a ≤ k ∧ k < a + 4 then (leBytes 4 v.toNat).getD (k - a) 0 else s.byte k) ∧
    (∀ bank : Fin 64, s.fd (R.SPD_BANK_OWN bank) 8 2 = 1 → exec (.spdHandoverComplete dt bank) s = .next t →
      t.byte k = if s.bt (R.SPD_BANK_OWN bank) 6 = true ∧ 0x4000000000 + 0x80000 * bank ≤ k ∧ k < 0x4000000000 + 0x80000 * (bank + 1)
        then 0 else s.byte k)
end

