-- ==== Sys2Proof/Laws/Bits.lean ====
section
/-!
SUPPORT. Fields of words: what a field of a written word reads.
-/

set_option Elab.async false

namespace Sys2Proof.Laws

open Sys2Proof.Machine

theorem fld_lt (w : Word) (lo k : Nat) : fld w lo k < 2 ^ k := by
  unfold fld
  exact Nat.mod_lt _ (by positivity)

theorem fld_w32 {n lo k : Nat} (h : n < 2 ^ 32) : fld (w32 n) lo k = n / 2 ^ lo % 2 ^ k := by
  unfold fld w32
  rw [BitVec.toNat_ofNat, Nat.mod_eq_of_lt h]

@[simp] theorem w32_toNat (w : Word) : w32 w.toNat = w := by
  unfold w32
  simp

/-- The number that `setFld` writes fits a word. -/
theorem setFld_toNat (w : Word) {lo k : Nat} (v : Nat) (h : lo + k ≤ 32) :
    (setFld w lo k v).toNat = w.toNat / 2 ^ (lo + k) * 2 ^ (lo + k) + v % 2 ^ k * 2 ^ lo + w.toNat % 2 ^ lo := by
  unfold setFld
  have hw := w.isLt
  have hv : v % 2 ^ k < 2 ^ k := Nat.mod_lt _ (by positivity)
  have hr : w.toNat % 2 ^ lo < 2 ^ lo := Nat.mod_lt _ (by positivity)
  rw [BitVec.toNat_ofNat]
  apply Nat.mod_eq_of_lt
  generalize v % 2 ^ k = x at hv
  have e : (2 : Nat) ^ 32 = 2 ^ (32 - (lo + k)) * 2 ^ (lo + k) := by rw [← pow_add]; congr 1; omega
  have hq : w.toNat / 2 ^ (lo + k) + 1 ≤ 2 ^ (32 - (lo + k)) := by
    rw [Nat.succ_le_iff, Nat.div_lt_iff_lt_mul (by positivity), ← e]
    exact hw
  have h1 : x * 2 ^ lo + 2 ^ lo ≤ 2 ^ (lo + k) := by
    rw [pow_add, mul_comm (2 ^ lo), ← Nat.succ_mul]
    exact Nat.mul_le_mul_right _ hv
  calc w.toNat / 2 ^ (lo + k) * 2 ^ (lo + k) + x * 2 ^ lo + w.toNat % 2 ^ lo
      < w.toNat / 2 ^ (lo + k) * 2 ^ (lo + k) + 2 ^ (lo + k) := by omega
    _ = (w.toNat / 2 ^ (lo + k) + 1) * 2 ^ (lo + k) := by rw [Nat.succ_mul]
    _ ≤ 2 ^ (32 - (lo + k)) * 2 ^ (lo + k) := Nat.mul_le_mul_right _ hq
    _ = 2 ^ 32 := e.symm

/-- A field reads back what was written. -/
theorem fld_setFld_self (w : Word) {lo k : Nat} (v : Nat) (h : lo + k ≤ 32) : fld (setFld w lo k v) lo k = v % 2 ^ k := by
  unfold fld
  rw [setFld_toNat w v h]
  have hr : w.toNat % 2 ^ lo < 2 ^ lo := Nat.mod_lt _ (by positivity)
  have e : w.toNat / 2 ^ (lo + k) * 2 ^ (lo + k) + v % 2 ^ k * 2 ^ lo + w.toNat % 2 ^ lo =
      w.toNat % 2 ^ lo + (v % 2 ^ k + 2 ^ k * (w.toNat / 2 ^ (lo + k))) * 2 ^ lo := by rw [pow_add]; ring
  rw [e, Nat.add_mul_div_right _ _ (by positivity), Nat.div_eq_of_lt hr, Nat.zero_add, Nat.add_mul_mod_self_left, Nat.mod_mod]

/-- A field beside the one written reads as before. -/
theorem fld_setFld_ne (w : Word) {lo k lo' k' : Nat} (v : Nat) (h : lo + k ≤ 32) (hd : lo' + k' ≤ lo ∨ lo + k ≤ lo') :
    fld (setFld w lo k v) lo' k' = fld w lo' k' := by
  unfold fld
  rw [setFld_toNat w v h]
  have hv : v % 2 ^ k < 2 ^ k := Nat.mod_lt _ (by positivity)
  have hr : w.toNat % 2 ^ lo < 2 ^ lo := Nat.mod_lt _ (by positivity)
  generalize v % 2 ^ k = x at hv
  have ew : w.toNat = w.toNat / 2 ^ (lo + k) * 2 ^ (lo + k) + w.toNat / 2 ^ lo % 2 ^ k * 2 ^ lo + w.toNat % 2 ^ lo := by
    conv_lhs => rw [← Nat.div_add_mod w.toNat (2 ^ lo), ← Nat.div_add_mod (w.toNat / 2 ^ lo) (2 ^ k), Nat.div_div_eq_div_mul, ← pow_add]
    rw [pow_add]
    ring
  have hy : w.toNat / 2 ^ lo % 2 ^ k < 2 ^ k := Nat.mod_lt _ (by positivity)
  conv_rhs => rw [ew]
  generalize w.toNat / 2 ^ lo % 2 ^ k = y at hy
  generalize w.toNat / 2 ^ (lo + k) = q
  generalize w.toNat % 2 ^ lo = r at hr
  rcases hd with hd | hd
  · obtain ⟨d, rfl⟩ := Nat.exists_eq_add_of_le hd
    have e : ∀ z : Nat, q * 2 ^ (lo' + k' + d + k) + z * 2 ^ (lo' + k' + d) + r =
        r + (q * 2 ^ (d + k) + z * 2 ^ d) * 2 ^ k' * 2 ^ lo' := by intro z; ring
    rw [e, e, Nat.add_mul_div_right _ _ (by positivity), Nat.add_mul_div_right _ _ (by positivity), Nat.add_mul_mod_self_right,
      Nat.add_mul_mod_self_right]
  · obtain ⟨d, rfl⟩ := Nat.exists_eq_add_of_le hd
    have e : ∀ z : Nat, z < 2 ^ k → (q * 2 ^ (lo + k) + z * 2 ^ lo + r) / 2 ^ (lo + k + d) = q / 2 ^ d := by
      intro z hz
      rw [pow_add 2 (lo + k) d, ← Nat.div_div_eq_div_mul]
      congr 1
      have hs : z * 2 ^ lo + r < 2 ^ (lo + k) := by
        rw [pow_add, mul_comm (2 ^ lo)]
        calc z * 2 ^ lo + r < z * 2 ^ lo + 2 ^ lo := by omega
          _ = (z + 1) * 2 ^ lo := by ring
          _ ≤ 2 ^ k * 2 ^ lo := Nat.mul_le_mul_right _ hz
      rw [Nat.add_assoc, Nat.mul_comm q, Nat.mul_add_div (by positivity), Nat.div_eq_of_lt hs, Nat.add_zero]
    rw [e x hv, e y hy]

/-- A bit as Lean's own test of it. -/
theorem bit_testBit (w : Word) (i : Nat) : bit w i = w.toNat.testBit i := by
  unfold bit
  rw [Nat.testBit_eq_decide_div_mod_eq]

@[simp] theorem bit_or (x y : Word) (i : Nat) : bit (x ||| y) i = (bit x i || bit y i) := by
  simp [bit_testBit]

/-- A single bit, set. -/
theorem bit_pow {i : Nat} (h : i < 32) : bit (w32 (2 ^ i)) i = true := by
  rw [bit_testBit, w32, BitVec.toNat_ofNat, Nat.mod_eq_of_lt (Nat.pow_lt_pow_right (by omega) h), Nat.testBit_two_pow_self]

end Sys2Proof.Laws
end

