-- ==== Sys2Proof/Laws/Tab.lean ====
section
/-!
SUPPORT. What a sparse table does: read after write, and every operation keeps the canonical form.
-/

set_option Elab.async false

namespace Sys2Proof.Laws

open Sys2Proof.Machine

variable {α : Type}

theorem tabGet_filter_self (d : Nat → α) (t : Tab α) (k : Nat) :
    tabGet d (t.filter (fun e => e.1 ≠ k)) k = d k := by
  induction t with
  | nil => rfl
  | cons e r ih =>
    obtain ⟨a, x⟩ := e
    by_cases h : a = k
    · simpa [List.filter_cons, h] using ih
    · simpa [List.filter_cons, h, tabGet] using ih

theorem tabGet_filter_ne (d : Nat → α) (t : Tab α) (k j : Nat) (h : j ≠ k) :
    tabGet d (t.filter (fun e => e.1 ≠ k)) j = tabGet d t j := by
  induction t with
  | nil => rfl
  | cons e r ih =>
    obtain ⟨a, x⟩ := e
    by_cases hk : a = k
    · have : a ≠ j := by omega
      simpa [List.filter_cons, hk, tabGet, h.symm, this] using ih
    · simp only [List.filter_cons, ne_eq, hk, not_false_eq_true, decide_true, if_true, tabGet]
      split
      · rfl
      · simpa using ih

variable [DecidableEq α]

/-- Reading what was just written gives the value written. -/
@[simp] theorem tabGet_tabSet_self (d : Nat → α) (t : Tab α) (k : Nat) (v : α) :
    tabGet d (tabSet d t k v) k = v := by
  induction t with
  | nil => by_cases h : v = d k <;> simp [tabSet, tabGet, h]
  | cons e r ih =>
    obtain ⟨a, x⟩ := e
    by_cases hk : a = k
    · by_cases h : v = d k
      · subst hk
        rw [tabSet, if_pos rfl, if_pos h, tabGet_filter_self, h]
      · simp [tabSet, hk, h, tabGet]
    · by_cases hlt : k < a
      · by_cases h : v = d k
        · rw [tabSet, if_neg hk, if_pos hlt, if_pos h, tabGet, if_neg hk, tabGet_filter_self, h]
        · simp [tabSet, hk, hlt, h, tabGet]
      · rw [tabSet, if_neg hk, if_neg hlt, tabGet, if_neg hk, ih]

/-- A write leaves every other key alone. -/
theorem tabGet_tabSet_ne (d : Nat → α) (t : Tab α) (k j : Nat) (v : α) (hj : j ≠ k) :
    tabGet d (tabSet d t k v) j = tabGet d t j := by
  induction t with
  | nil =>
    by_cases h : v = d k
    · simp [tabSet, h]
    · simp [tabSet, h, tabGet, hj.symm]
  | cons e r ih =>
    obtain ⟨a, x⟩ := e
    by_cases hk : a = k
    · subst hk
      by_cases h : v = d a
      · rw [tabSet, if_pos rfl, if_pos h, tabGet_filter_ne d r a j hj, tabGet, if_neg (Ne.symm hj)]
      · rw [tabSet, if_pos rfl, if_neg h, tabGet, tabGet, if_neg (Ne.symm hj)]
        simp [Ne.symm hj]
    · by_cases hlt : k < a
      · by_cases h : v = d k
        · rw [tabSet, if_neg hk, if_pos hlt, if_pos h, tabGet, tabGet, tabGet_filter_ne d r k j hj]
        · rw [tabSet, if_neg hk, if_pos hlt, if_neg h, tabGet, if_neg (Ne.symm hj)]
      · rw [tabSet, if_neg hk, if_neg hlt, tabGet, tabGet, ih]

theorem tabWfFrom_mono (d : Nat → α) (t : Tab α) (lo lo' : Nat) (h : lo' ≤ lo) (hw : tabWfFrom d lo t = true) :
    tabWfFrom d lo' t = true := by
  cases t with
  | nil => rfl
  | cons e r =>
    obtain ⟨a, x⟩ := e
    simp only [tabWfFrom, Bool.and_eq_true, decide_eq_true_eq] at hw ⊢
    exact ⟨⟨by omega, hw.1.2⟩, hw.2⟩

/-- Dropping entries keeps the canonical form. -/
theorem tabWfFrom_filter (d : Nat → α) (p : Nat × α → Bool) (t : Tab α) (lo : Nat) (hw : tabWfFrom d lo t = true) :
    tabWfFrom d lo (t.filter p) = true := by
  induction t generalizing lo with
  | nil => rfl
  | cons e r ih =>
    obtain ⟨a, x⟩ := e
    simp only [tabWfFrom, Bool.and_eq_true, decide_eq_true_eq] at hw
    by_cases hp : p (a, x)
    · simp only [List.filter_cons, hp, if_true, tabWfFrom, Bool.and_eq_true, decide_eq_true_eq]
      exact ⟨hw.1, ih (a + 1) hw.2⟩
    · simp only [List.filter_cons, hp]
      exact tabWfFrom_mono d _ (a + 1) lo (by omega) (ih (a + 1) hw.2)

theorem tabWfFrom_set (d : Nat → α) (t : Tab α) (lo k : Nat) (v : α) (hk : lo ≤ k) (hw : tabWfFrom d lo t = true) :
    tabWfFrom d lo (tabSet d t k v) = true := by
  induction t generalizing lo with
  | nil =>
    by_cases h : v = d k <;> simp [tabSet, h, tabWfFrom, hk]
  | cons e r ih =>
    obtain ⟨a, x⟩ := e
    have hw' := hw
    simp only [tabWfFrom, Bool.and_eq_true, decide_eq_true_eq] at hw
    by_cases ha : a = k
    · subst ha
      by_cases h : v = d a
      · rw [tabSet, if_pos rfl, if_pos h]
        exact tabWfFrom_mono d _ (a + 1) lo (by omega) (tabWfFrom_filter d _ r (a + 1) hw.2)
      · simp only [tabSet, if_true, h, if_false, tabWfFrom, Bool.and_eq_true, decide_eq_true_eq]
        exact ⟨⟨hk, h⟩, hw.2⟩
    · by_cases hlt : k < a
      · by_cases h : v = d k
        · rw [tabSet, if_neg ha, if_pos hlt, if_pos h, tabWfFrom]
          simp only [Bool.and_eq_true, decide_eq_true_eq]
          exact ⟨hw.1, tabWfFrom_filter d _ r (a + 1) hw.2⟩
        · simp only [tabSet, ha, hlt, h, if_true, if_false, tabWfFrom, Bool.and_eq_true, decide_eq_true_eq]
          exact ⟨⟨hk, h⟩, ⟨by omega, hw.1.2⟩, hw.2⟩
      · simp only [tabSet, ha, hlt, if_false, tabWfFrom, Bool.and_eq_true, decide_eq_true_eq]
        exact ⟨hw.1, ih (a + 1) (by omega) hw.2⟩

/-- A write keeps the canonical form. -/
theorem tabWf_set (d : Nat → α) (t : Tab α) (k : Nat) (v : α) (hw : tabWf d t = true) :
    tabWf d (tabSet d t k v) = true := tabWfFrom_set d t 0 k v (by omega) hw

/-- A run of writes keeps the canonical form. -/
theorem tabWf_sets (d : Nat → α) (t : Tab α) (k : Nat) (vs : List α) (hw : tabWf d t = true) :
    tabWf d (tabSets d t k vs) = true := by
  induction vs generalizing t k with
  | nil => exact hw
  | cons v r ih => exact ih _ _ (tabWf_set d t k v hw)

/-- Clearing a range keeps the canonical form. -/
theorem tabWf_clear (d : Nat → α) (t : Tab α) (lo hi : Nat) (hw : tabWf d t = true) :
    tabWf d (tabClear t lo hi) = true := tabWfFrom_filter d _ t 0 hw

omit [DecidableEq α] in
theorem tabGet_filter (d : Nat → α) (f : Nat × α → Bool) (t : Tab α) (k : Nat) (h : ∀ v, f (k, v) = true) :
    tabGet d (t.filter f) k = tabGet d t k := by
  induction t with
  | nil => rfl
  | cons e t ih =>
    obtain ⟨a, v⟩ := e
    by_cases hk : a = k
    · subst hk
      rw [List.filter_cons_of_pos (h v)]
      simp [tabGet]
    · by_cases hf : f (a, v) = true
      · rw [List.filter_cons_of_pos hf]
        simp only [tabGet, hk, if_false]
        exact ih
      · rw [List.filter_cons_of_neg hf]
        simp only [tabGet, hk, if_false]
        exact ih

omit [DecidableEq α] in
theorem tabGet_filter_out (d : Nat → α) (f : Nat × α → Bool) (t : Tab α) (k : Nat) (h : ∀ v, f (k, v) = false) :
    tabGet d (t.filter f) k = d k := by
  induction t with
  | nil => rfl
  | cons e t ih =>
    obtain ⟨a, v⟩ := e
    by_cases hk : a = k
    · subst hk
      rw [List.filter_cons_of_neg (by rw [h v]; exact Bool.noConfusion)]
      exact ih
    · by_cases hf : f (a, v) = true
      · rw [List.filter_cons_of_pos hf]
        simp only [tabGet, hk, if_false]
        exact ih
      · rw [List.filter_cons_of_neg hf]
        exact ih

end Sys2Proof.Laws
end

