-- ==== Sys2Proof/Laws/Chutes.lean ====
section
/-!
SUPPORT. Chutes: what a write of one leaves, in it and in the others.
-/

set_option Elab.async false

namespace Sys2Proof.Laws

open Sys2Proof.Machine

/-- An entry that does not shrink, in a table of chutes. -/
theorem upd_words (t : Tab Chute) (n k : Nat) (c : Chute) (h : (tabGet (fun _ => {}) t n).words.length ≤ c.words.length) :
    (tabGet (fun _ => {}) t k).words.length ≤ (tabGet (fun _ => {}) (tabSet (fun _ => ({} : Chute)) t n c) k).words.length := by
  by_cases hk : k = n
  · subst hk; rw [tabGet_tabSet_self]; exact h
  · rw [tabGet_tabSet_ne _ _ _ _ _ hk]

/-- A chute reads back; the others stay. -/
theorem chute_setChute (s : State) (n k : Nat) (c : Chute) : (s.setChute n c).chute k = if k = n then c else s.chute k := by
  unfold State.chute State.setChute; dsimp only
  by_cases h : k = n
  · subst h; rw [if_pos rfl]; exact tabGet_tabSet_self _ _ _ _
  · rw [if_neg h]; exact tabGet_tabSet_ne _ _ _ _ _ h

/-- A chute replaced by one no shorter. -/
theorem len_setChute (s : State) (n k : Nat) (c : Chute) (h : (s.chute n).words.length ≤ c.words.length) :
    (s.chute k).words.length ≤ ((s.setChute n c).chute k).words.length := by
  rw [chute_setChute]; split
  · rename_i e; rw [e]; exact h
  · exact le_refl _

/-- Closing a packet keeps the number of words. -/
theorem close_len (c : Chute) (l : Nat) (p : Bool) (n : Nat) : (c.close l p n).words.length = c.words.length := by
  unfold Chute.close; split
  · rfl
  · simp

/-- A word pushed does not shorten a chute. -/
theorem push_len (s : State) (n k : Nat) (c : Chute) (h : (s.chute n).words.length ≤ c.words.length) :
    (s.chute k).words.length ≤ ((s.chutePush n c).chute k).words.length := by
  unfold State.chutePush; dsimp only
  have h1 := len_setChute s n k c h
  split
  · split
    · refine le_trans h1 (len_setChute (s.setChute n c) n k _ ?_)
      rw [chute_setChute, if_pos rfl]
      exact le_of_eq (close_len _ _ _ _).symm
    · exact h1
  · exact h1

/-- A word pushed touches no other chute. -/
theorem push_ne (s : State) (n k : Nat) (c : Chute) (h : k ≠ n) : (s.chutePush n c).chute k = s.chute k := by
  unfold State.chutePush; dsimp only
  have hs : ∀ (u : State) x, (u.setChute n x).chute k = u.chute k := fun u x => by rw [chute_setChute, if_neg h]
  have hbump : ∀ (u : State) a lo m q, (u.bump a lo m q).chute k = u.chute k := fun _ _ _ _ _ => rfl
  split
  · split
    · rw [hbump, hs, hs]
    · rw [hs]
  · rw [hs]

/-- Injections used leave the chutes. -/
theorem inj_chute (s : State) (n : Nat) (b1 b2 : Bool) (j : Nat) :
    ((if b2 then (if b1 then s.useInj 0x20 n else s).useInj 0x21 n else (if b1 then s.useInj 0x20 n else s)).chute j) = s.chute j := by
  cases b1 <;> cases b2 <;> rfl

/-- A write does not shorten a chute. -/
theorem put_len (s : State) (n k kind : Nat) (w : ChuteWord) : (s.chute k).words.length ≤ ((s.chutePut n kind w).chute k).words.length := by
  unfold State.chutePut; dsimp only
  split
  · split
    · exact len_setChute _ _ _ _ (le_refl _)
    · exact le_refl _
  · split
    · exact len_setChute _ _ _ _ (by rw [close_len])
    · refine le_trans (le_of_eq (congrArg (fun c : Chute => c.words.length) (inj_chute s n _ _ k).symm)) (push_len _ n k _ ?_)
      rw [inj_chute]; simp

/-- A write touches no other chute. -/
theorem put_ne (s : State) (n k kind : Nat) (w : ChuteWord) (h : k ≠ n) : (s.chutePut n kind w).chute k = s.chute k := by
  unfold State.chutePut; dsimp only
  have hs : ∀ (u : State) x, (u.setChute n x).chute k = u.chute k := fun u x => by rw [chute_setChute, if_neg h]
  split
  · split
    · rw [hs]
    · rfl
  · split
    · rw [hs]
    · rw [push_ne _ _ _ _ h, inj_chute]

/-- Held words go to their own chute only. -/
theorem offer_ne (s : State) (n k f : Nat) (h : k ≠ n) : (s.chuteOffer n f).chute k = s.chute k := by
  induction f generalizing s with
  | zero => rfl
  | succ f ih =>
    unfold State.chuteOffer
    split
    · rfl
    · split
      · rw [ih, put_ne _ _ _ _ _ h, chute_setChute, if_neg h]
      · rfl

end Sys2Proof.Laws
end

