-- ==== Sys2Proof/Laws/Ext.lean ====
section
/-!
SUPPORT. What every operation of the machine does to the parts of the state that no command touches on its own: the
canonical form stays, the queue, the straps and the time stand, the trace and the counter of open values only grow, and a part
that the operation is not named for stands.
-/

set_option Elab.async false

namespace Sys2Proof.Laws

open Sys2Proof.Machine

/-- The parts in `T` are among those that `F` lets change. -/
def Only (F : Area → Bool) (T : List Area) : Prop := T.all F = true

theorem Only.sub {F : Area → Bool} {T U : List Area} (h : Only F T) (k : U.all (fun p => T.contains p) = true) : Only F U := by
  simp only [Only, List.all_eq_true] at *
  intro p hp
  exact h p (by simpa using k p hp)

theorem Only.no {F : Area → Bool} {T : List Area} {p : Area} {P : Prop} (h : Only F T) (k : T.contains p = true) (e : F p = false) : P := by
  simp only [Only, List.all_eq_true] at h
  have := h p (by simpa using k)
  rw [e] at this
  exact Bool.noConfusion this

/-- `t` comes from `s` by an operation of the machine that changes no part but those in `F`. -/
structure Ext (F : Area → Bool) (s t : State) : Prop where
  canonical : s.canonical = true → t.canonical = true
  pending : t.pending = s.pending
  straps : t.straps = s.straps
  now : t.clk.now = s.clk.now
  free : s.free ≤ t.free
  out : ∃ l, t.out = l ++ s.out
  keep : ∀ p, F p = false → State.same p s t

theorem Ext.refl (F : Area → Bool) (s : State) : Ext F s s :=
  ⟨id, rfl, rfl, rfl, Nat.le_refl _, ⟨[], rfl⟩, fun p _ => by cases p <;> first | exact rfl | exact ⟨rfl, rfl⟩ | exact ⟨rfl, rfl, rfl⟩⟩

/-- An update of fields beside memories, registers, time, trace and open values. -/
theorem Ext.mk_of {F : Area → Bool} {s0 s : State} (h : Ext F s0 s) {mbx evt ep resets resetSeq lnk ing bkcJob items rings allocs cpl crs lnd vcd mon tim aud cbs dmc chutes pwr nvHeld spdHo spdAcc rc}
    (h_mbx : F .mbx = false → mbx = s.mbx := by first | with_reducible exact fun _ => rfl | exact Only.no ‹_› (by decide))
    (h_evt : F .evt = false → evt = s.evt := by first | with_reducible exact fun _ => rfl | exact Only.no ‹_› (by decide))
    (h_ep : F .ep = false → ep = s.ep := by first | with_reducible exact fun _ => rfl | exact Only.no ‹_› (by decide))
    (h_resets : F .resets = false → resets = s.resets := by first | with_reducible exact fun _ => rfl | exact Only.no ‹_› (by decide))
    (h_resetSeq : F .resets = false → resetSeq = s.resetSeq := by first | with_reducible exact fun _ => rfl | exact Only.no ‹_› (by decide))
    (h_lnk : F .lnk = false → lnk = s.lnk := by first | with_reducible exact fun _ => rfl | exact Only.no ‹_› (by decide))
    (h_ing : F .ing = false → ing = s.ing := by first | with_reducible exact fun _ => rfl | exact Only.no ‹_› (by decide))
    (h_bkcJob : F .bkc = false → bkcJob = s.bkcJob := by first | with_reducible exact fun _ => rfl | exact Only.no ‹_› (by decide))
    (h_items : F .items = false → items = s.items := by first | with_reducible exact fun _ => rfl | exact Only.no ‹_› (by decide))
    (h_rings : F .rings = false → rings = s.rings := by first | with_reducible exact fun _ => rfl | exact Only.no ‹_› (by decide))
    (h_allocs : F .allocs = false → allocs = s.allocs := by first | with_reducible exact fun _ => rfl | exact Only.no ‹_› (by decide))
    (h_cpl : F .cpl = false → cpl = s.cpl := by first | with_reducible exact fun _ => rfl | exact Only.no ‹_› (by decide))
    (h_crs : F .crs = false → crs = s.crs := by first | with_reducible exact fun _ => rfl | exact Only.no ‹_› (by decide))
    (h_lnd : F .lnd = false → lnd = s.lnd := by first | with_reducible exact fun _ => rfl | exact Only.no ‹_› (by decide))
    (h_vcd : F .vcd = false → vcd = s.vcd := by first | with_reducible exact fun _ => rfl | exact Only.no ‹_› (by decide))
    (h_mon : F .mon = false → mon = s.mon := by first | with_reducible exact fun _ => rfl | exact Only.no ‹_› (by decide))
    (h_tim : F .tim = false → tim = s.tim := by first | with_reducible exact fun _ => rfl | exact Only.no ‹_› (by decide))
    (h_aud : F .aud = false → aud = s.aud := by first | with_reducible exact fun _ => rfl | exact Only.no ‹_› (by decide))
    (h_cbs : F .cbs = false → cbs = s.cbs := by first | with_reducible exact fun _ => rfl | exact Only.no ‹_› (by decide))
    (h_dmc : F .dmc = false → dmc = s.dmc := by first | with_reducible exact fun _ => rfl | exact Only.no ‹_› (by decide))
    (h_chutes : F .chutes = false → chutes = s.chutes := by first | with_reducible exact fun _ => rfl | exact Only.no ‹_› (by decide))
    (h_pwr : F .pwr = false → pwr = s.pwr := by first | with_reducible exact fun _ => rfl | exact Only.no ‹_› (by decide))
    (h_nvHeld : F .nvHeld = false → nvHeld = s.nvHeld := by first | with_reducible exact fun _ => rfl | exact Only.no ‹_› (by decide))
    (h_spdHo : F .spd = false → spdHo = s.spdHo := by first | with_reducible exact fun _ => rfl | exact Only.no ‹_› (by decide))
    (h_spdAcc : F .spd = false → spdAcc = s.spdAcc := by first | with_reducible exact fun _ => rfl | exact Only.no ‹_› (by decide))
    (h_rc : F .rc = false → rc = s.rc := by first | with_reducible exact fun _ => rfl | exact Only.no ‹_› (by decide))
    (h_epoch : F .epoch = false → ep.epoch = s.ep.epoch ∧ ep.frame = s.ep.frame ∧ ep.first = s.ep.first := by first | with_reducible exact fun _ => ⟨rfl, rfl, rfl⟩ | exact Only.no ‹_› (by decide)) :
    Ext F s0 (State.mk s.pending s.clk s.straps s.regs s.mem s.nv mbx evt ep resets resetSeq lnk ing bkcJob items rings allocs cpl crs lnd vcd mon tim aud cbs dmc chutes pwr nvHeld s.free s.out spdHo spdAcc rc) := by
  refine ⟨fun x => h.canonical x, h.pending, h.straps, h.now, h.free, h.out, fun p e => ?_⟩
  cases p with
  | time => exact h.keep .time e
  | regs => exact h.keep .regs e
  | mem => exact h.keep .mem e
  | nv => exact h.keep .nv e
  | mbx => exact (h_mbx e).trans (h.keep .mbx e)
  | evt => exact (h_evt e).trans (h.keep .evt e)
  | ep => exact (h_ep e).trans (h.keep .ep e)
  | resets => exact ⟨(h_resets e).trans (h.keep .resets e).1, (h_resetSeq e).trans (h.keep .resets e).2⟩
  | lnk => exact (h_lnk e).trans (h.keep .lnk e)
  | ing => exact (h_ing e).trans (h.keep .ing e)
  | bkc => exact (h_bkcJob e).trans (h.keep .bkc e)
  | items => exact (h_items e).trans (h.keep .items e)
  | rings => exact (h_rings e).trans (h.keep .rings e)
  | allocs => exact (h_allocs e).trans (h.keep .allocs e)
  | cpl => exact (h_cpl e).trans (h.keep .cpl e)
  | crs => exact (h_crs e).trans (h.keep .crs e)
  | lnd => exact (h_lnd e).trans (h.keep .lnd e)
  | vcd => exact (h_vcd e).trans (h.keep .vcd e)
  | mon => exact (h_mon e).trans (h.keep .mon e)
  | tim => exact (h_tim e).trans (h.keep .tim e)
  | aud => exact (h_aud e).trans (h.keep .aud e)
  | cbs => exact (h_cbs e).trans (h.keep .cbs e)
  | dmc => exact (h_dmc e).trans (h.keep .dmc e)
  | chutes => exact (h_chutes e).trans (h.keep .chutes e)
  | pwr => exact (h_pwr e).trans (h.keep .pwr e)
  | nvHeld => exact (h_nvHeld e).trans (h.keep .nvHeld e)
  | free => exact h.keep .free e
  | out => exact h.keep .out e
  | spd => exact ⟨(h_spdHo e).trans (h.keep .spd e).1, (h_spdAcc e).trans (h.keep .spd e).2⟩
  | rc => exact (h_rc e).trans (h.keep .rc e)
  | epoch => exact ⟨(h_epoch e).1.trans (h.keep .epoch e).1, (h_epoch e).2.1.trans (h.keep .epoch e).2.1, (h_epoch e).2.2.trans (h.keep .epoch e).2.2⟩

/-- The same with open values taken. -/
theorem Ext.mk_free {F : Area → Bool} {s0 s : State} (h : Ext F s0 s) {n : Nat} (h_free : F .free = false → n = 0 := by exact Only.no ‹_› (by decide)) {mbx evt ep resets resetSeq lnk ing bkcJob items rings allocs cpl crs lnd vcd mon tim aud cbs dmc chutes pwr nvHeld spdHo spdAcc rc}
    (h_mbx : F .mbx = false → mbx = s.mbx := by first | with_reducible exact fun _ => rfl | exact Only.no ‹_› (by decide))
    (h_evt : F .evt = false → evt = s.evt := by first | with_reducible exact fun _ => rfl | exact Only.no ‹_› (by decide))
    (h_ep : F .ep = false → ep = s.ep := by first | with_reducible exact fun _ => rfl | exact Only.no ‹_› (by decide))
    (h_resets : F .resets = false → resets = s.resets := by first | with_reducible exact fun _ => rfl | exact Only.no ‹_› (by decide))
    (h_resetSeq : F .resets = false → resetSeq = s.resetSeq := by first | with_reducible exact fun _ => rfl | exact Only.no ‹_› (by decide))
    (h_lnk : F .lnk = false → lnk = s.lnk := by first | with_reducible exact fun _ => rfl | exact Only.no ‹_› (by decide))
    (h_ing : F .ing = false → ing = s.ing := by first | with_reducible exact fun _ => rfl | exact Only.no ‹_› (by decide))
    (h_bkcJob : F .bkc = false → bkcJob = s.bkcJob := by first | with_reducible exact fun _ => rfl | exact Only.no ‹_› (by decide))
    (h_items : F .items = false → items = s.items := by first | with_reducible exact fun _ => rfl | exact Only.no ‹_› (by decide))
    (h_rings : F .rings = false → rings = s.rings := by first | with_reducible exact fun _ => rfl | exact Only.no ‹_› (by decide))
    (h_allocs : F .allocs = false → allocs = s.allocs := by first | with_reducible exact fun _ => rfl | exact Only.no ‹_› (by decide))
    (h_cpl : F .cpl = false → cpl = s.cpl := by first | with_reducible exact fun _ => rfl | exact Only.no ‹_› (by decide))
    (h_crs : F .crs = false → crs = s.crs := by first | with_reducible exact fun _ => rfl | exact Only.no ‹_› (by decide))
    (h_lnd : F .lnd = false → lnd = s.lnd := by first | with_reducible exact fun _ => rfl | exact Only.no ‹_› (by decide))
    (h_vcd : F .vcd = false → vcd = s.vcd := by first | with_reducible exact fun _ => rfl | exact Only.no ‹_› (by decide))
    (h_mon : F .mon = false → mon = s.mon := by first | with_reducible exact fun _ => rfl | exact Only.no ‹_› (by decide))
    (h_tim : F .tim = false → tim = s.tim := by first | with_reducible exact fun _ => rfl | exact Only.no ‹_› (by decide))
    (h_aud : F .aud = false → aud = s.aud := by first | with_reducible exact fun _ => rfl | exact Only.no ‹_› (by decide))
    (h_cbs : F .cbs = false → cbs = s.cbs := by first | with_reducible exact fun _ => rfl | exact Only.no ‹_› (by decide))
    (h_dmc : F .dmc = false → dmc = s.dmc := by first | with_reducible exact fun _ => rfl | exact Only.no ‹_› (by decide))
    (h_chutes : F .chutes = false → chutes = s.chutes := by first | with_reducible exact fun _ => rfl | exact Only.no ‹_› (by decide))
    (h_pwr : F .pwr = false → pwr = s.pwr := by first | with_reducible exact fun _ => rfl | exact Only.no ‹_› (by decide))
    (h_nvHeld : F .nvHeld = false → nvHeld = s.nvHeld := by first | with_reducible exact fun _ => rfl | exact Only.no ‹_› (by decide))
    (h_spdHo : F .spd = false → spdHo = s.spdHo := by first | with_reducible exact fun _ => rfl | exact Only.no ‹_› (by decide))
    (h_spdAcc : F .spd = false → spdAcc = s.spdAcc := by first | with_reducible exact fun _ => rfl | exact Only.no ‹_› (by decide))
    (h_rc : F .rc = false → rc = s.rc := by first | with_reducible exact fun _ => rfl | exact Only.no ‹_› (by decide))
    (h_epoch : F .epoch = false → ep.epoch = s.ep.epoch ∧ ep.frame = s.ep.frame ∧ ep.first = s.ep.first := by first | with_reducible exact fun _ => ⟨rfl, rfl, rfl⟩ | exact Only.no ‹_› (by decide)) :
    Ext F s0 (State.mk s.pending s.clk s.straps s.regs s.mem s.nv mbx evt ep resets resetSeq lnk ing bkcJob items rings allocs cpl crs lnd vcd mon tim aud cbs dmc chutes pwr nvHeld (s.free + n) s.out spdHo spdAcc rc) := by
  refine ⟨fun x => h.canonical x, h.pending, h.straps, h.now, Nat.le_add_right_of_le h.free, h.out, fun p e => ?_⟩
  cases p with
  | time => exact h.keep .time e
  | regs => exact h.keep .regs e
  | mem => exact h.keep .mem e
  | nv => exact h.keep .nv e
  | mbx => exact (h_mbx e).trans (h.keep .mbx e)
  | evt => exact (h_evt e).trans (h.keep .evt e)
  | ep => exact (h_ep e).trans (h.keep .ep e)
  | resets => exact ⟨(h_resets e).trans (h.keep .resets e).1, (h_resetSeq e).trans (h.keep .resets e).2⟩
  | lnk => exact (h_lnk e).trans (h.keep .lnk e)
  | ing => exact (h_ing e).trans (h.keep .ing e)
  | bkc => exact (h_bkcJob e).trans (h.keep .bkc e)
  | items => exact (h_items e).trans (h.keep .items e)
  | rings => exact (h_rings e).trans (h.keep .rings e)
  | allocs => exact (h_allocs e).trans (h.keep .allocs e)
  | cpl => exact (h_cpl e).trans (h.keep .cpl e)
  | crs => exact (h_crs e).trans (h.keep .crs e)
  | lnd => exact (h_lnd e).trans (h.keep .lnd e)
  | vcd => exact (h_vcd e).trans (h.keep .vcd e)
  | mon => exact (h_mon e).trans (h.keep .mon e)
  | tim => exact (h_tim e).trans (h.keep .tim e)
  | aud => exact (h_aud e).trans (h.keep .aud e)
  | cbs => exact (h_cbs e).trans (h.keep .cbs e)
  | dmc => exact (h_dmc e).trans (h.keep .dmc e)
  | chutes => exact (h_chutes e).trans (h.keep .chutes e)
  | pwr => exact (h_pwr e).trans (h.keep .pwr e)
  | nvHeld => exact (h_nvHeld e).trans (h.keep .nvHeld e)
  | free => exact (show s.free + n = s0.free by rw [h_free e]; exact h.keep .free e)
  | out => exact h.keep .out e
  | spd => exact ⟨(h_spdHo e).trans (h.keep .spd e).1, (h_spdAcc e).trans (h.keep .spd e).2⟩
  | rc => exact (h_rc e).trans (h.keep .rc e)
  | epoch => exact ⟨(h_epoch e).1.trans (h.keep .epoch e).1, (h_epoch e).2.1.trans (h.keep .epoch e).2.1, (h_epoch e).2.2.trans (h.keep .epoch e).2.2⟩

/-- The same with device time changed. -/
theorem Ext.mk_tod {F : Area → Bool} {s0 s : State} (h : Ext F s0 s) {tod : Nat} (h_time : F .time = false → tod = s.clk.tod := by exact Only.no ‹_› (by decide)) {mbx evt ep resets resetSeq lnk ing bkcJob items rings allocs cpl crs lnd vcd mon tim aud cbs dmc chutes pwr nvHeld spdHo spdAcc rc}
    (h_mbx : F .mbx = false → mbx = s.mbx := by first | with_reducible exact fun _ => rfl | exact Only.no ‹_› (by decide))
    (h_evt : F .evt = false → evt = s.evt := by first | with_reducible exact fun _ => rfl | exact Only.no ‹_› (by decide))
    (h_ep : F .ep = false → ep = s.ep := by first | with_reducible exact fun _ => rfl | exact Only.no ‹_› (by decide))
    (h_resets : F .resets = false → resets = s.resets := by first | with_reducible exact fun _ => rfl | exact Only.no ‹_› (by decide))
    (h_resetSeq : F .resets = false → resetSeq = s.resetSeq := by first | with_reducible exact fun _ => rfl | exact Only.no ‹_› (by decide))
    (h_lnk : F .lnk = false → lnk = s.lnk := by first | with_reducible exact fun _ => rfl | exact Only.no ‹_› (by decide))
    (h_ing : F .ing = false → ing = s.ing := by first | with_reducible exact fun _ => rfl | exact Only.no ‹_› (by decide))
    (h_bkcJob : F .bkc = false → bkcJob = s.bkcJob := by first | with_reducible exact fun _ => rfl | exact Only.no ‹_› (by decide))
    (h_items : F .items = false → items = s.items := by first | with_reducible exact fun _ => rfl | exact Only.no ‹_› (by decide))
    (h_rings : F .rings = false → rings = s.rings := by first | with_reducible exact fun _ => rfl | exact Only.no ‹_› (by decide))
    (h_allocs : F .allocs = false → allocs = s.allocs := by first | with_reducible exact fun _ => rfl | exact Only.no ‹_› (by decide))
    (h_cpl : F .cpl = false → cpl = s.cpl := by first | with_reducible exact fun _ => rfl | exact Only.no ‹_› (by decide))
    (h_crs : F .crs = false → crs = s.crs := by first | with_reducible exact fun _ => rfl | exact Only.no ‹_› (by decide))
    (h_lnd : F .lnd = false → lnd = s.lnd := by first | with_reducible exact fun _ => rfl | exact Only.no ‹_› (by decide))
    (h_vcd : F .vcd = false → vcd = s.vcd := by first | with_reducible exact fun _ => rfl | exact Only.no ‹_› (by decide))
    (h_mon : F .mon = false → mon = s.mon := by first | with_reducible exact fun _ => rfl | exact Only.no ‹_› (by decide))
    (h_tim : F .tim = false → tim = s.tim := by first | with_reducible exact fun _ => rfl | exact Only.no ‹_› (by decide))
    (h_aud : F .aud = false → aud = s.aud := by first | with_reducible exact fun _ => rfl | exact Only.no ‹_› (by decide))
    (h_cbs : F .cbs = false → cbs = s.cbs := by first | with_reducible exact fun _ => rfl | exact Only.no ‹_› (by decide))
    (h_dmc : F .dmc = false → dmc = s.dmc := by first | with_reducible exact fun _ => rfl | exact Only.no ‹_› (by decide))
    (h_chutes : F .chutes = false → chutes = s.chutes := by first | with_reducible exact fun _ => rfl | exact Only.no ‹_› (by decide))
    (h_pwr : F .pwr = false → pwr = s.pwr := by first | with_reducible exact fun _ => rfl | exact Only.no ‹_› (by decide))
    (h_nvHeld : F .nvHeld = false → nvHeld = s.nvHeld := by first | with_reducible exact fun _ => rfl | exact Only.no ‹_› (by decide))
    (h_spdHo : F .spd = false → spdHo = s.spdHo := by first | with_reducible exact fun _ => rfl | exact Only.no ‹_› (by decide))
    (h_spdAcc : F .spd = false → spdAcc = s.spdAcc := by first | with_reducible exact fun _ => rfl | exact Only.no ‹_› (by decide))
    (h_rc : F .rc = false → rc = s.rc := by first | with_reducible exact fun _ => rfl | exact Only.no ‹_› (by decide))
    (h_epoch : F .epoch = false → ep.epoch = s.ep.epoch ∧ ep.frame = s.ep.frame ∧ ep.first = s.ep.first := by first | with_reducible exact fun _ => ⟨rfl, rfl, rfl⟩ | exact Only.no ‹_› (by decide)) :
    Ext F s0 (State.mk s.pending ⟨s.clk.now, tod⟩ s.straps s.regs s.mem s.nv mbx evt ep resets resetSeq lnk ing bkcJob items rings allocs cpl crs lnd vcd mon tim aud cbs dmc chutes pwr nvHeld s.free s.out spdHo spdAcc rc) := by
  refine ⟨fun x => h.canonical x, h.pending, h.straps, h.now, h.free, h.out, fun p e => ?_⟩
  cases p with
  | time => exact (h_time e).trans (h.keep .time e)
  | regs => exact h.keep .regs e
  | mem => exact h.keep .mem e
  | nv => exact h.keep .nv e
  | mbx => exact (h_mbx e).trans (h.keep .mbx e)
  | evt => exact (h_evt e).trans (h.keep .evt e)
  | ep => exact (h_ep e).trans (h.keep .ep e)
  | resets => exact ⟨(h_resets e).trans (h.keep .resets e).1, (h_resetSeq e).trans (h.keep .resets e).2⟩
  | lnk => exact (h_lnk e).trans (h.keep .lnk e)
  | ing => exact (h_ing e).trans (h.keep .ing e)
  | bkc => exact (h_bkcJob e).trans (h.keep .bkc e)
  | items => exact (h_items e).trans (h.keep .items e)
  | rings => exact (h_rings e).trans (h.keep .rings e)
  | allocs => exact (h_allocs e).trans (h.keep .allocs e)
  | cpl => exact (h_cpl e).trans (h.keep .cpl e)
  | crs => exact (h_crs e).trans (h.keep .crs e)
  | lnd => exact (h_lnd e).trans (h.keep .lnd e)
  | vcd => exact (h_vcd e).trans (h.keep .vcd e)
  | mon => exact (h_mon e).trans (h.keep .mon e)
  | tim => exact (h_tim e).trans (h.keep .tim e)
  | aud => exact (h_aud e).trans (h.keep .aud e)
  | cbs => exact (h_cbs e).trans (h.keep .cbs e)
  | dmc => exact (h_dmc e).trans (h.keep .dmc e)
  | chutes => exact (h_chutes e).trans (h.keep .chutes e)
  | pwr => exact (h_pwr e).trans (h.keep .pwr e)
  | nvHeld => exact (h_nvHeld e).trans (h.keep .nvHeld e)
  | free => exact h.keep .free e
  | out => exact h.keep .out e
  | spd => exact ⟨(h_spdHo e).trans (h.keep .spd e).1, (h_spdAcc e).trans (h.keep .spd e).2⟩
  | rc => exact (h_rc e).trans (h.keep .rc e)
  | epoch => exact ⟨(h_epoch e).1.trans (h.keep .epoch e).1, (h_epoch e).2.1.trans (h.keep .epoch e).2.1, (h_epoch e).2.2.trans (h.keep .epoch e).2.2⟩

/-- The same with time, the register file and the memory replaced. -/
theorem Ext.mk_tabs {F : Area → Bool} {s0 s : State} (h : Ext F s0 s) {tod : Nat} {regs : Tab Word} {mem : Tab Byte}
    (hr : tabWf regReset s.regs = true → tabWf regReset regs = true) (hm : tabWf memZero s.mem = true → tabWf memZero mem = true)
    (h_time : F .time = false → tod = s.clk.tod := by first | with_reducible exact fun _ => rfl | exact Only.no ‹_› (by decide) | exact fun _ => rfl)
    (h_regs : F .regs = false → regs = s.regs := by first | with_reducible exact fun _ => rfl | exact Only.no ‹_› (by decide) | exact fun _ => rfl)
    (h_mem : F .mem = false → mem = s.mem := by first | with_reducible exact fun _ => rfl | exact Only.no ‹_› (by decide) | exact fun _ => rfl) {mbx evt ep resets resetSeq lnk ing bkcJob items rings allocs cpl crs lnd vcd mon tim aud cbs dmc chutes pwr nvHeld spdHo spdAcc rc}
    (h_mbx : F .mbx = false → mbx = s.mbx := by first | with_reducible exact fun _ => rfl | exact Only.no ‹_› (by decide))
    (h_evt : F .evt = false → evt = s.evt := by first | with_reducible exact fun _ => rfl | exact Only.no ‹_› (by decide))
    (h_ep : F .ep = false → ep = s.ep := by first | with_reducible exact fun _ => rfl | exact Only.no ‹_› (by decide))
    (h_resets : F .resets = false → resets = s.resets := by first | with_reducible exact fun _ => rfl | exact Only.no ‹_› (by decide))
    (h_resetSeq : F .resets = false → resetSeq = s.resetSeq := by first | with_reducible exact fun _ => rfl | exact Only.no ‹_› (by decide))
    (h_lnk : F .lnk = false → lnk = s.lnk := by first | with_reducible exact fun _ => rfl | exact Only.no ‹_› (by decide))
    (h_ing : F .ing = false → ing = s.ing := by first | with_reducible exact fun _ => rfl | exact Only.no ‹_› (by decide))
    (h_bkcJob : F .bkc = false → bkcJob = s.bkcJob := by first | with_reducible exact fun _ => rfl | exact Only.no ‹_› (by decide))
    (h_items : F .items = false → items = s.items := by first | with_reducible exact fun _ => rfl | exact Only.no ‹_› (by decide))
    (h_rings : F .rings = false → rings = s.rings := by first | with_reducible exact fun _ => rfl | exact Only.no ‹_› (by decide))
    (h_allocs : F .allocs = false → allocs = s.allocs := by first | with_reducible exact fun _ => rfl | exact Only.no ‹_› (by decide))
    (h_cpl : F .cpl = false → cpl = s.cpl := by first | with_reducible exact fun _ => rfl | exact Only.no ‹_› (by decide))
    (h_crs : F .crs = false → crs = s.crs := by first | with_reducible exact fun _ => rfl | exact Only.no ‹_› (by decide))
    (h_lnd : F .lnd = false → lnd = s.lnd := by first | with_reducible exact fun _ => rfl | exact Only.no ‹_› (by decide))
    (h_vcd : F .vcd = false → vcd = s.vcd := by first | with_reducible exact fun _ => rfl | exact Only.no ‹_› (by decide))
    (h_mon : F .mon = false → mon = s.mon := by first | with_reducible exact fun _ => rfl | exact Only.no ‹_› (by decide))
    (h_tim : F .tim = false → tim = s.tim := by first | with_reducible exact fun _ => rfl | exact Only.no ‹_› (by decide))
    (h_aud : F .aud = false → aud = s.aud := by first | with_reducible exact fun _ => rfl | exact Only.no ‹_› (by decide))
    (h_cbs : F .cbs = false → cbs = s.cbs := by first | with_reducible exact fun _ => rfl | exact Only.no ‹_› (by decide))
    (h_dmc : F .dmc = false → dmc = s.dmc := by first | with_reducible exact fun _ => rfl | exact Only.no ‹_› (by decide))
    (h_chutes : F .chutes = false → chutes = s.chutes := by first | with_reducible exact fun _ => rfl | exact Only.no ‹_› (by decide))
    (h_pwr : F .pwr = false → pwr = s.pwr := by first | with_reducible exact fun _ => rfl | exact Only.no ‹_› (by decide))
    (h_nvHeld : F .nvHeld = false → nvHeld = s.nvHeld := by first | with_reducible exact fun _ => rfl | exact Only.no ‹_› (by decide))
    (h_spdHo : F .spd = false → spdHo = s.spdHo := by first | with_reducible exact fun _ => rfl | exact Only.no ‹_› (by decide))
    (h_spdAcc : F .spd = false → spdAcc = s.spdAcc := by first | with_reducible exact fun _ => rfl | exact Only.no ‹_› (by decide))
    (h_rc : F .rc = false → rc = s.rc := by first | with_reducible exact fun _ => rfl | exact Only.no ‹_› (by decide))
    (h_epoch : F .epoch = false → ep.epoch = s.ep.epoch ∧ ep.frame = s.ep.frame ∧ ep.first = s.ep.first := by first | with_reducible exact fun _ => ⟨rfl, rfl, rfl⟩ | exact Only.no ‹_› (by decide)) :
    Ext F s0 (State.mk s.pending ⟨s.clk.now, tod⟩ s.straps regs mem s.nv mbx evt ep resets resetSeq lnk ing bkcJob items rings allocs cpl crs lnd vcd mon tim aud cbs dmc chutes pwr nvHeld s.free s.out spdHo spdAcc rc) := by
  refine ⟨fun x => by
    have := h.canonical x
    simp only [State.canonical, Memory.wf, Bool.and_eq_true] at this ⊢
    exact ⟨hr this.1, hm this.2.1, this.2.2⟩, h.pending, h.straps, h.now, h.free, h.out, fun p e => ?_⟩
  cases p with
  | time => exact (h_time e).trans (h.keep .time e)
  | regs => exact (h_regs e).trans (h.keep .regs e)
  | mem => exact (h_mem e).trans (h.keep .mem e)
  | nv => exact h.keep .nv e
  | mbx => exact (h_mbx e).trans (h.keep .mbx e)
  | evt => exact (h_evt e).trans (h.keep .evt e)
  | ep => exact (h_ep e).trans (h.keep .ep e)
  | resets => exact ⟨(h_resets e).trans (h.keep .resets e).1, (h_resetSeq e).trans (h.keep .resets e).2⟩
  | lnk => exact (h_lnk e).trans (h.keep .lnk e)
  | ing => exact (h_ing e).trans (h.keep .ing e)
  | bkc => exact (h_bkcJob e).trans (h.keep .bkc e)
  | items => exact (h_items e).trans (h.keep .items e)
  | rings => exact (h_rings e).trans (h.keep .rings e)
  | allocs => exact (h_allocs e).trans (h.keep .allocs e)
  | cpl => exact (h_cpl e).trans (h.keep .cpl e)
  | crs => exact (h_crs e).trans (h.keep .crs e)
  | lnd => exact (h_lnd e).trans (h.keep .lnd e)
  | vcd => exact (h_vcd e).trans (h.keep .vcd e)
  | mon => exact (h_mon e).trans (h.keep .mon e)
  | tim => exact (h_tim e).trans (h.keep .tim e)
  | aud => exact (h_aud e).trans (h.keep .aud e)
  | cbs => exact (h_cbs e).trans (h.keep .cbs e)
  | dmc => exact (h_dmc e).trans (h.keep .dmc e)
  | chutes => exact (h_chutes e).trans (h.keep .chutes e)
  | pwr => exact (h_pwr e).trans (h.keep .pwr e)
  | nvHeld => exact (h_nvHeld e).trans (h.keep .nvHeld e)
  | free => exact h.keep .free e
  | out => exact h.keep .out e
  | spd => exact ⟨(h_spdHo e).trans (h.keep .spd e).1, (h_spdAcc e).trans (h.keep .spd e).2⟩
  | rc => exact (h_rc e).trans (h.keep .rc e)
  | epoch => exact ⟨(h_epoch e).1.trans (h.keep .epoch e).1, (h_epoch e).2.1.trans (h.keep .epoch e).2.1, (h_epoch e).2.2.trans (h.keep .epoch e).2.2⟩

theorem Ext.of_pair {α : Type} {F : Area → Bool} {s0 s : State} {p : α × State} {a : α} (e : p = (a, s)) (h : Ext F s0 p.2) : Ext F s0 s := by
  subst e; exact h

theorem Ext.of_pair' {α : Type} {F : Area → Bool} {s0 s : State} {p : State × α} {a : α} (e : p = (s, a)) (h : Ext F s0 p.1) : Ext F s0 s := by
  subst e; exact h

theorem Ext.of_triple {α β : Type} {F : Area → Bool} {s0 s : State} {p : α × β × State} {a : α} {b : β} (e : p = (a, b, s))
    (h : Ext F s0 p.2.2) : Ext F s0 s := by
  subst e; exact h

theorem Ext.foldl {α : Type} {F : Area → Bool} {s0 s : State} {f : State → α → State} {l : List α}
    (hf : ∀ s x, Ext F s0 s → Ext F s0 (f s x)) (h : Ext F s0 s) : Ext F s0 (l.foldl f s) := by
  induction l generalizing s with
  | nil => exact h
  | cons x r ih => exact ih (hf s x h)

theorem Ext.foldl_pair {α β : Type} {F : Area → Bool} {s0 : State} {p : β × State} {f : β × State → α → β × State} {l : List α}
    (hf : ∀ p x, Ext F s0 p.2 → Ext F s0 (f p x).2) (h : Ext F s0 p.2) : Ext F s0 (l.foldl f p).2 := by
  induction l generalizing p with
  | nil => exact h
  | cons x r ih => exact ih (hf p x h)

theorem Ext.foldl_triple {α β γ : Type} {F : Area → Bool} {s0 : State} {p : β × γ × State} {f : β × γ × State → α → β × γ × State} {l : List α}
    (hf : ∀ p x, Ext F s0 p.2.2 → Ext F s0 (f p x).2.2) (h : Ext F s0 p.2.2) : Ext F s0 (l.foldl f p).2.2 := by
  induction l generalizing p with
  | nil => exact h
  | cons x r ih => exact ih (hf p x h)

/-- The state an answer leaves. -/
def ansSt : Ans → State
  | .done _ _ s => s
  | .wait _ s => s

theorem Ext.of_done {F : Area → Bool} {s0 s : State} {x : Ans} {st : Nat} {pay : List Word} (e : x = .done st pay s) (h : Ext F s0 (ansSt x)) :
    Ext F s0 s := by subst e; exact h

theorem Ext.of_wait {F : Area → Bool} {s0 s : State} {x : Ans} {k : WaitKind} (e : x = .wait k s) (h : Ext F s0 (ansSt x)) : Ext F s0 s := by
  subst e; exact h

theorem Ext.done {F : Area → Bool} {s0 s : State} {st : Nat} {pay : List Word} (h : Ext F s0 s) : Ext F s0 (ansSt (.done st pay s)) := h

theorem Ext.wait {F : Area → Bool} {s0 s : State} {k : WaitKind} (h : Ext F s0 s) : Ext F s0 (ansSt (.wait k s)) := h

theorem Ext.ite {F : Area → Bool} {s0 a b : State} {c : Prop} [Decidable c] (ha : c → Ext F s0 a) (hb : ¬c → Ext F s0 b) :
    Ext F s0 (if c then a else b) := by
  split
  · exact ha ‹_›
  · exact hb ‹_›

theorem Ext.ite_ans {F : Area → Bool} {s0 : State} {a b : Ans} {c : Prop} [Decidable c] (ha : c → Ext F s0 (ansSt a)) (hb : ¬c → Ext F s0 (ansSt b)) :
    Ext F s0 (ansSt (if c then a else b)) := by
  split
  · exact ha ‹_›
  · exact hb ‹_›

theorem Ext.ite_pair {α : Type} {F : Area → Bool} {s0 : State} {a b : α × State} {c : Prop} [Decidable c] (ha : c → Ext F s0 a.2)
    (hb : ¬c → Ext F s0 b.2) : Ext F s0 (if c then a else b).2 := by
  split
  · exact ha ‹_›
  · exact hb ‹_›

theorem Ext.ite_triple {α β : Type} {F : Area → Bool} {s0 : State} {a b : α × β × State} {c : Prop} [Decidable c] (ha : c → Ext F s0 a.2.2)
    (hb : ¬c → Ext F s0 b.2.2) : Ext F s0 (if c then a else b).2.2 := by
  split
  · exact ha ‹_›
  · exact hb ‹_›

end Sys2Proof.Laws
end

