-- ==== Sys2Proof/Laws/KeepOps.lean ====
section
/-!
SUPPORT. The operations of Machine/Ops.lean keep the relation Ext.
-/

set_option Elab.async false

namespace Sys2Proof.Laws

open Sys2Proof.Machine

set_option linter.unusedTactic false
set_option linter.unreachableTactic false
set_option maxRecDepth 2000

theorem keep_State_wr {F : Area → Bool} {s0 : State} (s : State) (a : Nat) (v : Word) (hk : Only F [.regs]) (hx : Ext F s0 s) :
    Ext F s0 (State.wr s a v) := by
  unfold State.wr
  exact ⟨fun x => by
    have := hx.canonical x
    simp only [State.canonical, Memory.wf, Bool.and_eq_true] at this ⊢
    exact ⟨tabWf_set _ _ _ _ this.1, this.2⟩, hx.pending, hx.straps, hx.now, hx.free, hx.out, fun p e => by cases p <;> first | exact hx.keep _ e | exact Only.no hk (by decide) e⟩

theorem keep_State_wrF {F : Area → Bool} {s0 : State} (s : State) (a : Nat) (lo : Nat) (n : Nat) (v : Nat) (hk : Only F [.regs]) (hx : Ext F s0 s) :
    Ext F s0 (State.wrF s a lo n v) := by
  unfold State.wrF
  repeat' with_reducible first
    | assumption | exact Only.sub hk (by decide) | apply keep_State_wr | dsimp only

theorem keep_State_bump {F : Area → Bool} {s0 : State} (s : State) (a : Nat) (lo : Nat) (n : Nat) (k : Nat) (hk : Only F [.regs, .rc]) (hx : Ext F s0 s) :
    Ext F s0 (State.bump s a lo n k) := by
  unfold State.bump
  repeat' with_reducible first
    | assumption | exact Only.sub hk (by decide) | apply keep_State_wrF | dsimp only
    | fail_if_no_progress (refine Ext.mk_of ?_) | intro _

theorem keep_State_readCount {F : Area → Bool} {s0 : State} (s : State) (a : Nat) (hk : Only F [.regs, .rc]) (hx : Ext F s0 s) :
    Ext F s0 (State.readCount s a).2 := by
  unfold State.readCount
  repeat' with_reducible first
    | assumption | exact Only.sub hk (by decide) | apply keep_State_wr | refine Ext.of_pair (by assumption) ?_
    | refine Ext.of_triple (by assumption) ?_ | refine Ext.of_done (by assumption) ?_
    | refine Ext.of_wait (by assumption) ?_ | dsimp only | split | fail_if_no_progress (refine Ext.mk_of ?_) | intro _

theorem keep_State_regClear {F : Area → Bool} {s0 : State} (s : State) (lo : Nat) (hi : Nat) (hk : Only F [.regs]) (hx : Ext F s0 s) :
    Ext F s0 (State.regClear s lo hi) := by
  unfold State.regClear
  exact ⟨fun x => by
    have := hx.canonical x
    simp only [State.canonical, Memory.wf, Bool.and_eq_true] at this ⊢
    exact ⟨tabWf_clear _ _ _ _ this.1, this.2⟩, hx.pending, hx.straps, hx.now, hx.free, hx.out, fun p e => by cases p <;> first | exact hx.keep _ e | exact Only.no hk (by decide) e⟩

theorem keep_State_wrs {F : Area → Bool} {s0 : State} (s : State) (l : List (Nat × Word)) (hk : Only F [.regs]) (hx : Ext F s0 s) :
    Ext F s0 (State.wrs s l) := by
  unfold State.wrs
  repeat' with_reducible first
    | assumption | exact Only.sub hk (by decide) | apply keep_State_wr | refine Ext.foldl (fun _ _ _ => ?_) ?_
    | refine Ext.foldl_pair (fun _ _ _ => ?_) ?_ | refine Ext.foldl_triple (fun _ _ _ => ?_) ?_ | dsimp only | intro _

theorem keep_State_fresh {F : Area → Bool} {s0 : State} (s : State) (hk : Only F [.free]) (hx : Ext F s0 s) :
    Ext F s0 (State.fresh s).2 := by
  unfold State.fresh
  exact ⟨fun x => hx.canonical x, hx.pending, hx.straps, hx.now, Nat.le_succ_of_le hx.free, hx.out, fun p e => by cases p <;> first | exact hx.keep _ e | exact Only.no hk (by decide) e⟩

theorem keep_State_freshBytes {F : Area → Bool} {s0 : State} (s : State) (n : Nat) (hk : Only F [.free]) (hx : Ext F s0 s) :
    Ext F s0 (State.freshBytes s n).2 := by
  unfold State.freshBytes
  exact ⟨fun x => hx.canonical x, hx.pending, hx.straps, hx.now, Nat.le_add_right_of_le hx.free, hx.out, fun p e => by cases p <;> first | exact hx.keep _ e | exact Only.no hk (by decide) e⟩

theorem keep_State_emit {F : Area → Bool} {s0 : State} (s : State) (o : Out) (hk : Only F [.out]) (hx : Ext F s0 s) :
    Ext F s0 (State.emit s o) := by
  unfold State.emit
  exact ⟨fun x => hx.canonical x, hx.pending, hx.straps, hx.now, hx.free, by
    obtain ⟨l, hl⟩ := hx.out
    exact ⟨o :: l, by rw [hl]; rfl⟩, fun p e => by cases p <;> first | exact hx.keep _ e | exact Only.no hk (by decide) e⟩

theorem keep_State_store {F : Area → Bool} {s0 : State} (s : State) (a : Nat) (bs : List Byte) (hk : Only F [.mem, .dmc]) (hx : Ext F s0 s) :
    Ext F s0 (State.store s a bs) := by
  unfold State.store
  exact ⟨fun x => by
    have := hx.canonical x
    simp only [State.canonical, Memory.wf, Bool.and_eq_true] at this ⊢
    exact ⟨this.1, tabWf_sets _ _ _ _ this.2.1, this.2.2⟩, hx.pending, hx.straps, hx.now, hx.free, hx.out, fun p e => by cases p <;> first | exact hx.keep _ e | exact Only.no hk (by decide) e⟩

theorem keep_State_useInj {F : Area → Bool} {s0 : State} (s : State) (kind : Nat) (target : Nat) (hk : Only F [.dmc]) (hx : Ext F s0 s) :
    Ext F s0 (State.useInj s kind target) := by
  unfold State.useInj
  repeat' with_reducible first
    | assumption | exact Only.sub hk (by decide) | refine Ext.ite (fun _ => ?_) (fun _ => ?_) | dsimp only
    | fail_if_no_progress (refine Ext.mk_of ?_) | split | intro _

theorem keep_State_memClear {F : Area → Bool} {s0 : State} (s : State) (lo : Nat) (hi : Nat) (hk : Only F [.mem]) (hx : Ext F s0 s) :
    Ext F s0 (State.memClear s lo hi) := by
  unfold State.memClear
  exact ⟨fun x => by
    have := hx.canonical x
    simp only [State.canonical, Memory.wf, Bool.and_eq_true] at this ⊢
    exact ⟨this.1, tabWf_clear _ _ _ _ this.2.1, this.2.2⟩, hx.pending, hx.straps, hx.now, hx.free, hx.out, fun p e => by cases p <;> first | exact hx.keep _ e | exact Only.no hk (by decide) e⟩

theorem keep_State_nvStore {F : Area → Bool} {s0 : State} (s : State) (a : Nat) (bs : List Byte) (hk : Only F [.nv]) (hx : Ext F s0 s) :
    Ext F s0 (State.nvStore s a bs) := by
  unfold State.nvStore
  exact ⟨fun x => by
    have := hx.canonical x
    simp only [State.canonical, Memory.wf, Bool.and_eq_true] at this ⊢
    exact ⟨this.1, this.2.1, tabWf_sets _ _ _ _ this.2.2⟩, hx.pending, hx.straps, hx.now, hx.free, hx.out, fun p e => by cases p <;> first | exact hx.keep _ e | exact Only.no hk (by decide) e⟩

theorem keep_State_viol {F : Area → Bool} {s0 : State} (s : State) (p : Nat) (kind : Nat) (ctx : Nat) (addr : Nat) (hk : Only F [.regs]) (hx : Ext F s0 s) :
    Ext F s0 (State.viol s p kind ctx addr) := by
  unfold State.viol
  repeat' with_reducible first
    | assumption | exact Only.sub hk (by decide) | apply keep_State_wrs | apply keep_State_wr | dsimp only

end Sys2Proof.Laws
end

