-- ==== Sys2Proof/Laws/KeepEvents.lean ====
section
/-!
SUPPORT. The operations of Machine/Events.lean keep the relation Ext.
-/

set_option Elab.async false

namespace Sys2Proof.Laws

open Sys2Proof.Machine

set_option linter.unusedTactic false
set_option linter.unreachableTactic false
set_option maxRecDepth 2000

theorem keep_State_msix {F : Area → Bool} {s0 : State} (s : State) (fn : Nat) (vec : Nat) (hk : Only F [.mbx, .out]) (hx : Ext F s0 s) :
    Ext F s0 (State.msix s fn vec) := by
  unfold State.msix
  repeat' with_reducible first
    | assumption | exact Only.sub hk (by decide) | apply keep_State_emit | refine Ext.ite (fun _ => ?_) (fun _ => ?_)
    | dsimp only | fail_if_no_progress (refine Ext.mk_of ?_) | split | intro _

theorem keep_State_msixFlush {F : Area → Bool} {s0 : State} (s : State) (fn : Nat) (hk : Only F [.mbx, .out]) (hx : Ext F s0 s) :
    Ext F s0 (State.msixFlush s fn) := by
  unfold State.msixFlush
  repeat' with_reducible first
    | assumption | exact Only.sub hk (by decide) | apply keep_State_msix | apply keep_State_emit
    | refine Ext.foldl (fun _ _ _ => ?_) ?_ | refine Ext.foldl_pair (fun _ _ _ => ?_) ?_
    | refine Ext.foldl_triple (fun _ _ _ => ?_) ?_ | refine Ext.ite (fun _ => ?_) (fun _ => ?_) | dsimp only
    | fail_if_no_progress (refine Ext.mk_of ?_) | split | intro _

theorem keep_State_setEvq {F : Area → Bool} {s0 : State} (s : State) (c : Nat) (q : EvQueue) (hk : Only F [.evt]) (hx : Ext F s0 s) :
    Ext F s0 (State.setEvq s c q) := by
  unfold State.setEvq
  repeat' with_reducible first
    | assumption | exact Only.sub hk (by decide) | dsimp only | fail_if_no_progress (refine Ext.mk_of ?_) | intro _

theorem keep_State_ctxMessage {F : Area → Bool} {s0 : State} (s : State) (c : Nat) (hk : Only F [.mbx, .evt, .out]) (hx : Ext F s0 s) :
    Ext F s0 (State.ctxMessage s c) := by
  unfold State.ctxMessage
  repeat' with_reducible first
    | assumption | exact Only.sub hk (by decide) | apply keep_State_setEvq | apply keep_State_msix
    | refine Ext.of_pair (by assumption) ?_ | refine Ext.of_triple (by assumption) ?_
    | refine Ext.of_done (by assumption) ?_ | refine Ext.of_wait (by assumption) ?_
    | refine Ext.ite (fun _ => ?_) (fun _ => ?_) | dsimp only | fail_if_no_progress (refine Ext.mk_of ?_) | split

theorem keep_State_pendSet {F : Area → Bool} {s0 : State} (s : State) (c : Nat) (hk : Only F [.evt]) (hx : Ext F s0 s) :
    Ext F s0 (State.pendSet s c).2 := by
  unfold State.pendSet
  repeat' with_reducible first
    | assumption | exact Only.sub hk (by decide) | apply keep_State_setEvq
    | refine Ext.ite (fun _ => ?_) (fun _ => ?_) | refine Ext.ite_pair (fun _ => ?_) (fun _ => ?_) | dsimp only
    | split | fail_if_no_progress (refine Ext.mk_of ?_)

theorem keep_State_seqOf {F : Area → Bool} {s0 : State} (s : State) (src : Nat) (hk : Only F [.evt]) (hx : Ext F s0 s) :
    Ext F s0 (State.seqOf s src).2 := by
  unfold State.seqOf
  repeat' with_reducible first
    | assumption | exact Only.sub hk (by decide) | dsimp only | fail_if_no_progress (refine Ext.mk_of ?_) | intro _

theorem keep_State_putAt {F : Area → Bool} {s0 : State} (s : State) (c : Nat) (i : Nat) (y0 : List (List Byte)) (hk : Only F [.out]) (hx : Ext F s0 s) :
    Ext F s0 (State.putAt s c i y0) := by
  induction y0 generalizing s c i hx with
  | nil =>
    unfold State.putAt
    repeat' with_reducible first
      | assumption | exact Only.sub hk (by decide) | apply keep_State_emit | dsimp only
  | cons x r ih =>
    unfold State.putAt
    repeat' with_reducible first
      | assumption | apply ih | exact Only.sub hk (by decide) | apply keep_State_emit | dsimp only

theorem keep_State_putRecord {F : Area → Bool} {s0 : State} (s : State) (c : Nat) (k : EvKey) (bs : List Byte) (hk : Only F [.evt, .out]) (hx : Ext F s0 s) :
    Ext F s0 (State.putRecord s c k bs) := by
  unfold State.putRecord
  repeat' with_reducible first
    | assumption | exact Only.sub hk (by decide) | apply keep_State_putAt | apply keep_State_setEvq | dsimp only
    | fail_if_no_progress (refine Ext.mk_of ?_) | intro _

theorem keep_State_flushLost {F : Area → Bool} {s0 : State} (s : State) (c : Nat) (hk : Only F [.mbx, .evt, .out]) (hx : Ext F s0 s) :
    Ext F s0 (State.flushLost s c) := by
  unfold State.flushLost
  repeat' with_reducible first
    | assumption | exact Only.sub hk (by decide) | apply keep_State_putRecord | apply keep_State_seqOf
    | apply keep_State_pendSet | apply keep_State_ctxMessage | apply keep_State_setEvq
    | refine Ext.of_pair (by assumption) ?_ | refine Ext.of_triple (by assumption) ?_
    | refine Ext.of_done (by assumption) ?_ | refine Ext.of_wait (by assumption) ?_
    | refine Ext.ite (fun _ => ?_) (fun _ => ?_) | dsimp only | fail_if_no_progress (refine Ext.mk_of ?_) | split

theorem keep_State_loseRecord {F : Area → Bool} {s0 : State} (s : State) (e : Ev) (hk : Only F [.evt]) (hx : Ext F s0 s) :
    Ext F s0 (State.loseRecord s e) := by
  unfold State.loseRecord
  repeat' with_reducible first
    | assumption | exact Only.sub hk (by decide) | apply keep_State_setEvq
    | refine Ext.ite (fun _ => ?_) (fun _ => ?_) | dsimp only | fail_if_no_progress (refine Ext.mk_of ?_) | split

theorem keep_State_noQueue {F : Area → Bool} {s0 : State} (s : State) (p : Nat) (hk : Only F [.regs, .rc]) (hx : Ext F s0 s) :
    Ext F s0 (State.noQueue s p) := by
  unfold State.noQueue
  repeat' with_reducible first
    | assumption | exact Only.sub hk (by decide) | apply keep_State_bump | dsimp only

theorem keep_State_raiseCore {F : Area → Bool} {s0 : State} (s : State) (e : Ev) (hk : Only F [.regs, .mbx, .evt, .out, .rc]) (hx : Ext F s0 s) :
    Ext F s0 (State.raiseCore s e).2 := by
  unfold State.raiseCore
  repeat' with_reducible first
    | assumption | exact Only.sub hk (by decide) | apply keep_State_noQueue | apply keep_State_loseRecord
    | apply keep_State_flushLost | apply keep_State_putRecord | apply keep_State_seqOf | apply keep_State_pendSet
    | refine Ext.of_pair (by assumption) ?_ | refine Ext.of_triple (by assumption) ?_
    | refine Ext.of_done (by assumption) ?_ | refine Ext.of_wait (by assumption) ?_
    | refine Ext.ite (fun _ => ?_) (fun _ => ?_) | refine Ext.ite_pair (fun _ => ?_) (fun _ => ?_) | dsimp only
    | split

theorem keep_State_raiseEv {F : Area → Bool} {s0 : State} (s : State) (e : Ev) (hk : Only F [.regs, .mbx, .evt, .out, .rc]) (hx : Ext F s0 s) :
    Ext F s0 (State.raiseEv s e) := by
  unfold State.raiseEv
  repeat' with_reducible first
    | assumption | exact Only.sub hk (by decide) | apply keep_State_raiseCore | apply keep_State_ctxMessage
    | refine Ext.of_pair (by assumption) ?_ | refine Ext.of_triple (by assumption) ?_
    | refine Ext.of_done (by assumption) ?_ | refine Ext.of_wait (by assumption) ?_
    | refine Ext.ite (fun _ => ?_) (fun _ => ?_) | dsimp only | split

theorem keep_State_raise {F : Area → Bool} {s0 : State} (s : State) (ctx : Nat) (code : Nat) (status : Nat) (src : Nat) (arg : Nat) (hk : Only F [.regs, .mbx, .evt, .out, .rc]) (hx : Ext F s0 s) :
    Ext F s0 (State.raise s ctx code status src arg) := by
  unfold State.raise
  repeat' with_reducible first
    | assumption | exact Only.sub hk (by decide) | apply keep_State_raiseEv | dsimp only

theorem keep_State_raiseOf {F : Area → Bool} {s0 : State} (s : State) (e : Nat) (no : Nat) (ctx : Nat) (code : Nat) (status : Nat) (src : Nat) (arg : Nat) (hk : Only F [.regs, .mbx, .evt, .out, .rc]) (hx : Ext F s0 s) :
    Ext F s0 (State.raiseOf s e no ctx code status src arg) := by
  unfold State.raiseOf
  repeat' with_reducible first
    | assumption | exact Only.sub hk (by decide) | apply keep_State_raiseEv | dsimp only

theorem keep_State_raiseIf {F : Area → Bool} {s0 : State} (s : State) (own : Bool) (p : Nat) (e : Ev) (hk : Only F [.regs, .mbx, .evt, .out, .rc]) (hx : Ext F s0 s) :
    Ext F s0 (State.raiseIf s own p e) := by
  unfold State.raiseIf
  repeat' with_reducible first
    | assumption | exact Only.sub hk (by decide) | apply keep_State_raiseEv | apply keep_State_noQueue
    | apply keep_State_seqOf | refine Ext.ite (fun _ => ?_) (fun _ => ?_) | dsimp only | split

theorem keep_State_raiseRes {F : Area → Bool} {s0 : State} (s : State) (p : Nat) (ctx : Nat) (code : Nat) (status : Nat) (src : Nat) (arg : Nat) (hk : Only F [.regs, .mbx, .evt, .out, .rc]) (hx : Ext F s0 s) :
    Ext F s0 (State.raiseRes s p ctx code status src arg) := by
  unfold State.raiseRes
  repeat' with_reducible first
    | assumption | exact Only.sub hk (by decide) | apply keep_State_raiseIf | dsimp only

theorem keep_State_logEntry {F : Area → Bool} {s0 : State} (s : State) (bs : List Byte) (hk : Only F [.regs, .nv, .evt, .rc]) (hx : Ext F s0 s) :
    Ext F s0 (State.logEntry s bs) := by
  unfold State.logEntry
  repeat' with_reducible first
    | assumption | exact Only.sub hk (by decide) | apply keep_State_nvStore | apply keep_State_bump
    | apply keep_State_wrF | refine Ext.ite (fun _ => ?_) (fun _ => ?_) | dsimp only
    | fail_if_no_progress (refine Ext.mk_of ?_) | split

theorem keep_State_logRecord {F : Area → Bool} {s0 : State} (s : State) (bs : List Byte) (hk : Only F [.regs, .nv, .evt, .rc]) (hx : Ext F s0 s) :
    Ext F s0 (State.logRecord s bs) := by
  unfold State.logRecord
  repeat' with_reducible first
    | assumption | exact Only.sub hk (by decide) | apply keep_State_logEntry
    | refine Ext.ite (fun _ => ?_) (fun _ => ?_) | dsimp only | split

theorem keep_State_logFlush {F : Area → Bool} {s0 : State} (s : State) (hk : Only F [.regs, .nv, .evt, .rc]) (hx : Ext F s0 s) :
    Ext F s0 (State.logFlush s) := by
  unfold State.logFlush
  repeat' with_reducible first
    | assumption | exact Only.sub hk (by decide) | apply keep_State_logEntry | apply keep_State_wrF
    | refine Ext.foldl (fun _ _ _ => ?_) ?_ | refine Ext.foldl_pair (fun _ _ _ => ?_) ?_
    | refine Ext.foldl_triple (fun _ _ _ => ?_) ?_ | refine Ext.ite (fun _ => ?_) (fun _ => ?_) | dsimp only
    | fail_if_no_progress (refine Ext.mk_of ?_) | split | intro _

theorem keep_State_putRoot {F : Area → Bool} {s0 : State} (s : State) (r : Root) (hk : Only F [.evt]) (hx : Ext F s0 s) :
    Ext F s0 (State.putRoot s r) := by
  unfold State.putRoot
  repeat' with_reducible first
    | assumption | exact Only.sub hk (by decide) | dsimp only | fail_if_no_progress (refine Ext.mk_of ?_) | intro _

theorem keep_State_rootRegs {F : Area → Bool} {s0 : State} (s : State) (hk : Only F [.regs]) (hx : Ext F s0 s) :
    Ext F s0 (State.rootRegs s) := by
  unfold State.rootRegs
  repeat' with_reducible first
    | assumption | exact Only.sub hk (by decide) | apply keep_State_wr | dsimp only

theorem keep_State_logRoot {F : Area → Bool} {s0 : State} (s : State) (r : Root) (hk : Only F [.regs, .nv, .evt, .rc]) (hx : Ext F s0 s) :
    Ext F s0 (State.logRoot s r) := by
  unfold State.logRoot
  repeat' with_reducible first
    | assumption | exact Only.sub hk (by decide) | apply keep_State_logRecord | dsimp only

theorem keep_State_openRoot {F : Area → Bool} {s0 : State} (s : State) (i : Nat) (id : Nat) (src : Nat) (unit : Nat) (code : Nat) (cls : Nat) (detail : Nat) (hk : Only F [.regs, .nv, .mbx, .evt, .out, .rc]) (hx : Ext F s0 s) :
    Ext F s0 (State.openRoot s i id src unit code cls detail) := by
  unfold State.openRoot
  repeat' with_reducible first
    | assumption | exact Only.sub hk (by decide) | apply keep_State_logRoot | apply keep_State_rootRegs
    | apply keep_State_putRoot | apply keep_State_raise | dsimp only | fail_if_no_progress (refine Ext.mk_of ?_)

theorem keep_State_secondary {F : Area → Bool} {s0 : State} (s : State) (i : Nat) (c : Nat) (hk : Only F [.regs, .mbx, .evt, .out, .rc]) (hx : Ext F s0 s) :
    Ext F s0 (State.secondary s i c).2 := by
  unfold State.secondary
  repeat' with_reducible first
    | assumption | exact Only.sub hk (by decide) | apply keep_State_putRoot | apply keep_State_raiseCore
    | refine Ext.of_pair (by assumption) ?_ | refine Ext.of_triple (by assumption) ?_
    | refine Ext.of_done (by assumption) ?_ | refine Ext.of_wait (by assumption) ?_
    | refine Ext.ite (fun _ => ?_) (fun _ => ?_) | refine Ext.ite_pair (fun _ => ?_) (fun _ => ?_) | dsimp only
    | split | fail_if_no_progress (refine Ext.mk_of ?_)

theorem keep_State_rootMessage {F : Area → Bool} {s0 : State} (s : State) (i : Nat) (c : Nat) (hk : Only F [.mbx, .evt, .out]) (hx : Ext F s0 s) :
    Ext F s0 (State.rootMessage s i c) := by
  unfold State.rootMessage
  repeat' with_reducible first
    | assumption | exact Only.sub hk (by decide) | apply keep_State_putRoot | apply keep_State_ctxMessage
    | refine Ext.of_pair (by assumption) ?_ | refine Ext.of_triple (by assumption) ?_
    | refine Ext.of_done (by assumption) ?_ | refine Ext.of_wait (by assumption) ?_
    | refine Ext.ite (fun _ => ?_) (fun _ => ?_) | dsimp only | fail_if_no_progress (refine Ext.mk_of ?_) | split

theorem keep_State_rootMessages {F : Area → Bool} {s0 : State} (s : State) (l : List (Nat × Nat)) (hk : Only F [.mbx, .evt, .out]) (hx : Ext F s0 s) :
    Ext F s0 (State.rootMessages s l) := by
  unfold State.rootMessages
  repeat' with_reducible first
    | assumption | exact Only.sub hk (by decide) | apply keep_State_rootMessage
    | refine Ext.foldl (fun _ _ _ => ?_) ?_ | refine Ext.foldl_pair (fun _ _ _ => ?_) ?_
    | refine Ext.foldl_triple (fun _ _ _ => ?_) ?_ | dsimp only | intro _

theorem keep_State_report {F : Area → Bool} {s0 : State} (s : State) (f : FaultRep) (hk : Only F [.regs, .nv, .mbx, .evt, .items, .pwr, .out, .rc]) (hx : Ext F s0 s) :
    Ext F s0 (State.report s f).2 := by
  unfold State.report
  repeat' with_reducible first
    | assumption | exact Only.sub hk (by decide) | apply keep_State_openRoot | apply keep_State_putRoot
    | apply keep_State_bump | refine Ext.of_pair (by assumption) ?_ | refine Ext.of_triple (by assumption) ?_
    | refine Ext.of_done (by assumption) ?_ | refine Ext.of_wait (by assumption) ?_
    | refine Ext.ite (fun _ => ?_) (fun _ => ?_) | refine Ext.ite_pair (fun _ => ?_) (fun _ => ?_) | dsimp only
    | split | fail_if_no_progress (refine Ext.mk_of ?_) | intro _

theorem keep_State_secondaries {F : Area → Bool} {s0 : State} (s : State) (i : Nat) (y0 : List Nat) (hk : Only F [.regs, .mbx, .evt, .out, .rc]) (hx : Ext F s0 s) :
    Ext F s0 (State.secondaries s i y0).2 := by
  induction y0 generalizing s i hx with
  | nil =>
    unfold State.secondaries
    repeat' with_reducible first
      | assumption | exact Only.sub hk (by decide) | apply keep_State_secondary
      | refine Ext.of_pair (by assumption) ?_ | refine Ext.of_triple (by assumption) ?_
      | refine Ext.of_done (by assumption) ?_ | refine Ext.of_wait (by assumption) ?_
      | refine Ext.ite (fun _ => ?_) (fun _ => ?_) | refine Ext.ite_pair (fun _ => ?_) (fun _ => ?_) | dsimp only
      | split
  | cons x r ih =>
    unfold State.secondaries
    repeat' with_reducible first
      | assumption | apply ih | exact Only.sub hk (by decide) | apply keep_State_secondary
      | refine Ext.of_pair (by assumption) ?_ | refine Ext.of_triple (by assumption) ?_
      | refine Ext.of_done (by assumption) ?_ | refine Ext.of_wait (by assumption) ?_
      | refine Ext.ite (fun _ => ?_) (fun _ => ?_) | refine Ext.ite_pair (fun _ => ?_) (fun _ => ?_) | dsimp only
      | split

theorem keep_State_faultCore {F : Area → Bool} {s0 : State} (s : State) (f : FaultRep) (hk : Only F [.regs, .nv, .mbx, .evt, .items, .pwr, .out, .rc]) (hx : Ext F s0 s) :
    Ext F s0 (State.faultCore s f).2 := by
  unfold State.faultCore
  repeat' with_reducible first
    | assumption | exact Only.sub hk (by decide) | apply keep_State_secondaries | apply keep_State_report
    | refine Ext.of_pair (by assumption) ?_ | refine Ext.of_triple (by assumption) ?_
    | refine Ext.of_done (by assumption) ?_ | refine Ext.of_wait (by assumption) ?_
    | refine Ext.ite (fun _ => ?_) (fun _ => ?_) | refine Ext.ite_pair (fun _ => ?_) (fun _ => ?_) | dsimp only
    | split | fail_if_no_progress (refine Ext.mk_of ?_) | intro _

theorem keep_State_fault {F : Area → Bool} {s0 : State} (s : State) (f : FaultRep) (hk : Only F [.regs, .nv, .mbx, .evt, .items, .pwr, .out, .rc]) (hx : Ext F s0 s) :
    Ext F s0 (State.fault s f) := by
  unfold State.fault
  repeat' with_reducible first
    | assumption | exact Only.sub hk (by decide) | apply keep_State_faultCore | apply keep_State_rootMessages
    | refine Ext.of_pair (by assumption) ?_ | refine Ext.of_triple (by assumption) ?_
    | refine Ext.of_done (by assumption) ?_ | refine Ext.of_wait (by assumption) ?_ | dsimp only | split

theorem keep_State_faultItem {F : Area → Bool} {s0 : State} (s : State) (src : Nat) (code : Nat) (unit : Nat) (detail : Nat) (ctxs : List (Fin 4096)) (hk : Only F [.regs, .nv, .mbx, .evt, .items, .pwr, .out, .rc]) (hx : Ext F s0 s) :
    Ext F s0 (State.faultItem s src code unit detail ctxs) := by
  unfold State.faultItem
  repeat' with_reducible first
    | assumption | exact Only.sub hk (by decide) | apply keep_State_fault | dsimp only

theorem keep_State_closeRoot {F : Area → Bool} {s0 : State} (s : State) (r : Root) (hk : Only F [.regs, .nv, .mbx, .evt, .out, .rc]) (hx : Ext F s0 s) :
    Ext F s0 (State.closeRoot s r) := by
  unfold State.closeRoot
  repeat' with_reducible first
    | assumption | exact Only.sub hk (by decide) | apply keep_State_logRoot | apply keep_State_rootRegs
    | apply keep_State_putRoot | apply keep_State_raise | dsimp only | fail_if_no_progress (refine Ext.mk_of ?_)

theorem keep_State_clearMarks {F : Area → Bool} {s0 : State} (s : State) (cs : List Nat) (hk : Only F [.evt]) (hx : Ext F s0 s) :
    Ext F s0 (State.clearMarks s cs) := by
  unfold State.clearMarks
  repeat' with_reducible first
    | assumption | exact Only.sub hk (by decide) | dsimp only | fail_if_no_progress (refine Ext.mk_of ?_) | intro _

end Sys2Proof.Laws
end

