-- ==== Sys2Proof/Laws/KeepDramPort.lean ====
section
/-!
SUPPORT. The operations of Machine/DramPort.lean keep the relation Ext.
-/

set_option Elab.async false

namespace Sys2Proof.Laws

open Sys2Proof.Machine

set_option linter.unusedTactic false
set_option linter.unreachableTactic false
set_option maxRecDepth 2000

theorem keep_State_ask {F : Area → Bool} {s0 : State} (s : State) (q : Nat) (ctx : Nat) (a : Nat) (n : Nat) (hk : Only F [.dmc]) (hx : Ext F s0 s) :
    Ext F s0 (State.ask s q ctx a n) := by
  unfold State.ask
  repeat' with_reducible first
    | assumption | exact Only.sub hk (by decide) | refine Ext.ite (fun _ => ?_) (fun _ => ?_) | dsimp only
    | fail_if_no_progress (refine Ext.mk_of ?_) | split

theorem keep_State_spdTouch {F : Area → Bool} {s0 : State} (s : State) (rank : Nat) (write : Bool) (word : Nat) (hk : Only F [.regs, .spd, .rc]) (hx : Ext F s0 s) :
    Ext F s0 (State.spdTouch s rank write word).2.2 := by
  unfold State.spdTouch
  repeat' with_reducible first
    | assumption | exact Only.sub hk (by decide) | apply keep_State_bump | apply keep_State_wr
    | refine Ext.foldl (fun _ _ _ => ?_) ?_ | refine Ext.foldl_pair (fun _ _ _ => ?_) ?_
    | refine Ext.foldl_triple (fun _ _ _ => ?_) ?_ | refine Ext.ite (fun _ => ?_) (fun _ => ?_)
    | refine Ext.ite_triple (fun _ => ?_) (fun _ => ?_) | dsimp only | split
    | fail_if_no_progress (refine Ext.mk_of ?_) | intro _

theorem keep_State_dramUe {F : Area → Bool} {s0 : State} (s : State) (ctx : Nat) (a : Nat) (hk : Only F [.regs, .nv, .mbx, .evt, .items, .pwr, .out, .rc]) (hx : Ext F s0 s) :
    Ext F s0 (State.dramUe s ctx a) := by
  unfold State.dramUe
  repeat' with_reducible first
    | assumption | exact Only.sub hk (by decide) | apply keep_State_faultItem | apply keep_State_bump
    | apply keep_State_wr | dsimp only

theorem keep_State_dramCe {F : Area → Bool} {s0 : State} (s : State) (a : Nat) (hk : Only F [.regs, .rc]) (hx : Ext F s0 s) :
    Ext F s0 (State.dramCe s a) := by
  unfold State.dramCe
  repeat' with_reducible first
    | assumption | exact Only.sub hk (by decide) | apply keep_State_bump | dsimp only

theorem keep_State_meet {F : Area → Bool} {s0 : State} (s : State) (ctx : Nat) (e : Nat × Nat) (hk : Only F [.regs, .nv, .mbx, .evt, .items, .pwr, .out, .rc]) (hx : Ext F s0 s) :
    Ext F s0 (State.meet s ctx e) := by
  unfold State.meet
  repeat' with_reducible first
    | assumption | exact Only.sub hk (by decide) | apply keep_State_dramCe | apply keep_State_dramUe
    | apply keep_State_faultItem | apply keep_State_bump | refine Ext.ite (fun _ => ?_) (fun _ => ?_) | dsimp only
    | split

theorem keep_State_meetAll {F : Area → Bool} {s0 : State} (s : State) (ctx : Nat) (a : Nat) (n : Nat) (hk : Only F [.regs, .nv, .mbx, .evt, .items, .pwr, .out, .rc]) (hx : Ext F s0 s) :
    Ext F s0 (State.meetAll s ctx a n) := by
  unfold State.meetAll
  repeat' with_reducible first
    | assumption | exact Only.sub hk (by decide) | apply keep_State_meet | refine Ext.foldl (fun _ _ _ => ?_) ?_
    | refine Ext.foldl_pair (fun _ _ _ => ?_) ?_ | refine Ext.foldl_triple (fun _ _ _ => ?_) ?_ | dsimp only | intro _

theorem keep_State_mend {F : Area → Bool} {s0 : State} (s : State) (ctx : Nat) (e : Nat × Nat) (hk : Only F [.regs, .nv, .mbx, .evt, .items, .dmc, .pwr, .out, .rc]) (hx : Ext F s0 s) :
    Ext F s0 (State.mend s ctx e) := by
  unfold State.mend
  repeat' with_reducible first
    | assumption | exact Only.sub hk (by decide) | apply keep_State_meet | refine Ext.ite (fun _ => ?_) (fun _ => ?_)
    | dsimp only | fail_if_no_progress (refine Ext.mk_of ?_) | split | intro _

theorem keep_State_eccStore {F : Area → Bool} {s0 : State} (s : State) (ctx : Nat) (a : Nat) (bs : List Byte) (hk : Only F [.regs, .mem, .nv, .mbx, .evt, .items, .dmc, .pwr, .out, .rc]) (hx : Ext F s0 s) :
    Ext F s0 (State.eccStore s ctx a bs) := by
  unfold State.eccStore
  repeat' with_reducible first
    | assumption | exact Only.sub hk (by decide) | apply keep_State_mend | apply keep_State_store
    | refine Ext.foldl (fun _ _ _ => ?_) ?_ | refine Ext.foldl_pair (fun _ _ _ => ?_) ?_
    | refine Ext.foldl_triple (fun _ _ _ => ?_) ?_ | dsimp only | intro _

theorem keep_State_eccReads {F : Area → Bool} {s0 : State} (s : State) (ctx : Nat) (a : Nat) (n : Nat) (hk : Only F [.regs, .nv, .mbx, .evt, .items, .pwr, .out, .rc]) (hx : Ext F s0 s) :
    Ext F s0 (State.eccReads s ctx a n).2 := by
  unfold State.eccReads
  repeat' with_reducible first
    | assumption | exact Only.sub hk (by decide) | apply keep_State_meetAll | dsimp only

theorem keep_State_reach {F : Area → Bool} {s0 : State} (s : State) (q : Nat) (ctx : Nat) (write : Bool) (a : Nat) (n : Nat) (hk : Only F [.regs, .dmc, .spd, .rc]) (hx : Ext F s0 s) :
    Ext F s0 (State.reach s q ctx write a n).2 := by
  unfold State.reach
  repeat' with_reducible first
    | assumption | exact Only.sub hk (by decide) | apply keep_State_spdTouch | apply keep_State_ask
    | apply keep_State_viol | refine Ext.of_pair (by assumption) ?_ | refine Ext.of_triple (by assumption) ?_
    | refine Ext.of_done (by assumption) ?_ | refine Ext.of_wait (by assumption) ?_
    | refine Ext.ite (fun _ => ?_) (fun _ => ?_) | refine Ext.ite_pair (fun _ => ?_) (fun _ => ?_) | dsimp only
    | split

theorem keep_State_dmaPut {F : Area → Bool} {s0 : State} (s : State) (q : Nat) (ctx : Nat) (a : Nat) (bs : List Byte) (hk : Only F [.regs, .mem, .nv, .mbx, .evt, .items, .dmc, .pwr, .out, .spd, .rc]) (hx : Ext F s0 s) :
    Ext F s0 (State.dmaPut s q ctx a bs) := by
  unfold State.dmaPut
  repeat' with_reducible first
    | assumption | exact Only.sub hk (by decide) | apply keep_State_reach | apply keep_State_eccStore
    | refine Ext.of_pair (by assumption) ?_ | refine Ext.of_triple (by assumption) ?_
    | refine Ext.of_done (by assumption) ?_ | refine Ext.of_wait (by assumption) ?_
    | refine Ext.ite (fun _ => ?_) (fun _ => ?_) | dsimp only | split

theorem keep_State_dmaGet {F : Area → Bool} {s0 : State} (s : State) (q : Nat) (ctx : Nat) (a : Nat) (n : Nat) (hk : Only F [.regs, .nv, .mbx, .evt, .items, .dmc, .pwr, .out, .spd, .rc]) (hx : Ext F s0 s) :
    Ext F s0 (State.dmaGet s q ctx a n) := by
  unfold State.dmaGet
  repeat' with_reducible first
    | assumption | exact Only.sub hk (by decide) | apply keep_State_reach | apply keep_State_meetAll
    | refine Ext.of_pair (by assumption) ?_ | refine Ext.of_triple (by assumption) ?_
    | refine Ext.of_done (by assumption) ?_ | refine Ext.of_wait (by assumption) ?_
    | refine Ext.ite (fun _ => ?_) (fun _ => ?_) | dsimp only | split

theorem keep_State_dmaGets {F : Area → Bool} {s0 : State} (s : State) (q : Nat) (ctx : Nat) (l : List (Nat × Nat)) (hk : Only F [.regs, .nv, .mbx, .evt, .items, .dmc, .pwr, .out, .spd, .rc]) (hx : Ext F s0 s) :
    Ext F s0 (State.dmaGets s q ctx l) := by
  unfold State.dmaGets
  repeat' with_reducible first
    | assumption | exact Only.sub hk (by decide) | apply keep_State_dmaGet | refine Ext.foldl (fun _ _ _ => ?_) ?_
    | refine Ext.foldl_pair (fun _ _ _ => ?_) ?_ | refine Ext.foldl_triple (fun _ _ _ => ?_) ?_ | dsimp only | intro _

end Sys2Proof.Laws
end

