-- ==== Sys2Proof/Laws/KeepAccess.lean ====
section
/-!
SUPPORT. The operations of Machine/Access.lean keep the relation Ext.
-/

set_option Elab.async false

namespace Sys2Proof.Laws

open Sys2Proof.Machine

set_option linter.unusedTactic false
set_option linter.unreachableTactic false
set_option maxRecDepth 2000

theorem keep_State_readAt {F : Area → Bool} {s0 : State} (s : State) (p : Nat) (ctx : Nat) (a : Nat) (hk : Only F [.regs, .nv, .mbx, .evt, .items, .dmc, .pwr, .free, .out, .spd, .rc]) (hx : Ext F s0 s) :
    Ext F s0 (State.readAt s p ctx a).2.2 := by
  unfold State.readAt
  repeat' with_reducible first
    | assumption | exact Only.sub hk (by decide) | apply keep_State_eccReads | apply keep_State_spdTouch
    | apply keep_State_ask | apply keep_State_viol | apply keep_State_fresh | apply keep_State_readCount
    | refine Ext.of_pair (by assumption) ?_ | refine Ext.of_triple (by assumption) ?_
    | refine Ext.of_done (by assumption) ?_ | refine Ext.of_wait (by assumption) ?_
    | refine Ext.ite (fun _ => ?_) (fun _ => ?_) | refine Ext.ite_triple (fun _ => ?_) (fun _ => ?_) | dsimp only
    | split

theorem keep_State_readRun {F : Area → Bool} {s0 : State} (s : State) (p : Nat) (ctx : Nat) (a : Nat) (y0 : Nat) (hk : Only F [.regs, .nv, .mbx, .evt, .items, .dmc, .pwr, .free, .out, .spd, .rc]) (hx : Ext F s0 s) :
    Ext F s0 (State.readRun s p ctx a y0).2.2 := by
  induction y0 generalizing s p ctx a hx with
  | zero =>
    unfold State.readRun
    repeat' with_reducible first
      | assumption | exact Only.sub hk (by decide) | apply keep_State_readAt | refine Ext.of_pair (by assumption) ?_
      | refine Ext.of_triple (by assumption) ?_ | refine Ext.of_done (by assumption) ?_
      | refine Ext.of_wait (by assumption) ?_ | dsimp only | split
  | succ k ih =>
    unfold State.readRun
    repeat' with_reducible first
      | assumption | apply ih | exact Only.sub hk (by decide) | apply keep_State_readAt
      | refine Ext.of_pair (by assumption) ?_ | refine Ext.of_triple (by assumption) ?_
      | refine Ext.of_done (by assumption) ?_ | refine Ext.of_wait (by assumption) ?_ | dsimp only | split

end Sys2Proof.Laws
end

