-- ==== Sys2Proof/Laws/KeepOperands.lean ====
section
/-!
SUPPORT. The operations of Machine/Operands.lean keep the relation Ext.
-/

set_option Elab.async false

namespace Sys2Proof.Laws

open Sys2Proof.Machine

set_option linter.unusedTactic false
set_option linter.unreachableTactic false
set_option maxRecDepth 2000

theorem keep_State_setSlot {F : Area → Bool} {s0 : State} (s : State) (p : Nat) (slot : Nat) (st : Nat) (hk : Only F [.regs]) (hx : Ext F s0 s) :
    Ext F s0 (State.setSlot s p slot st) := by
  unfold State.setSlot
  repeat' with_reducible first
    | assumption | exact Only.sub hk (by decide) | apply keep_State_wrF | dsimp only

theorem keep_State_intSet {F : Area → Bool} {s0 : State} (s : State) (p : Nat) (bits : Nat) (hk : Only F [.regs, .mbx, .out]) (hx : Ext F s0 s) :
    Ext F s0 (State.intSet s p bits) := by
  unfold State.intSet
  repeat' with_reducible first
    | assumption | exact Only.sub hk (by decide) | apply keep_State_msix | apply keep_State_wr
    | refine Ext.ite (fun _ => ?_) (fun _ => ?_) | dsimp only | split

theorem keep_State_writeResponse {F : Area → Bool} {s0 : State} (s : State) (slot : Nat) (c : Cached) (replayed : Bool) (hk : Only F [.regs, .mbx, .out]) (hx : Ext F s0 s) :
    Ext F s0 (State.writeResponse s slot c replayed) := by
  unfold State.writeResponse
  repeat' with_reducible first
    | assumption | exact Only.sub hk (by decide) | apply keep_State_intSet | apply keep_State_setSlot
    | apply keep_State_wrs | dsimp only | intro _

theorem keep_State_keep {F : Area → Bool} {s0 : State} (s : State) (e : Cached) (hk : Only F [.mbx]) (hx : Ext F s0 s) :
    Ext F s0 (State.keep s e) := by
  unfold State.keep
  repeat' with_reducible first
    | assumption | exact Only.sub hk (by decide) | dsimp only | fail_if_no_progress (refine Ext.mk_of ?_) | intro _

theorem keep_State_answer {F : Area → Bool} {s0 : State} (s : State) (p : Nat) (slot : Nat) (status : Nat) (payload : List Word) (hk : Only F [.regs, .mbx, .out]) (hx : Ext F s0 s) :
    Ext F s0 (State.answer s p slot status payload) := by
  unfold State.answer
  repeat' with_reducible first
    | assumption | exact Only.sub hk (by decide) | apply keep_State_keep | apply keep_State_writeResponse | dsimp only

theorem keep_State_refuse {F : Area → Bool} {s0 : State} (s : State) (p : Nat) (slot : Nat) (g : Gate) (hk : Only F [.regs, .mbx, .out, .rc]) (hx : Ext F s0 s) :
    Ext F s0 (State.refuse s p slot g) := by
  unfold State.refuse
  repeat' with_reducible first
    | assumption | exact Only.sub hk (by decide) | apply keep_State_answer | apply keep_State_writeResponse
    | apply keep_State_viol | apply keep_State_bump | refine Ext.of_pair (by assumption) ?_
    | refine Ext.of_triple (by assumption) ?_ | refine Ext.of_done (by assumption) ?_
    | refine Ext.of_wait (by assumption) ?_ | refine Ext.ite (fun _ => ?_) (fun _ => ?_) | dsimp only | split

theorem keep_State_unpost {F : Area → Bool} {s0 : State} (s : State) (p : Nat) (slot : Nat) (hk : Only F [.mbx]) (hx : Ext F s0 s) :
    Ext F s0 (State.unpost s p slot) := by
  unfold State.unpost
  repeat' with_reducible first
    | assumption | exact Only.sub hk (by decide) | dsimp only | fail_if_no_progress (refine Ext.mk_of ?_) | intro _

theorem keep_dmaOut {F : Area → Bool} {s0 : State} (r : Req) (bs : List Byte) (s : State) (s' : State) (hk : Only F [.out]) (hx : Ext F s0 s) (hx1 : Ext F s0 s') :
    Ext F s0 (ansSt (dmaOut r bs s s')) := by
  unfold dmaOut
  repeat' with_reducible first
    | assumption | exact Only.sub hk (by decide) | apply keep_State_emit | refine Ext.ite (fun _ => ?_) (fun _ => ?_)
    | refine Ext.ite_ans (fun _ => ?_) (fun _ => ?_) | refine Ext.done ?_ | dsimp only | split

theorem keep_State_finish {F : Area → Bool} {s0 : State} (s : State) (k : WaitKind → Bool) (status : Nat) (payload : List Word) (hk : Only F [.regs, .mbx, .out]) (hx : Ext F s0 s) :
    Ext F s0 (State.finish s k status payload) := by
  unfold State.finish
  repeat' with_reducible first
    | assumption | exact Only.sub hk (by decide) | apply keep_State_answer | refine Ext.foldl (fun _ _ _ => ?_) ?_
    | refine Ext.foldl_pair (fun _ _ _ => ?_) ?_ | refine Ext.foldl_triple (fun _ _ _ => ?_) ?_ | dsimp only
    | fail_if_no_progress (refine Ext.mk_of ?_) | intro _

end Sys2Proof.Laws
end

