-- ==== Sys2Proof/Laws/KeepRingOps.lean ====
section
/-!
SUPPORT. The operations of Machine/RingOps.lean keep the relation Ext.
-/

set_option Elab.async false

namespace Sys2Proof.Laws

open Sys2Proof.Machine

set_option linter.unusedTactic false
set_option linter.unreachableTactic false
set_option maxRecDepth 2000

theorem keep_State_setRing {F : Area → Bool} {s0 : State} (s : State) (r : Nat) (x : Ring) (hk : Only F [.rings]) (hx : Ext F s0 s) :
    Ext F s0 (State.setRing s r x) := by
  unfold State.setRing
  repeat' with_reducible first
    | assumption | exact Only.sub hk (by decide) | dsimp only | fail_if_no_progress (refine Ext.mk_of ?_) | intro _

theorem keep_State_holdRegs {F : Area → Bool} {s0 : State} (s : State) (sc : Nat) (hk : Only F [.regs]) (hx : Ext F s0 s) :
    Ext F s0 (State.holdRegs s sc) := by
  unfold State.holdRegs
  repeat' with_reducible first
    | assumption | exact Only.sub hk (by decide) | apply keep_State_wrF | dsimp only | intro _

theorem keep_State_hold {F : Area → Bool} {s0 : State} (s : State) (h : Hold) (hk : Only F [.regs, .cpl]) (hx : Ext F s0 s) :
    Ext F s0 (State.hold s h) := by
  unfold State.hold
  repeat' with_reducible first
    | assumption | exact Only.sub hk (by decide) | apply keep_State_holdRegs | dsimp only
    | fail_if_no_progress (refine Ext.mk_of ?_)

theorem keep_State_release {F : Area → Bool} {s0 : State} (s : State) (h : Hold) (hk : Only F [.regs, .cpl]) (hx : Ext F s0 s) :
    Ext F s0 (State.release s h) := by
  unfold State.release
  repeat' with_reducible first
    | assumption | exact Only.sub hk (by decide) | apply keep_State_holdRegs | dsimp only
    | fail_if_no_progress (refine Ext.mk_of ?_)

theorem keep_State_ringEvent {F : Area → Bool} {s0 : State} (s : State) (r : Nat) (hk : Only F [.regs, .mbx, .evt, .rings, .out, .rc]) (hx : Ext F s0 s) :
    Ext F s0 (State.ringEvent s r) := by
  unfold State.ringEvent
  repeat' with_reducible first
    | assumption | exact Only.sub hk (by decide) | apply keep_State_setRing | apply keep_State_raise
    | refine Ext.of_pair (by assumption) ?_ | refine Ext.of_triple (by assumption) ?_
    | refine Ext.of_done (by assumption) ?_ | refine Ext.of_wait (by assumption) ?_
    | refine Ext.ite (fun _ => ?_) (fun _ => ?_) | dsimp only | fail_if_no_progress (refine Ext.mk_of ?_) | split

theorem keep_State_hostWrite {F : Area → Bool} {s0 : State} (s : State) (r : Nat) (addr : Nat) (bs : List Byte) (event : Bool) (hk : Only F [.regs, .mbx, .evt, .rings, .out, .rc]) (hx : Ext F s0 s) :
    Ext F s0 (State.hostWrite s r addr bs event) := by
  unfold State.hostWrite
  repeat' with_reducible first
    | assumption | exact Only.sub hk (by decide) | apply keep_State_ringEvent | apply keep_State_emit
    | refine Ext.ite (fun _ => ?_) (fun _ => ?_) | dsimp only | fail_if_no_progress (refine Ext.mk_of ?_) | split

theorem keep_State_hostFlush {F : Area → Bool} {s0 : State} (s : State) (fn : Nat) (hk : Only F [.regs, .mbx, .evt, .rings, .out, .rc]) (hx : Ext F s0 s) :
    Ext F s0 (State.hostFlush s fn) := by
  unfold State.hostFlush
  repeat' with_reducible first
    | assumption | exact Only.sub hk (by decide) | apply keep_State_ringEvent | apply keep_State_emit
    | refine Ext.foldl (fun _ _ _ => ?_) ?_ | refine Ext.foldl_pair (fun _ _ _ => ?_) ?_
    | refine Ext.foldl_triple (fun _ _ _ => ?_) ?_ | refine Ext.ite (fun _ => ?_) (fun _ => ?_) | dsimp only
    | fail_if_no_progress (refine Ext.mk_of ?_) | split | intro _

theorem keep_State_devWord {F : Area → Bool} {s0 : State} (s : State) (r : Nat) (event : Bool) (hk : Only F [.regs, .mbx, .evt, .rings, .out, .rc]) (hx : Ext F s0 s) :
    Ext F s0 (State.devWord s r event) := by
  unfold State.devWord
  repeat' with_reducible first
    | assumption | exact Only.sub hk (by decide) | apply keep_State_hostWrite | dsimp only

theorem keep_State_complete1 {F : Area → Bool} {s0 : State} (s : State) (r : Nat) (bytes : Nat) (status : Nat) (cflags : Nat) (kind : Nat) (item : Nat) (hk : Only F [.regs, .mbx, .evt, .rings, .out, .rc]) (hx : Ext F s0 s) :
    Ext F s0 (State.complete1 s r bytes status cflags kind item) := by
  unfold State.complete1
  repeat' with_reducible first
    | assumption | exact Only.sub hk (by decide) | apply keep_State_devWord | apply keep_State_hostWrite
    | apply keep_State_setRing | refine Ext.of_pair (by assumption) ?_ | refine Ext.of_triple (by assumption) ?_
    | refine Ext.of_done (by assumption) ?_ | refine Ext.of_wait (by assumption) ?_ | dsimp only
    | fail_if_no_progress (refine Ext.mk_of ?_) | split

theorem keep_State_popBad {F : Area → Bool} {s0 : State} (s : State) (r : Nat) (y0 : Nat) (hk : Only F [.regs, .mbx, .evt, .rings, .out, .rc]) (hx : Ext F s0 s) :
    Ext F s0 (State.popBad s r y0) := by
  induction y0 generalizing s r hx with
  | zero =>
    unfold State.popBad
    repeat' with_reducible first
      | assumption | exact Only.sub hk (by decide) | apply keep_State_complete1
      | refine Ext.of_pair (by assumption) ?_ | refine Ext.of_triple (by assumption) ?_
      | refine Ext.of_done (by assumption) ?_ | refine Ext.of_wait (by assumption) ?_
      | refine Ext.ite (fun _ => ?_) (fun _ => ?_) | dsimp only | split
  | succ k ih =>
    unfold State.popBad
    repeat' with_reducible first
      | assumption | apply ih | exact Only.sub hk (by decide) | apply keep_State_complete1
      | refine Ext.of_pair (by assumption) ?_ | refine Ext.of_triple (by assumption) ?_
      | refine Ext.of_done (by assumption) ?_ | refine Ext.of_wait (by assumption) ?_
      | refine Ext.ite (fun _ => ?_) (fun _ => ?_) | dsimp only | split

theorem keep_State_stageRegs {F : Area → Bool} {s0 : State} (s : State) (hk : Only F [.regs]) (hx : Ext F s0 s) :
    Ext F s0 (State.stageRegs s) := by
  unfold State.stageRegs
  repeat' with_reducible first
    | assumption | exact Only.sub hk (by decide) | apply keep_State_wrF | dsimp only

theorem keep_State_itemRead {F : Area → Bool} {s0 : State} (s : State) (it : Item) (k : Nat) (hk : Only F [.regs, .nv, .mbx, .evt, .items, .dmc, .pwr, .out, .spd, .rc]) (hx : Ext F s0 s) :
    Ext F s0 (State.itemRead s it k).2 := by
  unfold State.itemRead
  repeat' with_reducible first
    | assumption | exact Only.sub hk (by decide) | apply keep_State_dmaGets | apply keep_State_faultItem
    | refine Ext.of_pair (by assumption) ?_ | refine Ext.of_triple (by assumption) ?_
    | refine Ext.of_done (by assumption) ?_ | refine Ext.of_wait (by assumption) ?_
    | refine Ext.ite (fun _ => ?_) (fun _ => ?_) | refine Ext.ite_pair (fun _ => ?_) (fun _ => ?_) | dsimp only
    | split | fail_if_no_progress (refine Ext.mk_of ?_) | intro _

theorem keep_State_itemEnd {F : Area → Bool} {s0 : State} (s : State) (it : Item) (whole : Bool) (hk : Only F [.regs, .mbx, .evt, .items, .cpl, .lnd, .out, .rc]) (hx : Ext F s0 s) :
    Ext F s0 (State.itemEnd s it whole) := by
  unfold State.itemEnd
  repeat' with_reducible first
    | assumption | exact Only.sub hk (by decide) | apply keep_State_stageRegs | apply keep_State_release
    | apply keep_State_raiseRes | refine Ext.of_pair (by assumption) ?_ | refine Ext.of_triple (by assumption) ?_
    | refine Ext.of_done (by assumption) ?_ | refine Ext.of_wait (by assumption) ?_
    | refine Ext.ite (fun _ => ?_) (fun _ => ?_) | dsimp only | fail_if_no_progress (refine Ext.mk_of ?_) | split
    | intro _

theorem keep_State_countDrop {F : Area → Bool} {s0 : State} (s : State) (r : Nat) (reason : Nat) (hk : Only F [.regs, .mbx, .evt, .rings, .out, .rc]) (hx : Ext F s0 s) :
    Ext F s0 (State.countDrop s r reason) := by
  unfold State.countDrop
  repeat' with_reducible first
    | assumption | exact Only.sub hk (by decide) | apply keep_State_setRing | apply keep_State_raise
    | apply keep_State_bump | refine Ext.ite (fun _ => ?_) (fun _ => ?_) | dsimp only
    | fail_if_no_progress (refine Ext.mk_of ?_) | split

theorem keep_State_startNext {F : Area → Bool} {s0 : State} (s : State) (r : Nat) (y0 : Nat) (hk : Only F [.regs, .mbx, .evt, .items, .rings, .cpl, .lnd, .out, .rc]) (hx : Ext F s0 s) :
    Ext F s0 (State.startNext s r y0) := by
  induction y0 generalizing s r hx with
  | zero =>
    unfold State.startNext
    repeat' with_reducible first
      | assumption | exact Only.sub hk (by decide) | apply keep_State_countDrop | apply keep_State_itemEnd
      | apply keep_State_setRing | refine Ext.of_pair (by assumption) ?_ | refine Ext.of_triple (by assumption) ?_
      | refine Ext.of_done (by assumption) ?_ | refine Ext.of_wait (by assumption) ?_
      | refine Ext.ite (fun _ => ?_) (fun _ => ?_) | dsimp only | fail_if_no_progress (refine Ext.mk_of ?_) | split
  | succ k ih =>
    unfold State.startNext
    repeat' with_reducible first
      | assumption | apply ih | exact Only.sub hk (by decide) | apply keep_State_countDrop | apply keep_State_itemEnd
      | apply keep_State_setRing | refine Ext.of_pair (by assumption) ?_ | refine Ext.of_triple (by assumption) ?_
      | refine Ext.of_done (by assumption) ?_ | refine Ext.of_wait (by assumption) ?_
      | refine Ext.ite (fun _ => ?_) (fun _ => ?_) | dsimp only | fail_if_no_progress (refine Ext.mk_of ?_) | split

theorem keep_State_arrive {F : Area → Bool} {s0 : State} (s : State) (it : Item) (hk : Only F [.regs, .mbx, .evt, .items, .rings, .cpl, .lnd, .out, .rc]) (hx : Ext F s0 s) :
    Ext F s0 (State.arrive s it) := by
  unfold State.arrive
  repeat' with_reducible first
    | assumption | exact Only.sub hk (by decide) | apply keep_State_startNext | apply keep_State_stageRegs
    | dsimp only | fail_if_no_progress (refine Ext.mk_of ?_)

theorem keep_State_putRuns {F : Area → Bool} {s0 : State} (s : State) (ctx : Nat) (y0 : List (Nat × Nat)) (y1 : List Byte) (hk : Only F [.regs, .mem, .nv, .mbx, .evt, .items, .dmc, .pwr, .out, .spd, .rc]) (hx : Ext F s0 s) :
    Ext F s0 (State.putRuns s ctx y0 y1) := by
  induction y0 generalizing s ctx y1 hx with
  | nil =>
    unfold State.putRuns
    repeat' with_reducible first
      | assumption | exact Only.sub hk (by decide) | apply keep_State_dmaPut | dsimp only
  | cons x r ih =>
    unfold State.putRuns
    repeat' with_reducible first
      | assumption | apply ih | exact Only.sub hk (by decide) | apply keep_State_dmaPut | dsimp only

theorem keep_State_stage {F : Area → Bool} {s0 : State} (s : State) (it : Item) (bs : List Byte) (hk : Only F [.regs, .mem, .nv, .mbx, .evt, .items, .rings, .cpl, .lnd, .dmc, .pwr, .free, .out, .spd, .rc]) (hx : Ext F s0 s) :
    Ext F s0 (State.stage s it bs) := by
  unfold State.stage
  repeat' with_reducible first
    | assumption | exact Only.sub hk (by decide) | apply keep_State_putRuns | apply keep_State_arrive
    | apply keep_State_countDrop | apply keep_State_fresh | refine Ext.of_pair (by assumption) ?_
    | refine Ext.of_triple (by assumption) ?_ | refine Ext.of_done (by assumption) ?_
    | refine Ext.of_wait (by assumption) ?_ | refine Ext.ite (fun _ => ?_) (fun _ => ?_) | dsimp only
    | fail_if_no_progress (refine Ext.mk_of ?_) | split

theorem keep_State_fill {F : Area → Bool} {s0 : State} (s : State) (r : Nat) (y0 : Nat) (y1 : Nat) (hk : Only F [.regs, .nv, .mbx, .evt, .items, .rings, .cpl, .lnd, .dmc, .pwr, .out, .spd, .rc]) (hx : Ext F s0 s) :
    Ext F s0 (State.fill s r y0 y1) := by
  induction y0 generalizing s r y1 hx with
  | zero =>
    unfold State.fill
    repeat' with_reducible first
      | assumption | exact Only.sub hk (by decide) | apply keep_State_startNext | apply keep_State_countDrop
      | apply keep_State_itemEnd | apply keep_State_itemRead | apply keep_State_popBad | apply keep_State_complete1
      | apply keep_State_setRing | apply keep_State_emit | refine Ext.of_pair (by assumption) ?_
      | refine Ext.of_triple (by assumption) ?_ | refine Ext.of_done (by assumption) ?_
      | refine Ext.of_wait (by assumption) ?_ | refine Ext.ite (fun _ => ?_) (fun _ => ?_) | dsimp only
      | fail_if_no_progress (refine Ext.mk_of ?_) | split
  | succ k ih =>
    unfold State.fill
    repeat' with_reducible first
      | assumption | apply ih | exact Only.sub hk (by decide) | apply keep_State_startNext
      | apply keep_State_countDrop | apply keep_State_itemEnd | apply keep_State_itemRead | apply keep_State_popBad
      | apply keep_State_complete1 | apply keep_State_setRing | apply keep_State_emit
      | refine Ext.of_pair (by assumption) ?_ | refine Ext.of_triple (by assumption) ?_
      | refine Ext.of_done (by assumption) ?_ | refine Ext.of_wait (by assumption) ?_
      | refine Ext.ite (fun _ => ?_) (fun _ => ?_) | dsimp only | fail_if_no_progress (refine Ext.mk_of ?_) | split

theorem keep_State_abortTaken {F : Area → Bool} {s0 : State} (s : State) (r : Nat) (status : Nat) (y0 : Nat) (hk : Only F [.regs, .mbx, .evt, .rings, .out, .rc]) (hx : Ext F s0 s) :
    Ext F s0 (State.abortTaken s r status y0) := by
  induction y0 generalizing s r status hx with
  | zero =>
    unfold State.abortTaken
    repeat' with_reducible first
      | assumption | exact Only.sub hk (by decide) | apply keep_State_complete1
      | refine Ext.of_pair (by assumption) ?_ | refine Ext.of_triple (by assumption) ?_
      | refine Ext.of_done (by assumption) ?_ | refine Ext.of_wait (by assumption) ?_
      | refine Ext.ite (fun _ => ?_) (fun _ => ?_) | dsimp only | split
  | succ k ih =>
    unfold State.abortTaken
    repeat' with_reducible first
      | assumption | apply ih | exact Only.sub hk (by decide) | apply keep_State_complete1
      | refine Ext.of_pair (by assumption) ?_ | refine Ext.of_triple (by assumption) ?_
      | refine Ext.of_done (by assumption) ?_ | refine Ext.of_wait (by assumption) ?_
      | refine Ext.ite (fun _ => ?_) (fun _ => ?_) | dsimp only | split

theorem keep_State_stopRing {F : Area → Bool} {s0 : State} (s : State) (r : Nat) (cut : Nat) (rest : Nat) (state : Nat) (cause : Nat) (more : Nat) (hk : Only F [.regs, .nv, .mbx, .evt, .items, .rings, .cpl, .lnd, .dmc, .pwr, .out, .spd, .rc]) (hx : Ext F s0 s) :
    Ext F s0 (State.stopRing s r cut rest state cause more) := by
  unfold State.stopRing
  repeat' with_reducible first
    | assumption | exact Only.sub hk (by decide) | apply keep_State_abortTaken | apply keep_State_countDrop
    | apply keep_State_itemEnd | apply keep_State_itemRead | apply keep_State_complete1 | apply keep_State_devWord
    | apply keep_State_emit | apply keep_State_wrs | apply keep_State_wrF | refine Ext.foldl (fun _ _ _ => ?_) ?_
    | refine Ext.foldl_pair (fun _ _ _ => ?_) ?_ | refine Ext.foldl_triple (fun _ _ _ => ?_) ?_
    | refine Ext.of_pair (by assumption) ?_ | refine Ext.of_triple (by assumption) ?_
    | refine Ext.of_done (by assumption) ?_ | refine Ext.of_wait (by assumption) ?_
    | refine Ext.ite (fun _ => ?_) (fun _ => ?_) | dsimp only | fail_if_no_progress (refine Ext.mk_of ?_) | split
    | intro _

theorem keep_State_clearRing {F : Area → Bool} {s0 : State} (s : State) (r : Nat) (hk : Only F [.regs, .rings]) (hx : Ext F s0 s) :
    Ext F s0 (State.clearRing s r) := by
  unfold State.clearRing
  repeat' with_reducible first
    | assumption | exact Only.sub hk (by decide) | apply keep_State_setRing | apply keep_State_regClear | dsimp only

theorem keep_State_resetRings {F : Area → Bool} {s0 : State} (s : State) (cs : List Nat) (level : Nat) (hk : Only F [.regs, .nv, .mbx, .evt, .items, .rings, .cpl, .lnd, .dmc, .pwr, .out, .spd, .rc]) (hx : Ext F s0 s) :
    Ext F s0 (State.resetRings s cs level) := by
  unfold State.resetRings
  repeat' with_reducible first
    | assumption | exact Only.sub hk (by decide) | apply keep_State_clearRing | apply keep_State_stopRing
    | apply keep_State_setRing | refine Ext.foldl (fun _ _ _ => ?_) ?_ | refine Ext.foldl_pair (fun _ _ _ => ?_) ?_
    | refine Ext.foldl_triple (fun _ _ _ => ?_) ?_ | refine Ext.ite (fun _ => ?_) (fun _ => ?_) | dsimp only
    | fail_if_no_progress (refine Ext.mk_of ?_) | split | intro _

theorem keep_State_streamItem {F : Area → Bool} {s0 : State} (s : State) (e : Nat) (i : Nat) (kind : Nat) (bs : List Byte) (hk : Only F [.regs, .mem, .nv, .mbx, .evt, .items, .rings, .cpl, .lnd, .dmc, .pwr, .free, .out, .spd, .rc]) (hx : Ext F s0 s) :
    Ext F s0 (State.streamItem s e i kind bs) := by
  unfold State.streamItem
  repeat' with_reducible first
    | assumption | exact Only.sub hk (by decide) | apply keep_State_stage | refine Ext.ite (fun _ => ?_) (fun _ => ?_)
    | dsimp only | split

end Sys2Proof.Laws
end

