-- ==== Sys2Proof/Laws/KeepDramOps.lean ====
section
/-!
SUPPORT. The operations of Machine/DramOps.lean keep the relation Ext.
-/

set_option Elab.async false

namespace Sys2Proof.Laws

open Sys2Proof.Machine

set_option linter.unusedTactic false
set_option linter.unreachableTactic false
set_option maxRecDepth 2000

theorem keep_State_findRange {F : Area → Bool} {s0 : State} (s : State) (n : Nat) (hk : Only F [.free]) (hx : Ext F s0 s) :
    Ext F s0 (State.findRange s n).2 := by
  unfold State.findRange
  repeat' with_reducible first
    | assumption | exact Only.sub hk (by decide) | apply keep_State_fresh | refine Ext.of_pair (by assumption) ?_
    | refine Ext.of_triple (by assumption) ?_ | refine Ext.of_done (by assumption) ?_
    | refine Ext.of_wait (by assumption) ?_ | refine Ext.ite (fun _ => ?_) (fun _ => ?_)
    | refine Ext.ite_pair (fun _ => ?_) (fun _ => ?_) | dsimp only | split

theorem keep_State_usedRegs {F : Area → Bool} {s0 : State} (s : State) (p : Nat) (c : Option Nat) (hk : Only F [.regs]) (hx : Ext F s0 s) :
    Ext F s0 (State.usedRegs s p c) := by
  unfold State.usedRegs
  repeat' with_reducible first
    | assumption | exact Only.sub hk (by decide) | apply keep_State_wr | refine Ext.of_pair (by assumption) ?_
    | refine Ext.of_triple (by assumption) ?_ | refine Ext.of_done (by assumption) ?_
    | refine Ext.of_wait (by assumption) ?_ | dsimp only | split

theorem keep_State_usedAll {F : Area → Bool} {s0 : State} (s : State) (hk : Only F [.regs]) (hx : Ext F s0 s) :
    Ext F s0 (State.usedAll s) := by
  unfold State.usedAll
  repeat' with_reducible first
    | assumption | exact Only.sub hk (by decide) | apply keep_State_usedRegs | refine Ext.foldl (fun _ _ _ => ?_) ?_
    | refine Ext.foldl_pair (fun _ _ _ => ?_) ?_ | refine Ext.foldl_triple (fun _ _ _ => ?_) ?_ | dsimp only | intro _

theorem keep_State_addAlloc {F : Area → Bool} {s0 : State} (s : State) (x : Alloc) (hk : Only F [.regs, .allocs]) (hx : Ext F s0 s) :
    Ext F s0 (State.addAlloc s x) := by
  unfold State.addAlloc
  repeat' with_reducible first
    | assumption | exact Only.sub hk (by decide) | apply keep_State_usedRegs | dsimp only
    | fail_if_no_progress (refine Ext.mk_of ?_)

theorem keep_State_dropAlloc {F : Area → Bool} {s0 : State} (s : State) (x : Alloc) (hk : Only F [.regs, .allocs]) (hx : Ext F s0 s) :
    Ext F s0 (State.dropAlloc s x) := by
  unfold State.dropAlloc
  repeat' with_reducible first
    | assumption | exact Only.sub hk (by decide) | apply keep_State_usedRegs | dsimp only
    | fail_if_no_progress (refine Ext.mk_of ?_)

theorem keep_State_nvApply {F : Area → Bool} {s0 : State} (s : State) (u : NvUpd) (hk : Only F [.nv]) (hx : Ext F s0 s) :
    Ext F s0 (State.nvApply s u) := by
  unfold State.nvApply
  repeat' with_reducible first
    | assumption | exact Only.sub hk (by decide) | apply keep_State_nvStore | refine Ext.of_pair (by assumption) ?_
    | refine Ext.of_triple (by assumption) ?_ | refine Ext.of_done (by assumption) ?_
    | refine Ext.of_wait (by assumption) ?_ | refine Ext.ite (fun _ => ?_) (fun _ => ?_) | dsimp only
    | fail_if_no_progress (refine Ext.mk_of ?_) | split | intro _

theorem keep_State_nvUpdate {F : Area → Bool} {s0 : State} (s : State) (u : NvUpd) (hk : Only F [.nv, .nvHeld]) (hx : Ext F s0 s) :
    Ext F s0 (State.nvUpdate s u) := by
  unfold State.nvUpdate
  repeat' with_reducible first
    | assumption | exact Only.sub hk (by decide) | apply keep_State_nvApply
    | refine Ext.ite (fun _ => ?_) (fun _ => ?_) | dsimp only | fail_if_no_progress (refine Ext.mk_of ?_) | split

theorem keep_State_nvAhead {F : Area → Bool} {s0 : State} (s : State) (hk : Only F [.nv]) (hx : Ext F s0 s) :
    Ext F s0 (State.nvAhead s) := by
  unfold State.nvAhead
  repeat' with_reducible first
    | assumption | exact Only.sub hk (by decide) | apply keep_State_nvApply | refine Ext.foldl (fun _ _ _ => ?_) ?_
    | refine Ext.foldl_pair (fun _ _ _ => ?_) ?_ | refine Ext.foldl_triple (fun _ _ _ => ?_) ?_ | dsimp only | intro _

theorem keep_State_nvFlush {F : Area → Bool} {s0 : State} (s : State) (hk : Only F [.nv, .nvHeld]) (hx : Ext F s0 s) :
    Ext F s0 (State.nvFlush s) := by
  unfold State.nvFlush
  repeat' with_reducible first
    | assumption | exact Only.sub hk (by decide) | apply keep_State_nvApply | refine Ext.foldl (fun _ _ _ => ?_) ?_
    | refine Ext.foldl_pair (fun _ _ _ => ?_) ?_ | refine Ext.foldl_triple (fun _ _ _ => ?_) ?_
    | refine Ext.ite (fun _ => ?_) (fun _ => ?_) | dsimp only | fail_if_no_progress (refine Ext.mk_of ?_) | split
    | intro _

end Sys2Proof.Laws
end

