-- ==== Sys2Proof/Laws/KeepLinkOps.lean ====
section
/-!
SUPPORT. The operations of Machine/LinkOps.lean keep the relation Ext.
-/

set_option Elab.async false

namespace Sys2Proof.Laws

open Sys2Proof.Machine

set_option linter.unusedTactic false
set_option linter.unreachableTactic false
set_option maxRecDepth 2000

theorem keep_State_setLane {F : Area → Bool} {s0 : State} (s : State) (n : Nat) (st : Nat) (hk : Only F [.regs]) (hx : Ext F s0 s) :
    Ext F s0 (State.setLane s n st) := by
  unfold State.setLane
  repeat' with_reducible first
    | assumption | exact Only.sub hk (by decide) | apply keep_State_wrF | dsimp only

theorem keep_State_reversedNow {F : Area → Bool} {s0 : State} (s : State) (n : Nat) (hk : Only F [.regs]) (hx : Ext F s0 s) :
    Ext F s0 (State.reversedNow s n) := by
  unfold State.reversedNow
  repeat' with_reducible first
    | assumption | exact Only.sub hk (by decide) | apply keep_State_wrF | dsimp only | intro _

theorem keep_State_failLane {F : Area → Bool} {s0 : State} (s : State) (n : Nat) (cause : Nat) (hk : Only F [.regs, .nv, .mbx, .evt, .items, .pwr, .out, .rc]) (hx : Ext F s0 s) :
    Ext F s0 (State.failLane s n cause) := by
  unfold State.failLane
  repeat' with_reducible first
    | assumption | exact Only.sub hk (by decide) | apply keep_State_reversedNow | apply keep_State_setLane
    | apply keep_State_faultItem | apply keep_State_wrF | dsimp only

theorem keep_State_linkCounts {F : Area → Bool} {s0 : State} (s : State) (hk : Only F [.regs]) (hx : Ext F s0 s) :
    Ext F s0 (State.linkCounts s) := by
  unfold State.linkCounts
  repeat' with_reducible first
    | assumption | exact Only.sub hk (by decide) | apply keep_State_wrF | dsimp only

theorem keep_State_fillSeen {F : Area → Bool} {s0 : State} (s : State) (g : Nat) (hk : Only F [.lnk]) (hx : Ext F s0 s) :
    Ext F s0 (State.fillSeen s g) := by
  unfold State.fillSeen
  repeat' with_reducible first
    | assumption | exact Only.sub hk (by decide) | dsimp only | fail_if_no_progress (refine Ext.mk_of ?_) | intro _

theorem keep_State_prbsWrite {F : Area → Bool} {s0 : State} (s : State) (n : Nat) (v : Word) (hk : Only F [.regs, .lnk]) (hx : Ext F s0 s) :
    Ext F s0 (State.prbsWrite s n v) := by
  unfold State.prbsWrite
  repeat' with_reducible first
    | assumption | exact Only.sub hk (by decide) | apply keep_State_wrs | apply keep_State_wr
    | refine Ext.ite (fun _ => ?_) (fun _ => ?_) | dsimp only | fail_if_no_progress (refine Ext.mk_of ?_) | split
    | intro _

theorem keep_State_linkMode {F : Area → Bool} {s0 : State} (s : State) (hk : Only F [.regs]) (hx : Ext F s0 s) :
    Ext F s0 (State.linkMode s) := by
  unfold State.linkMode
  repeat' with_reducible first
    | assumption | exact Only.sub hk (by decide) | apply keep_State_wrF | refine Ext.ite (fun _ => ?_) (fun _ => ?_)
    | dsimp only | split

theorem keep_State_setAct {F : Area → Bool} {s0 : State} (s : State) (l : Nat) (v : Nat) (hk : Only F [.lnk]) (hx : Ext F s0 s) :
    Ext F s0 (State.setAct s l v) := by
  unfold State.setAct
  repeat' with_reducible first
    | assumption | exact Only.sub hk (by decide) | dsimp only | fail_if_no_progress (refine Ext.mk_of ?_) | intro _

theorem keep_State_degrade {F : Area → Bool} {s0 : State} (s : State) (l : Nat) (hk : Only F [.regs, .mbx, .evt, .lnk, .out, .rc]) (hx : Ext F s0 s) :
    Ext F s0 (State.degrade s l) := by
  unfold State.degrade
  repeat' with_reducible first
    | assumption | exact Only.sub hk (by decide) | apply keep_State_setAct | apply keep_State_linkMode
    | apply keep_State_raise | dsimp only

theorem keep_State_linkReady {F : Area → Bool} {s0 : State} (s : State) (hk : Only F [.regs, .mbx, .out]) (hx : Ext F s0 s) :
    Ext F s0 (State.linkReady s) := by
  unfold State.linkReady
  repeat' with_reducible first
    | assumption | exact Only.sub hk (by decide) | apply keep_State_linkCounts | apply keep_State_finish
    | apply keep_State_wrF | refine Ext.ite (fun _ => ?_) (fun _ => ?_) | dsimp only | split | intro _

theorem keep_State_ethStart {F : Area → Bool} {s0 : State} (s : State) (hk : Only F [.regs]) (hx : Ext F s0 s) :
    Ext F s0 (State.ethStart s) := by
  unfold State.ethStart
  repeat' with_reducible first
    | assumption | exact Only.sub hk (by decide) | apply keep_State_setLane | refine Ext.foldl (fun _ _ _ => ?_) ?_
    | refine Ext.foldl_pair (fun _ _ _ => ?_) ?_ | refine Ext.foldl_triple (fun _ _ _ => ?_) ?_
    | refine Ext.ite (fun _ => ?_) (fun _ => ?_) | dsimp only | split | intro _

theorem keep_State_lnaBoundary {F : Area → Bool} {s0 : State} (s : State) (old : Nat → Word) (hk : Only F [.regs]) (hx : Ext F s0 s) :
    Ext F s0 (State.lnaBoundary s old) := by
  unfold State.lnaBoundary
  repeat' with_reducible first
    | assumption | exact Only.sub hk (by decide) | apply keep_State_reversedNow | apply keep_State_wrF
    | apply keep_State_wr | refine Ext.foldl (fun _ _ _ => ?_) ?_ | refine Ext.foldl_pair (fun _ _ _ => ?_) ?_
    | refine Ext.foldl_triple (fun _ _ _ => ?_) ?_ | refine Ext.ite (fun _ => ?_) (fun _ => ?_) | dsimp only | split
    | intro _

theorem keep_State_putFrame {F : Area → Bool} {s0 : State} (s : State) (f : Frame) (hk : Only F [.ing]) (hx : Ext F s0 s) :
    Ext F s0 (State.putFrame s f) := by
  unfold State.putFrame
  repeat' with_reducible first
    | assumption | exact Only.sub hk (by decide) | refine Ext.ite (fun _ => ?_) (fun _ => ?_) | dsimp only
    | fail_if_no_progress (refine Ext.mk_of ?_) | split | intro _

theorem keep_State_laneLoss {F : Area → Bool} {s0 : State} (s : State) (l : Nat) (hk : Only F [.regs, .mbx, .evt, .lnk, .ing, .out, .rc]) (hx : Ext F s0 s) :
    Ext F s0 (State.laneLoss s l) := by
  unfold State.laneLoss
  repeat' with_reducible first
    | assumption | exact Only.sub hk (by decide) | apply keep_State_putFrame | apply keep_State_degrade
    | apply keep_State_raise | apply keep_State_wrF | refine Ext.of_pair (by assumption) ?_
    | refine Ext.of_triple (by assumption) ?_ | refine Ext.of_done (by assumption) ?_
    | refine Ext.of_wait (by assumption) ?_ | refine Ext.ite (fun _ => ?_) (fun _ => ?_) | dsimp only
    | fail_if_no_progress (refine Ext.mk_of ?_) | split | intro _

theorem keep_State_dropLane {F : Area → Bool} {s0 : State} (s : State) (n : Nat) (toCdr : Bool) (hk : Only F [.regs, .mbx, .evt, .lnk, .ing, .out, .rc]) (hx : Ext F s0 s) :
    Ext F s0 (State.dropLane s n toCdr) := by
  unfold State.dropLane
  repeat' with_reducible first
    | assumption | exact Only.sub hk (by decide) | apply keep_State_laneLoss | apply keep_State_linkCounts
    | apply keep_State_reversedNow | apply keep_State_setLane | apply keep_State_bump
    | refine Ext.ite (fun _ => ?_) (fun _ => ?_) | dsimp only | fail_if_no_progress (refine Ext.mk_of ?_) | split
    | intro _

theorem keep_State_badHeader {F : Area → Bool} {s0 : State} (s : State) (n : Nat) (hk : Only F [.regs, .mbx, .evt, .lnk, .ing, .out, .rc]) (hx : Ext F s0 s) :
    Ext F s0 (State.badHeader s n) := by
  unfold State.badHeader
  repeat' with_reducible first
    | assumption | exact Only.sub hk (by decide) | apply keep_State_dropLane | apply keep_State_bump
    | refine Ext.ite (fun _ => ?_) (fun _ => ?_) | dsimp only | fail_if_no_progress (refine Ext.mk_of ?_) | split
    | intro _

theorem keep_State_bcPush {F : Area → Bool} {s0 : State} (s : State) (b : BcCmd) (hk : Only F [.lnk]) (hx : Ext F s0 s) :
    Ext F s0 (State.bcPush s b).2 := by
  unfold State.bcPush
  repeat' with_reducible first
    | assumption | exact Only.sub hk (by decide) | dsimp only | fail_if_no_progress (refine Ext.mk_of ?_)

theorem keep_State_bcFail {F : Area → Bool} {s0 : State} (s : State) (b : BcCmd) (hk : Only F [.regs, .mbx, .evt, .ep, .lnk, .out, .rc]) (hx : Ext F s0 s) :
    Ext F s0 (State.bcFail s b) := by
  unfold State.bcFail
  repeat' with_reducible first
    | assumption | exact Only.sub hk (by decide) | apply keep_State_degrade | apply keep_State_finish
    | apply keep_State_raise | refine Ext.of_pair (by assumption) ?_ | refine Ext.of_triple (by assumption) ?_
    | refine Ext.of_done (by assumption) ?_ | refine Ext.of_wait (by assumption) ?_
    | refine Ext.ite (fun _ => ?_) (fun _ => ?_) | dsimp only | fail_if_no_progress (refine Ext.mk_of ?_) | split
    | intro _

theorem keep_State_bcReply {F : Area → Bool} {s0 : State} (s : State) (b : BcCmd) (bs : List Byte) (hk : Only F [.regs, .mbx, .evt, .ep, .lnk, .out, .rc]) (hx : Ext F s0 s) :
    Ext F s0 (State.bcReply s b bs) := by
  unfold State.bcReply
  repeat' with_reducible first
    | assumption | exact Only.sub hk (by decide) | apply keep_State_bcFail | apply keep_State_finish
    | refine Ext.of_pair (by assumption) ?_ | refine Ext.of_triple (by assumption) ?_
    | refine Ext.of_done (by assumption) ?_ | refine Ext.of_wait (by assumption) ?_
    | refine Ext.ite (fun _ => ?_) (fun _ => ?_) | dsimp only | fail_if_no_progress (refine Ext.mk_of ?_) | split
    | intro _

theorem keep_State_bcAlign {F : Area → Bool} {s0 : State} (s : State) (i : Nat) (hk : Only F [.out]) (hx : Ext F s0 s) :
    Ext F s0 (State.bcAlign s i) := by
  unfold State.bcAlign
  repeat' with_reducible first
    | assumption | exact Only.sub hk (by decide) | apply keep_State_emit | dsimp only

theorem keep_State_bcData {F : Area → Bool} {s0 : State} (s : State) (k : Nat) (bs : List Byte) (hk : Only F [.lnk, .out]) (hx : Ext F s0 s) :
    Ext F s0 (State.bcData s k bs) := by
  unfold State.bcData
  repeat' with_reducible first
    | assumption | exact Only.sub hk (by decide) | apply keep_State_bcAlign | apply keep_State_emit
    | refine Ext.ite (fun _ => ?_) (fun _ => ?_) | dsimp only | fail_if_no_progress (refine Ext.mk_of ?_) | split

theorem keep_State_bcRestart {F : Area → Bool} {s0 : State} (s : State) (t : Nat) (seq : Nat) (hk : Only F [.lnk, .out]) (hx : Ext F s0 s) :
    Ext F s0 (State.bcRestart s t seq) := by
  unfold State.bcRestart
  repeat' with_reducible first
    | assumption | exact Only.sub hk (by decide) | apply keep_State_bcAlign | dsimp only
    | fail_if_no_progress (refine Ext.mk_of ?_)

theorem keep_State_expose {F : Area → Bool} {s0 : State} (s : State) (leave : Nat) (ahead : Nat) (req : Nat) (hk : Only F [.regs, .mbx, .evt, .lnk, .out, .rc]) (hx : Ext F s0 s) :
    Ext F s0 (State.expose s leave ahead req) := by
  unfold State.expose
  repeat' with_reducible first
    | assumption | exact Only.sub hk (by decide) | apply keep_State_bcRestart | apply keep_State_raise
    | apply keep_State_emit | apply keep_State_bump | apply keep_State_wrF | refine Ext.of_pair (by assumption) ?_
    | refine Ext.of_triple (by assumption) ?_ | refine Ext.of_done (by assumption) ?_
    | refine Ext.of_wait (by assumption) ?_ | refine Ext.ite (fun _ => ?_) (fun _ => ?_) | dsimp only
    | fail_if_no_progress (refine Ext.mk_of ?_) | split | intro _

end Sys2Proof.Laws
end

