-- ==== Sys2Proof/Laws/KeepCplOps.lean ====
section
/-!
SUPPORT. The operations of Machine/CplOps.lean keep the relation Ext.
-/

set_option Elab.async false

namespace Sys2Proof.Laws

open Sys2Proof.Machine

set_option linter.unusedTactic false
set_option linter.unreachableTactic false
set_option maxRecDepth 2000

theorem keep_State_tapRow {F : Area → Bool} {s0 : State} (s : State) (e : Nat) (slot : Nat) (y : Nat) (row : List (Nat × Bool)) (hk : Only F [.regs, .mem, .nv, .mbx, .evt, .items, .dmc, .pwr, .out, .spd, .rc]) (hx : Ext F s0 s) :
    Ext F s0 (State.tapRow s e slot y row) := by
  unfold State.tapRow
  repeat' with_reducible first
    | assumption | exact Only.sub hk (by decide) | apply keep_State_dmaPut | dsimp only | intro _

theorem keep_State_tapFirst {F : Area → Bool} {s0 : State} (s : State) (f : Frame) (hk : Only F [.regs, .mbx, .evt, .ing, .cpl, .out, .rc]) (hx : Ext F s0 s) :
    Ext F s0 (State.tapFirst s f) := by
  unfold State.tapFirst
  repeat' with_reducible first
    | assumption | exact Only.sub hk (by decide) | apply keep_State_putFrame | apply keep_State_raiseOf
    | apply keep_State_bump | apply keep_State_wrF | refine Ext.of_pair (by assumption) ?_
    | refine Ext.of_triple (by assumption) ?_ | refine Ext.of_done (by assumption) ?_
    | refine Ext.of_wait (by assumption) ?_ | refine Ext.ite (fun _ => ?_) (fun _ => ?_) | dsimp only
    | fail_if_no_progress (refine Ext.mk_of ?_) | split | intro _

theorem keep_State_setScaler {F : Area → Bool} {s0 : State} (s : State) (o : Nat) (x : ScalerSt) (hk : Only F [.cpl]) (hx : Ext F s0 s) :
    Ext F s0 (State.setScaler s o x) := by
  unfold State.setScaler
  repeat' with_reducible first
    | assumption | exact Only.sub hk (by decide) | dsimp only | fail_if_no_progress (refine Ext.mk_of ?_) | intro _

theorem keep_State_scEvent {F : Area → Bool} {s0 : State} (s : State) (e : Nat) (no : Nat) (o : Nat) (code : Nat) (arg : Nat) (hk : Only F [.regs, .mbx, .evt, .out, .rc]) (hx : Ext F s0 s) :
    Ext F s0 (State.scEvent s e no o code arg) := by
  unfold State.scEvent
  repeat' with_reducible first
    | assumption | exact Only.sub hk (by decide) | apply keep_State_raiseIf | dsimp only

theorem keep_State_statDue {F : Area → Bool} {s0 : State} (s : State) (f : Frame) (owner : Nat) (ctx : Nat) (point : Nat) (scaler : Nat) (kind : Nat) (rest : List Byte) (hk : Only F [.regs, .crs, .rc]) (hx : Ext F s0 s) :
    Ext F s0 (State.statDue s f owner ctx point scaler kind rest) := by
  unfold State.statDue
  repeat' with_reducible first
    | assumption | exact Only.sub hk (by decide) | apply keep_State_noQueue
    | refine Ext.ite (fun _ => ?_) (fun _ => ?_) | dsimp only | fail_if_no_progress (refine Ext.mk_of ?_) | split

theorem keep_State_pointStats {F : Area → Bool} {s0 : State} (s : State) (f : Frame) (p : Nat) (channels : Nat) (pts : List Pt) (focus : List Pt) (hk : Only F [.regs, .crs, .rc]) (hx : Ext F s0 s) :
    Ext F s0 (State.pointStats s f p channels pts focus) := by
  unfold State.pointStats
  repeat' with_reducible first
    | assumption | exact Only.sub hk (by decide) | apply keep_State_statDue
    | refine Ext.ite (fun _ => ?_) (fun _ => ?_) | dsimp only | split | intro _

theorem keep_State_tapStats {F : Area → Bool} {s0 : State} (s : State) (f : Frame) (hk : Only F [.regs, .crs, .rc]) (hx : Ext F s0 s) :
    Ext F s0 (State.tapStats s f) := by
  unfold State.tapStats
  repeat' with_reducible first
    | assumption | exact Only.sub hk (by decide) | apply keep_State_pointStats
    | refine Ext.ite (fun _ => ?_) (fun _ => ?_) | dsimp only | split | intro _

theorem keep_State_devStats {F : Area → Bool} {s0 : State} (s : State) (f : Frame) (d : Dev) (hk : Only F [.regs, .crs, .rc]) (hx : Ext F s0 s) :
    Ext F s0 (State.devStats s f d) := by
  unfold State.devStats
  repeat' with_reducible first
    | assumption | exact Only.sub hk (by decide) | apply keep_State_pointStats
    | refine Ext.ite (fun _ => ?_) (fun _ => ?_) | dsimp only | split | intro _

theorem keep_State_scalerStats {F : Area → Bool} {s0 : State} (s : State) (f : Frame) (o : Nat) (lut : List (List Nat)) (pic : Rgb) (hk : Only F [.regs, .crs, .rc]) (hx : Ext F s0 s) :
    Ext F s0 (State.scalerStats s f o lut pic) := by
  unfold State.scalerStats
  repeat' with_reducible first
    | assumption | exact Only.sub hk (by decide) | apply keep_State_statDue
    | refine Ext.ite (fun _ => ?_) (fun _ => ?_) | dsimp only | split | intro _

theorem keep_State_devSettle {F : Area → Bool} {s0 : State} (s : State) (hk : Only F [.regs, .ing, .cpl, .crs, .rc]) (hx : Ext F s0 s) :
    Ext F s0 (State.devSettle s) := by
  unfold State.devSettle
  repeat' with_reducible first
    | assumption | exact Only.sub hk (by decide) | apply keep_State_scalerStats | apply keep_State_devStats
    | apply keep_State_putFrame | apply keep_State_wrs | apply keep_State_wrF | refine Ext.foldl (fun _ _ _ => ?_) ?_
    | refine Ext.foldl_pair (fun _ _ _ => ?_) ?_ | refine Ext.foldl_triple (fun _ _ _ => ?_) ?_
    | refine Ext.of_pair (by assumption) ?_ | refine Ext.of_triple (by assumption) ?_
    | refine Ext.of_done (by assumption) ?_ | refine Ext.of_wait (by assumption) ?_
    | refine Ext.ite (fun _ => ?_) (fun _ => ?_) | dsimp only | fail_if_no_progress (refine Ext.mk_of ?_) | split
    | intro _

end Sys2Proof.Laws
end

