-- ==== Sys2Proof/Laws/KeepStageOps.lean ====
section
/-!
SUPPORT. The operations of Machine/StageOps.lean keep the relation Ext.
-/

set_option Elab.async false

namespace Sys2Proof.Laws

open Sys2Proof.Machine

set_option linter.unusedTactic false
set_option linter.unreachableTactic false
set_option maxRecDepth 2000

theorem keep_State_stage1 {F : Area → Bool} {s0 : State} (s : State) (p : Nat) (ctx : Nat) (a : Nat) (v : Word) (hk : Only F [.regs, .ep]) (hx : Ext F s0 s) :
    Ext F s0 (State.stage1 s p ctx a v).2 := by
  unfold State.stage1
  repeat' with_reducible first
    | assumption | exact Only.sub hk (by decide) | apply keep_State_viol | refine Ext.of_pair (by assumption) ?_
    | refine Ext.of_triple (by assumption) ?_ | refine Ext.of_done (by assumption) ?_
    | refine Ext.of_wait (by assumption) ?_ | refine Ext.ite (fun _ => ?_) (fun _ => ?_)
    | refine Ext.ite_pair (fun _ => ?_) (fun _ => ?_) | dsimp only | split | fail_if_no_progress (refine Ext.mk_of ?_)
    | intro _

theorem keep_State_stageAll {F : Area → Bool} {s0 : State} (s : State) (p : Nat) (ctx : Nat) (y0 : Over) (hk : Only F [.regs, .ep]) (hx : Ext F s0 s) :
    Ext F s0 (State.stageAll s p ctx y0).2 := by
  induction y0 generalizing s p ctx hx with
  | nil =>
    unfold State.stageAll
    repeat' with_reducible first
      | assumption | exact Only.sub hk (by decide) | apply keep_State_stage1 | refine Ext.of_pair (by assumption) ?_
      | refine Ext.of_triple (by assumption) ?_ | refine Ext.of_done (by assumption) ?_
      | refine Ext.of_wait (by assumption) ?_ | dsimp only | split
  | cons x r ih =>
    unfold State.stageAll
    repeat' with_reducible first
      | assumption | apply ih | exact Only.sub hk (by decide) | apply keep_State_stage1
      | refine Ext.of_pair (by assumption) ?_ | refine Ext.of_triple (by assumption) ?_
      | refine Ext.of_done (by assumption) ?_ | refine Ext.of_wait (by assumption) ?_ | dsimp only | split

theorem keep_stageAnswer {F : Area → Bool} {s0 : State} (r : Req) (es : Over) (s : State) (hk : Only F [.regs, .ep]) (hx : Ext F s0 s) :
    Ext F s0 (ansSt (stageAnswer r es s)) := by
  unfold stageAnswer
  repeat' with_reducible first
    | assumption | exact Only.sub hk (by decide) | apply keep_State_stageAll | refine Ext.of_pair (by assumption) ?_
    | refine Ext.of_triple (by assumption) ?_ | refine Ext.of_done (by assumption) ?_
    | refine Ext.of_wait (by assumption) ?_ | refine Ext.ite (fun _ => ?_) (fun _ => ?_)
    | refine Ext.ite_ans (fun _ => ?_) (fun _ => ?_) | refine Ext.done ?_ | dsimp only | split

end Sys2Proof.Laws
end

