-- ==== Sys2Proof/Laws/KeepMonOps.lean ====
section
/-!
SUPPORT. The operations of Machine/MonOps.lean keep the relation Ext.
-/

set_option Elab.async false

namespace Sys2Proof.Laws

open Sys2Proof.Machine

set_option linter.unusedTactic false
set_option linter.unreachableTactic false
set_option maxRecDepth 2000

theorem keep_State_setMon {F : Area → Bool} {s0 : State} (s : State) (o : Nat) (m : MonOut) (hk : Only F [.mon]) (hx : Ext F s0 s) :
    Ext F s0 (State.setMon s o m) := by
  unfold State.setMon
  repeat' with_reducible first
    | assumption | exact Only.sub hk (by decide) | dsimp only | fail_if_no_progress (refine Ext.mk_of ?_) | intro _

theorem keep_State_monEvent {F : Area → Bool} {s0 : State} (s : State) (o : Nat) (code : Nat) (arg : Nat) (hk : Only F [.regs, .mbx, .evt, .out, .rc]) (hx : Ext F s0 s) :
    Ext F s0 (State.monEvent s o code arg) := by
  unfold State.monEvent
  repeat' with_reducible first
    | assumption | exact Only.sub hk (by decide) | apply keep_State_raiseEv | apply keep_State_noQueue
    | apply keep_State_seqOf | refine Ext.ite (fun _ => ?_) (fun _ => ?_) | dsimp only
    | fail_if_no_progress (refine Ext.mk_of ?_) | split

theorem keep_State_monFetch {F : Area → Bool} {s0 : State} (s : State) (o : Nat) (y : Nat) (hk : Only F [.regs, .nv, .mbx, .evt, .items, .dmc, .pwr, .out, .spd, .rc]) (hx : Ext F s0 s) :
    Ext F s0 (State.monFetch s o y).2 := by
  unfold State.monFetch
  repeat' with_reducible first
    | assumption | exact Only.sub hk (by decide) | apply keep_State_dmaGets | dsimp only | intro _

theorem keep_State_monLine {F : Area → Bool} {s0 : State} (s : State) (o : Nat) (y : Nat) (x0 : Nat) (x1 : Nat) (miss : Option Nat) (hk : Only F [.mon]) (hx : Ext F s0 s) :
    Ext F s0 (State.monLine s o y x0 x1 miss).2 := by
  unfold State.monLine
  repeat' with_reducible first
    | assumption | exact Only.sub hk (by decide) | apply keep_State_setMon | refine Ext.of_pair (by assumption) ?_
    | refine Ext.of_triple (by assumption) ?_ | refine Ext.of_done (by assumption) ?_
    | refine Ext.of_wait (by assumption) ?_ | dsimp only | split | fail_if_no_progress (refine Ext.mk_of ?_) | intro _

theorem keep_State_dsiPackets {F : Area → Bool} {s0 : State} (s : State) (o : Nat) (px : List Nat) (hk : Only F [.out]) (hx : Ext F s0 s) :
    Ext F s0 (State.dsiPackets s o px) := by
  unfold State.dsiPackets
  repeat' with_reducible first
    | assumption | exact Only.sub hk (by decide) | apply keep_State_emit | refine Ext.foldl (fun _ _ _ => ?_) ?_
    | refine Ext.foldl_pair (fun _ _ _ => ?_) ?_ | refine Ext.foldl_triple (fun _ _ _ => ?_) ?_ | dsimp only | intro _

theorem keep_State_monUnder {F : Area → Bool} {s0 : State} (s : State) (o : Nat) (y : Nat) (hk : Only F [.regs, .mbx, .evt, .mon, .out, .rc]) (hx : Ext F s0 s) :
    Ext F s0 (State.monUnder s o y) := by
  unfold State.monUnder
  repeat' with_reducible first
    | assumption | exact Only.sub hk (by decide) | apply keep_State_monEvent | apply keep_State_setMon
    | apply keep_State_bump | refine Ext.ite (fun _ => ?_) (fun _ => ?_) | dsimp only
    | fail_if_no_progress (refine Ext.mk_of ?_) | split

theorem keep_State_monUe {F : Area → Bool} {s0 : State} (s : State) (o : Nat) (y : Nat) (hk : Only F [.regs, .nv, .mbx, .evt, .items, .pwr, .out, .rc]) (hx : Ext F s0 s) :
    Ext F s0 (State.monUe s o y) := by
  unfold State.monUe
  repeat' with_reducible first
    | assumption | exact Only.sub hk (by decide) | apply keep_State_faultItem | dsimp only

theorem keep_State_monDone {F : Area → Bool} {s0 : State} (s : State) (o : Nat) (hk : Only F [.regs, .mbx, .evt, .out, .rc]) (hx : Ext F s0 s) :
    Ext F s0 (State.monDone s o) := by
  unfold State.monDone
  repeat' with_reducible first
    | assumption | exact Only.sub hk (by decide) | apply keep_State_monEvent
    | refine Ext.ite (fun _ => ?_) (fun _ => ?_) | dsimp only | split

theorem keep_State_monBlank {F : Area → Bool} {s0 : State} (s : State) (o : Nat) (hk : Only F [.regs, .mbx, .evt, .out, .rc]) (hx : Ext F s0 s) :
    Ext F s0 (State.monBlank s o) := by
  unfold State.monBlank
  repeat' with_reducible first
    | assumption | exact Only.sub hk (by decide) | apply keep_State_monEvent
    | refine Ext.ite (fun _ => ?_) (fun _ => ?_) | dsimp only | split

theorem keep_State_monMatch {F : Area → Bool} {s0 : State} (s : State) (o : Nat) (y : Nat) (hk : Only F [.regs, .mbx, .evt, .out, .rc]) (hx : Ext F s0 s) :
    Ext F s0 (State.monMatch s o y) := by
  unfold State.monMatch
  repeat' with_reducible first
    | assumption | exact Only.sub hk (by decide) | apply keep_State_monEvent
    | refine Ext.ite (fun _ => ?_) (fun _ => ?_) | dsimp only | split

theorem keep_State_fbRegs {F : Area → Bool} {s0 : State} (s : State) (p : Nat) (hk : Only F [.regs]) (hx : Ext F s0 s) :
    Ext F s0 (State.fbRegs s p) := by
  unfold State.fbRegs
  repeat' with_reducible first
    | assumption | exact Only.sub hk (by decide) | apply keep_State_wrF | apply keep_State_wr | dsimp only

theorem keep_State_setFb {F : Area → Bool} {s0 : State} (s : State) (b : Nat) (p : Option Nat) (hk : Only F [.mon]) (hx : Ext F s0 s) :
    Ext F s0 (State.setFb s b p) := by
  unfold State.setFb
  repeat' with_reducible first
    | assumption | exact Only.sub hk (by decide) | refine Ext.of_pair (by assumption) ?_
    | refine Ext.of_triple (by assumption) ?_ | refine Ext.of_done (by assumption) ?_
    | refine Ext.of_wait (by assumption) ?_ | dsimp only | fail_if_no_progress (refine Ext.mk_of ?_) | split | intro _

theorem keep_State_fbTake {F : Area → Bool} {s0 : State} (s : State) (p : Nat) (y0 : Nat) (hk : Only F [.mon, .free]) (hx : Ext F s0 s) :
    Ext F s0 (State.fbTake s p y0) := by
  induction y0 generalizing s p hx with
  | zero =>
    unfold State.fbTake
    repeat' with_reducible first
      | assumption | exact Only.sub hk (by decide) | apply keep_State_setFb | apply keep_State_fresh
      | refine Ext.of_pair (by assumption) ?_ | refine Ext.of_triple (by assumption) ?_
      | refine Ext.of_done (by assumption) ?_ | refine Ext.of_wait (by assumption) ?_ | dsimp only | split
  | succ k ih =>
    unfold State.fbTake
    repeat' with_reducible first
      | assumption | apply ih | exact Only.sub hk (by decide) | apply keep_State_setFb | apply keep_State_fresh
      | refine Ext.of_pair (by assumption) ?_ | refine Ext.of_triple (by assumption) ?_
      | refine Ext.of_done (by assumption) ?_ | refine Ext.of_wait (by assumption) ?_ | dsimp only | split

theorem keep_State_fbDrop {F : Area → Bool} {s0 : State} (s : State) (p : Nat) (hk : Only F [.regs, .mon]) (hx : Ext F s0 s) :
    Ext F s0 (State.fbDrop s p) := by
  unfold State.fbDrop
  repeat' with_reducible first
    | assumption | exact Only.sub hk (by decide) | apply keep_State_setFb | apply keep_State_fbRegs
    | refine Ext.foldl (fun _ _ _ => ?_) ?_ | refine Ext.foldl_pair (fun _ _ _ => ?_) ?_
    | refine Ext.foldl_triple (fun _ _ _ => ?_) ?_ | dsimp only | intro _

theorem keep_State_monTake {F : Area → Bool} {s0 : State} (s : State) (o : Nat) (l : Nat) (hk : Only F [.regs, .cpl, .mon]) (hx : Ext F s0 s) :
    Ext F s0 (State.monTake s o l).2 := by
  unfold State.monTake
  repeat' with_reducible first
    | assumption | exact Only.sub hk (by decide) | apply keep_State_setMon | apply keep_State_release
    | apply keep_State_hold | refine Ext.of_pair (by assumption) ?_ | refine Ext.of_triple (by assumption) ?_
    | refine Ext.of_done (by assumption) ?_ | refine Ext.of_wait (by assumption) ?_
    | refine Ext.ite (fun _ => ?_) (fun _ => ?_) | refine Ext.ite_pair (fun _ => ?_) (fun _ => ?_) | dsimp only
    | split | fail_if_no_progress (refine Ext.mk_of ?_) | intro _

theorem keep_State_monStat {F : Area → Bool} {s0 : State} (s : State) (o : Nat) (hk : Only F [.regs]) (hx : Ext F s0 s) :
    Ext F s0 (State.monStat s o) := by
  unfold State.monStat
  repeat' with_reducible first
    | assumption | exact Only.sub hk (by decide) | apply keep_State_wrF | apply keep_State_wr
    | refine Ext.foldl (fun _ _ _ => ?_) ?_ | refine Ext.foldl_pair (fun _ _ _ => ?_) ?_
    | refine Ext.foldl_triple (fun _ _ _ => ?_) ?_ | dsimp only | intro _

theorem keep_State_monPushes {F : Area → Bool} {s0 : State} (s : State) (o : Nat) (hk : Only F [.mon]) (hx : Ext F s0 s) :
    Ext F s0 (State.monPushes s o).2.2 := by
  unfold State.monPushes
  repeat' with_reducible first
    | assumption | exact Only.sub hk (by decide) | apply keep_State_setMon | refine Ext.foldl (fun _ _ _ => ?_) ?_
    | refine Ext.foldl_pair (fun _ _ _ => ?_) ?_ | refine Ext.foldl_triple (fun _ _ _ => ?_) ?_
    | refine Ext.of_pair (by assumption) ?_ | refine Ext.of_triple (by assumption) ?_
    | refine Ext.of_done (by assumption) ?_ | refine Ext.of_wait (by assumption) ?_ | dsimp only | split
    | fail_if_no_progress (refine Ext.mk_of ?_) | intro _

theorem keep_State_monApply {F : Area → Bool} {s0 : State} (s : State) (o : Nat) (e : MonEpoch) (late : Bool) (hk : Only F [.regs, .mon, .rc]) (hx : Ext F s0 s) :
    Ext F s0 (State.monApply s o e late) := by
  unfold State.monApply
  repeat' with_reducible first
    | assumption | exact Only.sub hk (by decide) | apply keep_State_setMon | apply keep_State_bump
    | apply keep_State_wr | refine Ext.foldl (fun _ _ _ => ?_) ?_ | refine Ext.foldl_pair (fun _ _ _ => ?_) ?_
    | refine Ext.foldl_triple (fun _ _ _ => ?_) ?_ | refine Ext.ite (fun _ => ?_) (fun _ => ?_) | dsimp only
    | fail_if_no_progress (refine Ext.mk_of ?_) | split | intro _

theorem keep_State_monPrune {F : Area → Bool} {s0 : State} (s : State) (hk : Only F [.mon]) (hx : Ext F s0 s) :
    Ext F s0 (State.monPrune s) := by
  unfold State.monPrune
  repeat' with_reducible first
    | assumption | exact Only.sub hk (by decide) | dsimp only | fail_if_no_progress (refine Ext.mk_of ?_) | intro _

theorem keep_State_reTick {F : Area → Bool} {s0 : State} (s : State) (hk : Only F [.mon, .tim]) (hx : Ext F s0 s) :
    Ext F s0 (State.reTick s) := by
  unfold State.reTick
  repeat' with_reducible first
    | assumption | exact Only.sub hk (by decide) | apply keep_State_setMon | refine Ext.foldl (fun _ _ _ => ?_) ?_
    | refine Ext.foldl_pair (fun _ _ _ => ?_) ?_ | refine Ext.foldl_triple (fun _ _ _ => ?_) ?_ | dsimp only
    | fail_if_no_progress (refine Ext.mk_of ?_) | intro _

theorem keep_State_monStart {F : Area → Bool} {s0 : State} (s : State) (o : Nat) (hk : Only F [.regs, .cpl, .mon, .out, .rc]) (hx : Ext F s0 s) :
    Ext F s0 (State.monStart s o) := by
  unfold State.monStart
  repeat' with_reducible first
    | assumption | exact Only.sub hk (by decide) | apply keep_State_monPrune | apply keep_State_monApply
    | apply keep_State_monPushes | apply keep_State_monStat | apply keep_State_monTake | apply keep_State_setMon
    | apply keep_State_emit | apply keep_State_wrF | apply keep_State_wr | refine Ext.foldl (fun _ _ _ => ?_) ?_
    | refine Ext.foldl_pair (fun _ _ _ => ?_) ?_ | refine Ext.foldl_triple (fun _ _ _ => ?_) ?_
    | refine Ext.of_pair (by assumption) ?_ | refine Ext.of_triple (by assumption) ?_
    | refine Ext.of_done (by assumption) ?_ | refine Ext.of_wait (by assumption) ?_
    | refine Ext.ite (fun _ => ?_) (fun _ => ?_) | dsimp only | fail_if_no_progress (refine Ext.mk_of ?_) | split
    | intro _

theorem keep_State_monBoundary {F : Area → Bool} {s0 : State} (s : State) (epoch : Nat) (hk : Only F [.regs, .mon, .rc]) (hx : Ext F s0 s) :
    Ext F s0 (State.monBoundary s epoch) := by
  unfold State.monBoundary
  repeat' with_reducible first
    | assumption | exact Only.sub hk (by decide) | apply keep_State_monPrune | apply keep_State_monApply
    | apply keep_State_wr | refine Ext.foldl (fun _ _ _ => ?_) ?_ | refine Ext.foldl_pair (fun _ _ _ => ?_) ?_
    | refine Ext.foldl_triple (fun _ _ _ => ?_) ?_ | refine Ext.ite (fun _ => ?_) (fun _ => ?_) | dsimp only
    | fail_if_no_progress (refine Ext.mk_of ?_) | split | intro _

theorem keep_State_monNext {F : Area → Bool} {s0 : State} (s : State) (o : Nat) (hk : Only F [.free]) (hx : Ext F s0 s) :
    Ext F s0 (State.monNext s o).2 := by
  unfold State.monNext
  repeat' with_reducible first
    | assumption | exact Only.sub hk (by decide) | apply keep_State_fresh | refine Ext.of_pair (by assumption) ?_
    | refine Ext.of_triple (by assumption) ?_ | refine Ext.of_done (by assumption) ?_
    | refine Ext.of_wait (by assumption) ?_ | refine Ext.ite (fun _ => ?_) (fun _ => ?_)
    | refine Ext.ite_pair (fun _ => ?_) (fun _ => ?_) | dsimp only | split | intro _

end Sys2Proof.Laws
end

