-- ==== Sys2Proof/Laws/KeepIngOps.lean ====
section
/-!
SUPPORT. The operations of Machine/IngOps.lean keep the relation Ext.
-/

set_option Elab.async false

namespace Sys2Proof.Laws

open Sys2Proof.Machine

set_option linter.unusedTactic false
set_option linter.unreachableTactic false
set_option maxRecDepth 2000

theorem keep_State_setRefValid {F : Area → Bool} {s0 : State} (s : State) (p : Nat → Bool) (hk : Only F [.regs]) (hx : Ext F s0 s) :
    Ext F s0 (State.setRefValid s p) := by
  unfold State.setRefValid
  repeat' with_reducible first
    | assumption | exact Only.sub hk (by decide) | apply keep_State_wrs | dsimp only | intro _

theorem keep_State_shipFrame {F : Area → Bool} {s0 : State} (s : State) (f : Frame) (hk : Only F [.regs, .mem, .nv, .mbx, .evt, .ing, .items, .rings, .cpl, .lnd, .dmc, .pwr, .free, .out, .spd, .rc]) (hx : Ext F s0 s) :
    Ext F s0 (State.shipFrame s f) := by
  unfold State.shipFrame
  repeat' with_reducible first
    | assumption | exact Only.sub hk (by decide) | apply keep_State_setRefValid | apply keep_State_putFrame
    | apply keep_State_streamItem | apply keep_State_dmaPut | refine Ext.foldl (fun _ _ _ => ?_) ?_
    | refine Ext.foldl_pair (fun _ _ _ => ?_) ?_ | refine Ext.foldl_triple (fun _ _ _ => ?_) ?_
    | refine Ext.ite (fun _ => ?_) (fun _ => ?_) | dsimp only | fail_if_no_progress (refine Ext.mk_of ?_) | split
    | intro _

theorem keep_State_settle {F : Area → Bool} {s0 : State} (s : State) (hk : Only F [.regs, .mem, .nv, .mbx, .evt, .ing, .items, .rings, .cpl, .crs, .lnd, .dmc, .pwr, .free, .out, .spd, .rc]) (hx : Ext F s0 s) :
    Ext F s0 (State.settle s) := by
  unfold State.settle
  repeat' with_reducible first
    | assumption | exact Only.sub hk (by decide) | apply keep_State_shipFrame | apply keep_State_devSettle
    | refine Ext.foldl (fun _ _ _ => ?_) ?_ | refine Ext.foldl_pair (fun _ _ _ => ?_) ?_
    | refine Ext.foldl_triple (fun _ _ _ => ?_) ?_ | refine Ext.of_pair (by assumption) ?_
    | refine Ext.of_triple (by assumption) ?_ | refine Ext.of_done (by assumption) ?_
    | refine Ext.of_wait (by assumption) ?_ | refine Ext.ite (fun _ => ?_) (fun _ => ?_) | dsimp only
    | fail_if_no_progress (refine Ext.mk_of ?_) | split | intro _

theorem keep_State_slkOverflow {F : Area → Bool} {s0 : State} (s : State) (f : Frame) (hk : Only F [.regs, .mbx, .evt, .out, .rc]) (hx : Ext F s0 s) :
    Ext F s0 (State.slkOverflow s f).2 := by
  unfold State.slkOverflow
  repeat' with_reducible first
    | assumption | exact Only.sub hk (by decide) | apply keep_State_raiseOf | apply keep_State_bump
    | refine Ext.ite (fun _ => ?_) (fun _ => ?_) | refine Ext.ite_pair (fun _ => ?_) (fun _ => ?_) | dsimp only
    | split | fail_if_no_progress (refine Ext.mk_of ?_)

theorem keep_State_dropRest {F : Area → Bool} {s0 : State} (s : State) (f : Frame) (hk : Only F [.regs, .mbx, .evt, .ing, .out, .rc]) (hx : Ext F s0 s) :
    Ext F s0 (State.dropRest s f) := by
  unfold State.dropRest
  repeat' with_reducible first
    | assumption | exact Only.sub hk (by decide) | apply keep_State_slkOverflow | apply keep_State_putFrame
    | refine Ext.of_pair (by assumption) ?_ | refine Ext.of_triple (by assumption) ?_
    | refine Ext.of_done (by assumption) ?_ | refine Ext.of_wait (by assumption) ?_ | dsimp only | split

end Sys2Proof.Laws
end

