-- ==== Sys2Proof/Laws/KeepPsc.lean ====
section
/-!
SUPPORT. The operations of Machine/Psc.lean keep the relation Ext.
-/

set_option Elab.async false

namespace Sys2Proof.Laws

open Sys2Proof.Machine

set_option linter.unusedTactic false
set_option linter.unreachableTactic false
set_option maxRecDepth 2000

theorem keep_State_listTouch {F : Area → Bool} {s0 : State} (s : State) (e : Nat) (lo : Nat) (hi : Nat) (hk : Only F [.regs, .nv, .mbx, .evt, .items, .dmc, .pwr, .out, .spd, .rc]) (hx : Ext F s0 s) :
    Ext F s0 (State.listTouch s e lo hi) := by
  unfold State.listTouch
  repeat' with_reducible first
    | assumption | exact Only.sub hk (by decide) | apply keep_State_dmaGets | apply keep_State_dmaGet
    | refine Ext.ite (fun _ => ?_) (fun _ => ?_) | dsimp only | split | intro _

theorem keep_State_planeTouch {F : Area → Bool} {s0 : State} (s : State) (e : Nat) (top : Nat) (y : Nat) (x0 : Nat) (n : Nat) (hk : Only F [.regs, .nv, .mbx, .evt, .items, .dmc, .pwr, .out, .spd, .rc]) (hx : Ext F s0 s) :
    Ext F s0 (State.planeTouch s e top y x0 n) := by
  unfold State.planeTouch
  repeat' with_reducible first
    | assumption | exact Only.sub hk (by decide) | apply keep_State_dmaGets
    | refine Ext.ite (fun _ => ?_) (fun _ => ?_) | dsimp only | split | intro _

theorem keep_State_pscCount {F : Area → Bool} {s0 : State} (s : State) (c : SparseCnt) (hk : Only F [.regs, .rc]) (hx : Ext F s0 s) :
    Ext F s0 (State.pscCount s c) := by
  unfold State.pscCount
  repeat' with_reducible first
    | assumption | exact Only.sub hk (by decide) | apply keep_State_bump | dsimp only

theorem keep_State_tapAbandon {F : Area → Bool} {s0 : State} (s : State) (f : Frame) (hk : Only F [.regs, .mbx, .evt, .ing, .cpl, .out, .rc]) (hx : Ext F s0 s) :
    Ext F s0 (State.tapAbandon s f) := by
  unfold State.tapAbandon
  repeat' with_reducible first
    | assumption | exact Only.sub hk (by decide) | apply keep_State_putFrame | apply keep_State_raiseOf
    | apply keep_State_bump | apply keep_State_wrF | refine Ext.of_pair (by assumption) ?_
    | refine Ext.of_triple (by assumption) ?_ | refine Ext.of_done (by assumption) ?_
    | refine Ext.of_wait (by assumption) ?_ | refine Ext.ite (fun _ => ?_) (fun _ => ?_) | dsimp only
    | fail_if_no_progress (refine Ext.mk_of ?_) | split

theorem keep_State_pscStarve {F : Area → Bool} {s0 : State} (s : State) (f : Frame) (i : Nat) (y : Nat) (hk : Only F [.regs, .mbx, .evt, .ing, .out, .rc]) (hx : Ext F s0 s) :
    Ext F s0 (State.pscStarve s f i y) := by
  unfold State.pscStarve
  repeat' with_reducible first
    | assumption | exact Only.sub hk (by decide) | apply keep_State_dropRest | apply keep_State_raiseOf
    | apply keep_State_bump | dsimp only

theorem keep_State_pscFrameEnd {F : Area → Bool} {s0 : State} (s : State) (f : Frame) (hk : Only F [.regs, .mbx, .evt, .ing, .crs, .out, .rc]) (hx : Ext F s0 s) :
    Ext F s0 (State.pscFrameEnd s f) := by
  unfold State.pscFrameEnd
  repeat' with_reducible first
    | assumption | exact Only.sub hk (by decide) | apply keep_State_tapStats | apply keep_State_putFrame
    | apply keep_State_raiseOf | refine Ext.ite (fun _ => ?_) (fun _ => ?_) | dsimp only
    | fail_if_no_progress (refine Ext.mk_of ?_) | split

theorem keep_State_pscStep {F : Area → Bool} {s0 : State} (s : State) (i : Nat) (f0 : Frame) (io : BeatIo) (hk : Only F [.regs, .mem, .nv, .mbx, .evt, .ing, .items, .rings, .cpl, .crs, .lnd, .dmc, .pwr, .free, .out, .spd, .rc]) (hx : Ext F s0 s) :
    Ext F s0 (State.pscStep s i f0 io) := by
  unfold State.pscStep
  repeat' with_reducible first
    | assumption | exact Only.sub hk (by decide) | apply keep_State_pscFrameEnd | apply keep_State_pscStarve
    | apply keep_State_tapAbandon | apply keep_State_pscCount | apply keep_State_planeTouch
    | apply keep_State_listTouch | apply keep_State_settle | apply keep_State_tapFirst | apply keep_State_tapRow
    | apply keep_State_putFrame | apply keep_State_faultItem | refine Ext.of_pair (by assumption) ?_
    | refine Ext.of_triple (by assumption) ?_ | refine Ext.of_done (by assumption) ?_
    | refine Ext.of_wait (by assumption) ?_ | refine Ext.ite (fun _ => ?_) (fun _ => ?_) | dsimp only
    | fail_if_no_progress (refine Ext.mk_of ?_) | split | intro _

end Sys2Proof.Laws
end

