-- ==== Sys2Proof/Laws/KeepBkc.lean ====
section
/-!
SUPPORT. The operations of Machine/Bkc.lean keep the relation Ext.
-/

set_option Elab.async false

namespace Sys2Proof.Laws

open Sys2Proof.Machine

set_option linter.unusedTactic false
set_option linter.unreachableTactic false
set_option maxRecDepth 2000

theorem keep_State_useFree {F : Area → Bool} {s0 : State} (s : State) (n : Nat) (hk : Only F [.free]) (hx : Ext F s0 s) :
    Ext F s0 (State.useFree s n) := by
  unfold State.useFree
  exact Ext.mk_free hx

theorem keep_State_bkcBlock {F : Area → Bool} {s0 : State} (s : State) (i : Nat) (f : Frame) (hk : Only F [.regs, .mem, .nv, .mbx, .evt, .ing, .items, .rings, .cpl, .crs, .lnd, .dmc, .pwr, .free, .out, .spd, .rc]) (hx : Ext F s0 s) :
    Ext F s0 (State.bkcBlock s i f) := by
  unfold State.bkcBlock
  repeat' with_reducible first
    | assumption | exact Only.sub hk (by decide) | apply keep_State_dropRest | apply keep_State_settle
    | apply keep_State_raiseOf | apply keep_State_bump | dsimp only

theorem keep_State_bkcCode {F : Area → Bool} {s0 : State} (s : State) (i : Nat) (f : Frame) (st : StripeSt) (io : CodeIo) (hk : Only F [.regs, .mem, .nv, .mbx, .evt, .ing, .items, .rings, .cpl, .crs, .lnd, .dmc, .pwr, .free, .out, .spd, .rc]) (hx : Ext F s0 s) :
    Ext F s0 (State.bkcCode s i f st io) := by
  unfold State.bkcCode
  repeat' with_reducible first
    | assumption | exact Only.sub hk (by decide) | apply keep_State_settle | apply keep_State_putFrame
    | apply keep_State_dmaGet | apply keep_State_faultItem | refine Ext.foldl (fun _ _ _ => ?_) ?_
    | refine Ext.foldl_pair (fun _ _ _ => ?_) ?_ | refine Ext.foldl_triple (fun _ _ _ => ?_) ?_
    | refine Ext.of_pair (by assumption) ?_ | refine Ext.of_triple (by assumption) ?_
    | refine Ext.of_done (by assumption) ?_ | refine Ext.of_wait (by assumption) ?_
    | refine Ext.ite (fun _ => ?_) (fun _ => ?_) | dsimp only | fail_if_no_progress (refine Ext.mk_of ?_) | split
    | intro _

theorem keep_State_keyReq {F : Area → Bool} {s0 : State} (s : State) (v : Word) (hk : Only F [.ing]) (hx : Ext F s0 s) :
    Ext F s0 (State.keyReq s v) := by
  unfold State.keyReq
  repeat' with_reducible first
    | assumption | exact Only.sub hk (by decide) | refine Ext.ite (fun _ => ?_) (fun _ => ?_) | dsimp only
    | fail_if_no_progress (refine Ext.mk_of ?_) | split

theorem keep_State_jobPass {F : Area → Bool} {s0 : State} (s : State) (y0 : Nat) (hk : Only F [.regs, .ing]) (hx : Ext F s0 s) :
    Ext F s0 (State.jobPass s y0) := by
  induction y0 generalizing s hx with
  | zero =>
    unfold State.jobPass
    repeat' with_reducible first
      | assumption | exact Only.sub hk (by decide) | apply keep_State_wr | refine Ext.ite (fun _ => ?_) (fun _ => ?_)
      | dsimp only | fail_if_no_progress (refine Ext.mk_of ?_) | split
  | succ k ih =>
    unfold State.jobPass
    repeat' with_reducible first
      | assumption | apply ih | exact Only.sub hk (by decide) | apply keep_State_wr
      | refine Ext.ite (fun _ => ?_) (fun _ => ?_) | dsimp only | fail_if_no_progress (refine Ext.mk_of ?_) | split

theorem keep_State_jobNext {F : Area → Bool} {s0 : State} (s : State) (hk : Only F [.regs, .ing, .bkc]) (hx : Ext F s0 s) :
    Ext F s0 (State.jobNext s) := by
  unfold State.jobNext
  repeat' with_reducible first
    | assumption | exact Only.sub hk (by decide) | apply keep_State_jobPass | apply keep_State_wr | dsimp only
    | fail_if_no_progress (refine Ext.mk_of ?_)

theorem keep_State_jobEvent {F : Area → Bool} {s0 : State} (s : State) (j : Job) (status : Nat) (frames : Nat) (hk : Only F [.regs, .mbx, .evt, .out, .rc]) (hx : Ext F s0 s) :
    Ext F s0 (State.jobEvent s j status frames) := by
  unfold State.jobEvent
  repeat' with_reducible first
    | assumption | exact Only.sub hk (by decide) | apply keep_State_raise | refine Ext.ite (fun _ => ?_) (fun _ => ?_)
    | dsimp only | split

theorem keep_State_jobBegin {F : Area → Bool} {s0 : State} (s : State) (hk : Only F [.regs, .mbx, .evt, .ing, .bkc, .out, .rc]) (hx : Ext F s0 s) :
    Ext F s0 (State.jobBegin s) := by
  unfold State.jobBegin
  repeat' with_reducible first
    | assumption | exact Only.sub hk (by decide) | apply keep_State_jobEvent | apply keep_State_jobNext
    | apply keep_State_wrF | refine Ext.of_pair (by assumption) ?_ | refine Ext.of_triple (by assumption) ?_
    | refine Ext.of_done (by assumption) ?_ | refine Ext.of_wait (by assumption) ?_ | dsimp only
    | fail_if_no_progress (refine Ext.mk_of ?_) | split

theorem keep_State_packetReads {F : Area → Bool} {s0 : State} (s : State) (a : Nat) (n : Nat) (ctx : Nat) (hk : Only F [.regs, .nv, .mbx, .evt, .items, .dmc, .pwr, .out, .spd, .rc]) (hx : Ext F s0 s) :
    Ext F s0 (State.packetReads s a n ctx) := by
  unfold State.packetReads
  repeat' with_reducible first
    | assumption | exact Only.sub hk (by decide) | apply keep_State_dmaGet | dsimp only

theorem keep_State_jobRef0 {F : Area → Bool} {s0 : State} (s : State) (r : StateRec) (hk : Only F [.free]) (hx : Ext F s0 s) :
    Ext F s0 (State.jobRef0 s r).2 := by
  unfold State.jobRef0
  repeat' with_reducible first
    | assumption | exact Only.sub hk (by decide) | apply keep_State_useFree
    | refine Ext.ite (fun _ => ?_) (fun _ => ?_) | refine Ext.ite_pair (fun _ => ?_) (fun _ => ?_) | dsimp only
    | split | intro _

theorem keep_State_jobPacket {F : Area → Bool} {s0 : State} (s : State) (b : BkcJob) (r : StateRec) (d : StateRec) (j : Job) (no : Nat) (i : Nat) (src : List (List Nat)) (inPkt : List Byte) (ref : Option (List (List Nat))) (nm : Option Nat) (tr : Option Nat) (hk : Only F [.free]) (hx : Ext F s0 s) :
    Ext F s0 (State.jobPacket s b r d j no i src inPkt ref nm tr).2.2 := by
  unfold State.jobPacket
  repeat' with_reducible first
    | assumption | exact Only.sub hk (by decide) | apply keep_State_fresh | refine Ext.of_pair (by assumption) ?_
    | refine Ext.of_triple (by assumption) ?_ | refine Ext.of_done (by assumption) ?_
    | refine Ext.of_wait (by assumption) ?_ | refine Ext.ite (fun _ => ?_) (fun _ => ?_)
    | refine Ext.ite_triple (fun _ => ?_) (fun _ => ?_) | dsimp only | split

theorem keep_State_jobFrame {F : Area → Bool} {s0 : State} (s : State) (b : BkcJob) (r : StateRec) (d : StateRec) (j : Job) (ue : List JobHit) (par : List JobHit) (fi : Nat) (n : Nat) (k : JobRun) (hk : Only F [.regs, .mem, .nv, .mbx, .evt, .items, .dmc, .pwr, .free, .out, .spd, .rc]) (hx : Ext F s0 s) :
    Ext F s0 (State.jobFrame s b r d j ue par fi n k).2 := by
  unfold State.jobFrame
  repeat' with_reducible first
    | assumption | exact Only.sub hk (by decide) | apply keep_State_jobPacket | apply keep_State_dmaGet
    | apply keep_State_dmaPut | refine Ext.foldl (fun _ _ _ => ?_) ?_ | refine Ext.foldl_pair (fun _ _ _ => ?_) ?_
    | refine Ext.foldl_triple (fun _ _ _ => ?_) ?_ | refine Ext.of_pair (by assumption) ?_
    | refine Ext.of_triple (by assumption) ?_ | refine Ext.of_done (by assumption) ?_
    | refine Ext.of_wait (by assumption) ?_ | refine Ext.ite (fun _ => ?_) (fun _ => ?_)
    | refine Ext.ite_pair (fun _ => ?_) (fun _ => ?_) | dsimp only | split | fail_if_no_progress (refine Ext.mk_of ?_)
    | intro _

theorem keep_State_jobFaults {F : Area → Bool} {s0 : State} (s : State) (r : StateRec) (d : StateRec) (j : Job) (ue : List (Fin 48)) (par : List (Fin 48)) (hk : Only F [.regs, .nv, .mbx, .evt, .items, .dmc, .pwr, .free, .out, .spd, .rc]) (hx : Ext F s0 s) :
    Ext F s0 (State.jobFaults s r d j ue par).2.2 := by
  unfold State.jobFaults
  repeat' with_reducible first
    | assumption | exact Only.sub hk (by decide) | apply keep_State_packetReads | apply keep_State_useFree
    | apply keep_State_faultItem | refine Ext.foldl (fun _ _ _ => ?_) ?_ | refine Ext.foldl_pair (fun _ _ _ => ?_) ?_
    | refine Ext.foldl_triple (fun _ _ _ => ?_) ?_ | refine Ext.ite (fun _ => ?_) (fun _ => ?_)
    | refine Ext.ite_triple (fun _ => ?_) (fun _ => ?_) | dsimp only | split
    | fail_if_no_progress (refine Ext.mk_of ?_) | intro _

theorem keep_State_jobRefs {F : Area → Bool} {s0 : State} (s : State) (r : StateRec) (d : StateRec) (j : Job) (hk : Only F [.free]) (hx : Ext F s0 s) :
    Ext F s0 (State.jobRefs s r d j).2.2 := by
  unfold State.jobRefs
  repeat' with_reducible first
    | assumption | exact Only.sub hk (by decide) | apply keep_State_jobRef0 | refine Ext.of_pair (by assumption) ?_
    | refine Ext.of_triple (by assumption) ?_ | refine Ext.of_done (by assumption) ?_
    | refine Ext.of_wait (by assumption) ?_ | refine Ext.ite (fun _ => ?_) (fun _ => ?_)
    | refine Ext.ite_triple (fun _ => ?_) (fun _ => ?_) | dsimp only | split
    | fail_if_no_progress (refine Ext.mk_of ?_)

theorem keep_State_jobSave {F : Area → Bool} {s0 : State} (s : State) (r : StateRec) (d : StateRec) (j : Job) (k : JobRun) (whole : Nat) (hk : Only F [.regs, .mem, .nv, .mbx, .evt, .items, .dmc, .pwr, .out, .spd, .rc]) (hx : Ext F s0 s) :
    Ext F s0 (State.jobSave s r d j k whole) := by
  unfold State.jobSave
  repeat' with_reducible first
    | assumption | exact Only.sub hk (by decide) | apply keep_State_dmaPut
    | refine Ext.ite (fun _ => ?_) (fun _ => ?_) | dsimp only | split

theorem keep_State_jobOver {F : Area → Bool} {s0 : State} (s : State) (j : Job) (status : Nat) (whole : Nat) (bad : Nat) (hk : Only F [.regs, .mbx, .evt, .ing, .bkc, .out, .rc]) (hx : Ext F s0 s) :
    Ext F s0 (State.jobOver s j status whole bad) := by
  unfold State.jobOver
  repeat' with_reducible first
    | assumption | exact Only.sub hk (by decide) | apply keep_State_jobEvent | apply keep_State_jobNext
    | apply keep_State_raise | apply keep_State_bump | refine Ext.ite (fun _ => ?_) (fun _ => ?_) | dsimp only | split

theorem keep_State_jobFinish {F : Area → Bool} {s0 : State} (s : State) (b : BkcJob) (frames : Nat) (stripes : Nat) (ue : List (Fin 48)) (par : List (Fin 48)) (hk : Only F [.regs, .mem, .nv, .mbx, .evt, .ing, .bkc, .items, .dmc, .pwr, .free, .out, .spd, .rc]) (hx : Ext F s0 s) :
    Ext F s0 (State.jobFinish s b frames stripes ue par) := by
  unfold State.jobFinish
  repeat' with_reducible first
    | assumption | exact Only.sub hk (by decide) | apply keep_State_jobOver | apply keep_State_jobSave
    | apply keep_State_jobRefs | apply keep_State_jobFaults | apply keep_State_jobFrame | apply keep_State_jobEvent
    | apply keep_State_jobNext | refine Ext.foldl (fun _ _ _ => ?_) ?_ | refine Ext.foldl_pair (fun _ _ _ => ?_) ?_
    | refine Ext.foldl_triple (fun _ _ _ => ?_) ?_ | refine Ext.of_pair (by assumption) ?_
    | refine Ext.of_triple (by assumption) ?_ | refine Ext.of_done (by assumption) ?_
    | refine Ext.of_wait (by assumption) ?_ | refine Ext.ite (fun _ => ?_) (fun _ => ?_) | dsimp only | split
    | intro _

theorem keep_State_jobProd {F : Area → Bool} {s0 : State} (s : State) (v : Word) (hk : Only F [.regs, .rc]) (hx : Ext F s0 s) :
    Ext F s0 (State.jobProd s v) := by
  unfold State.jobProd
  repeat' with_reducible first
    | assumption | exact Only.sub hk (by decide) | apply keep_State_bump | apply keep_State_wr
    | refine Ext.ite (fun _ => ?_) (fun _ => ?_) | dsimp only | split

theorem keep_State_jobSetup {F : Area → Bool} {s0 : State} (s : State) (a : Nat) (v : Word) (hk : Only F [.regs, .rc]) (hx : Ext F s0 s) :
    Ext F s0 (State.jobSetup s a v) := by
  unfold State.jobSetup
  repeat' with_reducible first
    | assumption | exact Only.sub hk (by decide) | apply keep_State_bump | apply keep_State_wr
    | refine Ext.ite (fun _ => ?_) (fun _ => ?_) | dsimp only | split

theorem keep_State_jobAbort {F : Area → Bool} {s0 : State} (s : State) (tag : Nat) (hk : Only F [.regs, .mbx, .evt, .ing, .bkc, .out, .rc]) (hx : Ext F s0 s) :
    Ext F s0 (State.jobAbort s tag) := by
  unfold State.jobAbort
  repeat' with_reducible first
    | assumption | exact Only.sub hk (by decide) | apply keep_State_jobEvent | apply keep_State_jobNext
    | apply keep_State_bump | refine Ext.of_pair (by assumption) ?_ | refine Ext.of_triple (by assumption) ?_
    | refine Ext.of_done (by assumption) ?_ | refine Ext.of_wait (by assumption) ?_
    | refine Ext.ite (fun _ => ?_) (fun _ => ?_) | dsimp only | fail_if_no_progress (refine Ext.mk_of ?_) | split
    | intro _

end Sys2Proof.Laws
end

