-- ==== Sys2Proof/Laws/KeepLndOps.lean ====
section
/-!
SUPPORT. The operations of Machine/LndOps.lean keep the relation Ext.
-/

set_option Elab.async false

namespace Sys2Proof.Laws

open Sys2Proof.Machine

set_option linter.unusedTactic false
set_option linter.unreachableTactic false
set_option maxRecDepth 2000

theorem keep_State_setSlotT {F : Area → Bool} {s0 : State} (s : State) (k : Nat) (t : TakeSlot) (hk : Only F [.lnd]) (hx : Ext F s0 s) :
    Ext F s0 (State.setSlotT s k t) := by
  unfold State.setSlotT
  repeat' with_reducible first
    | assumption | exact Only.sub hk (by decide) | dsimp only | fail_if_no_progress (refine Ext.mk_of ?_) | intro _

theorem keep_State_lndRate {F : Area → Bool} {s0 : State} (s : State) (hk : Only F [.regs]) (hx : Ext F s0 s) :
    Ext F s0 (State.lndRate s) := by
  unfold State.lndRate
  repeat' with_reducible first
    | assumption | exact Only.sub hk (by decide) | apply keep_State_wr | dsimp only

theorem keep_State_setSlotSt {F : Area → Bool} {s0 : State} (s : State) (k : Nat) (st : Nat) (hk : Only F [.regs]) (hx : Ext F s0 s) :
    Ext F s0 (State.setSlotSt s k st) := by
  unfold State.setSlotSt
  repeat' with_reducible first
    | assumption | exact Only.sub hk (by decide) | apply keep_State_lndRate | apply keep_State_wr
    | refine Ext.ite (fun _ => ?_) (fun _ => ?_) | dsimp only | split

theorem keep_State_slotEvent {F : Area → Bool} {s0 : State} (s : State) (k : Nat) (code : Nat) (arg : Nat) (hk : Only F [.regs, .mbx, .evt, .out, .rc]) (hx : Ext F s0 s) :
    Ext F s0 (State.slotEvent s k code arg) := by
  unfold State.slotEvent
  repeat' with_reducible first
    | assumption | exact Only.sub hk (by decide) | apply keep_State_raiseRes | dsimp only

theorem keep_State_freeStore {F : Area → Bool} {s0 : State} (s : State) (k : Nat) (hk : Only F [.regs, .allocs]) (hx : Ext F s0 s) :
    Ext F s0 (State.freeStore s k) := by
  unfold State.freeStore
  repeat' with_reducible first
    | assumption | exact Only.sub hk (by decide) | apply keep_State_dropAlloc | refine Ext.foldl (fun _ _ _ => ?_) ?_
    | refine Ext.foldl_pair (fun _ _ _ => ?_) ?_ | refine Ext.foldl_triple (fun _ _ _ => ?_) ?_ | dsimp only | intro _

theorem keep_State_toIdle {F : Area → Bool} {s0 : State} (s : State) (k : Nat) (hk : Only F [.regs, .allocs, .lnd]) (hx : Ext F s0 s) :
    Ext F s0 (State.toIdle s k) := by
  unfold State.toIdle
  repeat' with_reducible first
    | assumption | exact Only.sub hk (by decide) | apply keep_State_freeStore | apply keep_State_setSlotSt
    | apply keep_State_setSlotT | dsimp only

theorem keep_State_actsAbort {F : Area → Bool} {s0 : State} (s : State) (hk : Only F [.pwr]) (hx : Ext F s0 s) :
    Ext F s0 (State.actsAbort s) := by
  unfold State.actsAbort
  repeat' with_reducible first
    | assumption | exact Only.sub hk (by decide) | refine Ext.ite (fun _ => ?_) (fun _ => ?_) | dsimp only
    | fail_if_no_progress (refine Ext.mk_of ?_) | split | intro _

theorem keep_State_finalise {F : Area → Bool} {s0 : State} (s : State) (k : Nat) (hk : Only F [.regs, .lnd]) (hx : Ext F s0 s) :
    Ext F s0 (State.finalise s k) := by
  unfold State.finalise
  repeat' with_reducible first
    | assumption | exact Only.sub hk (by decide) | apply keep_State_setSlotSt | apply keep_State_setSlotT | dsimp only
    | fail_if_no_progress (refine Ext.mk_of ?_)

theorem keep_State_tryFinal {F : Area → Bool} {s0 : State} (s : State) (k : Nat) (hk : Only F [.regs, .lnd]) (hx : Ext F s0 s) :
    Ext F s0 (State.tryFinal s k) := by
  unfold State.tryFinal
  repeat' with_reducible first
    | assumption | exact Only.sub hk (by decide) | apply keep_State_finalise | refine Ext.of_pair (by assumption) ?_
    | refine Ext.of_triple (by assumption) ?_ | refine Ext.of_done (by assumption) ?_
    | refine Ext.of_wait (by assumption) ?_ | refine Ext.ite (fun _ => ?_) (fun _ => ?_) | dsimp only | split
    | intro _

theorem keep_State_setStart {F : Area → Bool} {s0 : State} (s : State) (k : Nat) (start : Nat) (hk : Only F [.regs, .mbx, .evt, .lnd, .out, .rc]) (hx : Ext F s0 s) :
    Ext F s0 (State.setStart s k start) := by
  unfold State.setStart
  repeat' with_reducible first
    | assumption | exact Only.sub hk (by decide) | apply keep_State_tryFinal | apply keep_State_slotEvent
    | apply keep_State_setSlotSt | apply keep_State_setSlotT | refine Ext.of_pair (by assumption) ?_
    | refine Ext.of_triple (by assumption) ?_ | refine Ext.of_done (by assumption) ?_
    | refine Ext.of_wait (by assumption) ?_ | dsimp only | fail_if_no_progress (refine Ext.mk_of ?_) | split

theorem keep_State_setStop {F : Area → Bool} {s0 : State} (s : State) (k : Nat) (stop : Nat) (hk : Only F [.regs, .lnd]) (hx : Ext F s0 s) :
    Ext F s0 (State.setStop s k stop) := by
  unfold State.setStop
  repeat' with_reducible first
    | assumption | exact Only.sub hk (by decide) | apply keep_State_tryFinal | apply keep_State_setSlotT
    | refine Ext.of_pair (by assumption) ?_ | refine Ext.of_triple (by assumption) ?_
    | refine Ext.of_done (by assumption) ?_ | refine Ext.of_wait (by assumption) ?_ | dsimp only
    | fail_if_no_progress (refine Ext.mk_of ?_) | split

theorem keep_State_trigger {F : Area → Bool} {s0 : State} (s : State) (k : Nat) (T : Nat) (hk : Only F [.regs, .mbx, .evt, .lnd, .out, .rc]) (hx : Ext F s0 s) :
    Ext F s0 (State.trigger s k T) := by
  unfold State.trigger
  repeat' with_reducible first
    | assumption | exact Only.sub hk (by decide) | apply keep_State_setStart | apply keep_State_setSlotT
    | refine Ext.of_pair (by assumption) ?_ | refine Ext.of_triple (by assumption) ?_
    | refine Ext.of_done (by assumption) ?_ | refine Ext.of_wait (by assumption) ?_ | dsimp only
    | fail_if_no_progress (refine Ext.mk_of ?_) | split

theorem keep_State_lndEdge {F : Area → Bool} {s0 : State} (s : State) (pin : Nat) (stamp : Nat) (hk : Only F [.regs, .mbx, .evt, .lnd, .out, .rc]) (hx : Ext F s0 s) :
    Ext F s0 (State.lndEdge s pin stamp) := by
  unfold State.lndEdge
  repeat' with_reducible first
    | assumption | exact Only.sub hk (by decide) | apply keep_State_trigger | refine Ext.foldl (fun _ _ _ => ?_) ?_
    | refine Ext.foldl_pair (fun _ _ _ => ?_) ?_ | refine Ext.foldl_triple (fun _ _ _ => ?_) ?_
    | refine Ext.ite (fun _ => ?_) (fun _ => ?_) | dsimp only | split | intro _

theorem keep_State_lndOpen {F : Area → Bool} {s0 : State} (s : State) (t : Nat) (hk : Only F [.regs, .lnd]) (hx : Ext F s0 s) :
    Ext F s0 (State.lndOpen s t) := by
  unfold State.lndOpen
  repeat' with_reducible first
    | assumption | exact Only.sub hk (by decide) | apply keep_State_tryFinal | apply keep_State_setSlotT
    | refine Ext.foldl (fun _ _ _ => ?_) ?_ | refine Ext.foldl_pair (fun _ _ _ => ?_) ?_
    | refine Ext.foldl_triple (fun _ _ _ => ?_) ?_ | refine Ext.of_pair (by assumption) ?_
    | refine Ext.of_triple (by assumption) ?_ | refine Ext.of_done (by assumption) ?_
    | refine Ext.of_wait (by assumption) ?_ | refine Ext.ite (fun _ => ?_) (fun _ => ?_) | dsimp only
    | fail_if_no_progress (refine Ext.mk_of ?_) | split | intro _

theorem keep_State_lndLinkStop {F : Area → Bool} {s0 : State} (s : State) (hk : Only F [.regs, .lnd]) (hx : Ext F s0 s) :
    Ext F s0 (State.lndLinkStop s) := by
  unfold State.lndLinkStop
  repeat' with_reducible first
    | assumption | exact Only.sub hk (by decide) | apply keep_State_finalise | apply keep_State_setSlotT
    | refine Ext.foldl (fun _ _ _ => ?_) ?_ | refine Ext.foldl_pair (fun _ _ _ => ?_) ?_
    | refine Ext.foldl_triple (fun _ _ _ => ?_) ?_ | dsimp only | fail_if_no_progress (refine Ext.mk_of ?_) | intro _

theorem keep_State_lndReset {F : Area → Bool} {s0 : State} (s : State) (parts : List Nat) (hk : Only F [.regs, .allocs, .lnd]) (hx : Ext F s0 s) :
    Ext F s0 (State.lndReset s parts) := by
  unfold State.lndReset
  repeat' with_reducible first
    | assumption | exact Only.sub hk (by decide) | apply keep_State_finalise | apply keep_State_toIdle
    | apply keep_State_setSlotT | refine Ext.foldl (fun _ _ _ => ?_) ?_ | refine Ext.foldl_pair (fun _ _ _ => ?_) ?_
    | refine Ext.foldl_triple (fun _ _ _ => ?_) ?_ | refine Ext.ite (fun _ => ?_) (fun _ => ?_) | dsimp only
    | fail_if_no_progress (refine Ext.mk_of ?_) | split | intro _

end Sys2Proof.Laws
end

