-- ==== Sys2Proof/Laws/KeepLnd.lean ====
section
/-!
SUPPORT. The operations of Machine/Lnd.lean keep the relation Ext.
-/

set_option Elab.async false

namespace Sys2Proof.Laws

open Sys2Proof.Machine

set_option linter.unusedTactic false
set_option linter.unreachableTactic false
set_option maxRecDepth 2000

theorem keep_takeCmd {F : Area → Bool} {s0 : State} (n : Nat) (body : Nat → Req → State → Ans) (r : Req) (s : State)
    (hk : Only F [.regs])
    (hb : ∀ k r s, Ext F s0 s → Ext F s0 (ansSt (body k r s))) (hx : Ext F s0 s) : Ext F s0 (ansSt (takeCmd n body r s)) := by
  unfold takeCmd
  dsimp only
  refine Ext.ite_ans (fun _ => ?_) (fun _ => ?_)
  · exact keep_State_viol _ _ _ _ _ (Only.sub hk (by decide)) hx
  · exact hb _ _ _ hx

theorem keep_takeConfig {F : Area → Bool} {s0 : State} (k : Nat) (r : Req) (s : State) (hk : Only F [.regs, .lnd]) (hx : Ext F s0 s) :
    Ext F s0 (ansSt (takeConfig k r s)) := by
  unfold takeConfig
  repeat' with_reducible first
    | assumption | exact Only.sub hk (by decide) | apply keep_State_setSlotSt | apply keep_State_setSlotT
    | refine Ext.ite (fun _ => ?_) (fun _ => ?_) | refine Ext.ite_ans (fun _ => ?_) (fun _ => ?_) | refine Ext.done ?_
    | dsimp only | split

theorem keep_takeDirRead {F : Area → Bool} {s0 : State} (r : Req) (s : State) (hk : Only F [.out]) (hx : Ext F s0 s) :
    Ext F s0 (ansSt (takeDirRead r s)) := by
  unfold takeDirRead
  repeat' with_reducible first
    | assumption | exact Only.sub hk (by decide) | apply keep_dmaOut | refine Ext.ite (fun _ => ?_) (fun _ => ?_)
    | refine Ext.ite_ans (fun _ => ?_) (fun _ => ?_) | refine Ext.done ?_ | dsimp only | split | intro _

theorem keep_State_armed {F : Area → Bool} {s0 : State} (s : State) (k : Nat) (a : Nat) (cap : Nat) (ctx : Option Nat) (p : Nat) (h : Nat) (u : Nat) (n : Nat) (t : TakeSlot) (hk : Only F [.regs, .ing, .allocs, .lnd, .pwr]) (hx : Ext F s0 s) :
    Ext F s0 (State.armed s k a cap ctx p h u n t) := by
  unfold State.armed
  repeat' with_reducible first
    | assumption | exact Only.sub hk (by decide) | apply keep_State_actsAbort | apply keep_State_setSlotSt
    | apply keep_State_setSlotT | apply keep_State_addAlloc | apply keep_State_wrs
    | refine Ext.ite (fun _ => ?_) (fun _ => ?_) | dsimp only | fail_if_no_progress (refine Ext.mk_of ?_) | split
    | intro _

theorem keep_takeArm {F : Area → Bool} {s0 : State} (k : Nat) (r : Req) (s : State) (hk : Only F [.regs, .ing, .allocs, .lnd, .pwr, .free]) (hx : Ext F s0 s) :
    Ext F s0 (ansSt (takeArm k r s)) := by
  unfold takeArm
  repeat' with_reducible first
    | assumption | exact Only.sub hk (by decide) | apply keep_State_armed | apply keep_State_findRange
    | refine Ext.of_pair (by assumption) ?_ | refine Ext.of_triple (by assumption) ?_
    | refine Ext.of_done (by assumption) ?_ | refine Ext.of_wait (by assumption) ?_
    | refine Ext.ite (fun _ => ?_) (fun _ => ?_) | refine Ext.ite_ans (fun _ => ?_) (fun _ => ?_) | refine Ext.done ?_
    | dsimp only | split | intro _

theorem keep_takeDisarm {F : Area → Bool} {s0 : State} (k : Nat) (u1 : Req) (s : State) (hk : Only F [.regs, .allocs, .lnd]) (hx : Ext F s0 s) :
    Ext F s0 (ansSt (takeDisarm k u1 s)) := by
  unfold takeDisarm
  repeat' with_reducible first
    | assumption | exact Only.sub hk (by decide) | apply keep_State_toIdle
    | refine Ext.ite (fun _ => ?_) (fun _ => ?_) | refine Ext.ite_ans (fun _ => ?_) (fun _ => ?_) | refine Ext.done ?_
    | dsimp only | split

theorem keep_takeStart {F : Area → Bool} {s0 : State} (k : Nat) (r : Req) (s : State) (hk : Only F [.regs, .mbx, .evt, .lnd, .out, .rc]) (hx : Ext F s0 s) :
    Ext F s0 (ansSt (takeStart k r s)) := by
  unfold takeStart
  repeat' with_reducible first
    | assumption | exact Only.sub hk (by decide) | apply keep_State_setStart
    | refine Ext.ite (fun _ => ?_) (fun _ => ?_) | refine Ext.ite_ans (fun _ => ?_) (fun _ => ?_) | refine Ext.done ?_
    | dsimp only | split

theorem keep_takeStop {F : Area → Bool} {s0 : State} (k : Nat) (r : Req) (s : State) (hk : Only F [.regs, .lnd]) (hx : Ext F s0 s) :
    Ext F s0 (ansSt (takeStop k r s)) := by
  unfold takeStop
  repeat' with_reducible first
    | assumption | exact Only.sub hk (by decide) | apply keep_State_setStop
    | refine Ext.ite (fun _ => ?_) (fun _ => ?_) | refine Ext.ite_ans (fun _ => ?_) (fun _ => ?_) | refine Ext.done ?_
    | dsimp only | split

theorem keep_takeTrigger {F : Area → Bool} {s0 : State} (k : Nat) (r : Req) (s : State) (hk : Only F [.regs, .mbx, .evt, .lnd, .out, .rc]) (hx : Ext F s0 s) :
    Ext F s0 (ansSt (takeTrigger k r s)) := by
  unfold takeTrigger
  repeat' with_reducible first
    | assumption | exact Only.sub hk (by decide) | apply keep_State_trigger
    | refine Ext.ite (fun _ => ?_) (fun _ => ?_) | refine Ext.ite_ans (fun _ => ?_) (fun _ => ?_) | refine Ext.done ?_
    | dsimp only | split

theorem keep_takeDelete {F : Area → Bool} {s0 : State} (k : Nat) (u1 : Req) (s : State) (hk : Only F [.regs, .nv, .allocs, .lnd, .nvHeld]) (hx : Ext F s0 s) :
    Ext F s0 (ansSt (takeDelete k u1 s)) := by
  unfold takeDelete
  repeat' with_reducible first
    | assumption | exact Only.sub hk (by decide) | apply keep_State_toIdle | apply keep_State_nvUpdate
    | refine Ext.ite (fun _ => ?_) (fun _ => ?_) | refine Ext.ite_ans (fun _ => ?_) (fun _ => ?_) | refine Ext.done ?_
    | dsimp only | split

theorem keep_State_readTake {F : Area → Bool} {s0 : State} (s : State) (ue : List Nat) (k : Nat) (ring : Nat) (first : Int) (count : Nat) (ctx : Nat) (hk : Only F [.regs, .mbx, .evt, .items, .rings, .cpl, .lnd, .out, .rc]) (hx : Ext F s0 s) :
    Ext F s0 (State.readTake s ue k ring first count ctx) := by
  unfold State.readTake
  repeat' with_reducible first
    | assumption | exact Only.sub hk (by decide) | apply keep_State_setSlotT | apply keep_State_arrive
    | refine Ext.foldl (fun _ _ _ => ?_) ?_ | refine Ext.foldl_pair (fun _ _ _ => ?_) ?_
    | refine Ext.foldl_triple (fun _ _ _ => ?_) ?_ | dsimp only | fail_if_no_progress (refine Ext.mk_of ?_) | intro _

theorem keep_takeRead {F : Area → Bool} {s0 : State} (ue : List Nat) (k : Nat) (r : Req) (s : State) (hk : Only F [.regs, .mbx, .evt, .items, .rings, .cpl, .lnd, .out, .rc]) (hx : Ext F s0 s) :
    Ext F s0 (ansSt (takeRead ue k r s)) := by
  unfold takeRead
  repeat' with_reducible first
    | assumption | exact Only.sub hk (by decide) | apply keep_State_readTake
    | refine Ext.ite (fun _ => ?_) (fun _ => ?_) | refine Ext.ite_ans (fun _ => ?_) (fun _ => ?_) | refine Ext.done ?_
    | dsimp only | split

theorem keep_landingStatus {F : Area → Bool} {s0 : State} (r : Req) (s : State)  (hx : Ext F s0 s) :
    Ext F s0 (ansSt (landingStatus r s)) := by
  unfold landingStatus
  repeat' with_reducible first
    | assumption | refine Ext.ite (fun _ => ?_) (fun _ => ?_) | refine Ext.ite_ans (fun _ => ?_) (fun _ => ?_)
    | refine Ext.done ?_ | dsimp only | split | intro _

theorem keep_State_landUnit {F : Area → Bool} {s0 : State} (s : State) (k : Nat) (f : Frame) (cut : Option Nat) (hk : Only F [.regs, .mem, .nv, .mbx, .evt, .ing, .items, .rings, .cpl, .crs, .lnd, .dmc, .pwr, .free, .out, .spd, .rc]) (hx : Ext F s0 s) :
    Ext F s0 (State.landUnit s k f cut) := by
  unfold State.landUnit
  repeat' with_reducible first
    | assumption | exact Only.sub hk (by decide) | apply keep_State_tryFinal | apply keep_State_finalise
    | apply keep_State_slotEvent | apply keep_State_setSlotT | apply keep_State_settle | apply keep_State_putFrame
    | apply keep_State_dmaPut | apply keep_State_bump | apply keep_State_wr | refine Ext.of_pair (by assumption) ?_
    | refine Ext.of_triple (by assumption) ?_ | refine Ext.of_done (by assumption) ?_
    | refine Ext.of_wait (by assumption) ?_ | refine Ext.ite (fun _ => ?_) (fun _ => ?_) | dsimp only
    | fail_if_no_progress (refine Ext.mk_of ?_) | split | intro _

theorem keep_State_entryWritten {F : Area → Bool} {s0 : State} (s : State) (k : Nat) (hk : Only F [.regs, .nv, .mbx, .evt, .lnd, .nvHeld, .out, .rc]) (hx : Ext F s0 s) :
    Ext F s0 (State.entryWritten s k) := by
  unfold State.entryWritten
  repeat' with_reducible first
    | assumption | exact Only.sub hk (by decide) | apply keep_State_slotEvent | apply keep_State_setSlotSt
    | apply keep_State_setSlotT | apply keep_State_nvFlush | apply keep_State_nvApply | dsimp only
    | fail_if_no_progress (refine Ext.mk_of ?_)

end Sys2Proof.Laws
end

