-- ==== Sys2Proof/Laws/KeepLane.lean ====
section
/-!
SUPPORT. The operations of Machine/Lane.lean keep the relation Ext.
-/

set_option Elab.async false

namespace Sys2Proof.Laws

open Sys2Proof.Machine

set_option linter.unusedTactic false
set_option linter.unreachableTactic false
set_option maxRecDepth 2000

theorem keep_State_dupLane {F : Area → Bool} {s0 : State} (s : State) (m : Nat) (hk : Only F [.regs, .nv, .mbx, .evt, .lnk, .ing, .items, .pwr, .out, .rc]) (hx : Ext F s0 s) :
    Ext F s0 (State.dupLane s m) := by
  unfold State.dupLane
  repeat' with_reducible first
    | assumption | exact Only.sub hk (by decide) | apply keep_State_laneLoss | apply keep_State_failLane
    | refine Ext.ite (fun _ => ?_) (fun _ => ?_) | dsimp only | split

theorem keep_State_resolveLane {F : Area → Bool} {s0 : State} (s : State) (n : Nat) (l : Nat) (inv : Bool) (hk : Only F [.regs, .nv, .mbx, .evt, .lnk, .ing, .items, .pwr, .out, .rc]) (hx : Ext F s0 s) :
    Ext F s0 (State.resolveLane s n l inv) := by
  unfold State.resolveLane
  repeat' with_reducible first
    | assumption | exact Only.sub hk (by decide) | apply keep_State_dupLane | apply keep_State_failLane
    | apply keep_State_reversedNow | apply keep_State_setLane | apply keep_State_wrF
    | refine Ext.foldl (fun _ _ _ => ?_) ?_ | refine Ext.foldl_pair (fun _ _ _ => ?_) ?_
    | refine Ext.foldl_triple (fun _ _ _ => ?_) ?_ | refine Ext.ite (fun _ => ?_) (fun _ => ?_) | dsimp only | split
    | intro _

theorem keep_State_deskewLane {F : Area → Bool} {s0 : State} (s : State) (n : Nat) (skew : Nat) (hk : Only F [.regs, .nv, .mbx, .evt, .lnk, .items, .pwr, .out, .rc]) (hx : Ext F s0 s) :
    Ext F s0 (State.deskewLane s n skew) := by
  unfold State.deskewLane
  repeat' with_reducible first
    | assumption | exact Only.sub hk (by decide) | apply keep_State_linkReady | apply keep_State_linkCounts
    | apply keep_State_failLane | apply keep_State_setLane | apply keep_State_wrF
    | refine Ext.ite (fun _ => ?_) (fun _ => ?_) | dsimp only | fail_if_no_progress (refine Ext.mk_of ?_) | split
    | intro _

theorem keep_State_alignErr {F : Area → Bool} {s0 : State} (s : State) (n : Nat) (hk : Only F [.regs, .mbx, .evt, .lnk, .ing, .out, .rc]) (hx : Ext F s0 s) :
    Ext F s0 (State.alignErr s n) := by
  unfold State.alignErr
  repeat' with_reducible first
    | assumption | exact Only.sub hk (by decide) | apply keep_State_dropLane | apply keep_State_bump
    | refine Ext.ite (fun _ => ?_) (fun _ => ?_) | dsimp only | fail_if_no_progress (refine Ext.mk_of ?_) | split
    | intro _

theorem keep_State_noteAlign {F : Area → Bool} {s0 : State} (s : State) (n : Nat) (run : Nat) (p : BitVec 256) (inv : Bool) (hk : Only F [.lnk]) (hx : Ext F s0 s) :
    Ext F s0 (State.noteAlign s n run p inv) := by
  unfold State.noteAlign
  repeat' with_reducible first
    | assumption | exact Only.sub hk (by decide) | dsimp only | fail_if_no_progress (refine Ext.mk_of ?_) | intro _

theorem keep_State_alignSeek {F : Area → Bool} {s0 : State} (s : State) (n : Nat) (hdr : BitVec 2) (pay : BitVec 256) (gap : Nat) (hk : Only F [.regs, .nv, .mbx, .evt, .lnk, .ing, .items, .pwr, .out, .rc]) (hx : Ext F s0 s) :
    Ext F s0 (State.alignSeek s n hdr pay gap) := by
  unfold State.alignSeek
  repeat' with_reducible first
    | assumption | exact Only.sub hk (by decide) | apply keep_State_noteAlign | apply keep_State_alignErr
    | apply keep_State_resolveLane | apply keep_State_bump | refine Ext.ite (fun _ => ?_) (fun _ => ?_) | dsimp only
    | fail_if_no_progress (refine Ext.mk_of ?_) | split | intro _

theorem keep_State_alignKeep {F : Area → Bool} {s0 : State} (s : State) (n : Nat) (hdr : BitVec 2) (pay : BitVec 256) (gap : Nat) (skewUi : Nat) (hk : Only F [.regs, .nv, .mbx, .evt, .lnk, .ing, .items, .pwr, .out, .rc]) (hx : Ext F s0 s) :
    Ext F s0 (State.alignKeep s n hdr pay gap skewUi) := by
  unfold State.alignKeep
  repeat' with_reducible first
    | assumption | exact Only.sub hk (by decide) | apply keep_State_noteAlign | apply keep_State_alignErr
    | apply keep_State_deskewLane | apply keep_State_bump | refine Ext.ite (fun _ => ?_) (fun _ => ?_) | dsimp only
    | fail_if_no_progress (refine Ext.mk_of ?_) | split | intro _

theorem keep_State_fillBlock {F : Area → Bool} {s0 : State} (s : State) (n : Nat) (hk : Only F [.lnk]) (hx : Ext F s0 s) :
    Ext F s0 (State.fillBlock s n) := by
  unfold State.fillBlock
  repeat' with_reducible first
    | assumption | exact Only.sub hk (by decide) | apply keep_State_fillSeen
    | refine Ext.ite (fun _ => ?_) (fun _ => ?_) | dsimp only | fail_if_no_progress (refine Ext.mk_of ?_) | split
    | intro _

theorem keep_State_takeBlock {F : Area → Bool} {s0 : State} (s : State) (n : Nat) (hdr : BitVec 2) (pay : BitVec 256) (gap : Nat) (skewUi : Nat) (hk : Only F [.regs, .nv, .mbx, .evt, .lnk, .ing, .items, .dmc, .pwr, .out, .rc]) (hx : Ext F s0 s) :
    Ext F s0 (State.takeBlock s n hdr pay gap skewUi) := by
  unfold State.takeBlock
  repeat' with_reducible first
    | assumption | exact Only.sub hk (by decide) | apply keep_State_fillBlock | apply keep_State_alignKeep
    | apply keep_State_alignSeek | apply keep_State_badHeader | apply keep_State_useInj | apply keep_State_bump
    | refine Ext.ite (fun _ => ?_) (fun _ => ?_) | dsimp only | split

theorem keep_State_prbsBit {F : Area → Bool} {s0 : State} (s : State) (n : Nat) (v : Bool) (hk : Only F [.regs, .lnk, .rc]) (hx : Ext F s0 s) :
    Ext F s0 (State.prbsBit s n v) := by
  unfold State.prbsBit
  repeat' with_reducible first
    | assumption | exact Only.sub hk (by decide) | apply keep_State_wrs | apply keep_State_bump | apply keep_State_wrF
    | refine Ext.of_pair (by assumption) ?_ | refine Ext.of_triple (by assumption) ?_
    | refine Ext.of_done (by assumption) ?_ | refine Ext.of_wait (by assumption) ?_
    | refine Ext.ite (fun _ => ?_) (fun _ => ?_) | dsimp only | fail_if_no_progress (refine Ext.mk_of ?_) | split
    | intro _

theorem keep_State_prbsSend {F : Area → Bool} {s0 : State} (s : State) (n : Nat) (k : Nat) (hk : Only F [.lnk, .dmc]) (hx : Ext F s0 s) :
    Ext F s0 (State.prbsSend s n k).2 := by
  unfold State.prbsSend
  repeat' with_reducible first
    | assumption | exact Only.sub hk (by decide) | apply keep_State_useInj | refine Ext.foldl (fun _ _ _ => ?_) ?_
    | refine Ext.foldl_pair (fun _ _ _ => ?_) ?_ | refine Ext.foldl_triple (fun _ _ _ => ?_) ?_
    | refine Ext.of_pair (by assumption) ?_ | refine Ext.of_triple (by assumption) ?_
    | refine Ext.of_done (by assumption) ?_ | refine Ext.of_wait (by assumption) ?_
    | refine Ext.ite (fun _ => ?_) (fun _ => ?_) | refine Ext.ite_pair (fun _ => ?_) (fun _ => ?_) | dsimp only
    | split | fail_if_no_progress (refine Ext.mk_of ?_) | intro _

end Sys2Proof.Laws
end

