-- ==== Sys2Proof/Laws/KeepPowerOps.lean ====
section
/-!
SUPPORT. The operations of Machine/PowerOps.lean keep the relation Ext.
-/

set_option Elab.async false

namespace Sys2Proof.Laws

open Sys2Proof.Machine

set_option linter.unusedTactic false
set_option linter.unreachableTactic false
set_option maxRecDepth 2000

theorem keep_State_setPower {F : Area → Bool} {s0 : State} (s : State) (n : Nat) (hk : Only F [.regs, .mbx, .evt, .out, .rc]) (hx : Ext F s0 s) :
    Ext F s0 (State.setPower s n) := by
  unfold State.setPower
  repeat' with_reducible first
    | assumption | exact Only.sub hk (by decide) | apply keep_State_raise | apply keep_State_wrF | dsimp only

theorem keep_State_resumeTime {F : Area → Bool} {s0 : State} (s : State) (hk : Only F [.time, .regs, .mbx, .evt, .tim, .free, .out, .rc]) (hx : Ext F s0 s) :
    Ext F s0 (State.resumeTime s) := by
  unfold State.resumeTime
  repeat' with_reducible first
    | assumption | exact Only.sub hk (by decide) | apply keep_State_raise | apply keep_State_fresh
    | apply keep_State_wrF | refine Ext.of_pair (by assumption) ?_ | refine Ext.of_triple (by assumption) ?_
    | refine Ext.of_done (by assumption) ?_ | refine Ext.of_wait (by assumption) ?_
    | refine Ext.ite (fun _ => ?_) (fun _ => ?_) | dsimp only | fail_if_no_progress (refine Ext.mk_of ?_) | split
    | fail_if_no_progress (refine Ext.mk_tod ?_)

theorem keep_State_wakeP1 {F : Area → Bool} {s0 : State} (s : State) (hk : Only F [.time, .regs, .mbx, .evt, .tim, .free, .out, .rc]) (hx : Ext F s0 s) :
    Ext F s0 (State.wakeP1 s) := by
  unfold State.wakeP1
  repeat' with_reducible first
    | assumption | exact Only.sub hk (by decide) | apply keep_State_resumeTime | apply keep_State_setPower
    | refine Ext.ite (fun _ => ?_) (fun _ => ?_) | dsimp only | split

end Sys2Proof.Laws
end

