-- ==== Sys2Proof/Laws/KeepSq.lean ====
section
/-!
SUPPORT. The operations of Machine/Sq.lean keep the relation Ext.
-/

set_option Elab.async false

namespace Sys2Proof.Laws

open Sys2Proof.Machine

set_option linter.unusedTactic false
set_option linter.unreachableTactic false
set_option maxRecDepth 2000

theorem keep_State_setSq {F : Area → Bool} {s0 : State} (s : State) (q : Nat) (x : Option SqQueue) (hk : Only F [.lnd]) (hx : Ext F s0 s) :
    Ext F s0 (State.setSq s q x) := by
  unfold State.setSq
  repeat' with_reducible first
    | assumption | exact Only.sub hk (by decide) | dsimp only | fail_if_no_progress (refine Ext.mk_of ?_) | intro _

theorem keep_State_sqRegs {F : Area → Bool} {s0 : State} (s : State) (p : Nat) (hk : Only F [.regs]) (hx : Ext F s0 s) :
    Ext F s0 (State.sqRegs s p) := by
  unfold State.sqRegs
  repeat' with_reducible first
    | assumption | exact Only.sub hk (by decide) | apply keep_State_wrF | apply keep_State_wr
    | refine Ext.of_pair (by assumption) ?_ | refine Ext.of_triple (by assumption) ?_
    | refine Ext.of_done (by assumption) ?_ | refine Ext.of_wait (by assumption) ?_ | dsimp only | split | intro _

theorem keep_State_sqFlush {F : Area → Bool} {s0 : State} (s : State) (q : Nat) (y0 : Nat) (hk : Only F [.lnd, .out]) (hx : Ext F s0 s) :
    Ext F s0 (State.sqFlush s q y0) := by
  induction y0 generalizing s q hx with
  | zero =>
    unfold State.sqFlush
    repeat' with_reducible first
      | assumption | exact Only.sub hk (by decide) | apply keep_State_setSq | apply keep_State_emit
      | refine Ext.of_pair (by assumption) ?_ | refine Ext.of_triple (by assumption) ?_
      | refine Ext.of_done (by assumption) ?_ | refine Ext.of_wait (by assumption) ?_
      | refine Ext.ite (fun _ => ?_) (fun _ => ?_) | dsimp only | fail_if_no_progress (refine Ext.mk_of ?_) | split
  | succ k ih =>
    unfold State.sqFlush
    repeat' with_reducible first
      | assumption | apply ih | exact Only.sub hk (by decide) | apply keep_State_setSq | apply keep_State_emit
      | refine Ext.of_pair (by assumption) ?_ | refine Ext.of_triple (by assumption) ?_
      | refine Ext.of_done (by assumption) ?_ | refine Ext.of_wait (by assumption) ?_
      | refine Ext.ite (fun _ => ?_) (fun _ => ?_) | dsimp only | fail_if_no_progress (refine Ext.mk_of ?_) | split

theorem keep_State_sqEvent {F : Area → Bool} {s0 : State} (s : State) (q : Nat) (hk : Only F [.regs, .mbx, .evt, .lnd, .out, .rc]) (hx : Ext F s0 s) :
    Ext F s0 (State.sqEvent s q) := by
  unfold State.sqEvent
  repeat' with_reducible first
    | assumption | exact Only.sub hk (by decide) | apply keep_State_setSq | apply keep_State_raise
    | refine Ext.of_pair (by assumption) ?_ | refine Ext.of_triple (by assumption) ?_
    | refine Ext.of_done (by assumption) ?_ | refine Ext.of_wait (by assumption) ?_
    | refine Ext.ite (fun _ => ?_) (fun _ => ?_) | dsimp only | fail_if_no_progress (refine Ext.mk_of ?_) | split

theorem keep_State_sqPush {F : Area → Bool} {s0 : State} (s : State) (q : Nat) (hk : Only F [.regs, .mbx, .evt, .lnd, .out, .rc]) (hx : Ext F s0 s) :
    Ext F s0 (State.sqPush s q) := by
  unfold State.sqPush
  repeat' with_reducible first
    | assumption | exact Only.sub hk (by decide) | apply keep_State_sqEvent | apply keep_State_sqFlush
    | refine Ext.of_pair (by assumption) ?_ | refine Ext.of_triple (by assumption) ?_
    | refine Ext.of_done (by assumption) ?_ | refine Ext.of_wait (by assumption) ?_ | dsimp only | split

theorem keep_State_sqOut {F : Area → Bool} {s0 : State} (s : State) (q : Nat) (tag : Nat) (cookie : Nat) (status : Nat) (blocks : Nat) (hk : Only F [.regs, .mbx, .evt, .lnd, .out, .rc]) (hx : Ext F s0 s) :
    Ext F s0 (State.sqOut s q tag cookie status blocks) := by
  unfold State.sqOut
  repeat' with_reducible first
    | assumption | exact Only.sub hk (by decide) | apply keep_State_sqPush | apply keep_State_setSq
    | refine Ext.of_pair (by assumption) ?_ | refine Ext.of_triple (by assumption) ?_
    | refine Ext.of_done (by assumption) ?_ | refine Ext.of_wait (by assumption) ?_ | dsimp only
    | fail_if_no_progress (refine Ext.mk_of ?_) | split

theorem keep_State_sqEnd {F : Area → Bool} {s0 : State} (s : State) (q : Nat) (c : SqCmd) (status : Nat) (blocks : Nat) (hk : Only F [.regs, .mbx, .evt, .lnd, .out, .rc]) (hx : Ext F s0 s) :
    Ext F s0 (State.sqEnd s q c status blocks) := by
  unfold State.sqEnd
  repeat' with_reducible first
    | assumption | exact Only.sub hk (by decide) | apply keep_State_sqOut | apply keep_State_setSq
    | refine Ext.of_pair (by assumption) ?_ | refine Ext.of_triple (by assumption) ?_
    | refine Ext.of_done (by assumption) ?_ | refine Ext.of_wait (by assumption) ?_ | dsimp only
    | fail_if_no_progress (refine Ext.mk_of ?_) | split

theorem keep_sqCreate {F : Area → Bool} {s0 : State} (r : Req) (s : State) (hk : Only F [.regs, .lnd, .free]) (hx : Ext F s0 s) :
    Ext F s0 (ansSt (sqCreate r s)) := by
  unfold sqCreate
  repeat' with_reducible first
    | assumption | exact Only.sub hk (by decide) | apply keep_State_sqRegs | apply keep_State_setSq
    | apply keep_State_fresh | refine Ext.of_pair (by assumption) ?_ | refine Ext.of_triple (by assumption) ?_
    | refine Ext.of_done (by assumption) ?_ | refine Ext.of_wait (by assumption) ?_
    | refine Ext.ite (fun _ => ?_) (fun _ => ?_) | refine Ext.ite_ans (fun _ => ?_) (fun _ => ?_) | refine Ext.done ?_
    | dsimp only | split | intro _

theorem keep_sqDelete {F : Area → Bool} {s0 : State} (q : Nat) (r : Req) (s : State) (hk : Only F [.regs, .lnd]) (hx : Ext F s0 s) :
    Ext F s0 (ansSt (sqDelete q r s)) := by
  unfold sqDelete
  repeat' with_reducible first
    | assumption | exact Only.sub hk (by decide) | apply keep_State_sqRegs | apply keep_State_setSq
    | refine Ext.of_pair (by assumption) ?_ | refine Ext.of_triple (by assumption) ?_
    | refine Ext.of_done (by assumption) ?_ | refine Ext.of_wait (by assumption) ?_
    | refine Ext.ite (fun _ => ?_) (fun _ => ?_) | refine Ext.ite_ans (fun _ => ?_) (fun _ => ?_) | refine Ext.done ?_
    | dsimp only | split

theorem keep_sqAbort {F : Area → Bool} {s0 : State} (q : Nat) (tag : Nat) (r : Req) (s : State) (hk : Only F [.regs, .mbx, .evt, .lnd, .out, .rc]) (hx : Ext F s0 s) :
    Ext F s0 (ansSt (sqAbort q tag r s)) := by
  unfold sqAbort
  repeat' with_reducible first
    | assumption | exact Only.sub hk (by decide) | apply keep_State_sqEnd | apply keep_State_setSq
    | refine Ext.of_pair (by assumption) ?_ | refine Ext.of_triple (by assumption) ?_
    | refine Ext.of_done (by assumption) ?_ | refine Ext.of_wait (by assumption) ?_
    | refine Ext.ite (fun _ => ?_) (fun _ => ?_) | refine Ext.ite_ans (fun _ => ?_) (fun _ => ?_) | refine Ext.done ?_
    | dsimp only | split | fail_if_no_progress (refine Ext.mk_of ?_) | intro _

theorem keep_sqStatus {F : Area → Bool} {s0 : State} (q : Nat) (r : Req) (s : State)  (hx : Ext F s0 s) :
    Ext F s0 (ansSt (sqStatus q r s)) := by
  unfold sqStatus
  repeat' with_reducible first
    | assumption | refine Ext.of_pair (by assumption) ?_ | refine Ext.of_triple (by assumption) ?_
    | refine Ext.of_done (by assumption) ?_ | refine Ext.of_wait (by assumption) ?_ | refine Ext.done ?_ | dsimp only
    | split

theorem keep_State_sqFetch {F : Area → Bool} {s0 : State} (s : State) (q : Nat) (w : BitVec 512) (hk : Only F [.time, .regs, .mbx, .evt, .lnd, .tim, .free, .out, .rc]) (hx : Ext F s0 s) :
    Ext F s0 (State.sqFetch s q w) := by
  unfold State.sqFetch
  repeat' with_reducible first
    | assumption | exact Only.sub hk (by decide) | apply keep_State_sqOut | apply keep_State_setSq
    | apply keep_State_wakeP1 | refine Ext.of_pair (by assumption) ?_ | refine Ext.of_triple (by assumption) ?_
    | refine Ext.of_done (by assumption) ?_ | refine Ext.of_wait (by assumption) ?_
    | refine Ext.ite (fun _ => ?_) (fun _ => ?_) | dsimp only | fail_if_no_progress (refine Ext.mk_of ?_) | split
    | intro _

theorem keep_State_sqPolled {F : Area → Bool} {s0 : State} (s : State) (qid : Fin 32) (x : SqQueue) (hostWord : BitVec 64) (cmds : List (BitVec 512)) (hk : Only F [.time, .regs, .mbx, .evt, .lnd, .tim, .free, .out, .rc]) (hx : Ext F s0 s) :
    Ext F s0 (State.sqPolled s qid x hostWord cmds) := by
  unfold State.sqPolled
  repeat' with_reducible first
    | assumption | exact Only.sub hk (by decide) | apply keep_State_sqFetch | apply keep_State_sqPush
    | apply keep_State_setSq | refine Ext.foldl (fun _ _ _ => ?_) ?_ | refine Ext.foldl_pair (fun _ _ _ => ?_) ?_
    | refine Ext.foldl_triple (fun _ _ _ => ?_) ?_ | dsimp only | fail_if_no_progress (refine Ext.mk_of ?_) | intro _

theorem keep_State_sqStart {F : Area → Bool} {s0 : State} (s : State) (q : Nat) (x : SqQueue) (c : SqCmd) (data : List Byte) (hk : Only F [.lnd]) (hx : Ext F s0 s) :
    Ext F s0 (State.sqStart s q x c data) := by
  unfold State.sqStart
  repeat' with_reducible first
    | assumption | exact Only.sub hk (by decide) | apply keep_State_setSq | dsimp only
    | fail_if_no_progress (refine Ext.mk_of ?_)

theorem keep_State_sqWriteStart {F : Area → Bool} {s0 : State} (s : State) (q : Nat) (opc : Nat) (data : Option (List Byte)) (hk : Only F [.regs, .mbx, .evt, .lnd, .out, .rc]) (hx : Ext F s0 s) :
    Ext F s0 (State.sqWriteStart s q opc data) := by
  unfold State.sqWriteStart
  repeat' with_reducible first
    | assumption | exact Only.sub hk (by decide) | apply keep_State_sqStart | apply keep_State_sqEnd
    | apply keep_State_bump | refine Ext.of_pair (by assumption) ?_ | refine Ext.of_triple (by assumption) ?_
    | refine Ext.of_done (by assumption) ?_ | refine Ext.of_wait (by assumption) ?_
    | refine Ext.ite (fun _ => ?_) (fun _ => ?_) | dsimp only | split

theorem keep_State_sqEffect {F : Area → Bool} {s0 : State} (s : State) (x : SqQueue) (c : SqCmd) (k : Nat) (hk : Only F [.regs, .nv, .out]) (hx : Ext F s0 s) :
    Ext F s0 (State.sqEffect s x c k) := by
  unfold State.sqEffect
  repeat' with_reducible first
    | assumption | exact Only.sub hk (by decide) | apply keep_State_viol | apply keep_State_nvStore
    | apply keep_State_emit | refine Ext.foldl (fun _ _ _ => ?_) ?_ | refine Ext.foldl_pair (fun _ _ _ => ?_) ?_
    | refine Ext.foldl_triple (fun _ _ _ => ?_) ?_ | refine Ext.ite (fun _ => ?_) (fun _ => ?_) | dsimp only | split
    | intro _

theorem keep_State_sqDone {F : Area → Bool} {s0 : State} (s : State) (q : Nat) (tag : Nat) (blocks : Nat) (fail : Option (Fin 2048)) (hk : Only F [.regs, .nv, .mbx, .evt, .items, .lnd, .pwr, .out, .rc]) (hx : Ext F s0 s) :
    Ext F s0 (State.sqDone s q tag blocks fail) := by
  unfold State.sqDone
  repeat' with_reducible first
    | assumption | exact Only.sub hk (by decide) | apply keep_State_sqEffect | apply keep_State_sqEnd
    | apply keep_State_faultItem | refine Ext.of_pair (by assumption) ?_ | refine Ext.of_triple (by assumption) ?_
    | refine Ext.of_done (by assumption) ?_ | refine Ext.of_wait (by assumption) ?_
    | refine Ext.ite (fun _ => ?_) (fun _ => ?_) | dsimp only | split | intro _

theorem keep_State_uaHeld {F : Area → Bool} {s0 : State} (s : State) (b : Nat) (bytes : List (Nat × Byte)) (hk : Only F [.nv, .lnd]) (hx : Ext F s0 s) :
    Ext F s0 (State.uaHeld s b bytes) := by
  unfold State.uaHeld
  repeat' with_reducible first
    | assumption | exact Only.sub hk (by decide) | apply keep_State_nvStore | refine Ext.foldl (fun _ _ _ => ?_) ?_
    | refine Ext.foldl_pair (fun _ _ _ => ?_) ?_ | refine Ext.foldl_triple (fun _ _ _ => ?_) ?_ | dsimp only
    | fail_if_no_progress (refine Ext.mk_of ?_) | intro _

theorem keep_State_sqReset {F : Area → Bool} {s0 : State} (s : State) (cs : List Nat) (hk : Only F [.regs, .mbx, .evt, .lnd, .out, .rc]) (hx : Ext F s0 s) :
    Ext F s0 (State.sqReset s cs) := by
  unfold State.sqReset
  repeat' with_reducible first
    | assumption | exact Only.sub hk (by decide) | apply keep_State_sqEnd | apply keep_State_setSq
    | refine Ext.foldl (fun _ _ _ => ?_) ?_ | refine Ext.foldl_pair (fun _ _ _ => ?_) ?_
    | refine Ext.foldl_triple (fun _ _ _ => ?_) ?_ | refine Ext.of_pair (by assumption) ?_
    | refine Ext.of_triple (by assumption) ?_ | refine Ext.of_done (by assumption) ?_
    | refine Ext.of_wait (by assumption) ?_ | refine Ext.ite (fun _ => ?_) (fun _ => ?_) | dsimp only
    | fail_if_no_progress (refine Ext.mk_of ?_) | split | intro _

theorem keep_State_sqRelease {F : Area → Bool} {s0 : State} (s : State) (cs : List Nat) (hk : Only F [.regs, .lnd]) (hx : Ext F s0 s) :
    Ext F s0 (State.sqRelease s cs) := by
  unfold State.sqRelease
  repeat' with_reducible first
    | assumption | exact Only.sub hk (by decide) | apply keep_State_sqRegs | apply keep_State_setSq
    | refine Ext.foldl (fun _ _ _ => ?_) ?_ | refine Ext.foldl_pair (fun _ _ _ => ?_) ?_
    | refine Ext.foldl_triple (fun _ _ _ => ?_) ?_ | refine Ext.of_pair (by assumption) ?_
    | refine Ext.of_triple (by assumption) ?_ | refine Ext.of_done (by assumption) ?_
    | refine Ext.of_wait (by assumption) ?_ | refine Ext.ite (fun _ => ?_) (fun _ => ?_) | dsimp only | split
    | intro _

end Sys2Proof.Laws
end

