-- ==== Sys2Proof/Laws/KeepMem.lean ====
section
/-!
SUPPORT. The operations of Machine/Mem.lean keep the relation Ext.
-/

set_option Elab.async false

namespace Sys2Proof.Laws

open Sys2Proof.Machine

set_option linter.unusedTactic false
set_option linter.unreachableTactic false
set_option maxRecDepth 2000

theorem keep_errInject {F : Area → Bool} {s0 : State} (kind : Nat) (target : Nat) (count : Nat) (u3 : Req) (s : State) (hk : Only F [.regs, .mbx, .evt, .lnk, .ing, .dmc, .out, .rc]) (hx : Ext F s0 s) :
    Ext F s0 (ansSt (errInject kind target count u3 s)) := by
  unfold errInject
  repeat' with_reducible first
    | assumption | exact Only.sub hk (by decide) | apply keep_State_dropLane | apply keep_State_bump
    | refine Ext.of_pair (by assumption) ?_ | refine Ext.of_triple (by assumption) ?_
    | refine Ext.of_done (by assumption) ?_ | refine Ext.of_wait (by assumption) ?_
    | refine Ext.ite (fun _ => ?_) (fun _ => ?_) | refine Ext.ite_ans (fun _ => ?_) (fun _ => ?_) | refine Ext.done ?_
    | dsimp only | split | fail_if_no_progress (refine Ext.mk_of ?_) | intro _

theorem keep_State_hoAccept {F : Area → Bool} {s0 : State} (s : State) (b : Nat) (v : Word) (hk : Only F [.regs, .spd]) (hx : Ext F s0 s) :
    Ext F s0 (State.hoAccept s b v) := by
  unfold State.hoAccept
  repeat' with_reducible first
    | assumption | exact Only.sub hk (by decide) | apply keep_State_wr | dsimp only
    | fail_if_no_progress (refine Ext.mk_of ?_) | intro _

theorem keep_State_spdZero {F : Area → Bool} {s0 : State} (s : State) (b : Nat) (hk : Only F [.mem, .dmc]) (hx : Ext F s0 s) :
    Ext F s0 (State.spdZero s b) := by
  unfold State.spdZero
  repeat' with_reducible first
    | assumption | exact Only.sub hk (by decide) | apply keep_State_memClear | dsimp only
    | fail_if_no_progress (refine Ext.mk_of ?_)

theorem keep_State_spdReset {F : Area → Bool} {s0 : State} (s : State) (p : Nat) (hk : Only F [.regs, .mem, .dmc]) (hx : Ext F s0 s) :
    Ext F s0 (State.spdReset s p) := by
  unfold State.spdReset
  repeat' with_reducible first
    | assumption | exact Only.sub hk (by decide) | apply keep_State_spdZero | apply keep_State_wr
    | refine Ext.foldl (fun _ _ _ => ?_) ?_ | refine Ext.foldl_pair (fun _ _ _ => ?_) ?_
    | refine Ext.foldl_triple (fun _ _ _ => ?_) ?_ | dsimp only | intro _

theorem keep_State_setChute {F : Area → Bool} {s0 : State} (s : State) (n : Nat) (c : Chute) (hk : Only F [.chutes]) (hx : Ext F s0 s) :
    Ext F s0 (State.setChute s n c) := by
  unfold State.setChute
  repeat' with_reducible first
    | assumption | exact Only.sub hk (by decide) | dsimp only | fail_if_no_progress (refine Ext.mk_of ?_) | intro _

theorem keep_State_chutePush {F : Area → Bool} {s0 : State} (s : State) (n : Nat) (c : Chute) (hk : Only F [.regs, .chutes, .rc]) (hx : Ext F s0 s) :
    Ext F s0 (State.chutePush s n c) := by
  unfold State.chutePush
  repeat' with_reducible first
    | assumption | exact Only.sub hk (by decide) | apply keep_State_setChute | apply keep_State_bump
    | refine Ext.of_pair (by assumption) ?_ | refine Ext.of_triple (by assumption) ?_
    | refine Ext.of_done (by assumption) ?_ | refine Ext.of_wait (by assumption) ?_
    | refine Ext.ite (fun _ => ?_) (fun _ => ?_) | dsimp only | fail_if_no_progress (refine Ext.mk_of ?_) | split

theorem keep_State_chutePut {F : Area → Bool} {s0 : State} (s : State) (n : Nat) (kind : Nat) (w : ChuteWord) (hk : Only F [.regs, .dmc, .chutes, .rc]) (hx : Ext F s0 s) :
    Ext F s0 (State.chutePut s n kind w) := by
  unfold State.chutePut
  repeat' with_reducible first
    | assumption | exact Only.sub hk (by decide) | apply keep_State_chutePush | apply keep_State_setChute
    | apply keep_State_useInj | refine Ext.ite (fun _ => ?_) (fun _ => ?_) | dsimp only
    | fail_if_no_progress (refine Ext.mk_of ?_) | split

theorem keep_State_chuteOffer {F : Area → Bool} {s0 : State} (s : State) (n : Nat) (y0 : Nat) (hk : Only F [.regs, .dmc, .chutes, .rc]) (hx : Ext F s0 s) :
    Ext F s0 (State.chuteOffer s n y0) := by
  induction y0 generalizing s n hx with
  | zero =>
    unfold State.chuteOffer
    repeat' with_reducible first
      | assumption | exact Only.sub hk (by decide) | apply keep_State_chutePut | apply keep_State_setChute
      | refine Ext.of_pair (by assumption) ?_ | refine Ext.of_triple (by assumption) ?_
      | refine Ext.of_done (by assumption) ?_ | refine Ext.of_wait (by assumption) ?_
      | refine Ext.ite (fun _ => ?_) (fun _ => ?_) | dsimp only | fail_if_no_progress (refine Ext.mk_of ?_) | split
  | succ k ih =>
    unfold State.chuteOffer
    repeat' with_reducible first
      | assumption | apply ih | exact Only.sub hk (by decide) | apply keep_State_chutePut | apply keep_State_setChute
      | refine Ext.of_pair (by assumption) ?_ | refine Ext.of_triple (by assumption) ?_
      | refine Ext.of_done (by assumption) ?_ | refine Ext.of_wait (by assumption) ?_
      | refine Ext.ite (fun _ => ?_) (fun _ => ?_) | dsimp only | fail_if_no_progress (refine Ext.mk_of ?_) | split

theorem keep_State_chuteReset {F : Area → Bool} {s0 : State} (s : State) (hk : Only F [.regs, .chutes]) (hx : Ext F s0 s) :
    Ext F s0 (State.chuteReset s) := by
  unfold State.chuteReset
  repeat' with_reducible first
    | assumption | exact Only.sub hk (by decide) | apply keep_State_regClear | dsimp only
    | fail_if_no_progress (refine Ext.mk_of ?_)

theorem keep_State_chuteBoot {F : Area → Bool} {s0 : State} (s : State) (hk : Only F [.regs]) (hx : Ext F s0 s) :
    Ext F s0 (State.chuteBoot s) := by
  unfold State.chuteBoot
  repeat' with_reducible first
    | assumption | exact Only.sub hk (by decide) | apply keep_State_wr | refine Ext.foldl (fun _ _ _ => ?_) ?_
    | refine Ext.foldl_pair (fun _ _ _ => ?_) ?_ | refine Ext.foldl_triple (fun _ _ _ => ?_) ?_ | dsimp only | intro _

theorem keep_State_dramDrain {F : Area → Bool} {s0 : State} (s : State) (ch : Nat) (hk : Only F [.dmc]) (hx : Ext F s0 s) :
    Ext F s0 (State.dramDrain s ch) := by
  unfold State.dramDrain
  repeat' with_reducible first
    | assumption | exact Only.sub hk (by decide) | dsimp only | fail_if_no_progress (refine Ext.mk_of ?_)

end Sys2Proof.Laws
end

