-- ==== Sys2Proof/Laws/KeepCheckImg.lean ====
section
/-!
SUPPORT. The operations of Machine/CheckImg.lean keep the relation Ext.
-/

set_option Elab.async false

namespace Sys2Proof.Laws

open Sys2Proof.Machine

set_option linter.unusedTactic false
set_option linter.unreachableTactic false
set_option maxRecDepth 2000

theorem keep_State_crsLoad {F : Area → Bool} {s0 : State} (s : State) (hk : Only F [.regs]) (hx : Ext F s0 s) :
    Ext F s0 (State.crsLoad s) := by
  unfold State.crsLoad
  repeat' with_reducible first
    | assumption | exact Only.sub hk (by decide) | apply keep_State_wr | refine Ext.of_pair (by assumption) ?_
    | refine Ext.of_triple (by assumption) ?_ | refine Ext.of_done (by assumption) ?_
    | refine Ext.of_wait (by assumption) ?_ | dsimp only | split

end Sys2Proof.Laws
end

