-- ==== Sys2Proof/Laws/KeepVcdOps.lean ====
section
/-!
SUPPORT. The operations of Machine/VcdOps.lean keep the relation Ext.
-/

set_option Elab.async false

namespace Sys2Proof.Laws

open Sys2Proof.Machine

set_option linter.unusedTactic false
set_option linter.unreachableTactic false
set_option maxRecDepth 2000

theorem keep_State_vcPoolRegs {F : Area → Bool} {s0 : State} (s : State) (p : Nat) (hk : Only F [.regs]) (hx : Ext F s0 s) :
    Ext F s0 (State.vcPoolRegs s p) := by
  unfold State.vcPoolRegs
  repeat' with_reducible first
    | assumption | exact Only.sub hk (by decide) | apply keep_State_wrF | apply keep_State_wr
    | refine Ext.of_pair (by assumption) ?_ | refine Ext.of_triple (by assumption) ?_
    | refine Ext.of_done (by assumption) ?_ | refine Ext.of_wait (by assumption) ?_
    | refine Ext.ite (fun _ => ?_) (fun _ => ?_) | dsimp only | split | intro _

theorem keep_State_setVc {F : Area → Bool} {s0 : State} (s : State) (q : Nat) (x : VcSession) (hk : Only F [.regs, .vcd]) (hx : Ext F s0 s) :
    Ext F s0 (State.setVc s q x) := by
  unfold State.setVc
  repeat' with_reducible first
    | assumption | exact Only.sub hk (by decide) | apply keep_State_wrs | refine Ext.ite (fun _ => ?_) (fun _ => ?_)
    | dsimp only | fail_if_no_progress (refine Ext.mk_of ?_) | split | intro _

theorem keep_State_encFree {F : Area → Bool} {s0 : State} (s : State) (q : Nat) (hk : Only F [.vcd]) (hx : Ext F s0 s) :
    Ext F s0 (State.encFree s q) := by
  unfold State.encFree
  repeat' with_reducible first
    | assumption | exact Only.sub hk (by decide) | refine Ext.ite (fun _ => ?_) (fun _ => ?_) | dsimp only
    | fail_if_no_progress (refine Ext.mk_of ?_) | split

theorem keep_State_decFree {F : Area → Bool} {s0 : State} (s : State) (q : Nat) (hk : Only F [.vcd]) (hx : Ext F s0 s) :
    Ext F s0 (State.decFree s q) := by
  unfold State.decFree
  repeat' with_reducible first
    | assumption | exact Only.sub hk (by decide) | refine Ext.ite (fun _ => ?_) (fun _ => ?_) | dsimp only
    | fail_if_no_progress (refine Ext.mk_of ?_) | split

theorem keep_State_vcGone {F : Area → Bool} {s0 : State} (s : State) (q : Nat) (hk : Only F [.regs, .vcd]) (hx : Ext F s0 s) :
    Ext F s0 (State.vcGone s q) := by
  unfold State.vcGone
  repeat' with_reducible first
    | assumption | exact Only.sub hk (by decide) | apply keep_State_decFree | apply keep_State_encFree
    | apply keep_State_vcPoolRegs | apply keep_State_regClear | refine Ext.of_pair (by assumption) ?_
    | refine Ext.of_triple (by assumption) ?_ | refine Ext.of_done (by assumption) ?_
    | refine Ext.of_wait (by assumption) ?_ | dsimp only | fail_if_no_progress (refine Ext.mk_of ?_) | split | intro _

theorem keep_State_vcEvent {F : Area → Bool} {s0 : State} (s : State) (q : Nat) (code : Nat) (status : Nat) (arg : Nat) (hk : Only F [.regs, .mbx, .evt, .out, .rc]) (hx : Ext F s0 s) :
    Ext F s0 (State.vcEvent s q code status arg) := by
  unfold State.vcEvent
  repeat' with_reducible first
    | assumption | exact Only.sub hk (by decide) | apply keep_State_raise | refine Ext.of_pair (by assumption) ?_
    | refine Ext.of_triple (by assumption) ?_ | refine Ext.of_done (by assumption) ?_
    | refine Ext.of_wait (by assumption) ?_ | dsimp only | split

theorem keep_State_vcPicEvent {F : Area → Bool} {s0 : State} (s : State) (q : Nat) (e : Nat) (no : Nat) (code : Nat) (arg : Nat) (hk : Only F [.regs, .mbx, .evt, .out, .rc]) (hx : Ext F s0 s) :
    Ext F s0 (State.vcPicEvent s q e no code arg) := by
  unfold State.vcPicEvent
  repeat' with_reducible first
    | assumption | exact Only.sub hk (by decide) | apply keep_State_raiseOf | refine Ext.of_pair (by assumption) ?_
    | refine Ext.of_triple (by assumption) ?_ | refine Ext.of_done (by assumption) ?_
    | refine Ext.of_wait (by assumption) ?_ | dsimp only | split

theorem keep_State_vcJobDone {F : Area → Bool} {s0 : State} (s : State) (q : Nat) (tag : Nat) (status : Nat) (hk : Only F [.regs, .mbx, .evt, .out, .rc]) (hx : Ext F s0 s) :
    Ext F s0 (State.vcJobDone s q tag status) := by
  unfold State.vcJobDone
  repeat' with_reducible first
    | assumption | exact Only.sub hk (by decide) | apply keep_State_vcEvent | dsimp only

theorem keep_State_vcPacket {F : Area → Bool} {s0 : State} (s : State) (q : Nat) (x : VcSession) (frame : Nat) (epoch : Nat) (flags : Nat) (kind : Nat) (pflags : Nat) (poc : Nat) (first : Nat) (rows : Nat) (qp : Nat) (payload : List Byte) (hk : Only F [.regs, .mem, .nv, .mbx, .evt, .items, .rings, .cpl, .lnd, .dmc, .pwr, .free, .out, .spd, .rc]) (hx : Ext F s0 s) :
    Ext F s0 (State.vcPacket s q x frame epoch flags kind pflags poc first rows qp payload) := by
  unfold State.vcPacket
  repeat' with_reducible first
    | assumption | exact Only.sub hk (by decide) | apply keep_State_stage | dsimp only

theorem keep_State_vcSkip {F : Area → Bool} {s0 : State} (s : State) (q : Nat) (reason : Nat) (e : Nat) (no : Nat) (hk : Only F [.regs, .mbx, .evt, .vcd, .out, .rc]) (hx : Ext F s0 s) :
    Ext F s0 (State.vcSkip s q reason e no) := by
  unfold State.vcSkip
  repeat' with_reducible first
    | assumption | exact Only.sub hk (by decide) | apply keep_State_vcPicEvent | apply keep_State_setVc
    | apply keep_State_bump | refine Ext.of_pair (by assumption) ?_ | refine Ext.of_triple (by assumption) ?_
    | refine Ext.of_done (by assumption) ?_ | refine Ext.of_wait (by assumption) ?_
    | refine Ext.ite (fun _ => ?_) (fun _ => ?_) | dsimp only | fail_if_no_progress (refine Ext.mk_of ?_) | split

theorem keep_State_vcRelease {F : Area → Bool} {s0 : State} (s : State) (q : Nat) (p : VcPic) (hk : Only F [.regs, .cpl]) (hx : Ext F s0 s) :
    Ext F s0 (State.vcRelease s q p) := by
  unfold State.vcRelease
  repeat' with_reducible first
    | assumption | exact Only.sub hk (by decide) | apply keep_State_release | refine Ext.of_pair (by assumption) ?_
    | refine Ext.of_triple (by assumption) ?_ | refine Ext.of_done (by assumption) ?_
    | refine Ext.of_wait (by assumption) ?_ | dsimp only | split

theorem keep_State_vcDrop {F : Area → Bool} {s0 : State} (s : State) (q : Nat) (status : Nat) (hk : Only F [.regs, .mbx, .evt, .cpl, .vcd, .out, .rc]) (hx : Ext F s0 s) :
    Ext F s0 (State.vcDrop s q status) := by
  unfold State.vcDrop
  repeat' with_reducible first
    | assumption | exact Only.sub hk (by decide) | apply keep_State_vcRelease | apply keep_State_vcJobDone
    | apply keep_State_setVc | refine Ext.of_pair (by assumption) ?_ | refine Ext.of_triple (by assumption) ?_
    | refine Ext.of_done (by assumption) ?_ | refine Ext.of_wait (by assumption) ?_ | dsimp only
    | fail_if_no_progress (refine Ext.mk_of ?_) | split

theorem keep_State_vcPick {F : Area → Bool} {s0 : State} (s : State) (y0 : Nat) (hk : Only F [.regs, .mbx, .evt, .cpl, .vcd, .out, .rc]) (hx : Ext F s0 s) :
    Ext F s0 (State.vcPick s y0) := by
  induction y0 generalizing s hx with
  | zero =>
    unfold State.vcPick
    repeat' with_reducible first
      | assumption | exact Only.sub hk (by decide) | apply keep_State_vcRelease | apply keep_State_vcSkip
      | apply keep_State_vcJobDone | apply keep_State_setVc | refine Ext.of_pair (by assumption) ?_
      | refine Ext.of_triple (by assumption) ?_ | refine Ext.of_done (by assumption) ?_
      | refine Ext.of_wait (by assumption) ?_ | refine Ext.ite (fun _ => ?_) (fun _ => ?_) | dsimp only
      | fail_if_no_progress (refine Ext.mk_of ?_) | split
  | succ k ih =>
    unfold State.vcPick
    repeat' with_reducible first
      | assumption | apply ih | exact Only.sub hk (by decide) | apply keep_State_vcRelease | apply keep_State_vcSkip
      | apply keep_State_vcJobDone | apply keep_State_setVc | refine Ext.of_pair (by assumption) ?_
      | refine Ext.of_triple (by assumption) ?_ | refine Ext.of_done (by assumption) ?_
      | refine Ext.of_wait (by assumption) ?_ | refine Ext.ite (fun _ => ?_) (fun _ => ?_) | dsimp only
      | fail_if_no_progress (refine Ext.mk_of ?_) | split

theorem keep_State_vcTryClose {F : Area → Bool} {s0 : State} (s : State) (q : Nat) (hk : Only F [.regs, .mem, .nv, .mbx, .evt, .items, .rings, .cpl, .lnd, .vcd, .dmc, .pwr, .free, .out, .spd, .rc]) (hx : Ext F s0 s) :
    Ext F s0 (State.vcTryClose s q) := by
  unfold State.vcTryClose
  repeat' with_reducible first
    | assumption | exact Only.sub hk (by decide) | apply keep_State_vcPacket | apply keep_State_vcGone
    | apply keep_State_raise | refine Ext.of_pair (by assumption) ?_ | refine Ext.of_triple (by assumption) ?_
    | refine Ext.of_done (by assumption) ?_ | refine Ext.of_wait (by assumption) ?_
    | refine Ext.ite (fun _ => ?_) (fun _ => ?_) | dsimp only | split

theorem keep_State_vcFlush {F : Area → Bool} {s0 : State} (s : State) (q : Nat) (status : Nat) (hk : Only F [.regs, .mbx, .evt, .cpl, .vcd, .out, .rc]) (hx : Ext F s0 s) :
    Ext F s0 (State.vcFlush s q status) := by
  unfold State.vcFlush
  repeat' with_reducible first
    | assumption | exact Only.sub hk (by decide) | apply keep_State_vcRelease | apply keep_State_vcJobDone
    | apply keep_State_decFree | apply keep_State_encFree | apply keep_State_setVc
    | refine Ext.foldl (fun _ _ _ => ?_) ?_ | refine Ext.foldl_pair (fun _ _ _ => ?_) ?_
    | refine Ext.foldl_triple (fun _ _ _ => ?_) ?_ | refine Ext.of_pair (by assumption) ?_
    | refine Ext.of_triple (by assumption) ?_ | refine Ext.of_done (by assumption) ?_
    | refine Ext.of_wait (by assumption) ?_ | refine Ext.ite (fun _ => ?_) (fun _ => ?_) | dsimp only
    | fail_if_no_progress (refine Ext.mk_of ?_) | split | intro _

theorem keep_State_vcStop {F : Area → Bool} {s0 : State} (s : State) (q : Nat) (hk : Only F [.regs, .mbx, .evt, .cpl, .vcd, .out, .rc]) (hx : Ext F s0 s) :
    Ext F s0 (State.vcStop s q) := by
  unfold State.vcStop
  repeat' with_reducible first
    | assumption | exact Only.sub hk (by decide) | apply keep_State_vcDrop | apply keep_State_setVc
    | refine Ext.of_pair (by assumption) ?_ | refine Ext.of_triple (by assumption) ?_
    | refine Ext.of_done (by assumption) ?_ | refine Ext.of_wait (by assumption) ?_
    | refine Ext.ite (fun _ => ?_) (fun _ => ?_) | dsimp only | split

theorem keep_State_vcReset {F : Area → Bool} {s0 : State} (s : State) (cs : List Nat) (hk : Only F [.regs, .mbx, .evt, .cpl, .vcd, .out, .rc]) (hx : Ext F s0 s) :
    Ext F s0 (State.vcReset s cs) := by
  unfold State.vcReset
  repeat' with_reducible first
    | assumption | exact Only.sub hk (by decide) | apply keep_State_vcStop | apply keep_State_vcFlush
    | refine Ext.foldl (fun _ _ _ => ?_) ?_ | refine Ext.foldl_pair (fun _ _ _ => ?_) ?_
    | refine Ext.foldl_triple (fun _ _ _ => ?_) ?_ | refine Ext.of_pair (by assumption) ?_
    | refine Ext.of_triple (by assumption) ?_ | refine Ext.of_done (by assumption) ?_
    | refine Ext.of_wait (by assumption) ?_ | dsimp only | fail_if_no_progress (refine Ext.mk_of ?_) | split | intro _

theorem keep_State_vcFreeCtx {F : Area → Bool} {s0 : State} (s : State) (cs : List Nat) (hk : Only F [.regs, .cpl, .vcd]) (hx : Ext F s0 s) :
    Ext F s0 (State.vcFreeCtx s cs) := by
  unfold State.vcFreeCtx
  repeat' with_reducible first
    | assumption | exact Only.sub hk (by decide) | apply keep_State_vcRelease | apply keep_State_vcGone
    | refine Ext.foldl (fun _ _ _ => ?_) ?_ | refine Ext.foldl_pair (fun _ _ _ => ?_) ?_
    | refine Ext.foldl_triple (fun _ _ _ => ?_) ?_ | refine Ext.of_pair (by assumption) ?_
    | refine Ext.of_triple (by assumption) ?_ | refine Ext.of_done (by assumption) ?_
    | refine Ext.of_wait (by assumption) ?_ | dsimp only | fail_if_no_progress (refine Ext.mk_of ?_) | split | intro _

theorem keep_State_vcOutput {F : Area → Bool} {s0 : State} (s : State) (o : Nat) (b : OutBuf) (mtx : Bool) (full : Bool) (dest : Bool) (hk : Only F [.regs, .vcd]) (hx : Ext F s0 s) :
    Ext F s0 (State.vcOutput s o b mtx full dest) := by
  unfold State.vcOutput
  repeat' with_reducible first
    | assumption | exact Only.sub hk (by decide) | apply keep_State_setVc | refine Ext.foldl (fun _ _ _ => ?_) ?_
    | refine Ext.foldl_pair (fun _ _ _ => ?_) ?_ | refine Ext.foldl_triple (fun _ _ _ => ?_) ?_
    | refine Ext.of_pair (by assumption) ?_ | refine Ext.of_triple (by assumption) ?_
    | refine Ext.of_done (by assumption) ?_ | refine Ext.of_wait (by assumption) ?_
    | refine Ext.ite (fun _ => ?_) (fun _ => ?_) | dsimp only | fail_if_no_progress (refine Ext.mk_of ?_) | split
    | intro _

end Sys2Proof.Laws
end

