-- ==== Sys2Proof/Laws/KeepCpl.lean ====
section
/-!
SUPPORT. The operations of Machine/Cpl.lean keep the relation Ext.
-/

set_option Elab.async false

namespace Sys2Proof.Laws

open Sys2Proof.Machine

set_option linter.unusedTactic false
set_option linter.unreachableTactic false
set_option maxRecDepth 2000

theorem keep_State_scStart {F : Area → Bool} {s0 : State} (s : State) (f : Frame) (lutUe : List (Fin 8 × Fin 3)) (o : Nat) (d : Dev) (hk : Only F [.regs, .nv, .mbx, .evt, .items, .cpl, .dmc, .pwr, .out, .spd, .rc]) (hx : Ext F s0 s) :
    Ext F s0 (State.scStart s f lutUe o d).2 := by
  unfold State.scStart
  repeat' with_reducible first
    | assumption | exact Only.sub hk (by decide) | apply keep_State_scEvent | apply keep_State_setScaler
    | apply keep_State_dmaGets | apply keep_State_faultItem | apply keep_State_bump
    | refine Ext.foldl (fun _ _ _ => ?_) ?_ | refine Ext.foldl_pair (fun _ _ _ => ?_) ?_
    | refine Ext.foldl_triple (fun _ _ _ => ?_) ?_ | refine Ext.of_pair (by assumption) ?_
    | refine Ext.of_triple (by assumption) ?_ | refine Ext.of_done (by assumption) ?_
    | refine Ext.of_wait (by assumption) ?_ | refine Ext.ite (fun _ => ?_) (fun _ => ?_)
    | refine Ext.ite_pair (fun _ => ?_) (fun _ => ?_) | dsimp only | split | fail_if_no_progress (refine Ext.mk_of ?_)
    | intro _

theorem keep_State_devBegin {F : Area → Bool} {s0 : State} (s : State) (f : Frame) (tapUe : List (Nat × Nat × Nat)) (lutUe : List (Fin 8 × Fin 3)) (hk : Only F [.regs, .nv, .mbx, .evt, .ing, .items, .cpl, .crs, .dmc, .pwr, .out, .spd, .rc]) (hx : Ext F s0 s) :
    Ext F s0 (State.devBegin s f tapUe lutUe) := by
  unfold State.devBegin
  repeat' with_reducible first
    | assumption | exact Only.sub hk (by decide) | apply keep_State_scStart | apply keep_State_devSettle
    | apply keep_State_dmaGet | apply keep_State_faultItem | apply keep_State_wrF
    | refine Ext.foldl (fun _ _ _ => ?_) ?_ | refine Ext.foldl_pair (fun _ _ _ => ?_) ?_
    | refine Ext.foldl_triple (fun _ _ _ => ?_) ?_ | refine Ext.of_pair (by assumption) ?_
    | refine Ext.of_triple (by assumption) ?_ | refine Ext.of_done (by assumption) ?_
    | refine Ext.of_wait (by assumption) ?_ | dsimp only | fail_if_no_progress (refine Ext.mk_of ?_) | split | intro _

theorem keep_State_scHost {F : Area → Bool} {s0 : State} (s : State) (e : Nat) (o : Nat) (b : Nat) (size : Nat) (hk : Only F [.regs, .mbx, .evt, .items, .rings, .cpl, .lnd, .out, .rc]) (hx : Ext F s0 s) :
    Ext F s0 (State.scHost s e o b size) := by
  unfold State.scHost
  repeat' with_reducible first
    | assumption | exact Only.sub hk (by decide) | apply keep_State_arrive | apply keep_State_countDrop
    | apply keep_State_hold | refine Ext.ite (fun _ => ?_) (fun _ => ?_) | dsimp only | split

theorem keep_State_scRecord {F : Area → Bool} {s0 : State} (s : State) (o : Nat) (d : Dev) (x : DevOut) (f : Frame) (hk : Only F [.regs, .mem, .nv, .mbx, .evt, .ing, .items, .rings, .cpl, .crs, .lnd, .vcd, .dmc, .pwr, .out, .spd, .rc]) (hx : Ext F s0 s) :
    Ext F s0 (State.scRecord s o d x f) := by
  unfold State.scRecord
  repeat' with_reducible first
    | assumption | exact Only.sub hk (by decide) | apply keep_State_scHost | apply keep_State_vcOutput
    | apply keep_State_devSettle | apply keep_State_scEvent | apply keep_State_setScaler | apply keep_State_dmaPut
    | apply keep_State_wrs | apply keep_State_wrF | refine Ext.foldl (fun _ _ _ => ?_) ?_
    | refine Ext.foldl_pair (fun _ _ _ => ?_) ?_ | refine Ext.foldl_triple (fun _ _ _ => ?_) ?_
    | refine Ext.of_pair (by assumption) ?_ | refine Ext.of_triple (by assumption) ?_
    | refine Ext.of_done (by assumption) ?_ | refine Ext.of_wait (by assumption) ?_
    | refine Ext.ite (fun _ => ?_) (fun _ => ?_) | dsimp only | fail_if_no_progress (refine Ext.mk_of ?_) | split
    | intro _

theorem keep_State_statsDrop {F : Area → Bool} {s0 : State} (s : State) (x : Stat) (hk : Only F [.regs, .mbx, .evt, .crs, .out, .rc]) (hx : Ext F s0 s) :
    Ext F s0 (State.statsDrop s x) := by
  unfold State.statsDrop
  repeat' with_reducible first
    | assumption | exact Only.sub hk (by decide) | apply keep_State_raiseIf | apply keep_State_raiseOf
    | apply keep_State_bump | refine Ext.ite (fun _ => ?_) (fun _ => ?_) | dsimp only
    | fail_if_no_progress (refine Ext.mk_of ?_) | split

theorem keep_pipeStatus {F : Area → Bool} {s0 : State} (r : Req) (s : State)  (hx : Ext F s0 s) :
    Ext F s0 (ansSt (pipeStatus r s)) := by
  unfold pipeStatus
  repeat' with_reducible first
    | assumption | refine Ext.done ?_ | dsimp only | intro _

end Sys2Proof.Laws
end

