-- ==== Sys2Proof/Laws/KeepVcd.lean ====
section
/-!
SUPPORT. The operations of Machine/Vcd.lean keep the relation Ext.
-/

set_option Elab.async false

namespace Sys2Proof.Laws

open Sys2Proof.Machine

set_option linter.unusedTactic false
set_option linter.unreachableTactic false
set_option maxRecDepth 2000

theorem keep_vcOpen {F : Area → Bool} {s0 : State} (r : Req) (s : State) (hk : Only F [.regs, .vcd, .free]) (hx : Ext F s0 s) :
    Ext F s0 (ansSt (vcOpen r s)) := by
  unfold vcOpen
  repeat' with_reducible first
    | assumption | exact Only.sub hk (by decide) | apply keep_State_setVc | apply keep_State_vcPoolRegs
    | apply keep_State_fresh | apply keep_State_wr | refine Ext.of_pair (by assumption) ?_
    | refine Ext.of_triple (by assumption) ?_ | refine Ext.of_done (by assumption) ?_
    | refine Ext.of_wait (by assumption) ?_ | refine Ext.ite (fun _ => ?_) (fun _ => ?_)
    | refine Ext.ite_ans (fun _ => ?_) (fun _ => ?_) | refine Ext.done ?_ | dsimp only | split | intro _

theorem keep_State_vcShut {F : Area → Bool} {s0 : State} (s : State) (q : Nat) (x : VcSession) (hk : Only F [.regs, .mem, .nv, .mbx, .evt, .items, .rings, .cpl, .lnd, .vcd, .dmc, .pwr, .free, .out, .spd, .rc]) (hx : Ext F s0 s) :
    Ext F s0 (State.vcShut s q x) := by
  unfold State.vcShut
  repeat' with_reducible first
    | assumption | exact Only.sub hk (by decide) | apply keep_State_vcFlush | apply keep_State_vcTryClose
    | apply keep_State_setVc | refine Ext.of_pair (by assumption) ?_ | refine Ext.of_triple (by assumption) ?_
    | refine Ext.of_done (by assumption) ?_ | refine Ext.of_wait (by assumption) ?_
    | refine Ext.ite (fun _ => ?_) (fun _ => ?_) | dsimp only | fail_if_no_progress (refine Ext.mk_of ?_) | split

theorem keep_vcClose {F : Area → Bool} {s0 : State} (q : Nat) (r : Req) (s : State) (hk : Only F [.regs, .mem, .nv, .mbx, .evt, .items, .rings, .cpl, .lnd, .vcd, .dmc, .pwr, .free, .out, .spd, .rc]) (hx : Ext F s0 s) :
    Ext F s0 (ansSt (vcClose q r s)) := by
  unfold vcClose
  repeat' with_reducible first
    | assumption | exact Only.sub hk (by decide) | apply keep_State_vcShut | refine Ext.of_pair (by assumption) ?_
    | refine Ext.of_triple (by assumption) ?_ | refine Ext.of_done (by assumption) ?_
    | refine Ext.of_wait (by assumption) ?_ | refine Ext.ite (fun _ => ?_) (fun _ => ?_)
    | refine Ext.ite_ans (fun _ => ?_) (fun _ => ?_) | refine Ext.done ?_ | dsimp only | split

theorem keep_State_vcAdd {F : Area → Bool} {s0 : State} (s : State) (q : Nat) (x : VcSession) (r : Req) (hk : Only F [.regs, .vcd]) (hx : Ext F s0 s) :
    Ext F s0 (State.vcAdd s q x r) := by
  unfold State.vcAdd
  repeat' with_reducible first
    | assumption | exact Only.sub hk (by decide) | apply keep_State_setVc | dsimp only
    | fail_if_no_progress (refine Ext.mk_of ?_)

theorem keep_vcJob {F : Area → Bool} {s0 : State} (dec : Bool) (r : Req) (s : State) (hk : Only F [.regs, .vcd]) (hx : Ext F s0 s) :
    Ext F s0 (ansSt (vcJob dec r s)) := by
  unfold vcJob
  repeat' with_reducible first
    | assumption | exact Only.sub hk (by decide) | apply keep_State_vcAdd | refine Ext.of_pair (by assumption) ?_
    | refine Ext.of_triple (by assumption) ?_ | refine Ext.of_done (by assumption) ?_
    | refine Ext.of_wait (by assumption) ?_ | refine Ext.ite (fun _ => ?_) (fun _ => ?_)
    | refine Ext.ite_ans (fun _ => ?_) (fun _ => ?_) | refine Ext.done ?_ | dsimp only | split

theorem keep_vcPoolAlloc {F : Area → Bool} {s0 : State} (r : Req) (s : State) (hk : Only F [.regs, .vcd]) (hx : Ext F s0 s) :
    Ext F s0 (ansSt (vcPoolAlloc r s)) := by
  unfold vcPoolAlloc
  repeat' with_reducible first
    | assumption | exact Only.sub hk (by decide) | apply keep_State_setVc | apply keep_State_vcPoolRegs
    | refine Ext.of_pair (by assumption) ?_ | refine Ext.of_triple (by assumption) ?_
    | refine Ext.of_done (by assumption) ?_ | refine Ext.of_wait (by assumption) ?_
    | refine Ext.ite (fun _ => ?_) (fun _ => ?_) | refine Ext.ite_ans (fun _ => ?_) (fun _ => ?_) | refine Ext.done ?_
    | dsimp only | split | fail_if_no_progress (refine Ext.mk_of ?_) | intro _

theorem keep_vcMark {F : Area → Bool} {s0 : State} (q : Nat) (poc : Nat) (mark : Nat) (r : Req) (s : State) (hk : Only F [.regs, .vcd]) (hx : Ext F s0 s) :
    Ext F s0 (ansSt (vcMark q poc mark r s)) := by
  unfold vcMark
  repeat' with_reducible first
    | assumption | exact Only.sub hk (by decide) | apply keep_State_setVc | refine Ext.of_pair (by assumption) ?_
    | refine Ext.of_triple (by assumption) ?_ | refine Ext.of_done (by assumption) ?_
    | refine Ext.of_wait (by assumption) ?_ | refine Ext.ite (fun _ => ?_) (fun _ => ?_)
    | refine Ext.ite_ans (fun _ => ?_) (fun _ => ?_) | refine Ext.done ?_ | dsimp only | split
    | fail_if_no_progress (refine Ext.mk_of ?_)

theorem keep_vcAbort {F : Area → Bool} {s0 : State} (r : Req) (s : State) (hk : Only F [.regs, .mbx, .evt, .vcd, .out, .rc]) (hx : Ext F s0 s) :
    Ext F s0 (ansSt (vcAbort r s)) := by
  unfold vcAbort
  repeat' with_reducible first
    | assumption | exact Only.sub hk (by decide) | apply keep_State_vcJobDone | apply keep_State_decFree
    | apply keep_State_encFree | apply keep_State_setVc | refine Ext.of_pair (by assumption) ?_
    | refine Ext.of_triple (by assumption) ?_ | refine Ext.of_done (by assumption) ?_
    | refine Ext.of_wait (by assumption) ?_ | refine Ext.ite (fun _ => ?_) (fun _ => ?_)
    | refine Ext.ite_ans (fun _ => ?_) (fun _ => ?_) | refine Ext.done ?_ | dsimp only | split
    | fail_if_no_progress (refine Ext.mk_of ?_) | intro _

theorem keep_State_liveQueue {F : Area → Bool} {s0 : State} (s : State) (q : Nat) (x : VcSession) (o : VcOut) (hk : Only F [.regs, .cpl, .vcd]) (hx : Ext F s0 s) :
    Ext F s0 (State.liveQueue s q x o) := by
  unfold State.liveQueue
  repeat' with_reducible first
    | assumption | exact Only.sub hk (by decide) | apply keep_State_setVc | apply keep_State_hold | dsimp only
    | fail_if_no_progress (refine Ext.mk_of ?_)

theorem keep_State_vcRead {F : Area → Bool} {s0 : State} (s : State) (q : Nat) (x : VcSession) (p : VcPic) (r0 : Nat) (r1 : Nat) (hk : Only F [.regs, .nv, .mbx, .evt, .items, .dmc, .pwr, .out, .spd, .rc]) (hx : Ext F s0 s) :
    Ext F s0 (State.vcRead s q x p r0 r1).2 := by
  unfold State.vcRead
  repeat' with_reducible first
    | assumption | exact Only.sub hk (by decide) | apply keep_State_dmaGets | apply keep_State_faultItem
    | refine Ext.of_pair (by assumption) ?_ | refine Ext.of_triple (by assumption) ?_
    | refine Ext.of_done (by assumption) ?_ | refine Ext.of_wait (by assumption) ?_ | dsimp only | split | intro _

theorem keep_State_vcHead {F : Area → Bool} {s0 : State} (s : State) (q : Nat) (x : VcSession) (p : VcPic) (hk : Only F [.regs, .nv, .mbx, .evt, .items, .dmc, .pwr, .out, .spd, .rc]) (hx : Ext F s0 s) :
    Ext F s0 (State.vcHead s q x p).2 := by
  unfold State.vcHead
  repeat' with_reducible first
    | assumption | exact Only.sub hk (by decide) | apply keep_State_dmaGets | apply keep_State_dmaGet
    | apply keep_State_faultItem | refine Ext.of_pair (by assumption) ?_ | refine Ext.of_triple (by assumption) ?_
    | refine Ext.of_done (by assumption) ?_ | refine Ext.of_wait (by assumption) ?_
    | refine Ext.ite (fun _ => ?_) (fun _ => ?_) | refine Ext.ite_pair (fun _ => ?_) (fun _ => ?_) | dsimp only
    | split | intro _

theorem keep_State_vcOpen_ {F : Area → Bool} {s0 : State} (s : State) (ctx : Nat) (spans : List (Nat × Nat)) (hk : Only F [.regs, .mem, .nv, .mbx, .evt, .items, .dmc, .pwr, .free, .out, .spd, .rc]) (hx : Ext F s0 s) :
    Ext F s0 (State.vcOpen_ s ctx spans) := by
  unfold State.vcOpen_
  repeat' with_reducible first
    | assumption | exact Only.sub hk (by decide) | apply keep_State_dmaPut | apply keep_State_freshBytes
    | refine Ext.foldl (fun _ _ _ => ?_) ?_ | refine Ext.foldl_pair (fun _ _ _ => ?_) ?_
    | refine Ext.foldl_triple (fun _ _ _ => ?_) ?_ | refine Ext.of_pair (by assumption) ?_
    | refine Ext.of_triple (by assumption) ?_ | refine Ext.of_done (by assumption) ?_
    | refine Ext.of_wait (by assumption) ?_ | dsimp only | split | intro _

theorem keep_State_vcRecon {F : Area → Bool} {s0 : State} (s : State) (x : VcSession) (p : VcPic) (r0 : Nat) (r1 : Nat) (n : Nat) (hk : Only F [.regs, .mem, .nv, .mbx, .evt, .items, .dmc, .pwr, .free, .out, .spd, .rc]) (hx : Ext F s0 s) :
    Ext F s0 (State.vcRecon s x p r0 r1 n) := by
  unfold State.vcRecon
  repeat' with_reducible first
    | assumption | exact Only.sub hk (by decide) | apply keep_State_vcOpen_ | dsimp only

theorem keep_State_vcSlice {F : Area → Bool} {s0 : State} (s : State) (q : Nat) (o : SliceOut) (hk : Only F [.regs, .mem, .nv, .mbx, .evt, .items, .rings, .cpl, .lnd, .vcd, .dmc, .pwr, .free, .out, .spd, .rc]) (hx : Ext F s0 s) :
    Ext F s0 (State.vcSlice s q o) := by
  unfold State.vcSlice
  repeat' with_reducible first
    | assumption | exact Only.sub hk (by decide) | apply keep_State_vcRecon | apply keep_State_vcHead
    | apply keep_State_vcRead | apply keep_State_vcTryClose | apply keep_State_vcDrop | apply keep_State_vcPacket
    | apply keep_State_vcPicEvent | apply keep_State_encFree | apply keep_State_setVc | apply keep_State_wrs
    | refine Ext.of_pair (by assumption) ?_ | refine Ext.of_triple (by assumption) ?_
    | refine Ext.of_done (by assumption) ?_ | refine Ext.of_wait (by assumption) ?_
    | refine Ext.ite (fun _ => ?_) (fun _ => ?_) | dsimp only | fail_if_no_progress (refine Ext.mk_of ?_) | split
    | intro _

theorem keep_State_decBegin {F : Area → Bool} {s0 : State} (s : State) (q : Nat) (x : VcSession) (j : VcJob) (rest : List VcJob) (hk : Only F [.regs, .mem, .nv, .mbx, .evt, .items, .rings, .cpl, .lnd, .vcd, .dmc, .pwr, .free, .out, .spd, .rc]) (hx : Ext F s0 s) :
    Ext F s0 (State.decBegin s q x j rest) := by
  unfold State.decBegin
  repeat' with_reducible first
    | assumption | exact Only.sub hk (by decide) | apply keep_State_vcTryClose | apply keep_State_vcJobDone
    | apply keep_State_setVc | refine Ext.ite (fun _ => ?_) (fun _ => ?_) | dsimp only
    | fail_if_no_progress (refine Ext.mk_of ?_) | split

theorem keep_State_decRead {F : Area → Bool} {s0 : State} (s : State) (q : Nat) (x : VcSession) (j : VcJob) (hk : Only F [.regs, .nv, .mbx, .evt, .items, .dmc, .pwr, .free, .out, .spd, .rc]) (hx : Ext F s0 s) :
    Ext F s0 (State.decRead s q x j).2 := by
  unfold State.decRead
  repeat' with_reducible first
    | assumption | exact Only.sub hk (by decide) | apply keep_State_dmaGet | apply keep_State_faultItem
    | apply keep_State_fresh | refine Ext.of_pair (by assumption) ?_ | refine Ext.of_triple (by assumption) ?_
    | refine Ext.of_done (by assumption) ?_ | refine Ext.of_wait (by assumption) ?_
    | refine Ext.ite (fun _ => ?_) (fun _ => ?_) | refine Ext.ite_pair (fun _ => ?_) (fun _ => ?_) | dsimp only
    | split

theorem keep_State_decEnd {F : Area → Bool} {s0 : State} (s : State) (q : Nat) (x : VcSession) (j : VcJob) (rest : List VcJob) (out : DecOut) (hk : Only F [.regs, .mem, .nv, .mbx, .evt, .items, .rings, .cpl, .lnd, .vcd, .dmc, .pwr, .free, .out, .spd, .rc]) (hx : Ext F s0 s) :
    Ext F s0 (State.decEnd s q x j rest out) := by
  unfold State.decEnd
  repeat' with_reducible first
    | assumption | exact Only.sub hk (by decide) | apply keep_State_decRead | apply keep_State_vcOpen_
    | apply keep_State_vcTryClose | apply keep_State_vcJobDone | apply keep_State_vcEvent | apply keep_State_setVc
    | apply keep_State_dmaPut | apply keep_State_freshBytes | apply keep_State_bump | apply keep_State_wr
    | refine Ext.foldl (fun _ _ _ => ?_) ?_ | refine Ext.foldl_pair (fun _ _ _ => ?_) ?_
    | refine Ext.foldl_triple (fun _ _ _ => ?_) ?_ | refine Ext.of_pair (by assumption) ?_
    | refine Ext.of_triple (by assumption) ?_ | refine Ext.of_done (by assumption) ?_
    | refine Ext.of_wait (by assumption) ?_ | refine Ext.ite (fun _ => ?_) (fun _ => ?_) | dsimp only
    | fail_if_no_progress (refine Ext.mk_of ?_) | split | intro _

end Sys2Proof.Laws
end

