-- ==== Sys2Proof/Laws/KeepTimOps.lean ====
section
/-!
SUPPORT. The operations of Machine/TimOps.lean keep the relation Ext.
-/

set_option Elab.async false

namespace Sys2Proof.Laws

open Sys2Proof.Machine

set_option linter.unusedTactic false
set_option linter.unreachableTactic false
set_option maxRecDepth 2000

theorem keep_State_timLog {F : Area → Bool} {s0 : State} (s : State) (kind : Nat) (pinByte : Nat) (ctx : Nat) (time : Nat) (hk : Only F [.regs, .tim]) (hx : Ext F s0 s) :
    Ext F s0 (State.timLog s kind pinByte ctx time).2 := by
  unfold State.timLog
  repeat' with_reducible first
    | assumption | exact Only.sub hk (by decide) | apply keep_State_wrs | apply keep_State_wr | dsimp only
    | fail_if_no_progress (refine Ext.mk_of ?_) | intro _

theorem keep_State_timLogMark {F : Area → Bool} {s0 : State} (s : State) (n : Nat) (bits : Nat) (hk : Only F [.regs]) (hx : Ext F s0 s) :
    Ext F s0 (State.timLogMark s n bits) := by
  unfold State.timLogMark
  repeat' with_reducible first
    | assumption | exact Only.sub hk (by decide) | apply keep_State_wr | refine Ext.ite (fun _ => ?_) (fun _ => ?_)
    | dsimp only | split

theorem keep_State_setPulse {F : Area → Bool} {s0 : State} (s : State) (k : Nat) (p : Option Pulse) (hk : Only F [.tim]) (hx : Ext F s0 s) :
    Ext F s0 (State.setPulse s k p) := by
  unfold State.setPulse
  repeat' with_reducible first
    | assumption | exact Only.sub hk (by decide) | dsimp only | fail_if_no_progress (refine Ext.mk_of ?_) | intro _

theorem keep_State_strobeEnd {F : Area → Bool} {s0 : State} (s : State) (k : Nat) (hk : Only F [.tim, .out]) (hx : Ext F s0 s) :
    Ext F s0 (State.strobeEnd s k) := by
  unfold State.strobeEnd
  repeat' with_reducible first
    | assumption | exact Only.sub hk (by decide) | apply keep_State_setPulse | apply keep_State_emit
    | refine Ext.of_pair (by assumption) ?_ | refine Ext.of_triple (by assumption) ?_
    | refine Ext.of_done (by assumption) ?_ | refine Ext.of_wait (by assumption) ?_ | dsimp only | split | intro _

theorem keep_State_strobeFire {F : Area → Bool} {s0 : State} (s : State) (k : Nat) (lead : Nat) (sched : Nat) (hk : Only F [.regs, .tim, .out, .rc]) (hx : Ext F s0 s) :
    Ext F s0 (State.strobeFire s k lead sched) := by
  unfold State.strobeFire
  repeat' with_reducible first
    | assumption | exact Only.sub hk (by decide) | apply keep_State_strobeEnd | apply keep_State_setPulse
    | apply keep_State_timLog | apply keep_State_emit | apply keep_State_bump | refine Ext.of_pair (by assumption) ?_
    | refine Ext.of_triple (by assumption) ?_ | refine Ext.of_done (by assumption) ?_
    | refine Ext.of_wait (by assumption) ?_ | refine Ext.ite (fun _ => ?_) (fun _ => ?_) | dsimp only
    | fail_if_no_progress (refine Ext.mk_of ?_) | split | intro _

theorem keep_State_strobeBoundary {F : Area → Bool} {s0 : State} (s : State) (old : Nat → Word) (hk : Only F [.tim, .out]) (hx : Ext F s0 s) :
    Ext F s0 (State.strobeBoundary s old) := by
  unfold State.strobeBoundary
  repeat' with_reducible first
    | assumption | exact Only.sub hk (by decide) | apply keep_State_setPulse | apply keep_State_emit
    | refine Ext.foldl (fun _ _ _ => ?_) ?_ | refine Ext.foldl_pair (fun _ _ _ => ?_) ?_
    | refine Ext.foldl_triple (fun _ _ _ => ?_) ?_ | refine Ext.of_pair (by assumption) ?_
    | refine Ext.of_triple (by assumption) ?_ | refine Ext.of_done (by assumption) ?_
    | refine Ext.of_wait (by assumption) ?_ | refine Ext.ite (fun _ => ?_) (fun _ => ?_) | dsimp only | split
    | intro _

theorem keep_State_setTrig {F : Area → Bool} {s0 : State} (s : State) (n : Nat) (x : TrigSt) (hk : Only F [.tim]) (hx : Ext F s0 s) :
    Ext F s0 (State.setTrig s n x) := by
  unfold State.setTrig
  repeat' with_reducible first
    | assumption | exact Only.sub hk (by decide) | dsimp only | fail_if_no_progress (refine Ext.mk_of ?_) | intro _

theorem keep_State_trigAct {F : Area → Bool} {s0 : State} (s : State) (n : Nat) (falling : Bool) (pin : Bool) (sched : Bool) (stamp : Nat) (hk : Only F [.regs, .mbx, .evt, .lnk, .tim, .out, .rc]) (hx : Ext F s0 s) :
    Ext F s0 (State.trigAct s n falling pin sched stamp) := by
  unfold State.trigAct
  repeat' with_reducible first
    | assumption | exact Only.sub hk (by decide) | apply keep_State_setTrig | apply keep_State_strobeFire
    | apply keep_State_timLog | apply keep_State_expose | apply keep_State_raise | apply keep_State_bump
    | refine Ext.foldl (fun _ _ _ => ?_) ?_ | refine Ext.foldl_pair (fun _ _ _ => ?_) ?_
    | refine Ext.foldl_triple (fun _ _ _ => ?_) ?_ | refine Ext.of_pair (by assumption) ?_
    | refine Ext.of_triple (by assumption) ?_ | refine Ext.of_done (by assumption) ?_
    | refine Ext.of_wait (by assumption) ?_ | refine Ext.ite (fun _ => ?_) (fun _ => ?_) | dsimp only
    | fail_if_no_progress (refine Ext.mk_of ?_) | split | intro _

theorem keep_State_trigEdge {F : Area → Bool} {s0 : State} (s : State) (n : Nat) (falling : Bool) (sched : Bool) (stamp : Nat) (hk : Only F [.regs, .mbx, .evt, .lnk, .lnd, .tim, .out, .rc]) (hx : Ext F s0 s) :
    Ext F s0 (State.trigEdge s n falling sched stamp) := by
  unfold State.trigEdge
  repeat' with_reducible first
    | assumption | exact Only.sub hk (by decide) | apply keep_State_trigAct | apply keep_State_setTrig
    | apply keep_State_timLogMark | apply keep_State_lndEdge | apply keep_State_bump
    | refine Ext.of_pair (by assumption) ?_ | refine Ext.of_triple (by assumption) ?_
    | refine Ext.of_done (by assumption) ?_ | refine Ext.of_wait (by assumption) ?_
    | refine Ext.ite (fun _ => ?_) (fun _ => ?_) | dsimp only | fail_if_no_progress (refine Ext.mk_of ?_) | split

theorem keep_State_stepTime {F : Area → Bool} {s0 : State} (s : State) (tod : Nat) (hk : Only F [.time, .regs, .mbx, .evt, .mon, .tim, .out, .rc]) (hx : Ext F s0 s) :
    Ext F s0 (State.stepTime s tod) := by
  unfold State.stepTime
  repeat' with_reducible first
    | assumption | exact Only.sub hk (by decide) | apply keep_State_reTick | apply keep_State_raise | dsimp only
    | fail_if_no_progress (refine Ext.mk_of ?_) | fail_if_no_progress (refine Ext.mk_tod ?_)

theorem keep_State_setServo {F : Area → Bool} {s0 : State} (s : State) (st : Nat) (hk : Only F [.regs, .mbx, .evt, .tim, .out, .rc]) (hx : Ext F s0 s) :
    Ext F s0 (State.setServo s st) := by
  unfold State.setServo
  repeat' with_reducible first
    | assumption | exact Only.sub hk (by decide) | apply keep_State_raise | apply keep_State_wr
    | refine Ext.ite (fun _ => ?_) (fun _ => ?_) | dsimp only | fail_if_no_progress (refine Ext.mk_of ?_) | split

theorem keep_State_freshAdj {F : Area → Bool} {s0 : State} (s : State) (hk : Only F [.regs, .free]) (hx : Ext F s0 s) :
    Ext F s0 (State.freshAdj s) := by
  unfold State.freshAdj
  repeat' with_reducible first
    | assumption | exact Only.sub hk (by decide) | apply keep_State_fresh | apply keep_State_wr
    | refine Ext.of_pair (by assumption) ?_ | refine Ext.of_triple (by assumption) ?_
    | refine Ext.of_done (by assumption) ?_ | refine Ext.of_wait (by assumption) ?_ | dsimp only | split

theorem keep_State_servoJudge {F : Area → Bool} {s0 : State} (s : State) (good : Nat) (bad : Nat) (hk : Only F [.regs, .mbx, .evt, .tim, .out, .rc]) (hx : Ext F s0 s) :
    Ext F s0 (State.servoJudge s good bad) := by
  unfold State.servoJudge
  repeat' with_reducible first
    | assumption | exact Only.sub hk (by decide) | apply keep_State_setServo
    | refine Ext.ite (fun _ => ?_) (fun _ => ?_) | dsimp only | fail_if_no_progress (refine Ext.mk_of ?_) | split

theorem keep_State_servoOffset {F : Area → Bool} {s0 : State} (s : State) (off : Int) (path : Nat) (hk : Only F [.time, .regs, .mbx, .evt, .mon, .tim, .free, .out, .rc]) (hx : Ext F s0 s) :
    Ext F s0 (State.servoOffset s off path) := by
  unfold State.servoOffset
  repeat' with_reducible first
    | assumption | exact Only.sub hk (by decide) | apply keep_State_servoJudge | apply keep_State_freshAdj
    | apply keep_State_stepTime | apply keep_State_wr | refine Ext.ite (fun _ => ?_) (fun _ => ?_) | dsimp only
    | fail_if_no_progress (refine Ext.mk_of ?_) | split | intro _

theorem keep_State_genOff {F : Area → Bool} {s0 : State} (s : State) (hk : Only F [.regs, .mbx, .evt, .tim, .out, .rc]) (hx : Ext F s0 s) :
    Ext F s0 (State.genOff s) := by
  unfold State.genOff
  repeat' with_reducible first
    | assumption | exact Only.sub hk (by decide) | apply keep_State_raise | apply keep_State_wr
    | refine Ext.foldl (fun _ _ _ => ?_) ?_ | refine Ext.foldl_pair (fun _ _ _ => ?_) ?_
    | refine Ext.foldl_triple (fun _ _ _ => ?_) ?_ | dsimp only | fail_if_no_progress (refine Ext.mk_of ?_) | intro _

theorem keep_State_timBoundary {F : Area → Bool} {s0 : State} (s : State) (hk : Only F [.regs, .mbx, .evt, .tim, .out, .rc]) (hx : Ext F s0 s) :
    Ext F s0 (State.timBoundary s) := by
  unfold State.timBoundary
  repeat' with_reducible first
    | assumption | exact Only.sub hk (by decide) | apply keep_State_genOff | apply keep_State_setServo
    | refine Ext.ite (fun _ => ?_) (fun _ => ?_) | dsimp only | split

theorem keep_State_setGen {F : Area → Bool} {s0 : State} (s : State) (k : Nat) (g : GenSt) (hk : Only F [.regs, .tim]) (hx : Ext F s0 s) :
    Ext F s0 (State.setGen s k g) := by
  unfold State.setGen
  repeat' with_reducible first
    | assumption | exact Only.sub hk (by decide) | apply keep_State_wrF | dsimp only
    | fail_if_no_progress (refine Ext.mk_of ?_) | intro _

theorem keep_State_genBad {F : Area → Bool} {s0 : State} (s : State) (k : Nat) (g : GenSt) (hk : Only F [.regs, .mbx, .evt, .tim, .out, .rc]) (hx : Ext F s0 s) :
    Ext F s0 (State.genBad s k g) := by
  unfold State.genBad
  repeat' with_reducible first
    | assumption | exact Only.sub hk (by decide) | apply keep_State_setGen | apply keep_State_raise
    | apply keep_State_wrF | refine Ext.ite (fun _ => ?_) (fun _ => ?_) | dsimp only
    | fail_if_no_progress (refine Ext.mk_of ?_) | split

theorem keep_State_genEdge {F : Area → Bool} {s0 : State} (s : State) (k : Nat) (t : Nat) (hk : Only F [.regs, .mbx, .evt, .tim, .out, .rc]) (hx : Ext F s0 s) :
    Ext F s0 (State.genEdge s k t) := by
  unfold State.genEdge
  repeat' with_reducible first
    | assumption | exact Only.sub hk (by decide) | apply keep_State_genBad | apply keep_State_setGen
    | apply keep_State_raise | apply keep_State_wrF | refine Ext.ite (fun _ => ?_) (fun _ => ?_) | dsimp only
    | fail_if_no_progress (refine Ext.mk_of ?_) | split

theorem keep_State_setTcBase {F : Area → Bool} {s0 : State} (s : State) (b : Nat) (hk : Only F [.regs]) (hx : Ext F s0 s) :
    Ext F s0 (State.setTcBase s b) := by
  unfold State.setTcBase
  repeat' with_reducible first
    | assumption | exact Only.sub hk (by decide) | apply keep_State_wrs | dsimp only

end Sys2Proof.Laws
end

