-- ==== Sys2Proof/Laws/KeepTim.lean ====
section
/-!
SUPPORT. The operations of Machine/Tim.lean keep the relation Ext.
-/

set_option Elab.async false

namespace Sys2Proof.Laws

open Sys2Proof.Machine

set_option linter.unusedTactic false
set_option linter.unreachableTactic false
set_option maxRecDepth 2000

theorem keep_timeRead {F : Area → Bool} {s0 : State} (u0 : Req) (s : State)  (hx : Ext F s0 s) :
    Ext F s0 (ansSt (timeRead u0 s)) := by
  unfold timeRead
  repeat' with_reducible first
    | assumption | refine Ext.done ?_ | dsimp only

theorem keep_timeSet {F : Area → Bool} {s0 : State} (r : Req) (s : State) (hk : Only F [.time, .regs, .mbx, .evt, .mon, .tim, .out, .rc]) (hx : Ext F s0 s) :
    Ext F s0 (ansSt (timeSet r s)) := by
  unfold timeSet
  repeat' with_reducible first
    | assumption | exact Only.sub hk (by decide) | apply keep_State_stepTime
    | refine Ext.ite (fun _ => ?_) (fun _ => ?_) | refine Ext.ite_ans (fun _ => ?_) (fun _ => ?_) | refine Ext.done ?_
    | dsimp only | split

theorem keep_ptpConfig {F : Area → Bool} {s0 : State} (cfg : Word) (intv : Word) (servo : Word) (step : Word) (r : Req) (s : State) (hk : Only F [.regs, .ep]) (hx : Ext F s0 s) :
    Ext F s0 (ansSt (ptpConfig cfg intv servo step r s)) := by
  unfold ptpConfig
  repeat' with_reducible first
    | assumption | exact Only.sub hk (by decide) | apply keep_stageAnswer | refine Ext.ite (fun _ => ?_) (fun _ => ?_)
    | refine Ext.ite_ans (fun _ => ?_) (fun _ => ?_) | refine Ext.done ?_ | dsimp only | split

theorem keep_ptpStatus {F : Area → Bool} {s0 : State} (u0 : Req) (s : State)  (hx : Ext F s0 s) :
    Ext F s0 (ansSt (ptpStatus u0 s)) := by
  unfold ptpStatus
  repeat' with_reducible first
    | assumption | refine Ext.done ?_ | dsimp only

theorem keep_trigSchedule {F : Area → Bool} {s0 : State} (r : Req) (s : State) (hk : Only F [.regs, .tim]) (hx : Ext F s0 s) :
    Ext F s0 (ansSt (trigSchedule r s)) := by
  unfold trigSchedule
  repeat' with_reducible first
    | assumption | exact Only.sub hk (by decide) | apply keep_State_viol | refine Ext.ite (fun _ => ?_) (fun _ => ?_)
    | refine Ext.ite_ans (fun _ => ?_) (fun _ => ?_) | refine Ext.done ?_ | dsimp only | split
    | fail_if_no_progress (refine Ext.mk_of ?_) | intro _

theorem keep_State_schedFire {F : Area → Bool} {s0 : State} (s : State) (pin : Nat) (strb : Bool) (e : SchedEnt) (hk : Only F [.regs, .mbx, .evt, .lnk, .lnd, .tim, .out, .rc]) (hx : Ext F s0 s) :
    Ext F s0 (State.schedFire s pin strb e) := by
  unfold State.schedFire
  repeat' with_reducible first
    | assumption | exact Only.sub hk (by decide) | apply keep_State_trigEdge | apply keep_State_strobeFire
    | refine Ext.ite (fun _ => ?_) (fun _ => ?_) | dsimp only | fail_if_no_progress (refine Ext.mk_of ?_) | split

theorem keep_genlockConfig {F : Area → Bool} {s0 : State} (k : Nat) (cfg : Word) (rate : Word) (phase : Word) (gl : Word) (r : Req) (s : State) (hk : Only F [.regs, .ep]) (hx : Ext F s0 s) :
    Ext F s0 (ansSt (genlockConfig k cfg rate phase gl r s)) := by
  unfold genlockConfig
  repeat' with_reducible first
    | assumption | exact Only.sub hk (by decide) | apply keep_stageAnswer | refine Ext.ite (fun _ => ?_) (fun _ => ?_)
    | refine Ext.ite_ans (fun _ => ?_) (fun _ => ?_) | refine Ext.done ?_ | dsimp only | split

theorem keep_timecodeSet {F : Area → Bool} {s0 : State} (r : Req) (s : State) (hk : Only F [.tim]) (hx : Ext F s0 s) :
    Ext F s0 (ansSt (timecodeSet r s)) := by
  unfold timecodeSet
  repeat' with_reducible first
    | assumption | exact Only.sub hk (by decide) | refine Ext.of_pair (by assumption) ?_
    | refine Ext.of_triple (by assumption) ?_ | refine Ext.of_done (by assumption) ?_
    | refine Ext.of_wait (by assumption) ?_ | refine Ext.ite (fun _ => ?_) (fun _ => ?_)
    | refine Ext.ite_ans (fun _ => ?_) (fun _ => ?_) | refine Ext.done ?_ | dsimp only | split
    | fail_if_no_progress (refine Ext.mk_of ?_)

theorem keep_State_tcBaseTaken {F : Area → Bool} {s0 : State} (s : State) (hk : Only F [.regs, .tim]) (hx : Ext F s0 s) :
    Ext F s0 (State.tcBaseTaken s) := by
  unfold State.tcBaseTaken
  repeat' with_reducible first
    | assumption | exact Only.sub hk (by decide) | apply keep_State_setTcBase | refine Ext.of_pair (by assumption) ?_
    | refine Ext.of_triple (by assumption) ?_ | refine Ext.of_done (by assumption) ?_
    | refine Ext.of_wait (by assumption) ?_ | dsimp only | fail_if_no_progress (refine Ext.mk_of ?_) | split

theorem keep_State_ltcTaken {F : Area → Bool} {s0 : State} (s : State) (m : Nat) (tc : Word) (hk : Only F [.regs, .mbx, .evt, .tim, .out, .rc]) (hx : Ext F s0 s) :
    Ext F s0 (State.ltcTaken s m tc) := by
  unfold State.ltcTaken
  repeat' with_reducible first
    | assumption | exact Only.sub hk (by decide) | apply keep_State_timLog | apply keep_State_raise
    | apply keep_State_wrs | refine Ext.ite (fun _ => ?_) (fun _ => ?_) | dsimp only
    | fail_if_no_progress (refine Ext.mk_of ?_) | split

theorem keep_State_ethForward {F : Area → Bool} {s0 : State} (s : State) (port : Nat) (frame : List Byte) (residence : Nat) (hk : Only F [.out]) (hx : Ext F s0 s) :
    Ext F s0 (State.ethForward s port frame residence) := by
  unfold State.ethForward
  repeat' with_reducible first
    | assumption | exact Only.sub hk (by decide) | apply keep_State_emit | refine Ext.ite (fun _ => ?_) (fun _ => ?_)
    | dsimp only | split | intro _

end Sys2Proof.Laws
end

