-- ==== Sys2Proof/Laws/KeepAudOps.lean ====
section
/-!
SUPPORT. The operations of Machine/AudOps.lean keep the relation Ext.
-/

set_option Elab.async false

namespace Sys2Proof.Laws

open Sys2Proof.Machine

set_option linter.unusedTactic false
set_option linter.unreachableTactic false
set_option maxRecDepth 2000

theorem keep_State_setAud {F : Area → Bool} {s0 : State} (s : State) (p : Nat) (x : AudPort) (hk : Only F [.aud]) (hx : Ext F s0 s) :
    Ext F s0 (State.setAud s p x) := by
  unfold State.setAud
  repeat' with_reducible first
    | assumption | exact Only.sub hk (by decide) | dsimp only | fail_if_no_progress (refine Ext.mk_of ?_) | intro _

theorem keep_State_setAudSt {F : Area → Bool} {s0 : State} (s : State) (p : Nat) (st : Nat) (hk : Only F [.regs]) (hx : Ext F s0 s) :
    Ext F s0 (State.setAudSt s p st) := by
  unfold State.setAudSt
  repeat' with_reducible first
    | assumption | exact Only.sub hk (by decide) | apply keep_State_wrF | dsimp only

theorem keep_State_audEvent {F : Area → Bool} {s0 : State} (s : State) (p : Nat) (code : Nat) (arg : Nat) (hk : Only F [.regs, .mbx, .evt, .out, .rc]) (hx : Ext F s0 s) :
    Ext F s0 (State.audEvent s p code arg) := by
  unfold State.audEvent
  repeat' with_reducible first
    | assumption | exact Only.sub hk (by decide) | apply keep_State_raiseEv | dsimp only
    | fail_if_no_progress (refine Ext.mk_of ?_)

theorem keep_State_audApply {F : Area → Bool} {s0 : State} (s : State) (p : Nat) (hk : Only F [.aud]) (hx : Ext F s0 s) :
    Ext F s0 (State.audApply s p) := by
  unfold State.audApply
  repeat' with_reducible first
    | assumption | exact Only.sub hk (by decide) | apply keep_State_setAud | dsimp only
    | fail_if_no_progress (refine Ext.mk_of ?_)

theorem keep_State_audBoundary {F : Area → Bool} {s0 : State} (s : State) (hk : Only F [.aud]) (hx : Ext F s0 s) :
    Ext F s0 (State.audBoundary s) := by
  unfold State.audBoundary
  repeat' with_reducible first
    | assumption | exact Only.sub hk (by decide) | apply keep_State_audApply | refine Ext.foldl (fun _ _ _ => ?_) ?_
    | refine Ext.foldl_pair (fun _ _ _ => ?_) ?_ | refine Ext.foldl_triple (fun _ _ _ => ?_) ?_
    | refine Ext.ite (fun _ => ?_) (fun _ => ?_) | dsimp only | split | intro _

theorem keep_State_audZeroed {F : Area → Bool} {s0 : State} (s : State) (p : Nat) (k : Nat) (hk : Only F [.regs, .aud, .rc]) (hx : Ext F s0 s) :
    Ext F s0 (State.audZeroed s p k) := by
  unfold State.audZeroed
  repeat' with_reducible first
    | assumption | exact Only.sub hk (by decide) | apply keep_State_setAud | apply keep_State_bump
    | refine Ext.ite (fun _ => ?_) (fun _ => ?_) | dsimp only | fail_if_no_progress (refine Ext.mk_of ?_) | split

theorem keep_State_audError {F : Area → Bool} {s0 : State} (s : State) (p : Nat) (k : Nat) (hk : Only F [.regs, .mbx, .evt, .aud, .out, .rc]) (hx : Ext F s0 s) :
    Ext F s0 (State.audError s p k) := by
  unfold State.audError
  repeat' with_reducible first
    | assumption | exact Only.sub hk (by decide) | apply keep_State_audEvent | apply keep_State_setAud
    | apply keep_State_bump | refine Ext.ite (fun _ => ?_) (fun _ => ?_) | dsimp only
    | fail_if_no_progress (refine Ext.mk_of ?_) | split

theorem keep_State_audLost {F : Area → Bool} {s0 : State} (s : State) (p : Nat) (k : Nat) (hk : Only F [.regs, .mbx, .evt, .aud, .out, .rc]) (hx : Ext F s0 s) :
    Ext F s0 (State.audLost s p k) := by
  unfold State.audLost
  repeat' with_reducible first
    | assumption | exact Only.sub hk (by decide) | apply keep_State_audEvent | apply keep_State_setAudSt
    | apply keep_State_setAud | apply keep_State_bump | refine Ext.ite (fun _ => ?_) (fun _ => ?_) | dsimp only
    | fail_if_no_progress (refine Ext.mk_of ?_) | split

theorem keep_State_audAsync {F : Area → Bool} {s0 : State} (s : State) (p : Nat) (k : Nat) (hk : Only F [.regs, .mbx, .evt, .aud, .out, .rc]) (hx : Ext F s0 s) :
    Ext F s0 (State.audAsync s p k) := by
  unfold State.audAsync
  repeat' with_reducible first
    | assumption | exact Only.sub hk (by decide) | apply keep_State_audZeroed | apply keep_State_audEvent
    | apply keep_State_setAudSt | apply keep_State_setAud | refine Ext.ite (fun _ => ?_) (fun _ => ?_) | dsimp only
    | fail_if_no_progress (refine Ext.mk_of ?_) | split

theorem keep_State_audRegain {F : Area → Bool} {s0 : State} (s : State) (p : Nat) (k : Nat) (hk : Only F [.regs, .mbx, .evt, .aud, .out, .rc]) (hx : Ext F s0 s) :
    Ext F s0 (State.audRegain s p k) := by
  unfold State.audRegain
  repeat' with_reducible first
    | assumption | exact Only.sub hk (by decide) | apply keep_State_audZeroed | apply keep_State_audEvent
    | apply keep_State_setAudSt | apply keep_State_setAud | dsimp only | fail_if_no_progress (refine Ext.mk_of ?_)

theorem keep_State_audStart {F : Area → Bool} {s0 : State} (s : State) (p : Nat) (t : Nat) (valid : Bool) (hk : Only F [.regs, .mbx, .evt, .aud, .out, .rc]) (hx : Ext F s0 s) :
    Ext F s0 (State.audStart s p t valid) := by
  unfold State.audStart
  repeat' with_reducible first
    | assumption | exact Only.sub hk (by decide) | apply keep_State_audRegain | apply keep_State_audAsync
    | apply keep_State_audLost | apply keep_State_setAud | refine Ext.ite (fun _ => ?_) (fun _ => ?_) | dsimp only
    | fail_if_no_progress (refine Ext.mk_of ?_) | split

theorem keep_State_csBlock {F : Area → Bool} {s0 : State} (s : State) (p : Nat) (bits : List Bool) (hk : Only F [.regs, .mbx, .evt, .aud, .out, .rc]) (hx : Ext F s0 s) :
    Ext F s0 (State.csBlock s p bits) := by
  unfold State.csBlock
  repeat' with_reducible first
    | assumption | exact Only.sub hk (by decide) | apply keep_State_audEvent | apply keep_State_setAud
    | apply keep_State_wrs | apply keep_State_bump | refine Ext.ite (fun _ => ?_) (fun _ => ?_) | dsimp only
    | fail_if_no_progress (refine Ext.mk_of ?_) | split | intro _

theorem keep_State_audNote {F : Area → Bool} {s0 : State} (s : State) (p : Nat) (hk : Only F [.aud]) (hx : Ext F s0 s) :
    Ext F s0 (State.audNote s p) := by
  unfold State.audNote
  repeat' with_reducible first
    | assumption | exact Only.sub hk (by decide) | apply keep_State_setAud
    | refine Ext.ite (fun _ => ?_) (fun _ => ?_) | dsimp only | fail_if_no_progress (refine Ext.mk_of ?_) | split

theorem keep_State_audBlockOut {F : Area → Bool} {s0 : State} (s : State) (p : Nat) (data : List (List Nat)) (hk : Only F [.regs, .mem, .nv, .mbx, .evt, .items, .rings, .cpl, .lnd, .dmc, .pwr, .free, .out, .spd, .rc]) (hx : Ext F s0 s) :
    Ext F s0 (State.audBlockOut s p data) := by
  unfold State.audBlockOut
  repeat' with_reducible first
    | assumption | exact Only.sub hk (by decide) | apply keep_State_stage | dsimp only | intro _

theorem keep_State_audPlay {F : Area → Bool} {s0 : State} (s : State) (p : Nat) (hk : Only F [.out]) (hx : Ext F s0 s) :
    Ext F s0 (State.audPlay s p) := by
  unfold State.audPlay
  repeat' with_reducible first
    | assumption | exact Only.sub hk (by decide) | apply keep_State_emit | refine Ext.foldl (fun _ _ _ => ?_) ?_
    | refine Ext.foldl_pair (fun _ _ _ => ?_) ?_ | refine Ext.foldl_triple (fun _ _ _ => ?_) ?_
    | refine Ext.of_pair (by assumption) ?_ | refine Ext.of_triple (by assumption) ?_
    | refine Ext.of_done (by assumption) ?_ | refine Ext.of_wait (by assumption) ?_
    | refine Ext.ite (fun _ => ?_) (fun _ => ?_) | dsimp only | fail_if_no_progress (refine Ext.mk_of ?_) | split
    | intro _

theorem keep_State_audBegin {F : Area → Bool} {s0 : State} (s : State) (p : Nat) (hk : Only F [.regs, .mbx, .evt, .rings, .aud, .out, .rc]) (hx : Ext F s0 s) :
    Ext F s0 (State.audBegin s p) := by
  unfold State.audBegin
  repeat' with_reducible first
    | assumption | exact Only.sub hk (by decide) | apply keep_State_audEvent | apply keep_State_setAud
    | apply keep_State_setRing | apply keep_State_bump | refine Ext.of_pair (by assumption) ?_
    | refine Ext.of_triple (by assumption) ?_ | refine Ext.of_done (by assumption) ?_
    | refine Ext.of_wait (by assumption) ?_ | refine Ext.ite (fun _ => ?_) (fun _ => ?_) | dsimp only
    | fail_if_no_progress (refine Ext.mk_of ?_) | split

theorem keep_State_audStopped {F : Area → Bool} {s0 : State} (s : State) (p : Nat) (hk : Only F [.regs, .mbx, .evt, .aud, .out, .rc]) (hx : Ext F s0 s) :
    Ext F s0 (State.audStopped s p) := by
  unfold State.audStopped
  repeat' with_reducible first
    | assumption | exact Only.sub hk (by decide) | apply keep_State_audZeroed | apply keep_State_audEvent
    | apply keep_State_setAudSt | apply keep_State_setAud | refine Ext.ite (fun _ => ?_) (fun _ => ?_) | dsimp only
    | split

theorem keep_State_audEnd {F : Area → Bool} {s0 : State} (s : State) (p : Nat) (data : List (List Nat)) (hk : Only F [.regs, .mem, .nv, .mbx, .evt, .items, .rings, .cpl, .lnd, .aud, .dmc, .pwr, .free, .out, .spd, .rc]) (hx : Ext F s0 s) :
    Ext F s0 (State.audEnd s p data) := by
  unfold State.audEnd
  repeat' with_reducible first
    | assumption | exact Only.sub hk (by decide) | apply keep_State_audStopped | apply keep_State_audBegin
    | apply keep_State_audPlay | apply keep_State_audBlockOut | apply keep_State_audNote | apply keep_State_audZeroed
    | apply keep_State_audApply | apply keep_State_setAud | apply keep_State_wr
    | refine Ext.ite (fun _ => ?_) (fun _ => ?_) | dsimp only | fail_if_no_progress (refine Ext.mk_of ?_) | split
    | intro _

end Sys2Proof.Laws
end

