-- ==== Sys2Proof/Laws/KeepAud.lean ====
section
/-!
SUPPORT. The operations of Machine/Aud.lean keep the relation Ext.
-/

set_option Elab.async false

namespace Sys2Proof.Laws

open Sys2Proof.Machine

set_option linter.unusedTactic false
set_option linter.unreachableTactic false
set_option maxRecDepth 2000

theorem keep_audPortConfig {F : Area → Bool} {s0 : State} (p : Nat) (cfg : Word) (mask : Word) (r : Req) (s : State) (hk : Only F [.regs, .ep]) (hx : Ext F s0 s) :
    Ext F s0 (ansSt (audPortConfig p cfg mask r s)) := by
  unfold audPortConfig
  repeat' with_reducible first
    | assumption | exact Only.sub hk (by decide) | apply keep_stageAnswer | refine Ext.ite (fun _ => ?_) (fun _ => ?_)
    | refine Ext.ite_ans (fun _ => ?_) (fun _ => ?_) | refine Ext.done ?_ | dsimp only | split

theorem keep_audForeign {F : Area → Bool} {s0 : State} (r : Req) (ps : List Nat) (s : State) (hk : Only F [.regs]) (hx : Ext F s0 s) :
    Ext F s0 (audForeign r ps s) := by
  unfold audForeign
  repeat' with_reducible first
    | assumption | exact Only.sub hk (by decide) | apply keep_State_viol | refine Ext.foldl (fun _ _ _ => ?_) ?_
    | refine Ext.foldl_pair (fun _ _ _ => ?_) ?_ | refine Ext.foldl_triple (fun _ _ _ => ?_) ?_ | dsimp only | intro _

theorem keep_State_audArm {F : Area → Bool} {s0 : State} (s : State) (t : Nat) (p : Nat) (hk : Only F [.regs, .aud]) (hx : Ext F s0 s) :
    Ext F s0 (State.audArm s t p) := by
  unfold State.audArm
  repeat' with_reducible first
    | assumption | exact Only.sub hk (by decide) | apply keep_State_audApply | apply keep_State_setAudSt
    | apply keep_State_setAud | dsimp only | fail_if_no_progress (refine Ext.mk_of ?_)

theorem keep_audStartCmd {F : Area → Bool} {s0 : State} (r : Req) (s : State) (hk : Only F [.regs, .aud]) (hx : Ext F s0 s) :
    Ext F s0 (ansSt (audStartCmd r s)) := by
  unfold audStartCmd
  repeat' with_reducible first
    | assumption | exact Only.sub hk (by decide) | apply keep_State_audArm | apply keep_audForeign
    | refine Ext.foldl (fun _ _ _ => ?_) ?_ | refine Ext.foldl_pair (fun _ _ _ => ?_) ?_
    | refine Ext.foldl_triple (fun _ _ _ => ?_) ?_ | refine Ext.of_pair (by assumption) ?_
    | refine Ext.of_triple (by assumption) ?_ | refine Ext.of_done (by assumption) ?_
    | refine Ext.of_wait (by assumption) ?_ | refine Ext.ite (fun _ => ?_) (fun _ => ?_)
    | refine Ext.ite_ans (fun _ => ?_) (fun _ => ?_) | refine Ext.done ?_ | dsimp only | split | intro _

theorem keep_State_audStop1 {F : Area → Bool} {s0 : State} (s : State) (parts : List (Fin 8 × List (List Nat))) (p : Nat) (hk : Only F [.regs, .mem, .nv, .mbx, .evt, .items, .rings, .cpl, .lnd, .aud, .dmc, .pwr, .free, .out, .spd, .rc]) (hx : Ext F s0 s) :
    Ext F s0 (State.audStop1 s parts p) := by
  unfold State.audStop1
  repeat' with_reducible first
    | assumption | exact Only.sub hk (by decide) | apply keep_State_audEnd | apply keep_State_audStopped
    | apply keep_State_setAud | refine Ext.of_pair (by assumption) ?_ | refine Ext.of_triple (by assumption) ?_
    | refine Ext.of_done (by assumption) ?_ | refine Ext.of_wait (by assumption) ?_
    | refine Ext.ite (fun _ => ?_) (fun _ => ?_) | dsimp only | fail_if_no_progress (refine Ext.mk_of ?_) | split
    | intro _

theorem keep_audStopCmd {F : Area → Bool} {s0 : State} (parts : List (Fin 8 × List (List Nat))) (r : Req) (s : State) (hk : Only F [.regs, .mem, .nv, .mbx, .evt, .items, .rings, .cpl, .lnd, .aud, .dmc, .pwr, .free, .out, .spd, .rc]) (hx : Ext F s0 s) :
    Ext F s0 (ansSt (audStopCmd parts r s)) := by
  unfold audStopCmd
  repeat' with_reducible first
    | assumption | exact Only.sub hk (by decide) | apply keep_State_audStop1 | apply keep_audForeign
    | refine Ext.foldl (fun _ _ _ => ?_) ?_ | refine Ext.foldl_pair (fun _ _ _ => ?_) ?_
    | refine Ext.foldl_triple (fun _ _ _ => ?_) ?_ | refine Ext.of_pair (by assumption) ?_
    | refine Ext.of_triple (by assumption) ?_ | refine Ext.of_done (by assumption) ?_
    | refine Ext.of_wait (by assumption) ?_ | refine Ext.done ?_ | dsimp only | split | intro _

theorem keep_audMute {F : Area → Bool} {s0 : State} (r : Req) (s : State) (hk : Only F [.regs, .aud]) (hx : Ext F s0 s) :
    Ext F s0 (ansSt (audMute r s)) := by
  unfold audMute
  repeat' with_reducible first
    | assumption | exact Only.sub hk (by decide) | apply keep_audForeign | apply keep_State_setAud
    | apply keep_State_wrF | refine Ext.ite (fun _ => ?_) (fun _ => ?_)
    | refine Ext.ite_ans (fun _ => ?_) (fun _ => ?_) | refine Ext.done ?_ | dsimp only | split
    | fail_if_no_progress (refine Ext.mk_of ?_)

theorem keep_audStatus {F : Area → Bool} {s0 : State} (r : Req) (s : State)  (hx : Ext F s0 s) :
    Ext F s0 (ansSt (audStatus r s)) := by
  unfold audStatus
  repeat' with_reducible first
    | assumption | refine Ext.done ?_ | dsimp only | intro _

theorem keep_State_audBlockEnds {F : Area → Bool} {s0 : State} (s : State) (p : Nat) (data : List (List Nat)) (parity : List Nat) (hk : Only F [.regs, .mem, .nv, .mbx, .evt, .items, .rings, .cpl, .lnd, .aud, .dmc, .pwr, .free, .out, .spd, .rc]) (hx : Ext F s0 s) :
    Ext F s0 (State.audBlockEnds s p data parity) := by
  unfold State.audBlockEnds
  repeat' with_reducible first
    | assumption | exact Only.sub hk (by decide) | apply keep_State_audEnd | apply keep_State_audError
    | apply keep_State_faultItem | refine Ext.foldl (fun _ _ _ => ?_) ?_ | refine Ext.foldl_pair (fun _ _ _ => ?_) ?_
    | refine Ext.foldl_triple (fun _ _ _ => ?_) ?_ | refine Ext.ite (fun _ => ?_) (fun _ => ?_) | dsimp only | split
    | intro _

theorem keep_State_audFollow {F : Area → Bool} {s0 : State} (s : State) (p : Nat) (clocks : Nat) (midOk : Bool) (hk : Only F [.regs, .mbx, .evt, .aud, .out, .rc]) (hx : Ext F s0 s) :
    Ext F s0 (State.audFollow s p clocks midOk) := by
  unfold State.audFollow
  repeat' with_reducible first
    | assumption | exact Only.sub hk (by decide) | apply keep_State_audStart | apply keep_State_audError
    | refine Ext.of_pair (by assumption) ?_ | refine Ext.of_triple (by assumption) ?_
    | refine Ext.of_done (by assumption) ?_ | refine Ext.of_wait (by assumption) ?_
    | refine Ext.ite (fun _ => ?_) (fun _ => ?_) | dsimp only | split

theorem keep_State_aesFrame {F : Area → Bool} {s0 : State} (s : State) (p : Nat) (z : Bool) (a : AesSub) (b : AesSub) (hk : Only F [.regs, .mbx, .evt, .aud, .out, .rc]) (hx : Ext F s0 s) :
    Ext F s0 (State.aesFrame s p z a b) := by
  unfold State.aesFrame
  repeat' with_reducible first
    | assumption | exact Only.sub hk (by decide) | apply keep_State_csBlock | apply keep_State_audStart
    | apply keep_State_setAud | apply keep_State_bump | refine Ext.of_pair (by assumption) ?_
    | refine Ext.of_triple (by assumption) ?_ | refine Ext.of_done (by assumption) ?_
    | refine Ext.of_wait (by assumption) ?_ | refine Ext.ite (fun _ => ?_) (fun _ => ?_) | dsimp only
    | fail_if_no_progress (refine Ext.mk_of ?_) | split | intro _

end Sys2Proof.Laws
end

