-- ==== Sys2Proof/Laws/KeepMon.lean ====
section
/-!
SUPPORT. The operations of Machine/Mon.lean keep the relation Ext.
-/

set_option Elab.async false

namespace Sys2Proof.Laws

open Sys2Proof.Machine

set_option linter.unusedTactic false
set_option linter.unreachableTactic false
set_option maxRecDepth 2000

theorem keep_monConfig {F : Area → Bool} {s0 : State} (o : Nat) (ctx : Nat) (r : Req) (s : State) (hk : Only F [.regs, .ep]) (hx : Ext F s0 s) :
    Ext F s0 (ansSt (monConfig o ctx r s)) := by
  unfold monConfig
  repeat' with_reducible first
    | assumption | exact Only.sub hk (by decide) | apply keep_stageAnswer | refine Ext.ite (fun _ => ?_) (fun _ => ?_)
    | refine Ext.ite_ans (fun _ => ?_) (fun _ => ?_) | refine Ext.done ?_ | dsimp only | split

theorem keep_monPush {F : Area → Bool} {s0 : State} (r : Req) (s : State) (hk : Only F [.regs, .mon, .free]) (hx : Ext F s0 s) :
    Ext F s0 (ansSt (monPush r s)) := by
  unfold monPush
  repeat' with_reducible first
    | assumption | exact Only.sub hk (by decide) | apply keep_State_monNext | apply keep_State_viol
    | refine Ext.of_pair (by assumption) ?_ | refine Ext.of_triple (by assumption) ?_
    | refine Ext.of_done (by assumption) ?_ | refine Ext.of_wait (by assumption) ?_
    | refine Ext.ite (fun _ => ?_) (fun _ => ?_) | refine Ext.ite_ans (fun _ => ?_) (fun _ => ?_) | refine Ext.done ?_
    | dsimp only | split | fail_if_no_progress (refine Ext.mk_of ?_)

theorem keep_monFbAlloc {F : Area → Bool} {s0 : State} (r : Req) (s : State) (hk : Only F [.regs, .mon, .free]) (hx : Ext F s0 s) :
    Ext F s0 (ansSt (monFbAlloc r s)) := by
  unfold monFbAlloc
  repeat' with_reducible first
    | assumption | exact Only.sub hk (by decide) | apply keep_State_fbTake | apply keep_State_setFb
    | apply keep_State_fbRegs | apply keep_State_viol | refine Ext.foldl (fun _ _ _ => ?_) ?_
    | refine Ext.foldl_pair (fun _ _ _ => ?_) ?_ | refine Ext.foldl_triple (fun _ _ _ => ?_) ?_
    | refine Ext.ite (fun _ => ?_) (fun _ => ?_) | refine Ext.ite_ans (fun _ => ?_) (fun _ => ?_) | refine Ext.done ?_
    | dsimp only | split | intro _

theorem keep_monStatus {F : Area → Bool} {s0 : State} (r : Req) (s : State)  (hx : Ext F s0 s) :
    Ext F s0 (ansSt (monStatus r s)) := by
  unfold monStatus
  repeat' with_reducible first
    | assumption | refine Ext.done ?_ | dsimp only | intro _

theorem keep_State_monCadence {F : Area → Bool} {s0 : State} (s : State) (o : Nat) (hk : Only F [.regs, .cpl, .mon, .out, .rc]) (hx : Ext F s0 s) :
    Ext F s0 (State.monCadence s o) := by
  unfold State.monCadence
  repeat' with_reducible first
    | assumption | exact Only.sub hk (by decide) | apply keep_State_monStart | apply keep_State_bump | dsimp only

theorem keep_State_dsiSent {F : Area → Bool} {s0 : State} (s : State) (o : Nat) (d : Rect) (under : List (Nat × Nat)) (ue : List Nat) (hk : Only F [.regs, .nv, .mbx, .evt, .items, .mon, .dmc, .pwr, .out, .spd, .rc]) (hx : Ext F s0 s) :
    Ext F s0 (State.dsiSent s o d under ue) := by
  unfold State.dsiSent
  repeat' with_reducible first
    | assumption | exact Only.sub hk (by decide) | apply keep_State_monMatch | apply keep_State_monDone
    | apply keep_State_monUe | apply keep_State_monUnder | apply keep_State_dsiPackets | apply keep_State_monLine
    | apply keep_State_monFetch | apply keep_State_setMon | apply keep_State_emit | apply keep_State_wrF
    | refine Ext.foldl (fun _ _ _ => ?_) ?_ | refine Ext.foldl_pair (fun _ _ _ => ?_) ?_
    | refine Ext.foldl_triple (fun _ _ _ => ?_) ?_ | refine Ext.of_pair (by assumption) ?_
    | refine Ext.of_triple (by assumption) ?_ | refine Ext.of_done (by assumption) ?_
    | refine Ext.of_wait (by assumption) ?_ | refine Ext.ite (fun _ => ?_) (fun _ => ?_) | dsimp only
    | fail_if_no_progress (refine Ext.mk_of ?_) | split | intro _

theorem keep_State_sdiLine {F : Area → Bool} {s0 : State} (s : State) (o : Nat) (y : Nat) (w : Nat) (miss : Option Nat) (ue : Bool) (hk : Only F [.regs, .nv, .mbx, .evt, .items, .mon, .dmc, .pwr, .out, .spd, .rc]) (hx : Ext F s0 s) :
    Ext F s0 (State.sdiLine s o y w miss ue) := by
  unfold State.sdiLine
  repeat' with_reducible first
    | assumption | exact Only.sub hk (by decide) | apply keep_State_monMatch | apply keep_State_monUe
    | apply keep_State_monUnder | apply keep_State_monLine | apply keep_State_monFetch | apply keep_State_setMon
    | apply keep_State_emit | apply keep_State_wrF | refine Ext.of_pair (by assumption) ?_
    | refine Ext.of_triple (by assumption) ?_ | refine Ext.of_done (by assumption) ?_
    | refine Ext.of_wait (by assumption) ?_ | refine Ext.ite (fun _ => ?_) (fun _ => ?_) | dsimp only
    | fail_if_no_progress (refine Ext.mk_of ?_) | split

end Sys2Proof.Laws
end

