-- ==== Sys2Proof/Laws/KeepCbsOps.lean ====
section
/-!
SUPPORT. The operations of Machine/CbsOps.lean keep the relation Ext.
-/

set_option Elab.async false

namespace Sys2Proof.Laws

open Sys2Proof.Machine

set_option linter.unusedTactic false
set_option linter.unreachableTactic false
set_option maxRecDepth 2000

theorem keep_State_setXfer {F : Area → Bool} {s0 : State} (s : State) (c : Nat) (x : Option I2cXfer) (hk : Only F [.cbs]) (hx : Ext F s0 s) :
    Ext F s0 (State.setXfer s c x) := by
  unfold State.setXfer
  repeat' with_reducible first
    | assumption | exact Only.sub hk (by decide) | dsimp only | fail_if_no_progress (refine Ext.mk_of ?_) | intro _

theorem keep_State_i2cXferWrite {F : Area → Bool} {s0 : State} (s : State) (c : Nat) (v : Word) (hk : Only F [.regs, .cbs, .out, .rc]) (hx : Ext F s0 s) :
    Ext F s0 (State.i2cXferWrite s c v) := by
  unfold State.i2cXferWrite
  repeat' with_reducible first
    | assumption | exact Only.sub hk (by decide) | apply keep_State_setXfer | apply keep_State_emit
    | apply keep_State_bump | apply keep_State_wr | refine Ext.ite (fun _ => ?_) (fun _ => ?_) | dsimp only | split
    | intro _

theorem keep_State_i2cEnd {F : Area → Bool} {s0 : State} (s : State) (c : Nat) (result : Nat) (idx : Nat) (data : List Byte) (hk : Only F [.regs, .mbx, .evt, .cbs, .out, .rc]) (hx : Ext F s0 s) :
    Ext F s0 (State.i2cEnd s c result idx data) := by
  unfold State.i2cEnd
  repeat' with_reducible first
    | assumption | exact Only.sub hk (by decide) | apply keep_State_setXfer | apply keep_State_raise
    | apply keep_State_emit | apply keep_State_wrs | apply keep_State_wr | refine Ext.of_pair (by assumption) ?_
    | refine Ext.of_triple (by assumption) ?_ | refine Ext.of_done (by assumption) ?_
    | refine Ext.of_wait (by assumption) ?_ | refine Ext.ite (fun _ => ?_) (fun _ => ?_) | dsimp only | split
    | intro _

theorem keep_State_i2cReset {F : Area → Bool} {s0 : State} (s : State) (ps : List Nat) (hk : Only F [.cbs]) (hx : Ext F s0 s) :
    Ext F s0 (State.i2cReset s ps) := by
  unfold State.i2cReset
  repeat' with_reducible first
    | assumption | exact Only.sub hk (by decide) | apply keep_State_setXfer | refine Ext.foldl (fun _ _ _ => ?_) ?_
    | refine Ext.foldl_pair (fun _ _ _ => ?_) ?_ | refine Ext.foldl_triple (fun _ _ _ => ?_) ?_
    | refine Ext.of_pair (by assumption) ?_ | refine Ext.of_triple (by assumption) ?_
    | refine Ext.of_done (by assumption) ?_ | refine Ext.of_wait (by assumption) ?_
    | refine Ext.ite (fun _ => ?_) (fun _ => ?_) | dsimp only | fail_if_no_progress (refine Ext.mk_of ?_) | split
    | intro _

theorem keep_State_gpioEdge {F : Area → Bool} {s0 : State} (s : State) (n : Nat) (falling : Bool) (hk : Only F [.regs, .mbx, .evt, .out, .rc]) (hx : Ext F s0 s) :
    Ext F s0 (State.gpioEdge s n falling) := by
  unfold State.gpioEdge
  repeat' with_reducible first
    | assumption | exact Only.sub hk (by decide) | apply keep_State_raiseEv | apply keep_State_wrF
    | refine Ext.ite (fun _ => ?_) (fun _ => ?_) | dsimp only | fail_if_no_progress (refine Ext.mk_of ?_) | split

theorem keep_State_gpioDrive1 {F : Area → Bool} {s0 : State} (s : State) (n : Nat) (hk : Only F [.regs, .mbx, .evt, .out, .rc]) (hx : Ext F s0 s) :
    Ext F s0 (State.gpioDrive1 s n) := by
  unfold State.gpioDrive1
  repeat' with_reducible first
    | assumption | exact Only.sub hk (by decide) | apply keep_State_gpioEdge | apply keep_State_emit
    | refine Ext.ite (fun _ => ?_) (fun _ => ?_) | dsimp only | split | intro _

theorem keep_State_gpioBoundary {F : Area → Bool} {s0 : State} (s : State) (old : Nat → Word) (hk : Only F [.regs, .mbx, .evt, .out, .rc]) (hx : Ext F s0 s) :
    Ext F s0 (State.gpioBoundary s old) := by
  unfold State.gpioBoundary
  repeat' with_reducible first
    | assumption | exact Only.sub hk (by decide) | apply keep_State_gpioDrive1 | apply keep_State_emit
    | refine Ext.foldl (fun _ _ _ => ?_) ?_ | refine Ext.foldl_pair (fun _ _ _ => ?_) ?_
    | refine Ext.foldl_triple (fun _ _ _ => ?_) ?_ | refine Ext.ite (fun _ => ?_) (fun _ => ?_) | dsimp only | split
    | intro _

theorem keep_State_padsOff {F : Area → Bool} {s0 : State} (s : State) (hk : Only F [.tim, .out]) (hx : Ext F s0 s) :
    Ext F s0 (State.padsOff s) := by
  unfold State.padsOff
  repeat' with_reducible first
    | assumption | exact Only.sub hk (by decide) | apply keep_State_emit | refine Ext.foldl (fun _ _ _ => ?_) ?_
    | refine Ext.foldl_pair (fun _ _ _ => ?_) ?_ | refine Ext.foldl_triple (fun _ _ _ => ?_) ?_ | dsimp only
    | fail_if_no_progress (refine Ext.mk_of ?_) | intro _

theorem keep_State_gpioWrite {F : Area → Bool} {s0 : State} (s : State) (p : Nat) (ctx : Nat) (set : Bool) (m : Nat) (hk : Only F [.regs, .mbx, .evt, .cbs, .out, .rc]) (hx : Ext F s0 s) :
    Ext F s0 (State.gpioWrite s p ctx set m) := by
  unfold State.gpioWrite
  repeat' with_reducible first
    | assumption | exact Only.sub hk (by decide) | apply keep_State_gpioDrive1 | apply keep_State_viol
    | refine Ext.foldl (fun _ _ _ => ?_) ?_ | refine Ext.foldl_pair (fun _ _ _ => ?_) ?_
    | refine Ext.foldl_triple (fun _ _ _ => ?_) ?_ | refine Ext.ite (fun _ => ?_) (fun _ => ?_) | dsimp only
    | fail_if_no_progress (refine Ext.mk_of ?_) | split | intro _

theorem keep_State_tgtCut {F : Area → Bool} {s0 : State} (s : State) (hk : Only F [.regs, .rc]) (hx : Ext F s0 s) :
    Ext F s0 (State.tgtCut s) := by
  unfold State.tgtCut
  repeat' with_reducible first
    | assumption | exact Only.sub hk (by decide) | apply keep_State_bump | dsimp only

theorem keep_State_tgtDiscard {F : Area → Bool} {s0 : State} (s : State) (hk : Only F [.regs, .rc]) (hx : Ext F s0 s) :
    Ext F s0 (State.tgtDiscard s) := by
  unfold State.tgtDiscard
  repeat' with_reducible first
    | assumption | exact Only.sub hk (by decide) | apply keep_State_bump | dsimp only

theorem keep_State_setTxn {F : Area → Bool} {s0 : State} (s : State) (t : Option TgtTxn) (hk : Only F [.cbs]) (hx : Ext F s0 s) :
    Ext F s0 (State.setTxn s t) := by
  unfold State.setTxn
  repeat' with_reducible first
    | assumption | exact Only.sub hk (by decide) | dsimp only | fail_if_no_progress (refine Ext.mk_of ?_)

theorem keep_State_tgtStatus {F : Area → Bool} {s0 : State} (s : State) (a : Nat) (b : Byte) (hk : Only F [.cbs]) (hx : Ext F s0 s) :
    Ext F s0 (State.tgtStatus s a b) := by
  unfold State.tgtStatus
  repeat' with_reducible first
    | assumption | exact Only.sub hk (by decide) | refine Ext.ite (fun _ => ?_) (fun _ => ?_) | dsimp only
    | fail_if_no_progress (refine Ext.mk_of ?_) | split | intro _

theorem keep_State_uaCommit {F : Area → Bool} {s0 : State} (s : State) (hk : Only F [.nv, .lnd]) (hx : Ext F s0 s) :
    Ext F s0 (State.uaCommit s) := by
  unfold State.uaCommit
  repeat' with_reducible first
    | assumption | exact Only.sub hk (by decide) | apply keep_State_nvStore | refine Ext.foldl (fun _ _ _ => ?_) ?_
    | refine Ext.foldl_pair (fun _ _ _ => ?_) ?_ | refine Ext.foldl_triple (fun _ _ _ => ?_) ?_
    | refine Ext.of_pair (by assumption) ?_ | refine Ext.of_triple (by assumption) ?_
    | refine Ext.of_done (by assumption) ?_ | refine Ext.of_wait (by assumption) ?_ | dsimp only
    | fail_if_no_progress (refine Ext.mk_of ?_) | split | intro _

theorem keep_State_tgtEnd {F : Area → Bool} {s0 : State} (s : State) (hk : Only F [.nv, .lnd, .cbs]) (hx : Ext F s0 s) :
    Ext F s0 (State.tgtEnd s) := by
  unfold State.tgtEnd
  repeat' with_reducible first
    | assumption | exact Only.sub hk (by decide) | apply keep_State_uaCommit | apply keep_State_tgtStatus
    | apply keep_State_setTxn | refine Ext.foldl (fun _ _ _ => ?_) ?_ | refine Ext.foldl_pair (fun _ _ _ => ?_) ?_
    | refine Ext.foldl_triple (fun _ _ _ => ?_) ?_ | refine Ext.of_pair (by assumption) ?_
    | refine Ext.of_triple (by assumption) ?_ | refine Ext.of_done (by assumption) ?_
    | refine Ext.of_wait (by assumption) ?_ | dsimp only | split | intro _

theorem keep_State_tgtWriteByte {F : Area → Bool} {s0 : State} (s : State) (b : Byte) (hk : Only F [.regs, .lnd, .cbs, .rc]) (hx : Ext F s0 s) :
    Ext F s0 (State.tgtWriteByte s b) := by
  unfold State.tgtWriteByte
  repeat' with_reducible first
    | assumption | exact Only.sub hk (by decide) | apply keep_State_setTxn | apply keep_State_tgtDiscard
    | apply keep_State_bump | refine Ext.of_pair (by assumption) ?_ | refine Ext.of_triple (by assumption) ?_
    | refine Ext.of_done (by assumption) ?_ | refine Ext.of_wait (by assumption) ?_
    | refine Ext.ite (fun _ => ?_) (fun _ => ?_) | dsimp only | fail_if_no_progress (refine Ext.mk_of ?_) | split
    | intro _

theorem keep_State_tgtAck {F : Area → Bool} {s0 : State} (s : State) (addr : Nat) (hk : Only F [.cbs]) (hx : Ext F s0 s) :
    Ext F s0 (State.tgtAck s addr).2 := by
  unfold State.tgtAck
  repeat' with_reducible first
    | assumption | exact Only.sub hk (by decide) | refine Ext.of_pair (by assumption) ?_
    | refine Ext.of_triple (by assumption) ?_ | refine Ext.of_done (by assumption) ?_
    | refine Ext.of_wait (by assumption) ?_ | refine Ext.ite (fun _ => ?_) (fun _ => ?_)
    | refine Ext.ite_pair (fun _ => ?_) (fun _ => ?_) | dsimp only | split | fail_if_no_progress (refine Ext.mk_of ?_)

end Sys2Proof.Laws
end

