-- ==== Sys2Proof/Laws/KeepNvRec.lean ====
section
/-!
SUPPORT. The operations of Machine/NvRec.lean keep the relation Ext.
-/

set_option Elab.async false

namespace Sys2Proof.Laws

open Sys2Proof.Machine

set_option linter.unusedTactic false
set_option linter.unreachableTactic false
set_option maxRecDepth 2000

theorem keep_State_putRecord2 {F : Area → Bool} {s0 : State} (s : State) (a0 : Nat) (a1 : Nat) (body : List Byte) (hk : Only F [.nv, .nvHeld]) (hx : Ext F s0 s) :
    Ext F s0 (State.putRecord2 s a0 a1 body) := by
  unfold State.putRecord2
  repeat' with_reducible first
    | assumption | exact Only.sub hk (by decide) | apply keep_State_nvUpdate | dsimp only

theorem keep_State_setImgCtl {F : Area → Bool} {s0 : State} (s : State) (c : ImgCtl) (hk : Only F [.nv, .nvHeld]) (hx : Ext F s0 s) :
    Ext F s0 (State.setImgCtl s c) := by
  unfold State.setImgCtl
  repeat' with_reducible first
    | assumption | exact Only.sub hk (by decide) | apply keep_State_putRecord2 | dsimp only

theorem keep_State_setConsecAs {F : Area → Bool} {s0 : State} (s : State) (n : Nat) (cause : Nat) (hk : Only F [.regs, .nv, .nvHeld]) (hx : Ext F s0 s) :
    Ext F s0 (State.setConsecAs s n cause) := by
  unfold State.setConsecAs
  repeat' with_reducible first
    | assumption | exact Only.sub hk (by decide) | apply keep_State_putRecord2 | apply keep_State_wrF | dsimp only

theorem keep_State_setConsec {F : Area → Bool} {s0 : State} (s : State) (n : Nat) (hk : Only F [.regs, .nv, .nvHeld]) (hx : Ext F s0 s) :
    Ext F s0 (State.setConsec s n) := by
  unfold State.setConsec
  repeat' with_reducible first
    | assumption | exact Only.sub hk (by decide) | apply keep_State_setConsecAs
    | refine Ext.ite (fun _ => ?_) (fun _ => ?_) | dsimp only | split

theorem keep_State_setMarker {F : Area → Bool} {s0 : State} (s : State) (m : Bool) (result : Nat) (at_ : Nat) (hk : Only F [.nv, .nvHeld]) (hx : Ext F s0 s) :
    Ext F s0 (State.setMarker s m result at_) := by
  unfold State.setMarker
  repeat' with_reducible first
    | assumption | exact Only.sub hk (by decide) | apply keep_State_putRecord2 | dsimp only

end Sys2Proof.Laws
end

