-- ==== Sys2Proof/Laws/KeepValidate.lean ====
section
/-!
SUPPORT. The operations of Machine/Validate.lean keep the relation Ext.
-/

set_option Elab.async false

namespace Sys2Proof.Laws

open Sys2Proof.Machine

set_option linter.unusedTactic false
set_option linter.unreachableTactic false
set_option maxRecDepth 2000

theorem keep_State_rejected {F : Area → Bool} {s0 : State} (s : State) (l : List (Nat × Nat)) (hk : Only F [.regs]) (hx : Ext F s0 s) :
    Ext F s0 (State.rejected s l) := by
  unfold State.rejected
  repeat' with_reducible first
    | assumption | exact Only.sub hk (by decide) | apply keep_State_wr | refine Ext.foldl (fun _ _ _ => ?_) ?_
    | refine Ext.foldl_pair (fun _ _ _ => ?_) ?_ | refine Ext.foldl_triple (fun _ _ _ => ?_) ?_ | dsimp only | intro _

theorem keep_State_submit {F : Area → Bool} {s0 : State} (s : State) (p : Nat) (ctx : Nat) (entries : Over) (target : Nat) (sensor : List SensorWrite) (hk : Only F [.regs, .ep]) (hx : Ext F s0 s) :
    Ext F s0 (State.submit s p ctx entries target sensor).2.2 := by
  unfold State.submit
  repeat' with_reducible first
    | assumption | exact Only.sub hk (by decide) | apply keep_State_rejected | refine Ext.of_pair (by assumption) ?_
    | refine Ext.of_triple (by assumption) ?_ | refine Ext.of_done (by assumption) ?_
    | refine Ext.of_wait (by assumption) ?_ | refine Ext.ite (fun _ => ?_) (fun _ => ?_)
    | refine Ext.ite_triple (fun _ => ?_) (fun _ => ?_) | dsimp only | split
    | fail_if_no_progress (refine Ext.mk_of ?_) | intro _

theorem keep_submitAnswer {F : Area → Bool} {s0 : State} (r : Req) (x : Nat × Option (Nat × Nat) × State) (hx : Ext F s0 x.2.2) :
    Ext F s0 (ansSt (submitAnswer r x)) := by
  obtain ⟨a, o, s⟩ := x
  unfold submitAnswer
  cases o with
  | none => exact hx
  | some p =>
    obtain ⟨b, c⟩ := p
    dsimp only
    refine Ext.ite_ans (fun _ => ?_) (fun _ => ?_)
    · exact hx
    · exact hx

theorem keep_State_unstage {F : Area → Bool} {s0 : State} (s : State) (p : Nat) (hk : Only F [.ep]) (hx : Ext F s0 s) :
    Ext F s0 (State.unstage s p) := by
  unfold State.unstage
  repeat' with_reducible first
    | assumption | exact Only.sub hk (by decide) | dsimp only | fail_if_no_progress (refine Ext.mk_of ?_)

theorem keep_epochCommit {F : Area → Bool} {s0 : State} (sensor : List SensorWrite) (r : Req) (s : State) (hk : Only F [.regs, .ep]) (hx : Ext F s0 s) :
    Ext F s0 (ansSt (epochCommit sensor r s)) := by
  unfold epochCommit
  repeat' with_reducible first
    | assumption | exact Only.sub hk (by decide) | apply keep_State_unstage | apply keep_submitAnswer
    | apply keep_State_submit | refine Ext.of_pair (by assumption) ?_ | refine Ext.of_triple (by assumption) ?_
    | refine Ext.of_done (by assumption) ?_ | refine Ext.of_wait (by assumption) ?_
    | refine Ext.ite (fun _ => ?_) (fun _ => ?_) | refine Ext.ite_ans (fun _ => ?_) (fun _ => ?_) | refine Ext.done ?_
    | dsimp only | split

end Sys2Proof.Laws
end

