-- ==== Sys2Proof/Laws/KeepResets.lean ====
section
/-!
SUPPORT. The operations of Machine/Resets.lean keep the relation Ext.
-/

set_option Elab.async false

namespace Sys2Proof.Laws

open Sys2Proof.Machine

set_option linter.unusedTactic false
set_option linter.unreachableTactic false
set_option maxRecDepth 2000

theorem keep_State_ctxCounts {F : Area → Bool} {s0 : State} (s : State) (hk : Only F [.regs]) (hx : Ext F s0 s) :
    Ext F s0 (State.ctxCounts s) := by
  unfold State.ctxCounts
  repeat' with_reducible first
    | assumption | exact Only.sub hk (by decide) | apply keep_State_wr | refine Ext.foldl (fun _ _ _ => ?_) ?_
    | refine Ext.foldl_pair (fun _ _ _ => ?_) ?_ | refine Ext.foldl_triple (fun _ _ _ => ?_) ?_ | dsimp only | intro _

theorem keep_State_setCtxState {F : Area → Bool} {s0 : State} (s : State) (c : Nat) (st : Nat) (hk : Only F [.regs]) (hx : Ext F s0 s) :
    Ext F s0 (State.setCtxState s c st) := by
  unfold State.setCtxState
  repeat' with_reducible first
    | assumption | exact Only.sub hk (by decide) | apply keep_State_wrF | dsimp only

theorem keep_State_bar2Close {F : Area → Bool} {s0 : State} (s : State) (hk : Only F [.regs]) (hx : Ext F s0 s) :
    Ext F s0 (State.bar2Close s) := by
  unfold State.bar2Close
  repeat' with_reducible first
    | assumption | exact Only.sub hk (by decide) | apply keep_State_wrF | dsimp only

theorem keep_State_setReady {F : Area → Bool} {s0 : State} (s : State) (p : Nat) (v : Bool) (hk : Only F [.regs, .mbx, .out]) (hx : Ext F s0 s) :
    Ext F s0 (State.setReady s p v) := by
  unfold State.setReady
  repeat' with_reducible first
    | assumption | exact Only.sub hk (by decide) | apply keep_State_intSet | apply keep_State_wrF
    | refine Ext.ite (fun _ => ?_) (fun _ => ?_) | dsimp only | split

theorem keep_State_mbxDown {F : Area → Bool} {s0 : State} (s : State) (p : Nat) (hk : Only F [.regs, .mbx, .out]) (hx : Ext F s0 s) :
    Ext F s0 (State.mbxDown s p) := by
  unfold State.mbxDown
  repeat' with_reducible first
    | assumption | exact Only.sub hk (by decide) | apply keep_State_setReady | apply keep_State_bar2Close
    | refine Ext.ite (fun _ => ?_) (fun _ => ?_) | dsimp only | fail_if_no_progress (refine Ext.mk_of ?_) | split
    | intro _

theorem keep_State_mbxUp {F : Area → Bool} {s0 : State} (s : State) (p : Nat) (hk : Only F [.regs, .mbx, .out]) (hx : Ext F s0 s) :
    Ext F s0 (State.mbxUp s p) := by
  unfold State.mbxUp
  repeat' with_reducible first
    | assumption | exact Only.sub hk (by decide) | apply keep_State_setReady | apply keep_State_wrF
    | apply keep_State_wr | dsimp only | fail_if_no_progress (refine Ext.mk_of ?_) | intro _

theorem keep_State_bkcReset {F : Area → Bool} {s0 : State} (s : State) (cs : List Nat) (hk : Only F [.regs, .mbx, .evt, .ing, .bkc, .out, .rc]) (hx : Ext F s0 s) :
    Ext F s0 (State.bkcReset s cs) := by
  unfold State.bkcReset
  repeat' with_reducible first
    | assumption | exact Only.sub hk (by decide) | apply keep_State_jobEvent | apply keep_State_jobNext
    | apply keep_State_jobPass | refine Ext.foldl (fun _ _ _ => ?_) ?_ | refine Ext.foldl_pair (fun _ _ _ => ?_) ?_
    | refine Ext.foldl_triple (fun _ _ _ => ?_) ?_ | refine Ext.of_pair (by assumption) ?_
    | refine Ext.of_triple (by assumption) ?_ | refine Ext.of_done (by assumption) ?_
    | refine Ext.of_wait (by assumption) ?_ | refine Ext.ite (fun _ => ?_) (fun _ => ?_) | dsimp only
    | fail_if_no_progress (refine Ext.mk_of ?_) | split | intro _

theorem keep_State_mbxDiscard {F : Area → Bool} {s0 : State} (s : State) (cs : List Nat) (hk : Only F [.regs, .mbx, .out]) (hx : Ext F s0 s) :
    Ext F s0 (State.mbxDiscard s cs) := by
  unfold State.mbxDiscard
  repeat' with_reducible first
    | assumption | exact Only.sub hk (by decide) | apply keep_State_unpost | apply keep_State_answer
    | refine Ext.foldl (fun _ _ _ => ?_) ?_ | refine Ext.foldl_pair (fun _ _ _ => ?_) ?_
    | refine Ext.foldl_triple (fun _ _ _ => ?_) ?_ | dsimp only | intro _

theorem keep_State_resetFlags {F : Area → Bool} {s0 : State} (s : State) (ps : List Nat) (hk : Only F [.regs]) (hx : Ext F s0 s) :
    Ext F s0 (State.resetFlags s ps) := by
  unfold State.resetFlags
  repeat' with_reducible first
    | assumption | exact Only.sub hk (by decide) | apply keep_State_wrF | refine Ext.foldl (fun _ _ _ => ?_) ?_
    | refine Ext.foldl_pair (fun _ _ _ => ?_) ?_ | refine Ext.foldl_triple (fun _ _ _ => ?_) ?_ | dsimp only | intro _

theorem keep_State_closeStreams {F : Area → Bool} {s0 : State} (s : State) (ps : List Nat) (cs : List Nat) (hk : Only F [.regs, .ep]) (hx : Ext F s0 s) :
    Ext F s0 (State.closeStreams s ps cs) := by
  unfold State.closeStreams
  repeat' with_reducible first
    | assumption | exact Only.sub hk (by decide) | apply keep_State_submit | refine Ext.foldl (fun _ _ _ => ?_) ?_
    | refine Ext.foldl_pair (fun _ _ _ => ?_) ?_ | refine Ext.foldl_triple (fun _ _ _ => ?_) ?_ | dsimp only | intro _

theorem keep_State_drainCtxs {F : Area → Bool} {s0 : State} (s : State) (cs : List Nat) (hk : Only F [.regs, .nv, .mbx, .evt, .ing, .bkc, .items, .rings, .cpl, .lnd, .vcd, .dmc, .pwr, .out, .spd, .rc]) (hx : Ext F s0 s) :
    Ext F s0 (State.drainCtxs s cs) := by
  unfold State.drainCtxs
  repeat' with_reducible first
    | assumption | exact Only.sub hk (by decide) | apply keep_State_mbxDiscard | apply keep_State_bkcReset
    | apply keep_State_setCtxState | apply keep_State_vcReset | apply keep_State_sqReset | apply keep_State_resetRings
    | refine Ext.foldl (fun _ _ _ => ?_) ?_ | refine Ext.foldl_pair (fun _ _ _ => ?_) ?_
    | refine Ext.foldl_triple (fun _ _ _ => ?_) ?_ | dsimp only | intro _

theorem keep_State_drainPart {F : Area → Bool} {s0 : State} (s : State) (p : Nat) (hk : Only F [.regs, .mbx, .ep, .out]) (hx : Ext F s0 s) :
    Ext F s0 (State.drainPart s p) := by
  unfold State.drainPart
  repeat' with_reducible first
    | assumption | exact Only.sub hk (by decide) | apply keep_State_mbxDown | apply keep_State_unstage | dsimp only
    | fail_if_no_progress (refine Ext.mk_of ?_) | intro _

theorem keep_State_startReset {F : Area → Bool} {s0 : State} (s : State) (level : Nat) (ps : List Nat) (cs : List Nat) (free : List (Nat × Nat)) (hk : Only F [.regs, .nv, .mbx, .evt, .ep, .resets, .ing, .bkc, .items, .rings, .allocs, .cpl, .lnd, .vcd, .cbs, .dmc, .pwr, .out, .spd, .rc]) (hx : Ext F s0 s) :
    Ext F s0 (State.startReset s level ps cs free).2 := by
  unfold State.startReset
  repeat' with_reducible first
    | assumption | exact Only.sub hk (by decide) | apply keep_State_drainPart | apply keep_State_drainCtxs
    | apply keep_State_closeStreams | apply keep_State_resetFlags | apply keep_State_i2cReset
    | apply keep_State_lndReset | apply keep_State_bump | apply keep_State_wrF | refine Ext.foldl (fun _ _ _ => ?_) ?_
    | refine Ext.foldl_pair (fun _ _ _ => ?_) ?_ | refine Ext.foldl_triple (fun _ _ _ => ?_) ?_
    | refine Ext.ite (fun _ => ?_) (fun _ => ?_) | refine Ext.ite_pair (fun _ => ?_) (fun _ => ?_) | dsimp only
    | split | fail_if_no_progress (refine Ext.mk_of ?_) | intro _

theorem keep_State_resetQueue {F : Area → Bool} {s0 : State} (s : State) (c : Nat) (drop : Bool) (hk : Only F [.evt]) (hx : Ext F s0 s) :
    Ext F s0 (State.resetQueue s c drop) := by
  unfold State.resetQueue
  repeat' with_reducible first
    | assumption | exact Only.sub hk (by decide) | apply keep_State_setEvq
    | refine Ext.ite (fun _ => ?_) (fun _ => ?_) | dsimp only | split

theorem keep_State_freeCtxMem {F : Area → Bool} {s0 : State} (s : State) (c : Nat) (hk : Only F [.regs, .allocs]) (hx : Ext F s0 s) :
    Ext F s0 (State.freeCtxMem s c) := by
  unfold State.freeCtxMem
  repeat' with_reducible first
    | assumption | exact Only.sub hk (by decide) | apply keep_State_dropAlloc | refine Ext.foldl (fun _ _ _ => ?_) ?_
    | refine Ext.foldl_pair (fun _ _ _ => ?_) ?_ | refine Ext.foldl_triple (fun _ _ _ => ?_) ?_ | dsimp only | intro _

theorem keep_State_endCtx {F : Area → Bool} {s0 : State} (s : State) (level : Nat) (free : List (Nat × Nat)) (c : Nat) (hk : Only F [.regs, .mbx, .evt, .rings, .allocs, .out, .rc]) (hx : Ext F s0 s) :
    Ext F s0 (State.endCtx s level free c) := by
  unfold State.endCtx
  repeat' with_reducible first
    | assumption | exact Only.sub hk (by decide) | apply keep_State_freeCtxMem | apply keep_State_resetQueue
    | apply keep_State_setCtxState | apply keep_State_clearRing | apply keep_State_raise | apply keep_State_wr
    | refine Ext.foldl (fun _ _ _ => ?_) ?_ | refine Ext.foldl_pair (fun _ _ _ => ?_) ?_
    | refine Ext.foldl_triple (fun _ _ _ => ?_) ?_ | refine Ext.of_pair (by assumption) ?_
    | refine Ext.of_triple (by assumption) ?_ | refine Ext.of_done (by assumption) ?_
    | refine Ext.of_wait (by assumption) ?_ | refine Ext.ite (fun _ => ?_) (fun _ => ?_) | dsimp only
    | fail_if_no_progress (refine Ext.mk_of ?_) | split | intro _

theorem keep_State_endPart {F : Area → Bool} {s0 : State} (s : State) (level : Nat) (p : Nat) (hk : Only F [.regs, .mem, .mbx, .allocs, .mon, .dmc]) (hx : Ext F s0 s) :
    Ext F s0 (State.endPart s level p) := by
  unfold State.endPart
  repeat' with_reducible first
    | assumption | exact Only.sub hk (by decide) | apply keep_State_spdReset | apply keep_State_fbDrop
    | apply keep_State_dropAlloc | refine Ext.foldl (fun _ _ _ => ?_) ?_ | refine Ext.foldl_pair (fun _ _ _ => ?_) ?_
    | refine Ext.foldl_triple (fun _ _ _ => ?_) ?_ | refine Ext.ite (fun _ => ?_) (fun _ => ?_) | dsimp only
    | fail_if_no_progress (refine Ext.mk_of ?_) | split | intro _

theorem keep_State_endJob {F : Area → Bool} {s0 : State} (s : State) (j : ResetJob) (hk : Only F [.regs, .mbx, .resets, .out]) (hx : Ext F s0 s) :
    Ext F s0 (State.endJob s j) := by
  unfold State.endJob
  repeat' with_reducible first
    | assumption | exact Only.sub hk (by decide) | apply keep_State_finish | refine Ext.of_pair (by assumption) ?_
    | refine Ext.of_triple (by assumption) ?_ | refine Ext.of_done (by assumption) ?_
    | refine Ext.of_wait (by assumption) ?_ | dsimp only | fail_if_no_progress (refine Ext.mk_of ?_) | split | intro _

theorem keep_State_endJobs {F : Area → Bool} {s0 : State} (s : State) (y0 : Nat) (hk : Only F [.regs, .mbx, .resets, .out]) (hx : Ext F s0 s) :
    Ext F s0 (State.endJobs s y0) := by
  induction y0 generalizing s hx with
  | zero =>
    unfold State.endJobs
    repeat' with_reducible first
      | assumption | exact Only.sub hk (by decide) | apply keep_State_endJob | refine Ext.of_pair (by assumption) ?_
      | refine Ext.of_triple (by assumption) ?_ | refine Ext.of_done (by assumption) ?_
      | refine Ext.of_wait (by assumption) ?_ | dsimp only | split
  | succ k ih =>
    unfold State.endJobs
    repeat' with_reducible first
      | assumption | apply ih | exact Only.sub hk (by decide) | apply keep_State_endJob
      | refine Ext.of_pair (by assumption) ?_ | refine Ext.of_triple (by assumption) ?_
      | refine Ext.of_done (by assumption) ?_ | refine Ext.of_wait (by assumption) ?_ | dsimp only | split

theorem keep_State_endDrain {F : Area → Bool} {s0 : State} (s : State) (j : ResetJob) (hk : Only F [.regs, .mem, .mbx, .evt, .resets, .rings, .allocs, .cpl, .lnd, .vcd, .mon, .dmc, .out, .rc]) (hx : Ext F s0 s) :
    Ext F s0 (State.endDrain s j) := by
  unfold State.endDrain
  repeat' with_reducible first
    | assumption | exact Only.sub hk (by decide) | apply keep_State_endJobs | apply keep_State_endPart
    | apply keep_State_endCtx | apply keep_State_resetFlags | apply keep_State_mbxUp | apply keep_State_ctxCounts
    | apply keep_State_vcFreeCtx | apply keep_State_sqRelease | apply keep_State_sqRegs | apply keep_State_clearMarks
    | refine Ext.foldl (fun _ _ _ => ?_) ?_ | refine Ext.foldl_pair (fun _ _ _ => ?_) ?_
    | refine Ext.foldl_triple (fun _ _ _ => ?_) ?_ | refine Ext.ite (fun _ => ?_) (fun _ => ?_) | dsimp only
    | fail_if_no_progress (refine Ext.mk_of ?_) | split | intro _

theorem keep_State_attemptEnds {F : Area → Bool} {s0 : State} (s : State) (cause : Nat) (ok : Bool) (hk : Only F [.regs, .nv, .pwr, .nvHeld]) (hx : Ext F s0 s) :
    Ext F s0 (State.attemptEnds s cause ok) := by
  unfold State.attemptEnds
  repeat' with_reducible first
    | assumption | exact Only.sub hk (by decide) | apply keep_State_setConsecAs
    | refine Ext.ite (fun _ => ?_) (fun _ => ?_) | dsimp only | fail_if_no_progress (refine Ext.mk_of ?_) | split
    | intro _

theorem keep_State_wipe {F : Area → Bool} {s0 : State} (s : State) (level : Nat) (aon : Bool) (hk : Only F [.regs, .mem, .mbx, .evt, .ep, .resets, .lnk, .ing, .bkc, .items, .rings, .allocs, .cpl, .crs, .lnd, .vcd, .mon, .tim, .aud, .cbs, .dmc, .chutes, .pwr, .out, .spd, .rc, .epoch]) (hx : Ext F s0 s) :
    Ext F s0 (State.wipe s level aon) := by
  unfold State.wipe
  dsimp only
  refine keep_State_wrs _ _ (Only.sub hk (by decide)) ?_
  exact (keep_State_padsOff s (Only.sub hk (by decide)) hx).mk_tabs (tabWfFrom_filter _ _ _ 0) (tabWf_clear _ _ _ _)

theorem keep_State_eccReset {F : Area → Bool} {s0 : State} (s : State) (next : Nat) (hk : Only F [.regs, .mem, .dmc]) (hx : Ext F s0 s) :
    Ext F s0 (State.eccReset s next) := by
  unfold State.eccReset
  have h := keep_State_wrF s R.DMC_CFG 0 2 next (Only.sub hk (by decide)) hx
  refine Ext.ite (fun _ => h) (fun _ => ?_)
  exact (keep_State_wrF _ _ _ _ _ (Only.sub hk (by decide)) h).mk_tabs id (fun _ => rfl)

theorem keep_State_quota0 {F : Area → Bool} {s0 : State} (s : State) (hk : Only F [.regs]) (hx : Ext F s0 s) :
    Ext F s0 (State.quota0 s) := by
  unfold State.quota0
  repeat' with_reducible first
    | assumption | exact Only.sub hk (by decide) | apply keep_State_wr | dsimp only

theorem keep_State_coldStart {F : Area → Bool} {s0 : State} (s : State) (level : Nat) (held : Bool) (hk : Only F [.regs, .mem, .mbx, .evt, .ep, .resets, .lnk, .ing, .bkc, .items, .rings, .allocs, .cpl, .crs, .lnd, .vcd, .mon, .tim, .aud, .cbs, .dmc, .chutes, .pwr, .out, .spd, .rc, .epoch]) (hx : Ext F s0 s) :
    Ext F s0 (State.coldStart s level held) := by
  unfold State.coldStart
  repeat' with_reducible first
    | assumption | exact Only.sub hk (by decide) | apply keep_State_quota0 | apply keep_State_eccReset
    | apply keep_State_wipe | apply keep_State_usedAll | apply keep_State_wrF | dsimp only
    | fail_if_no_progress (refine Ext.mk_of ?_)

theorem keep_State_deviceReset {F : Area → Bool} {s0 : State} (s : State) (level : Nat) (cause : Nat) (ok : Bool) (hk : Only F [.regs, .mem, .nv, .mbx, .evt, .ep, .resets, .lnk, .ing, .bkc, .items, .rings, .allocs, .cpl, .crs, .lnd, .vcd, .mon, .tim, .aud, .cbs, .dmc, .chutes, .pwr, .nvHeld, .out, .spd, .rc, .epoch]) (hx : Ext F s0 s) :
    Ext F s0 (State.deviceReset s level cause ok) := by
  unfold State.deviceReset
  repeat' with_reducible first
    | assumption | exact Only.sub hk (by decide) | apply keep_State_coldStart | apply keep_State_attemptEnds
    | apply keep_State_setReady | apply keep_State_lndReset | apply keep_State_wr
    | refine Ext.foldl (fun _ _ _ => ?_) ?_ | refine Ext.foldl_pair (fun _ _ _ => ?_) ?_
    | refine Ext.foldl_triple (fun _ _ _ => ?_) ?_ | refine Ext.ite (fun _ => ?_) (fun _ => ?_) | dsimp only | split
    | intro _

theorem keep_State_warmReset {F : Area → Bool} {s0 : State} (s : State) (cause : Nat) (hk : Only F [.regs, .mem, .nv, .mbx, .evt, .ep, .resets, .lnk, .ing, .bkc, .items, .rings, .allocs, .cpl, .crs, .lnd, .vcd, .mon, .tim, .aud, .cbs, .dmc, .chutes, .pwr, .nvHeld, .out, .spd, .rc, .epoch]) (hx : Ext F s0 s) :
    Ext F s0 (State.warmReset s cause) := by
  unfold State.warmReset
  repeat' with_reducible first
    | assumption | exact Only.sub hk (by decide) | apply keep_State_deviceReset
    | refine Ext.ite (fun _ => ?_) (fun _ => ?_) | dsimp only | split

theorem keep_State_warmDue {F : Area → Bool} {s0 : State} (s : State) (hk : Only F [.regs, .mem, .nv, .mbx, .evt, .ep, .resets, .lnk, .ing, .bkc, .items, .rings, .allocs, .cpl, .crs, .lnd, .vcd, .mon, .tim, .aud, .cbs, .dmc, .chutes, .pwr, .nvHeld, .out, .spd, .rc, .epoch]) (hx : Ext F s0 s) :
    Ext F s0 (State.warmDue s) := by
  unfold State.warmDue
  repeat' with_reducible first
    | assumption | exact Only.sub hk (by decide) | apply keep_State_deviceReset
    | refine Ext.ite (fun _ => ?_) (fun _ => ?_) | dsimp only | split

theorem keep_resetCmd {F : Area → Bool} {s0 : State} (r : Req) (s : State) (hk : Only F [.regs, .nv, .mbx, .evt, .ep, .resets, .ing, .bkc, .items, .rings, .allocs, .cpl, .lnd, .vcd, .cbs, .dmc, .pwr, .out, .spd, .rc]) (hx : Ext F s0 s) :
    Ext F s0 (ansSt (resetCmd r s)) := by
  unfold resetCmd
  repeat' with_reducible first
    | assumption | exact Only.sub hk (by decide) | apply keep_State_startReset | apply keep_State_viol
    | refine Ext.of_pair (by assumption) ?_ | refine Ext.of_triple (by assumption) ?_
    | refine Ext.of_done (by assumption) ?_ | refine Ext.of_wait (by assumption) ?_
    | refine Ext.ite (fun _ => ?_) (fun _ => ?_) | refine Ext.ite_ans (fun _ => ?_) (fun _ => ?_) | refine Ext.done ?_
    | refine Ext.wait ?_ | dsimp only | split | fail_if_no_progress (refine Ext.mk_of ?_)

end Sys2Proof.Laws
end

