-- ==== Sys2Proof/Laws/KeepAdopt.lean ====
section
/-!
SUPPORT. The operations of Machine/Adopt.lean keep the relation Ext.
-/

set_option Elab.async false

namespace Sys2Proof.Laws

open Sys2Proof.Machine

set_option linter.unusedTactic false
set_option linter.unreachableTactic false
set_option maxRecDepth 2000

theorem keep_State_derived {F : Area → Bool} {s0 : State} (s : State) (hk : Only F [.regs]) (hx : Ext F s0 s) :
    Ext F s0 (State.derived s) := by
  unfold State.derived
  repeat' with_reducible first
    | assumption | exact Only.sub hk (by decide) | apply keep_State_vcPoolRegs | apply keep_State_crsLoad
    | apply keep_State_lndRate | apply keep_State_wrs | dsimp only

theorem keep_State_adopt {F : Area → Bool} {s0 : State} (s : State) (old : Nat → Word) (hk : Only F [.regs, .mbx, .evt, .mon, .tim, .aud, .out, .rc]) (hx : Ext F s0 s) :
    Ext F s0 (State.adopt s old) := by
  unfold State.adopt
  repeat' with_reducible first
    | assumption | exact Only.sub hk (by decide) | apply keep_State_derived | apply keep_State_gpioBoundary
    | apply keep_State_audBoundary | apply keep_State_timBoundary | apply keep_State_strobeBoundary
    | apply keep_State_monBoundary | apply keep_State_lnaBoundary | dsimp only

end Sys2Proof.Laws
end

