-- ==== Sys2Proof/Laws/KeepNvImage.lean ====
section
/-!
SUPPORT. The operations of Machine/NvImage.lean keep the relation Ext.
-/

set_option Elab.async false

namespace Sys2Proof.Laws

open Sys2Proof.Machine

set_option linter.unusedTactic false
set_option linter.unreachableTactic false
set_option maxRecDepth 2000

theorem keep_imageBegin {F : Area → Bool} {s0 : State} (u0 : Req) (s : State) (hk : Only F [.nv, .pwr, .nvHeld]) (hx : Ext F s0 s) :
    Ext F s0 (ansSt (imageBegin u0 s)) := by
  unfold imageBegin
  repeat' with_reducible first
    | assumption | exact Only.sub hk (by decide) | apply keep_State_setImgCtl
    | refine Ext.ite (fun _ => ?_) (fun _ => ?_) | refine Ext.ite_ans (fun _ => ?_) (fun _ => ?_) | refine Ext.done ?_
    | dsimp only | split | fail_if_no_progress (refine Ext.mk_of ?_)

theorem keep_imageWrite {F : Area → Bool} {s0 : State} (r : Req) (s : State) (hk : Only F [.nv]) (hx : Ext F s0 s) :
    Ext F s0 (ansSt (imageWrite r s)) := by
  unfold imageWrite
  repeat' with_reducible first
    | assumption | exact Only.sub hk (by decide) | apply keep_State_nvStore | refine Ext.of_pair (by assumption) ?_
    | refine Ext.of_triple (by assumption) ?_ | refine Ext.of_done (by assumption) ?_
    | refine Ext.of_wait (by assumption) ?_ | refine Ext.ite (fun _ => ?_) (fun _ => ?_)
    | refine Ext.ite_ans (fun _ => ?_) (fun _ => ?_) | refine Ext.done ?_ | dsimp only | split

theorem keep_imageCommit {F : Area → Bool} {s0 : State} (r : Req) (s : State) (hk : Only F [.regs, .nv, .pwr, .nvHeld]) (hx : Ext F s0 s) :
    Ext F s0 (ansSt (imageCommit r s)) := by
  unfold imageCommit
  repeat' with_reducible first
    | assumption | exact Only.sub hk (by decide) | apply keep_State_setConsec | apply keep_State_setImgCtl
    | refine Ext.of_pair (by assumption) ?_ | refine Ext.of_triple (by assumption) ?_
    | refine Ext.of_done (by assumption) ?_ | refine Ext.of_wait (by assumption) ?_
    | refine Ext.ite (fun _ => ?_) (fun _ => ?_) | refine Ext.ite_ans (fun _ => ?_) (fun _ => ?_) | refine Ext.done ?_
    | dsimp only | split | fail_if_no_progress (refine Ext.mk_of ?_)

theorem keep_imageStatus {F : Area → Bool} {s0 : State} (u0 : Req) (s : State)  (hx : Ext F s0 s) :
    Ext F s0 (ansSt (imageStatus u0 s)) := by
  unfold imageStatus
  repeat' with_reducible first
    | assumption | refine Ext.done ?_ | dsimp only

theorem keep_imageSelect {F : Area → Bool} {s0 : State} (k : Nat) (u1 : Req) (s : State) (hk : Only F [.regs, .nv, .nvHeld]) (hx : Ext F s0 s) :
    Ext F s0 (ansSt (imageSelect k u1 s)) := by
  unfold imageSelect
  repeat' with_reducible first
    | assumption | exact Only.sub hk (by decide) | apply keep_State_setConsec | apply keep_State_setImgCtl
    | refine Ext.ite (fun _ => ?_) (fun _ => ?_) | refine Ext.ite_ans (fun _ => ?_) (fun _ => ?_) | refine Ext.done ?_
    | dsimp only | split | fail_if_no_progress (refine Ext.mk_of ?_)

theorem keep_nvLogRead {F : Area → Bool} {s0 : State} (first : Nat) (count : Nat) (r : Req) (s : State) (hk : Only F [.out]) (hx : Ext F s0 s) :
    Ext F s0 (ansSt (nvLogRead first count r s)) := by
  unfold nvLogRead
  repeat' with_reducible first
    | assumption | exact Only.sub hk (by decide) | apply keep_dmaOut | refine Ext.done ?_ | dsimp only | intro _

end Sys2Proof.Laws
end

