-- ==== Sys2Proof/Laws/KeepBoot.lean ====
section
/-!
SUPPORT. The operations of Machine/Boot.lean keep the relation Ext.
-/

set_option Elab.async false

namespace Sys2Proof.Laws

open Sys2Proof.Machine

set_option linter.unusedTactic false
set_option linter.unreachableTactic false
set_option maxRecDepth 2000

theorem keep_State_setDramHold {F : Area → Bool} {s0 : State} (s : State) (v : Bool) (hk : Only F [.pwr, .out]) (hx : Ext F s0 s) :
    Ext F s0 (State.setDramHold s v) := by
  unfold State.setDramHold
  repeat' with_reducible first
    | assumption | exact Only.sub hk (by decide) | apply keep_State_emit | refine Ext.ite (fun _ => ?_) (fun _ => ?_)
    | dsimp only | fail_if_no_progress (refine Ext.mk_of ?_) | split

theorem keep_State_dramLost {F : Area → Bool} {s0 : State} (s : State) (hk : Only F [.mem, .dmc]) (hx : Ext F s0 s) :
    Ext F s0 (State.dramLost s) := by
  unfold State.dramLost
  exact hx.mk_tabs id (tabWf_clear _ _ _ _)

theorem keep_State_setBoot {F : Area → Bool} {s0 : State} (s : State) (b : BootSt) (hk : Only F [.pwr]) (hx : Ext F s0 s) :
    Ext F s0 (State.setBoot s b) := by
  unfold State.setBoot
  repeat' with_reducible first
    | assumption | exact Only.sub hk (by decide) | dsimp only | fail_if_no_progress (refine Ext.mk_of ?_)

theorem keep_State_freezeTakes {F : Area → Bool} {s0 : State} (s : State) (hk : Only F [.lnd]) (hx : Ext F s0 s) :
    Ext F s0 (State.freezeTakes s) := by
  unfold State.freezeTakes
  repeat' with_reducible first
    | assumption | exact Only.sub hk (by decide) | apply keep_State_setSlotT | refine Ext.foldl (fun _ _ _ => ?_) ?_
    | refine Ext.foldl_pair (fun _ _ _ => ?_) ?_ | refine Ext.foldl_triple (fun _ _ _ => ?_) ?_ | dsimp only
    | fail_if_no_progress (refine Ext.mk_of ?_) | intro _

theorem keep_State_slotsFromNv {F : Area → Bool} {s0 : State} (s : State) (hk : Only F [.regs, .lnd]) (hx : Ext F s0 s) :
    Ext F s0 (State.slotsFromNv s) := by
  unfold State.slotsFromNv
  repeat' with_reducible first
    | assumption | exact Only.sub hk (by decide) | apply keep_State_setSlotSt | apply keep_State_setSlotT
    | apply keep_State_wr | refine Ext.foldl (fun _ _ _ => ?_) ?_ | refine Ext.foldl_pair (fun _ _ _ => ?_) ?_
    | refine Ext.foldl_triple (fun _ _ _ => ?_) ?_ | refine Ext.of_pair (by assumption) ?_
    | refine Ext.of_triple (by assumption) ?_ | refine Ext.of_done (by assumption) ?_
    | refine Ext.of_wait (by assumption) ?_ | refine Ext.ite (fun _ => ?_) (fun _ => ?_) | dsimp only
    | fail_if_no_progress (refine Ext.mk_of ?_) | split | intro _

theorem keep_State_bootSlots {F : Area → Bool} {s0 : State} (s : State) (keep : Bool) (hk : Only F [.regs, .nv, .allocs, .lnd, .nvHeld]) (hx : Ext F s0 s) :
    Ext F s0 (State.bootSlots s keep) := by
  unfold State.bootSlots
  repeat' with_reducible first
    | assumption | exact Only.sub hk (by decide) | apply keep_State_finalise | apply keep_State_toIdle
    | apply keep_State_freeStore | apply keep_State_setSlotT | apply keep_State_nvUpdate
    | refine Ext.foldl (fun _ _ _ => ?_) ?_ | refine Ext.foldl_pair (fun _ _ _ => ?_) ?_
    | refine Ext.foldl_triple (fun _ _ _ => ?_) ?_ | refine Ext.ite (fun _ => ?_) (fun _ => ?_) | dsimp only
    | fail_if_no_progress (refine Ext.mk_of ?_) | split | intro _

theorem keep_State_retentionRecord {F : Area → Bool} {s0 : State} (s : State) (hk : Only F [.regs, .nv, .evt, .rc]) (hx : Ext F s0 s) :
    Ext F s0 (State.retentionRecord s) := by
  unfold State.retentionRecord
  repeat' with_reducible first
    | assumption | exact Only.sub hk (by decide) | apply keep_State_logRecord
    | refine Ext.ite (fun _ => ?_) (fun _ => ?_) | dsimp only | split

theorem keep_State_bootStep1 {F : Area → Bool} {s0 : State} (s : State) (hk : Only F [.regs, .nv, .allocs, .lnd, .pwr, .nvHeld]) (hx : Ext F s0 s) :
    Ext F s0 (State.bootStep1 s) := by
  unfold State.bootStep1
  repeat' with_reducible first
    | assumption | exact Only.sub hk (by decide) | apply keep_State_bootSlots | apply keep_State_slotsFromNv
    | apply keep_State_setBoot | apply keep_State_setMarker | apply keep_State_wrF | apply keep_State_wr
    | refine Ext.of_pair (by assumption) ?_ | refine Ext.of_triple (by assumption) ?_
    | refine Ext.of_done (by assumption) ?_ | refine Ext.of_wait (by assumption) ?_
    | refine Ext.ite (fun _ => ?_) (fun _ => ?_) | dsimp only | fail_if_no_progress (refine Ext.mk_of ?_) | split

theorem keep_State_spdReady {F : Area → Bool} {s0 : State} (s : State) (hk : Only F [.regs]) (hx : Ext F s0 s) :
    Ext F s0 (State.spdReady s) := by
  unfold State.spdReady
  repeat' with_reducible first
    | assumption | exact Only.sub hk (by decide) | apply keep_State_wr | refine Ext.foldl (fun _ _ _ => ?_) ?_
    | refine Ext.foldl_pair (fun _ _ _ => ?_) ?_ | refine Ext.foldl_triple (fun _ _ _ => ?_) ?_ | dsimp only | intro _

theorem keep_State_imageStat {F : Area → Bool} {s0 : State} (s : State) (k : Nat) (fallback : Bool) (c : ImgCtl) (hk : Only F [.regs]) (hx : Ext F s0 s) :
    Ext F s0 (State.imageStat s k fallback c) := by
  unfold State.imageStat
  repeat' with_reducible first
    | assumption | exact Only.sub hk (by decide) | apply keep_State_wrF | dsimp only

theorem keep_State_setTrained {F : Area → Bool} {s0 : State} (s : State) (c : Nat) (v : BitVec 56) (hk : Only F [.dmc]) (hx : Ext F s0 s) :
    Ext F s0 (State.setTrained s c v) := by
  unfold State.setTrained
  repeat' with_reducible first
    | assumption | exact Only.sub hk (by decide) | dsimp only | fail_if_no_progress (refine Ext.mk_of ?_) | intro _

theorem keep_State_trainFull {F : Area → Bool} {s0 : State} (s : State) (c : Nat) (hk : Only F [.dmc, .free]) (hx : Ext F s0 s) :
    Ext F s0 (State.trainFull s c) := by
  unfold State.trainFull
  repeat' with_reducible first
    | assumption | exact Only.sub hk (by decide) | apply keep_State_setTrained | apply keep_State_fresh
    | refine Ext.of_pair (by assumption) ?_ | refine Ext.of_triple (by assumption) ?_
    | refine Ext.of_done (by assumption) ?_ | refine Ext.of_wait (by assumption) ?_ | dsimp only | split

theorem keep_State_putTraining {F : Area → Bool} {s0 : State} (s : State) (hk : Only F [.nv, .nvHeld]) (hx : Ext F s0 s) :
    Ext F s0 (State.putTraining s) := by
  unfold State.putTraining
  repeat' with_reducible first
    | assumption | exact Only.sub hk (by decide) | apply keep_State_putRecord2 | dsimp only | intro _

theorem keep_State_fastRestore {F : Area → Bool} {s0 : State} (s : State) (hk : Only F [.dmc]) (hx : Ext F s0 s) :
    Ext F s0 (State.fastRestore s) := by
  unfold State.fastRestore
  repeat' with_reducible first
    | assumption | exact Only.sub hk (by decide) | apply keep_State_setTrained | refine Ext.foldl (fun _ _ _ => ?_) ?_
    | refine Ext.foldl_pair (fun _ _ _ => ?_) ?_ | refine Ext.foldl_triple (fun _ _ _ => ?_) ?_
    | refine Ext.of_pair (by assumption) ?_ | refine Ext.of_triple (by assumption) ?_
    | refine Ext.of_done (by assumption) ?_ | refine Ext.of_wait (by assumption) ?_ | dsimp only | split | intro _

theorem keep_State_readDensity {F : Area → Bool} {s0 : State} (s : State) (hk : Only F [.regs]) (hx : Ext F s0 s) :
    Ext F s0 (State.readDensity s) := by
  unfold State.readDensity
  repeat' with_reducible first
    | assumption | exact Only.sub hk (by decide) | apply keep_State_wrF | refine Ext.of_pair (by assumption) ?_
    | refine Ext.of_triple (by assumption) ?_ | refine Ext.of_done (by assumption) ?_
    | refine Ext.of_wait (by assumption) ?_ | dsimp only | split

theorem keep_State_train {F : Area → Bool} {s0 : State} (s : State) (trainFail : List (Fin 32)) (fastFail : List (Fin 32)) (hk : Only F [.regs, .nv, .dmc, .nvHeld, .free]) (hx : Ext F s0 s) :
    Ext F s0 (State.train s trainFail fastFail).2 := by
  unfold State.train
  repeat' with_reducible first
    | assumption | exact Only.sub hk (by decide) | apply keep_State_fastRestore | apply keep_State_putTraining
    | apply keep_State_trainFull | apply keep_State_wrF | refine Ext.foldl (fun _ _ _ => ?_) ?_
    | refine Ext.foldl_pair (fun _ _ _ => ?_) ?_ | refine Ext.foldl_triple (fun _ _ _ => ?_) ?_
    | refine Ext.ite (fun _ => ?_) (fun _ => ?_) | refine Ext.ite_pair (fun _ => ?_) (fun _ => ?_) | dsimp only
    | split | fail_if_no_progress (refine Ext.mk_of ?_) | intro _

theorem keep_State_trainFaults {F : Area → Bool} {s0 : State} (s : State) (bad : List Nat) (step : Nat) (hk : Only F [.regs, .nv, .mbx, .evt, .items, .pwr, .out, .rc]) (hx : Ext F s0 s) :
    Ext F s0 (State.trainFaults s bad step) := by
  unfold State.trainFaults
  repeat' with_reducible first
    | assumption | exact Only.sub hk (by decide) | apply keep_State_fault | refine Ext.foldl (fun _ _ _ => ?_) ?_
    | refine Ext.foldl_pair (fun _ _ _ => ?_) ?_ | refine Ext.foldl_triple (fun _ _ _ => ?_) ?_ | dsimp only | intro _

theorem keep_State_factory {F : Area → Bool} {s0 : State} (s : State) (hk : Only F [.regs]) (hx : Ext F s0 s) :
    Ext F s0 (State.factory s) := by
  unfold State.factory
  repeat' with_reducible first
    | assumption | exact Only.sub hk (by decide) | apply keep_State_wrs | apply keep_State_regClear | dsimp only
    | intro _

theorem keep_State_load1 {F : Area → Bool} {s0 : State} (s : State) (e : Nat × Word) (hk : Only F [.regs]) (hx : Ext F s0 s) :
    Ext F s0 (State.load1 s e).2 := by
  unfold State.load1
  repeat' with_reducible first
    | assumption | exact Only.sub hk (by decide) | apply keep_State_wr | refine Ext.ite (fun _ => ?_) (fun _ => ?_)
    | refine Ext.ite_pair (fun _ => ?_) (fun _ => ?_) | dsimp only | split

theorem keep_loadNext {F : Area → Bool} {s0 : State} (k : Nat) (acc : Nat × State) (i : Nat) (hk : Only F [.regs]) (hx : Ext F s0 acc.2) :
    Ext F s0 (loadNext k acc i).2 := by
  unfold loadNext
  have h := keep_State_load1 acc.2 (acc.2.imgEntry k i) (Only.sub hk (by decide)) hx
  generalize acc.2.load1 (acc.2.imgEntry k i) = q at h ⊢
  obtain ⟨skip, s⟩ := q
  exact h

theorem keep_State_loadSection {F : Area → Bool} {s0 : State} (s : State) (k : Nat) (n : Nat) (hk : Only F [.regs]) (hx : Ext F s0 s) :
    Ext F s0 (State.loadSection s k n).2 := by
  unfold State.loadSection
  exact Ext.foldl_pair (fun p x h => keep_loadNext k p x (Only.sub hk (by decide)) h) hx

theorem keep_State_ctxStates {F : Area → Bool} {s0 : State} (s : State) (hk : Only F [.regs]) (hx : Ext F s0 s) :
    Ext F s0 (State.ctxStates s) := by
  unfold State.ctxStates
  repeat' with_reducible first
    | assumption | exact Only.sub hk (by decide) | apply keep_State_setCtxState
    | refine Ext.foldl (fun _ _ _ => ?_) ?_ | refine Ext.foldl_pair (fun _ _ _ => ?_) ?_
    | refine Ext.foldl_triple (fun _ _ _ => ?_) ?_ | refine Ext.ite (fun _ => ?_) (fun _ => ?_) | dsimp only | split
    | intro _

theorem keep_State_firstSparse {F : Area → Bool} {s0 : State} (s : State) (hk : Only F [.ing]) (hx : Ext F s0 s) :
    Ext F s0 (State.firstSparse s) := by
  unfold State.firstSparse
  repeat' with_reducible first
    | assumption | exact Only.sub hk (by decide) | dsimp only | fail_if_no_progress (refine Ext.mk_of ?_)

theorem keep_State_loadEpoch0 {F : Area → Bool} {s0 : State} (s : State) (k : Nat) (hk : Only F [.regs, .mbx, .evt, .ing, .mon, .tim, .aud, .out, .rc]) (hx : Ext F s0 s) :
    Ext F s0 (State.loadEpoch0 s k).2 := by
  unfold State.loadEpoch0
  repeat' with_reducible first
    | assumption | exact Only.sub hk (by decide) | apply keep_State_firstSparse | apply keep_State_ctxStates
    | apply keep_State_loadSection | apply keep_State_factory | apply keep_State_adopt | apply keep_State_ctxCounts
    | apply keep_State_usedAll | refine Ext.of_pair (by assumption) ?_ | refine Ext.of_triple (by assumption) ?_
    | refine Ext.of_done (by assumption) ?_ | refine Ext.of_wait (by assumption) ?_ | dsimp only | split | intro _

theorem keep_State_linkTrain {F : Area → Bool} {s0 : State} (s : State) (hk : Only F [.regs, .free]) (hx : Ext F s0 s) :
    Ext F s0 (State.linkTrain s) := by
  unfold State.linkTrain
  repeat' with_reducible first
    | assumption | exact Only.sub hk (by decide) | apply keep_State_fresh | apply keep_State_wr
    | refine Ext.of_pair (by assumption) ?_ | refine Ext.of_triple (by assumption) ?_
    | refine Ext.of_done (by assumption) ?_ | refine Ext.of_wait (by assumption) ?_ | dsimp only | split

theorem keep_State_completeHeld {F : Area → Bool} {s0 : State} (s : State) (hk : Only F [.regs, .nv, .mbx, .evt, .lnd, .nvHeld, .out, .rc]) (hx : Ext F s0 s) :
    Ext F s0 (State.completeHeld s) := by
  unfold State.completeHeld
  repeat' with_reducible first
    | assumption | exact Only.sub hk (by decide) | apply keep_State_entryWritten | apply keep_State_nvFlush
    | apply keep_State_logFlush | refine Ext.foldl (fun _ _ _ => ?_) ?_ | refine Ext.foldl_pair (fun _ _ _ => ?_) ?_
    | refine Ext.foldl_triple (fun _ _ _ => ?_) ?_ | refine Ext.ite (fun _ => ?_) (fun _ => ?_) | dsimp only | split
    | intro _

theorem keep_State_copyThermal {F : Area → Bool} {s0 : State} (s : State) (hk : Only F [.regs, .nv, .evt, .pwr, .nvHeld, .rc]) (hx : Ext F s0 s) :
    Ext F s0 (State.copyThermal s) := by
  unfold State.copyThermal
  repeat' with_reducible first
    | assumption | exact Only.sub hk (by decide) | apply keep_State_setMarker | apply keep_State_logRecord
    | apply keep_State_wrF | refine Ext.of_pair (by assumption) ?_ | refine Ext.of_triple (by assumption) ?_
    | refine Ext.of_done (by assumption) ?_ | refine Ext.of_wait (by assumption) ?_
    | refine Ext.ite (fun _ => ?_) (fun _ => ?_) | dsimp only | fail_if_no_progress (refine Ext.mk_of ?_) | split

theorem keep_State_bootRecord {F : Area → Bool} {s0 : State} (s : State) (cause : Nat) (skipped : Nat) (hk : Only F [.regs, .nv, .evt, .rc]) (hx : Ext F s0 s) :
    Ext F s0 (State.bootRecord s cause skipped) := by
  unfold State.bootRecord
  repeat' with_reducible first
    | assumption | exact Only.sub hk (by decide) | apply keep_State_logRecord | apply keep_State_wrF | dsimp only

theorem keep_State_enterCamp {F : Area → Bool} {s0 : State} (s : State) (kept : Bool) (hk : Only F [.regs, .mem, .nv, .mbx, .evt, .dmc, .pwr, .nvHeld, .free, .out, .rc]) (hx : Ext F s0 s) :
    Ext F s0 (State.enterCamp s kept) := by
  unfold State.enterCamp
  repeat' with_reducible first
    | assumption | exact Only.sub hk (by decide) | apply keep_State_linkTrain | apply keep_State_setBoot
    | apply keep_State_dramLost | apply keep_State_setReady | apply keep_State_setConsecAs | apply keep_State_intSet
    | apply keep_State_logRecord | apply keep_State_wrF | apply keep_State_wr | refine Ext.foldl (fun _ _ _ => ?_) ?_
    | refine Ext.foldl_pair (fun _ _ _ => ?_) ?_ | refine Ext.foldl_triple (fun _ _ _ => ?_) ?_
    | refine Ext.ite (fun _ => ?_) (fun _ => ?_) | dsimp only | fail_if_no_progress (refine Ext.mk_of ?_) | split
    | intro _

theorem keep_State_bootFails {F : Area → Bool} {s0 : State} (s : State) (cause : Nat) (old : Nat) (hk : Only F [.regs, .nv, .evt, .pwr, .nvHeld, .rc]) (hx : Ext F s0 s) :
    Ext F s0 (State.bootFails s cause old) := by
  unfold State.bootFails
  repeat' with_reducible first
    | assumption | exact Only.sub hk (by decide) | apply keep_State_bootRecord | apply keep_State_setBoot
    | apply keep_State_setConsecAs | dsimp only | fail_if_no_progress (refine Ext.mk_of ?_)

theorem keep_bootServe {F : Area → Bool} {s0 : State} (k old : Nat) (x : Nat × State) (hk : Only F [.regs, .nv, .mbx, .evt, .pwr, .free, .out, .rc]) (hx : Ext F s0 x.2) : Ext F s0 (bootServe k old x) := by
  unfold bootServe
  dsimp only
  have h := keep_State_linkTrain _ (Only.sub hk (by decide)) (keep_State_bootRecord x.2 old x.1 (Only.sub hk (by decide)) hx)
  have h2 : ∀ b : BootSt, Ext F s0 ((List.range 64).foldl (fun s p => if s.enabled p then s.setReady p true else s)
      ((x.2.bootRecord old x.1).linkTrain.setBoot b)) := fun b =>
    Ext.foldl (fun s p hs => Ext.ite (fun _ => keep_State_setReady s p true (Only.sub hk (by decide)) hs) (fun _ => hs)) (keep_State_setBoot _ b (Only.sub hk (by decide)) h)
  exact Ext.ite (fun _ => h2 _) (fun _ => keep_State_raise _ _ _ _ _ _ (Only.sub hk (by decide)) (h2 _))

theorem keep_State_bootStep5 {F : Area → Bool} {s0 : State} (s : State) (k : Nat) (old : Nat) (hk : Only F [.regs, .nv, .mbx, .evt, .ing, .lnd, .mon, .tim, .aud, .pwr, .nvHeld, .free, .out, .rc]) (hx : Ext F s0 s) :
    Ext F s0 (State.bootStep5 s k old) := by
  unfold State.bootStep5
  refine keep_bootServe _ _ _ (Only.sub hk (by decide)) ?_
  refine keep_State_loadEpoch0 _ _ (Only.sub hk (by decide)) ?_
  refine keep_State_chuteBoot _ (Only.sub hk (by decide)) ?_
  refine keep_State_copyThermal _ (Only.sub hk (by decide)) ?_
  refine keep_State_completeHeld _ (Only.sub hk (by decide)) ?_
  exact hx

theorem keep_State_bootSteps {F : Area → Bool} {s0 : State} (s : State) (trainFail : List (Fin 32)) (fastFail : List (Fin 32)) (step : Nat) (ready : Bool) (told : Bool) (kept : Bool) (hk : Only F [.regs, .mem, .nv, .mbx, .evt, .ep, .resets, .lnk, .ing, .bkc, .items, .rings, .allocs, .cpl, .crs, .lnd, .vcd, .mon, .tim, .aud, .cbs, .dmc, .chutes, .pwr, .nvHeld, .free, .out, .spd, .rc, .epoch]) (hx : Ext F s0 s) :
    Ext F s0 (State.bootSteps s trainFail fastFail step ready told kept) := by
  unfold State.bootSteps
  repeat' with_reducible first
    | assumption | exact Only.sub hk (by decide) | apply keep_State_bootStep5 | apply keep_State_bootFails
    | apply keep_State_enterCamp | apply keep_State_bootRecord | apply keep_State_trainFaults | apply keep_State_train
    | apply keep_State_readDensity | apply keep_State_imageStat | apply keep_State_retentionRecord
    | apply keep_State_setBoot | apply keep_State_setDramHold | apply keep_State_coldStart | apply keep_State_quota0
    | apply keep_State_setConsecAs | apply keep_State_setImgCtl | apply keep_State_bump | apply keep_State_wrF
    | refine Ext.of_pair (by assumption) ?_ | refine Ext.of_triple (by assumption) ?_
    | refine Ext.of_done (by assumption) ?_ | refine Ext.of_wait (by assumption) ?_
    | refine Ext.ite (fun _ => ?_) (fun _ => ?_) | dsimp only | fail_if_no_progress (refine Ext.mk_of ?_) | split

end Sys2Proof.Laws
end

