-- ==== Sys2Proof/Laws/KeepThermal.lean ====
section
/-!
SUPPORT. The operations of Machine/Thermal.lean keep the relation Ext.
-/

set_option Elab.async false

namespace Sys2Proof.Laws

open Sys2Proof.Machine

set_option linter.unusedTactic false
set_option linter.unreachableTactic false
set_option maxRecDepth 2000

theorem keep_State_aonEvent {F : Area → Bool} {s0 : State} (s : State) (code : Nat) (arg : Nat) (hk : Only F [.regs, .mbx, .evt, .out, .rc]) (hx : Ext F s0 s) :
    Ext F s0 (State.aonEvent s code arg) := by
  unfold State.aonEvent
  repeat' with_reducible first
    | assumption | exact Only.sub hk (by decide) | apply keep_State_raise | refine Ext.ite (fun _ => ?_) (fun _ => ?_)
    | dsimp only | split

theorem keep_State_driveThermN {F : Area → Bool} {s0 : State} (s : State) (was : Bool) (hk : Only F [.out]) (hx : Ext F s0 s) :
    Ext F s0 (State.driveThermN s was) := by
  unfold State.driveThermN
  repeat' with_reducible first
    | assumption | exact Only.sub hk (by decide) | apply keep_State_emit | refine Ext.ite (fun _ => ?_) (fun _ => ?_)
    | dsimp only | split

theorem keep_State_setThm {F : Area → Bool} {s0 : State} (s : State) (t : ThmSt) (hk : Only F [.pwr]) (hx : Ext F s0 s) :
    Ext F s0 (State.setThm s t) := by
  unfold State.setThm
  repeat' with_reducible first
    | assumption | exact Only.sub hk (by decide) | dsimp only | fail_if_no_progress (refine Ext.mk_of ?_)

theorem keep_State_shutdown {F : Area → Bool} {s0 : State} (s : State) (cause : Nat) (hk : Only F [.regs, .mem, .nv, .mbx, .evt, .ep, .resets, .lnk, .ing, .bkc, .items, .rings, .allocs, .cpl, .crs, .lnd, .vcd, .mon, .tim, .aud, .cbs, .dmc, .chutes, .pwr, .nvHeld, .out, .spd, .rc, .epoch]) (hx : Ext F s0 s) :
    Ext F s0 (State.shutdown s cause) := by
  unfold State.shutdown
  repeat' with_reducible first
    | assumption | exact Only.sub hk (by decide) | apply keep_State_setThm | apply keep_State_freezeTakes
    | apply keep_State_setBoot | apply keep_State_wipe | apply keep_State_attemptEnds | apply keep_State_wrF
    | dsimp only | fail_if_no_progress (refine Ext.mk_of ?_) | intro _

theorem keep_State_rearm {F : Area → Bool} {s0 : State} (s : State) (hk : Only F [.regs, .mem, .mbx, .evt, .ep, .resets, .lnk, .ing, .bkc, .items, .rings, .allocs, .cpl, .crs, .lnd, .vcd, .mon, .tim, .aud, .cbs, .dmc, .chutes, .pwr, .out, .spd, .rc, .epoch]) (hx : Ext F s0 s) :
    Ext F s0 (State.rearm s) := by
  unfold State.rearm
  repeat' with_reducible first
    | assumption | exact Only.sub hk (by decide) | apply keep_State_setThm | apply keep_State_coldStart
    | apply keep_State_hold | refine Ext.ite (fun _ => ?_) (fun _ => ?_) | dsimp only
    | fail_if_no_progress (refine Ext.mk_of ?_) | split

theorem keep_State_thmWarn {F : Area → Bool} {s0 : State} (s : State) (t : Int) (hk : Only F [.regs, .mbx, .evt, .out, .rc]) (hx : Ext F s0 s) :
    Ext F s0 (State.thmWarn s t) := by
  unfold State.thmWarn
  repeat' with_reducible first
    | assumption | exact Only.sub hk (by decide) | apply keep_State_aonEvent | apply keep_State_wrF
    | refine Ext.ite (fun _ => ?_) (fun _ => ?_) | dsimp only | split

theorem keep_State_thmRate {F : Area → Bool} {s0 : State} (s : State) (hk : Only F [.regs, .mbx, .evt, .pwr, .out, .rc]) (hx : Ext F s0 s) :
    Ext F s0 (State.thmRate s) := by
  unfold State.thmRate
  repeat' with_reducible first
    | assumption | exact Only.sub hk (by decide) | apply keep_State_setThm | apply keep_State_aonEvent
    | apply keep_State_bump | apply keep_State_wrF | refine Ext.ite (fun _ => ?_) (fun _ => ?_) | dsimp only
    | fail_if_no_progress (refine Ext.mk_of ?_) | split

theorem keep_State_thmThrottle {F : Area → Bool} {s0 : State} (s : State) (t : Int) (hk : Only F [.regs, .mbx, .evt, .pwr, .out, .rc]) (hx : Ext F s0 s) :
    Ext F s0 (State.thmThrottle s t) := by
  unfold State.thmThrottle
  repeat' with_reducible first
    | assumption | exact Only.sub hk (by decide) | apply keep_State_setThm | apply keep_State_aonEvent
    | apply keep_State_bump | apply keep_State_wrF | refine Ext.ite (fun _ => ?_) (fun _ => ?_) | dsimp only
    | fail_if_no_progress (refine Ext.mk_of ?_) | split

theorem keep_State_thmMarker {F : Area → Bool} {s0 : State} (s : State) (t : Int) (hk : Only F [.regs, .nv, .nvHeld]) (hx : Ext F s0 s) :
    Ext F s0 (State.thmMarker s t) := by
  unfold State.thmMarker
  repeat' with_reducible first
    | assumption | exact Only.sub hk (by decide) | apply keep_State_setMarker | apply keep_State_wrF
    | refine Ext.ite (fun _ => ?_) (fun _ => ?_) | dsimp only | split | intro _

theorem keep_State_thmValid {F : Area → Bool} {s0 : State} (s : State) (t : Int) (hk : Only F [.regs, .mem, .nv, .mbx, .evt, .ep, .resets, .lnk, .ing, .bkc, .items, .rings, .allocs, .cpl, .crs, .lnd, .vcd, .mon, .tim, .aud, .cbs, .dmc, .chutes, .pwr, .nvHeld, .out, .spd, .rc, .epoch]) (hx : Ext F s0 s) :
    Ext F s0 (State.thmValid s t) := by
  unfold State.thmValid
  repeat' with_reducible first
    | assumption | exact Only.sub hk (by decide) | apply keep_State_thmMarker | apply keep_State_thmThrottle
    | apply keep_State_thmRate | apply keep_State_thmWarn | apply keep_State_rearm | apply keep_State_shutdown
    | apply keep_State_setThm | apply keep_State_driveThermN | apply keep_State_wrF | apply keep_State_wr
    | refine Ext.of_pair (by assumption) ?_ | refine Ext.of_triple (by assumption) ?_
    | refine Ext.of_done (by assumption) ?_ | refine Ext.of_wait (by assumption) ?_
    | refine Ext.ite (fun _ => ?_) (fun _ => ?_) | dsimp only | fail_if_no_progress (refine Ext.mk_of ?_) | split

theorem keep_State_thmFail {F : Area → Bool} {s0 : State} (s : State) (raw : Word) (hk : Only F [.regs, .mem, .nv, .mbx, .evt, .ep, .resets, .lnk, .ing, .bkc, .items, .rings, .allocs, .cpl, .crs, .lnd, .vcd, .mon, .tim, .aud, .cbs, .dmc, .chutes, .pwr, .nvHeld, .out, .spd, .rc, .epoch]) (hx : Ext F s0 s) :
    Ext F s0 (State.thmFail s raw) := by
  unfold State.thmFail
  repeat' with_reducible first
    | assumption | exact Only.sub hk (by decide) | apply keep_State_setThm | apply keep_State_warmReset
    | apply keep_State_fault | refine Ext.ite (fun _ => ?_) (fun _ => ?_) | dsimp only
    | fail_if_no_progress (refine Ext.mk_of ?_) | split

theorem keep_State_bakSample {F : Area → Bool} {s0 : State} (s : State) (mv : Nat) (hk : Only F [.regs, .mbx, .evt, .pwr, .out, .rc]) (hx : Ext F s0 s) :
    Ext F s0 (State.bakSample s mv) := by
  unfold State.bakSample
  repeat' with_reducible first
    | assumption | exact Only.sub hk (by decide) | apply keep_State_aonEvent | apply keep_State_emit
    | apply keep_State_wr | refine Ext.ite (fun _ => ?_) (fun _ => ?_) | dsimp only
    | fail_if_no_progress (refine Ext.mk_of ?_) | split

theorem keep_thermalRead {F : Area → Bool} {s0 : State} (u0 : Req) (s : State)  (hx : Ext F s0 s) :
    Ext F s0 (ansSt (thermalRead u0 s)) := by
  unfold thermalRead
  repeat' with_reducible first
    | assumption | refine Ext.done ?_ | dsimp only

end Sys2Proof.Laws
end

