-- ==== Sys2Proof/Laws/KeepPower.lean ====
section
/-!
SUPPORT. The operations of Machine/Power.lean keep the relation Ext.
-/

set_option Elab.async false

namespace Sys2Proof.Laws

open Sys2Proof.Machine

set_option linter.unusedTactic false
set_option linter.unreachableTactic false
set_option maxRecDepth 2000

theorem keep_State_pcieReset {F : Area → Bool} {s0 : State} (s : State) (hk : Only F [.mbx]) (hx : Ext F s0 s) :
    Ext F s0 (State.pcieReset s) := by
  unfold State.pcieReset
  repeat' with_reducible first
    | assumption | exact Only.sub hk (by decide) | dsimp only | fail_if_no_progress (refine Ext.mk_of ?_)

theorem keep_State_lanesOff {F : Area → Bool} {s0 : State} (s : State) (hk : Only F [.regs]) (hx : Ext F s0 s) :
    Ext F s0 (State.lanesOff s) := by
  unfold State.lanesOff
  repeat' with_reducible first
    | assumption | exact Only.sub hk (by decide) | apply keep_State_setLane | refine Ext.foldl (fun _ _ _ => ?_) ?_
    | refine Ext.foldl_pair (fun _ _ _ => ?_) ?_ | refine Ext.foldl_triple (fun _ _ _ => ?_) ?_ | dsimp only | intro _

theorem keep_State_enterP2 {F : Area → Bool} {s0 : State} (s : State) (hk : Only F [.regs, .nv, .mbx, .evt, .items, .rings, .cpl, .lnd, .tim, .cbs, .dmc, .pwr, .out, .spd, .rc]) (hx : Ext F s0 s) :
    Ext F s0 (State.enterP2 s) := by
  unfold State.enterP2
  repeat' with_reducible first
    | assumption | exact Only.sub hk (by decide) | apply keep_State_lanesOff | apply keep_State_pcieReset
    | apply keep_State_mbxDown | apply keep_State_padsOff | apply keep_State_setPower | apply keep_State_stopRing
    | apply keep_State_wr | refine Ext.foldl (fun _ _ _ => ?_) ?_ | refine Ext.foldl_pair (fun _ _ _ => ?_) ?_
    | refine Ext.foldl_triple (fun _ _ _ => ?_) ?_ | dsimp only | fail_if_no_progress (refine Ext.mk_of ?_) | intro _

theorem keep_State_wakeP2 {F : Area → Bool} {s0 : State} (s : State) (hk : Only F [.time, .regs, .mem, .nv, .mbx, .evt, .ep, .resets, .lnk, .ing, .bkc, .items, .rings, .allocs, .cpl, .crs, .lnd, .vcd, .mon, .tim, .aud, .cbs, .dmc, .chutes, .pwr, .nvHeld, .free, .out, .spd, .rc, .epoch]) (hx : Ext F s0 s) :
    Ext F s0 (State.wakeP2 s) := by
  unfold State.wakeP2
  repeat' with_reducible first
    | assumption | exact Only.sub hk (by decide) | apply keep_State_linkTrain | apply keep_State_trainFaults
    | apply keep_State_train | apply keep_State_warmReset | apply keep_State_mbxUp | apply keep_State_gpioBoundary
    | apply keep_State_strobeBoundary | apply keep_State_resumeTime | apply keep_State_setPower
    | apply keep_State_ethStart | apply keep_State_fresh | refine Ext.foldl (fun _ _ _ => ?_) ?_
    | refine Ext.foldl_pair (fun _ _ _ => ?_) ?_ | refine Ext.foldl_triple (fun _ _ _ => ?_) ?_
    | refine Ext.of_pair (by assumption) ?_ | refine Ext.of_triple (by assumption) ?_
    | refine Ext.of_done (by assumption) ?_ | refine Ext.of_wait (by assumption) ?_
    | refine Ext.ite (fun _ => ?_) (fun _ => ?_) | dsimp only | fail_if_no_progress (refine Ext.mk_of ?_) | split
    | intro _

theorem keep_State_enterP3 {F : Area → Bool} {s0 : State} (s : State) (good : Bool) (hk : Only F [.regs, .mem, .nv, .mbx, .evt, .ep, .resets, .lnk, .ing, .bkc, .items, .rings, .allocs, .cpl, .crs, .lnd, .vcd, .mon, .tim, .aud, .cbs, .dmc, .chutes, .pwr, .nvHeld, .out, .spd, .rc, .epoch]) (hx : Ext F s0 s) :
    Ext F s0 (State.enterP3 s good) := by
  unfold State.enterP3
  repeat' with_reducible first
    | assumption | exact Only.sub hk (by decide) | apply keep_State_freezeTakes | apply keep_State_setBoot
    | apply keep_State_setDramHold | apply keep_State_wipe | apply keep_State_attemptEnds | apply keep_State_wrF
    | refine Ext.ite (fun _ => ?_) (fun _ => ?_) | dsimp only | fail_if_no_progress (refine Ext.mk_of ?_) | split
    | intro _

theorem keep_State_p3Due {F : Area → Bool} {s0 : State} (s : State) (hk : Only F [.regs, .mem, .nv, .mbx, .evt, .ep, .resets, .lnk, .ing, .bkc, .items, .rings, .allocs, .cpl, .crs, .lnd, .vcd, .mon, .tim, .aud, .cbs, .dmc, .chutes, .pwr, .nvHeld, .out, .spd, .rc, .epoch]) (hx : Ext F s0 s) :
    Ext F s0 (State.p3Due s) := by
  unfold State.p3Due
  repeat' with_reducible first
    | assumption | exact Only.sub hk (by decide) | apply keep_State_enterP3 | apply keep_State_setPower
    | refine Ext.ite (fun _ => ?_) (fun _ => ?_) | dsimp only | split

theorem keep_State_p2Due {F : Area → Bool} {s0 : State} (s : State) (hk : Only F [.regs, .nv, .mbx, .evt, .items, .rings, .cpl, .lnd, .tim, .cbs, .dmc, .pwr, .out, .spd, .rc]) (hx : Ext F s0 s) :
    Ext F s0 (State.p2Due s) := by
  unfold State.p2Due
  repeat' with_reducible first
    | assumption | exact Only.sub hk (by decide) | apply keep_State_enterP2
    | refine Ext.ite (fun _ => ?_) (fun _ => ?_) | dsimp only | split

theorem keep_powerState {F : Area → Bool} {s0 : State} (r : Req) (s : State) (hk : Only F [.time, .regs, .mbx, .evt, .lnd, .tim, .pwr, .free, .out, .rc]) (hx : Ext F s0 s) :
    Ext F s0 (ansSt (powerState r s)) := by
  unfold powerState
  repeat' with_reducible first
    | assumption | exact Only.sub hk (by decide) | apply keep_State_wakeP1 | apply keep_State_setPower
    | refine Ext.ite (fun _ => ?_) (fun _ => ?_) | refine Ext.ite_ans (fun _ => ?_) (fun _ => ?_) | refine Ext.done ?_
    | dsimp only | split | fail_if_no_progress (refine Ext.mk_of ?_)

theorem keep_State_arbitrate {F : Area → Bool} {s0 : State} (s : State) (good : Bool) (hk : Only F [.mem, .dmc, .pwr, .out]) (hx : Ext F s0 s) :
    Ext F s0 (State.arbitrate s good) := by
  unfold State.arbitrate
  repeat' with_reducible first
    | assumption | exact Only.sub hk (by decide) | apply keep_State_setBoot | apply keep_State_dramLost
    | apply keep_State_setDramHold | refine Ext.ite (fun _ => ?_) (fun _ => ?_) | dsimp only
    | fail_if_no_progress (refine Ext.mk_of ?_) | split

theorem keep_State_retained {F : Area → Bool} {s0 : State} (s : State) (t : Nat) (good : Bool) (hk : Only F [.time, .regs, .mem, .mbx, .evt, .tim, .dmc, .pwr, .free, .out, .rc]) (hx : Ext F s0 s) :
    Ext F s0 (State.retained s t good) := by
  unfold State.retained
  repeat' with_reducible first
    | assumption | exact Only.sub hk (by decide) | apply keep_State_arbitrate | apply keep_State_resumeTime
    | apply keep_State_wrF | apply keep_State_wr | refine Ext.ite (fun _ => ?_) (fun _ => ?_) | dsimp only
    | fail_if_no_progress (refine Ext.mk_of ?_) | split

theorem keep_State_aonDrop {F : Area → Bool} {s0 : State} (s : State) (hk : Only F [.time, .regs, .mem, .mbx, .evt, .ep, .resets, .lnk, .ing, .bkc, .items, .rings, .allocs, .cpl, .crs, .lnd, .vcd, .mon, .tim, .aud, .cbs, .dmc, .chutes, .pwr, .nvHeld, .out, .spd, .rc, .epoch]) (hx : Ext F s0 s) :
    Ext F s0 (State.aonDrop s) := by
  unfold State.aonDrop
  dsimp only
  refine Ext.ite (fun _ => keep_State_emit _ _ (Only.sub hk (by decide)) ?_) (fun _ => ?_)
  · exact keep_State_quota0 _ (Only.sub hk (by decide)) (keep_State_wrs _ _ (Only.sub hk (by decide)) (hx.mk_tabs (fun _ => rfl) (fun _ => rfl)))
  · exact keep_State_quota0 _ (Only.sub hk (by decide)) (keep_State_wrs _ _ (Only.sub hk (by decide)) (hx.mk_tabs (fun _ => rfl) (fun _ => rfl)))

end Sys2Proof.Laws
end

