-- ==== Sys2Proof/Laws/KeepMaint.lean ====
section
/-!
SUPPORT. The operations of Machine/Maint.lean keep the relation Ext.
-/

set_option Elab.async false

namespace Sys2Proof.Laws

open Sys2Proof.Machine

set_option linter.unusedTactic false
set_option linter.unreachableTactic false
set_option maxRecDepth 2000

theorem keep_State_setActs {F : Area → Bool} {s0 : State} (s : State) (l : List Act) (hk : Only F [.pwr]) (hx : Ext F s0 s) :
    Ext F s0 (State.setActs s l) := by
  unfold State.setActs
  repeat' with_reducible first
    | assumption | exact Only.sub hk (by decide) | dsimp only | fail_if_no_progress (refine Ext.mk_of ?_)

theorem keep_State_putAct {F : Area → Bool} {s0 : State} (s : State) (a : Act) (hk : Only F [.pwr]) (hx : Ext F s0 s) :
    Ext F s0 (State.putAct s a) := by
  unfold State.putAct
  repeat' with_reducible first
    | assumption | exact Only.sub hk (by decide) | apply keep_State_setActs
    | refine Ext.ite (fun _ => ?_) (fun _ => ?_) | dsimp only | split | intro _

theorem keep_State_actStart {F : Area → Bool} {s0 : State} (s : State) (a : Act) (hk : Only F [.regs, .pwr, .rc]) (hx : Ext F s0 s) :
    Ext F s0 (State.actStart s a) := by
  unfold State.actStart
  repeat' with_reducible first
    | assumption | exact Only.sub hk (by decide) | apply keep_State_setActs | apply keep_State_bump
    | apply keep_State_wrF | refine Ext.of_pair (by assumption) ?_ | refine Ext.of_triple (by assumption) ?_
    | refine Ext.of_done (by assumption) ?_ | refine Ext.of_wait (by assumption) ?_
    | refine Ext.ite (fun _ => ?_) (fun _ => ?_) | dsimp only | fail_if_no_progress (refine Ext.mk_of ?_) | split
    | intro _

theorem keep_State_actEnd {F : Area → Bool} {s0 : State} (s : State) (a : Act) (status : Nat) (hk : Only F [.regs, .mbx, .evt, .pwr, .out, .rc]) (hx : Ext F s0 s) :
    Ext F s0 (State.actEnd s a status) := by
  unfold State.actEnd
  repeat' with_reducible first
    | assumption | exact Only.sub hk (by decide) | apply keep_State_setActs | apply keep_State_finish
    | apply keep_State_raise | apply keep_State_wrF | refine Ext.foldl (fun _ _ _ => ?_) ?_
    | refine Ext.foldl_pair (fun _ _ _ => ?_) ?_ | refine Ext.foldl_triple (fun _ _ _ => ?_) ?_
    | refine Ext.of_pair (by assumption) ?_ | refine Ext.of_triple (by assumption) ?_
    | refine Ext.of_done (by assumption) ?_ | refine Ext.of_wait (by assumption) ?_
    | refine Ext.ite (fun _ => ?_) (fun _ => ?_) | dsimp only | fail_if_no_progress (refine Ext.mk_of ?_) | split
    | intro _

theorem keep_State_actRequest {F : Area → Bool} {s0 : State} (s : State) (a : Act) (hk : Only F [.regs, .pwr, .rc]) (hx : Ext F s0 s) :
    Ext F s0 (State.actRequest s a).1 := by
  unfold State.actRequest
  repeat' with_reducible first
    | assumption | exact Only.sub hk (by decide) | apply keep_State_actStart | apply keep_State_setActs
    | refine Ext.ite (fun _ => ?_) (fun _ => ?_) | dsimp only | split | fail_if_no_progress (refine Ext.mk_of ?_)

theorem keep_maintStart {F : Area → Bool} {s0 : State} (r : Req) (s : State) (hk : Only F [.regs, .pwr, .rc]) (hx : Ext F s0 s) :
    Ext F s0 (ansSt (maintStart r s)) := by
  unfold maintStart
  repeat' with_reducible first
    | assumption | exact Only.sub hk (by decide) | apply keep_State_actRequest | refine Ext.of_pair (by assumption) ?_
    | refine Ext.of_triple (by assumption) ?_ | refine Ext.of_done (by assumption) ?_
    | refine Ext.of_wait (by assumption) ?_ | refine Ext.ite (fun _ => ?_) (fun _ => ?_)
    | refine Ext.ite_ans (fun _ => ?_) (fun _ => ?_) | refine Ext.done ?_ | refine Ext.wait ?_ | dsimp only | split
    | intro _

theorem keep_maintCancel {F : Area → Bool} {s0 : State} (id : Nat) (u1 : Req) (s : State) (hk : Only F [.regs, .mbx, .evt, .pwr, .out, .rc]) (hx : Ext F s0 s) :
    Ext F s0 (ansSt (maintCancel id u1 s)) := by
  unfold maintCancel
  repeat' with_reducible first
    | assumption | exact Only.sub hk (by decide) | apply keep_State_actEnd | apply keep_State_putAct
    | refine Ext.of_pair (by assumption) ?_ | refine Ext.of_triple (by assumption) ?_
    | refine Ext.of_done (by assumption) ?_ | refine Ext.of_wait (by assumption) ?_
    | refine Ext.ite (fun _ => ?_) (fun _ => ?_) | refine Ext.ite_ans (fun _ => ?_) (fun _ => ?_) | refine Ext.done ?_
    | dsimp only | split | fail_if_no_progress (refine Ext.mk_of ?_) | intro _

theorem keep_State_deferStart {F : Area → Bool} {s0 : State} (s : State) (a : Act) (hk : Only F [.regs, .mbx, .evt, .pwr, .out, .rc]) (hx : Ext F s0 s) :
    Ext F s0 (State.deferStart s a) := by
  unfold State.deferStart
  repeat' with_reducible first
    | assumption | exact Only.sub hk (by decide) | apply keep_State_actEnd | apply keep_State_actStart
    | apply keep_State_raise | refine Ext.ite (fun _ => ?_) (fun _ => ?_) | dsimp only | split

theorem keep_State_retrainStop {F : Area → Bool} {s0 : State} (s : State) (a : Act) (hk : Only F [.regs, .nv, .ing, .allocs, .lnd, .dmc, .pwr, .nvHeld]) (hx : Ext F s0 s) :
    Ext F s0 (State.retrainStop s a) := by
  unfold State.retrainStop
  repeat' with_reducible first
    | assumption | exact Only.sub hk (by decide) | apply keep_State_putTraining | apply keep_State_setTrained
    | apply keep_State_armed | apply keep_State_wrF | refine Ext.foldl (fun _ _ _ => ?_) ?_
    | refine Ext.foldl_pair (fun _ _ _ => ?_) ?_ | refine Ext.foldl_triple (fun _ _ _ => ?_) ?_
    | refine Ext.ite (fun _ => ?_) (fun _ => ?_) | dsimp only | split | intro _

theorem keep_State_atStep {F : Area → Bool} {s0 : State} (s : State) (code : Nat) (go : Act → State → State) (hk : Only F [.regs, .nv, .mbx, .evt, .ing, .allocs, .lnd, .dmc, .pwr, .nvHeld, .out, .rc]) (hf_go : ∀ v0 v1, Ext F s0 v1 → Ext F s0 (go v0 v1)) (hx : Ext F s0 s) :
    Ext F s0 (State.atStep s code go) := by
  unfold State.atStep
  repeat' with_reducible first
    | assumption | apply hf_go | exact Only.sub hk (by decide) | apply keep_State_retrainStop
    | apply keep_State_actEnd | refine Ext.of_pair (by assumption) ?_ | refine Ext.of_triple (by assumption) ?_
    | refine Ext.of_done (by assumption) ?_ | refine Ext.of_wait (by assumption) ?_
    | refine Ext.ite (fun _ => ?_) (fun _ => ?_) | dsimp only | split | intro _

theorem keep_State_retrainStep {F : Area → Bool} {s0 : State} (fail : Bool) (a : Act) (s : State) (hk : Only F [.regs, .nv, .mbx, .evt, .items, .dmc, .pwr, .free, .out, .rc]) (hx : Ext F s0 s) :
    Ext F s0 (State.retrainStep fail a s) := by
  unfold State.retrainStep
  repeat' with_reducible first
    | assumption | exact Only.sub hk (by decide) | apply keep_State_putAct | apply keep_State_trainFull
    | apply keep_State_faultItem | apply keep_State_fresh | apply keep_State_wrF
    | refine Ext.of_pair (by assumption) ?_ | refine Ext.of_triple (by assumption) ?_
    | refine Ext.of_done (by assumption) ?_ | refine Ext.of_wait (by assumption) ?_
    | refine Ext.ite (fun _ => ?_) (fun _ => ?_) | dsimp only | fail_if_no_progress (refine Ext.mk_of ?_) | split

theorem keep_State_retrainDone {F : Area → Bool} {s0 : State} (a : Act) (s : State) (hk : Only F [.regs, .nv, .mbx, .evt, .pwr, .nvHeld, .out, .rc]) (hx : Ext F s0 s) :
    Ext F s0 (State.retrainDone a s) := by
  unfold State.retrainDone
  repeat' with_reducible first
    | assumption | exact Only.sub hk (by decide) | apply keep_State_actEnd | apply keep_State_putTraining
    | apply keep_State_wrF | refine Ext.ite (fun _ => ?_) (fun _ => ?_) | dsimp only | split

theorem keep_State_eyeDone {F : Area → Bool} {s0 : State} (counts : List Word) (outOk : Bool) (a : Act) (s : State) (hk : Only F [.regs, .mbx, .evt, .pwr, .free, .out, .rc]) (hx : Ext F s0 s) :
    Ext F s0 (State.eyeDone counts outOk a s) := by
  unfold State.eyeDone
  repeat' with_reducible first
    | assumption | exact Only.sub hk (by decide) | apply keep_State_actEnd | apply keep_State_emit
    | apply keep_State_freshBytes | refine Ext.of_pair (by assumption) ?_ | refine Ext.of_triple (by assumption) ?_
    | refine Ext.of_done (by assumption) ?_ | refine Ext.of_wait (by assumption) ?_
    | refine Ext.ite (fun _ => ?_) (fun _ => ?_) | dsimp only | split

theorem keep_State_nvScrubbed {F : Area → Bool} {s0 : State} (a : Act) (s : State) (hk : Only F [.regs, .mbx, .evt, .pwr, .out, .rc]) (hx : Ext F s0 s) :
    Ext F s0 (State.nvScrubbed a s) := by
  unfold State.nvScrubbed
  repeat' with_reducible first
    | assumption | exact Only.sub hk (by decide) | apply keep_State_actEnd
    | refine Ext.ite (fun _ => ?_) (fun _ => ?_) | dsimp only | split

theorem keep_State_scrub1 {F : Area → Bool} {s0 : State} (s : State) (line : Nat) (kind : Nat) (hk : Only F [.regs, .nv, .mbx, .evt, .items, .dmc, .pwr, .out, .rc]) (hx : Ext F s0 s) :
    Ext F s0 (State.scrub1 s line kind) := by
  unfold State.scrub1
  repeat' with_reducible first
    | assumption | exact Only.sub hk (by decide) | apply keep_State_dramCe | apply keep_State_dramUe
    | refine Ext.ite (fun _ => ?_) (fun _ => ?_) | dsimp only | fail_if_no_progress (refine Ext.mk_of ?_) | split
    | intro _

theorem keep_State_dramScrubbed {F : Area → Bool} {s0 : State} (a : Act) (s : State) (hk : Only F [.regs, .nv, .mbx, .evt, .items, .dmc, .pwr, .out, .rc]) (hx : Ext F s0 s) :
    Ext F s0 (State.dramScrubbed a s) := by
  unfold State.dramScrubbed
  repeat' with_reducible first
    | assumption | exact Only.sub hk (by decide) | apply keep_State_scrub1 | apply keep_State_actEnd
    | refine Ext.foldl (fun _ _ _ => ?_) ?_ | refine Ext.foldl_pair (fun _ _ _ => ?_) ?_
    | refine Ext.foldl_triple (fun _ _ _ => ?_) ?_ | refine Ext.ite (fun _ => ?_) (fun _ => ?_) | dsimp only | split
    | intro _

end Sys2Proof.Laws
end

