-- ==== Sys2Proof/Laws/KeepRegWrite.lean ====
section
/-!
SUPPORT. The operations of Machine/RegWrite.lean keep the relation Ext.
-/

set_option Elab.async false

namespace Sys2Proof.Laws

open Sys2Proof.Machine

set_option linter.unusedTactic false
set_option linter.unreachableTactic false
set_option maxRecDepth 2000

theorem keep_State_ringCtrl {F : Area → Bool} {s0 : State} (s : State) (r : Nat) (v : Word) (more : Nat) (hk : Only F [.regs, .nv, .mbx, .evt, .items, .rings, .cpl, .lnd, .dmc, .pwr, .out, .spd, .rc]) (hx : Ext F s0 s) :
    Ext F s0 (State.ringCtrl s r v more) := by
  unfold State.ringCtrl
  repeat' with_reducible first
    | assumption | exact Only.sub hk (by decide) | apply keep_State_stopRing | apply keep_State_setRing
    | apply keep_State_wrs | apply keep_State_bump | apply keep_State_wr | refine Ext.ite (fun _ => ?_) (fun _ => ?_)
    | dsimp only | split

theorem keep_State_ringReg {F : Area → Bool} {s0 : State} (s : State) (r : Nat) (a : Nat) (v : Word) (hk : Only F [.regs, .rc]) (hx : Ext F s0 s) :
    Ext F s0 (State.ringReg s r a v) := by
  unfold State.ringReg
  repeat' with_reducible first
    | assumption | exact Only.sub hk (by decide) | apply keep_State_bump | apply keep_State_wr
    | refine Ext.ite (fun _ => ?_) (fun _ => ?_) | dsimp only | split

theorem keep_State_rootCloseWrite {F : Area → Bool} {s0 : State} (s : State) (v : Word) (hk : Only F [.regs, .nv, .mbx, .evt, .out, .rc]) (hx : Ext F s0 s) :
    Ext F s0 (State.rootCloseWrite s v) := by
  unfold State.rootCloseWrite
  repeat' with_reducible first
    | assumption | exact Only.sub hk (by decide) | apply keep_State_closeRoot | refine Ext.of_pair (by assumption) ?_
    | refine Ext.of_triple (by assumption) ?_ | refine Ext.of_done (by assumption) ?_
    | refine Ext.of_wait (by assumption) ?_ | dsimp only | split | intro _

theorem keep_State_putReg {F : Area → Bool} {s0 : State} (s : State) (a : Nat) (r : RegRow) (v : Word) (more : Nat) (hk : Only F [.regs, .nv, .mbx, .evt, .lnk, .ing, .bkc, .items, .rings, .cpl, .lnd, .cbs, .dmc, .pwr, .out, .spd, .rc]) (hx : Ext F s0 s) :
    Ext F s0 (State.putReg s a r v more) := by
  unfold State.putReg
  repeat' with_reducible first
    | assumption | exact Only.sub hk (by decide) | apply keep_State_rootCloseWrite | apply keep_State_ringReg
    | apply keep_State_ringCtrl | apply keep_State_i2cXferWrite | apply keep_State_hoAccept
    | apply keep_State_jobAbort | apply keep_State_jobSetup | apply keep_State_jobProd | apply keep_State_keyReq
    | apply keep_State_prbsWrite | apply keep_State_wrF | apply keep_State_wr
    | refine Ext.ite (fun _ => ?_) (fun _ => ?_) | dsimp only | split

theorem keep_State_writeAt {F : Area → Bool} {s0 : State} (s : State) (p : Nat) (ctx : Nat) (a : Nat) (v : Word) (more : Nat) (hk : Only F [.regs, .mem, .nv, .mbx, .evt, .lnk, .ing, .bkc, .items, .rings, .cpl, .lnd, .cbs, .dmc, .pwr, .out, .spd, .rc]) (hx : Ext F s0 s) :
    Ext F s0 (State.writeAt s p ctx a v more) := by
  unfold State.writeAt
  repeat' with_reducible first
    | assumption | exact Only.sub hk (by decide) | apply keep_State_putReg | apply keep_State_gpioWrite
    | apply keep_State_eccStore | apply keep_State_spdTouch | apply keep_State_ask | apply keep_State_viol
    | apply keep_State_store | refine Ext.of_pair (by assumption) ?_ | refine Ext.of_triple (by assumption) ?_
    | refine Ext.of_done (by assumption) ?_ | refine Ext.of_wait (by assumption) ?_
    | refine Ext.ite (fun _ => ?_) (fun _ => ?_) | dsimp only | split

theorem keep_regRead {F : Area → Bool} {s0 : State} (r : Req) (s : State) (hk : Only F [.regs, .nv, .mbx, .evt, .items, .dmc, .pwr, .free, .out, .spd, .rc]) (hx : Ext F s0 s) :
    Ext F s0 (ansSt (regRead r s)) := by
  unfold regRead
  repeat' with_reducible first
    | assumption | exact Only.sub hk (by decide) | apply keep_State_readRun | refine Ext.of_pair (by assumption) ?_
    | refine Ext.of_triple (by assumption) ?_ | refine Ext.of_done (by assumption) ?_
    | refine Ext.of_wait (by assumption) ?_ | refine Ext.ite (fun _ => ?_) (fun _ => ?_)
    | refine Ext.ite_ans (fun _ => ?_) (fun _ => ?_) | refine Ext.done ?_ | dsimp only | split

theorem keep_State_writeRun {F : Area → Bool} {s0 : State} (s : State) (p : Nat) (ctx : Nat) (y0 : List (Nat × Word)) (hk : Only F [.regs, .mem, .nv, .mbx, .evt, .lnk, .ing, .bkc, .items, .rings, .cpl, .lnd, .cbs, .dmc, .pwr, .out, .spd, .rc]) (hx : Ext F s0 s) :
    Ext F s0 (State.writeRun s p ctx y0) := by
  induction y0 generalizing s p ctx hx with
  | nil =>
    unfold State.writeRun
    repeat' with_reducible first
      | assumption | exact Only.sub hk (by decide) | apply keep_State_writeAt | dsimp only
  | cons x r ih =>
    unfold State.writeRun
    repeat' with_reducible first
      | assumption | apply ih | exact Only.sub hk (by decide) | apply keep_State_writeAt | dsimp only

theorem keep_regWrite {F : Area → Bool} {s0 : State} (r : Req) (s : State) (hk : Only F [.regs, .mem, .nv, .mbx, .evt, .lnk, .ing, .bkc, .items, .rings, .cpl, .lnd, .cbs, .dmc, .pwr, .out, .spd, .rc]) (hx : Ext F s0 s) :
    Ext F s0 (ansSt (regWrite r s)) := by
  unfold regWrite
  repeat' with_reducible first
    | assumption | exact Only.sub hk (by decide) | apply keep_State_writeRun
    | refine Ext.ite (fun _ => ?_) (fun _ => ?_) | refine Ext.ite_ans (fun _ => ?_) (fun _ => ?_) | refine Ext.done ?_
    | dsimp only | split | intro _

theorem keep_State_bar2Put {F : Area → Bool} {s0 : State} (s : State) (a : Nat) (v : Word) (more : Nat) (hk : Only F [.regs, .mem, .nv, .mbx, .evt, .lnk, .ing, .bkc, .items, .rings, .cpl, .lnd, .cbs, .dmc, .pwr, .out, .spd, .rc]) (hx : Ext F s0 s) :
    Ext F s0 (State.bar2Put s a v more) := by
  unfold State.bar2Put
  repeat' with_reducible first
    | assumption | exact Only.sub hk (by decide) | apply keep_State_writeAt | apply keep_State_viol
    | refine Ext.ite (fun _ => ?_) (fun _ => ?_) | dsimp only | split

theorem keep_State_bar2Write {F : Area → Bool} {s0 : State} (s : State) (off : Nat) (size : Nat) (v : Nat) (more : Nat) (hk : Only F [.regs, .mem, .nv, .mbx, .evt, .lnk, .ing, .bkc, .items, .rings, .cpl, .lnd, .cbs, .dmc, .pwr, .out, .spd, .rc]) (hx : Ext F s0 s) :
    Ext F s0 (State.bar2Write s off size v more) := by
  unfold State.bar2Write
  repeat' with_reducible first
    | assumption | exact Only.sub hk (by decide) | apply keep_State_bar2Put | apply keep_State_viol
    | refine Ext.ite (fun _ => ?_) (fun _ => ?_) | dsimp only | split

theorem keep_State_pathWrite {F : Area → Bool} {s0 : State} (s : State) (path : WrPath) (a : Nat) (v : Word) (more : Nat) (hk : Only F [.regs, .mem, .nv, .mbx, .evt, .lnk, .ing, .bkc, .items, .rings, .cpl, .lnd, .cbs, .dmc, .pwr, .out, .spd, .rc]) (hx : Ext F s0 s) :
    Ext F s0 (State.pathWrite s path a v more) := by
  unfold State.pathWrite
  repeat' with_reducible first
    | assumption | exact Only.sub hk (by decide) | apply keep_State_bar2Write | apply keep_regWrite
    | apply keep_State_writeAt | apply keep_State_viol | refine Ext.of_pair (by assumption) ?_
    | refine Ext.of_triple (by assumption) ?_ | refine Ext.of_done (by assumption) ?_
    | refine Ext.of_wait (by assumption) ?_ | refine Ext.ite (fun _ => ?_) (fun _ => ?_) | dsimp only | split

theorem keep_State_bar0Write {F : Area → Bool} {s0 : State} (s : State) (p : Nat) (off : Nat) (v : Word) (hk : Only F [.regs, .mbx, .out]) (hx : Ext F s0 s) :
    Ext F s0 (State.bar0Write s p off v) := by
  unfold State.bar0Write
  repeat' with_reducible first
    | assumption | exact Only.sub hk (by decide) | apply keep_State_msix | apply keep_State_wrF | apply keep_State_wr
    | refine Ext.ite (fun _ => ?_) (fun _ => ?_) | dsimp only | split

end Sys2Proof.Laws
end

