-- ==== Sys2Proof/Laws/KeepCbs.lean ====
section
/-!
SUPPORT. The operations of Machine/Cbs.lean keep the relation Ext.
-/

set_option Elab.async false

namespace Sys2Proof.Laws

open Sys2Proof.Machine

set_option linter.unusedTactic false
set_option linter.unreachableTactic false
set_option maxRecDepth 2000

theorem keep_State_targetRead {F : Area → Bool} {s0 : State} (s : State) (n : Nat) (cut : Bool) (hk : Only F [.regs, .cbs, .out, .rc]) (hx : Ext F s0 s) :
    Ext F s0 (State.targetRead s n cut) := by
  unfold State.targetRead
  repeat' with_reducible first
    | assumption | exact Only.sub hk (by decide) | apply keep_State_tgtCut | apply keep_State_emit
    | refine Ext.of_pair (by assumption) ?_ | refine Ext.of_triple (by assumption) ?_
    | refine Ext.of_done (by assumption) ?_ | refine Ext.of_wait (by assumption) ?_
    | refine Ext.ite (fun _ => ?_) (fun _ => ?_) | dsimp only | fail_if_no_progress (refine Ext.mk_of ?_) | split

theorem keep_State_targetWrite {F : Area → Bool} {s0 : State} (s : State) (addr : Nat) (start : Bool) (bytes : List Byte) (cut : Bool) (stop : Bool) (hk : Only F [.regs, .nv, .lnd, .cbs, .rc]) (hx : Ext F s0 s) :
    Ext F s0 (State.targetWrite s addr start bytes cut stop) := by
  unfold State.targetWrite
  repeat' with_reducible first
    | assumption | exact Only.sub hk (by decide) | apply keep_State_tgtAck | apply keep_State_tgtWriteByte
    | apply keep_State_tgtEnd | apply keep_State_setTxn | apply keep_State_tgtCut
    | refine Ext.foldl (fun _ _ _ => ?_) ?_ | refine Ext.foldl_pair (fun _ _ _ => ?_) ?_
    | refine Ext.foldl_triple (fun _ _ _ => ?_) ?_ | refine Ext.of_pair (by assumption) ?_
    | refine Ext.of_triple (by assumption) ?_ | refine Ext.of_done (by assumption) ?_
    | refine Ext.of_wait (by assumption) ?_ | refine Ext.ite (fun _ => ?_) (fun _ => ?_) | dsimp only | split
    | intro _

end Sys2Proof.Laws
end

