-- ==== Sys2Proof/Laws/KeepBoundary.lean ====
section
/-!
SUPPORT. The operations of Machine/Boundary.lean keep the relation Ext.
-/

set_option Elab.async false

namespace Sys2Proof.Laws

open Sys2Proof.Machine

set_option linter.unusedTactic false
set_option linter.unreachableTactic false
set_option maxRecDepth 2000

theorem keep_State_applyEntry {F : Area → Bool} {s0 : State} (s : State) (e : Nat × Word) (hk : Only F [.regs]) (hx : Ext F s0 s) :
    Ext F s0 (State.applyEntry s e) := by
  unfold State.applyEntry
  repeat' with_reducible first
    | assumption | exact Only.sub hk (by decide) | apply keep_State_wrF | apply keep_State_wr
    | refine Ext.of_pair (by assumption) ?_ | refine Ext.of_triple (by assumption) ?_
    | refine Ext.of_done (by assumption) ?_ | refine Ext.of_wait (by assumption) ?_
    | refine Ext.ite (fun _ => ?_) (fun _ => ?_) | dsimp only | split

theorem keep_State_queueWrites {F : Area → Bool} {s0 : State} (s : State) (e : Nat) (y0 : List SensorWrite) (hk : Only F [.lnk]) (hx : Ext F s0 s) :
    Ext F s0 (State.queueWrites s e y0) := by
  induction y0 generalizing s e hx with
  | nil =>
    unfold State.queueWrites
    repeat' with_reducible first
      | assumption | exact Only.sub hk (by decide) | apply keep_State_bcPush | dsimp only
  | cons x r ih =>
    unfold State.queueWrites
    repeat' with_reducible first
      | assumption | apply ih | exact Only.sub hk (by decide) | apply keep_State_bcPush | dsimp only

theorem keep_State_loadMap {F : Area → Bool} {s0 : State} (s : State) (hk : Only F [.regs, .lnk]) (hx : Ext F s0 s) :
    Ext F s0 (State.loadMap s) := by
  unfold State.loadMap
  repeat' with_reducible first
    | assumption | exact Only.sub hk (by decide) | apply keep_State_wr | refine Ext.foldl (fun _ _ _ => ?_) ?_
    | refine Ext.foldl_pair (fun _ _ _ => ?_) ?_ | refine Ext.foldl_triple (fun _ _ _ => ?_) ?_
    | refine Ext.ite (fun _ => ?_) (fun _ => ?_) | dsimp only | fail_if_no_progress (refine Ext.mk_of ?_) | split
    | intro _

theorem keep_State_activate {F : Area → Bool} {s0 : State} (s : State) (cs : List Commit) (hk : Only F [.regs, .ep, .lnk, .ing, .epoch]) (hx : Ext F s0 s) :
    Ext F s0 (State.activate s cs) := by
  unfold State.activate
  repeat' with_reducible first
    | assumption | exact Only.sub hk (by decide) | apply keep_State_loadMap | apply keep_State_queueWrites
    | apply keep_State_applyEntry | apply keep_State_ctxCounts | refine Ext.foldl (fun _ _ _ => ?_) ?_
    | refine Ext.foldl_pair (fun _ _ _ => ?_) ?_ | refine Ext.foldl_triple (fun _ _ _ => ?_) ?_
    | refine Ext.ite (fun _ => ?_) (fun _ => ?_) | dsimp only | fail_if_no_progress (refine Ext.mk_of ?_) | split
    | intro _

theorem keep_State_applied {F : Area → Bool} {s0 : State} (s : State) (cs : List Commit) (hk : Only F [.regs, .mbx, .evt, .out, .rc]) (hx : Ext F s0 s) :
    Ext F s0 (State.applied s cs) := by
  unfold State.applied
  repeat' with_reducible first
    | assumption | exact Only.sub hk (by decide) | apply keep_State_finish | apply keep_State_raise
    | refine Ext.foldl (fun _ _ _ => ?_) ?_ | refine Ext.foldl_pair (fun _ _ _ => ?_) ?_
    | refine Ext.foldl_triple (fun _ _ _ => ?_) ?_ | refine Ext.ite (fun _ => ?_) (fun _ => ?_) | dsimp only | split
    | intro _

theorem keep_State_activated {F : Area → Bool} {s0 : State} (s : State) (free : List (Nat × Nat)) (off : List Nat) (on : List Nat) (hk : Only F [.regs, .nv, .mbx, .evt, .ep, .resets, .ing, .bkc, .items, .rings, .allocs, .cpl, .lnd, .vcd, .cbs, .dmc, .pwr, .out, .spd, .rc]) (hx : Ext F s0 s) :
    Ext F s0 (State.activated s free off on) := by
  unfold State.activated
  repeat' with_reducible first
    | assumption | exact Only.sub hk (by decide) | apply keep_State_startReset | apply keep_State_setReady
    | refine Ext.foldl (fun _ _ _ => ?_) ?_ | refine Ext.foldl_pair (fun _ _ _ => ?_) ?_
    | refine Ext.foldl_triple (fun _ _ _ => ?_) ?_ | refine Ext.ite (fun _ => ?_) (fun _ => ?_) | dsimp only | split
    | intro _

theorem keep_State_qosEvents {F : Area → Bool} {s0 : State} (s : State) (hk : Only F [.regs, .mbx, .evt, .out, .rc]) (hx : Ext F s0 s) :
    Ext F s0 (State.qosEvents s) := by
  unfold State.qosEvents
  repeat' with_reducible first
    | assumption | exact Only.sub hk (by decide) | apply keep_State_raise | refine Ext.foldl (fun _ _ _ => ?_) ?_
    | refine Ext.foldl_pair (fun _ _ _ => ?_) ?_ | refine Ext.foldl_triple (fun _ _ _ => ?_) ?_
    | refine Ext.ite (fun _ => ?_) (fun _ => ?_) | dsimp only | split | intro _

theorem keep_State_count {F : Area → Bool} {s0 : State} (s : State) (synth : Bool) (hk : Only F [.regs, .ep, .dmc, .rc, .epoch]) (hx : Ext F s0 s) :
    Ext F s0 (State.count s synth) := by
  unfold State.count
  rcases s.dmc.latch (s.fd R.DMC_PAGE_IDLE 0 11) s.now s.withinBudget with ⟨q, d⟩
  exact Ext.foldl (fun _ _ h => keep_State_bump _ _ _ _ _ (Only.sub hk (by decide)) h) (Ext.mk_of hx)

theorem keep_State_keepCommits {F : Area → Bool} {s0 : State} (s : State) (cs : List Commit) (kept : List Commit) (hk : Only F [.ep]) (hx : Ext F s0 s) :
    Ext F s0 (State.keepCommits s cs kept) := by
  unfold State.keepCommits
  repeat' with_reducible first
    | assumption | exact Only.sub hk (by decide) | refine Ext.ite (fun _ => ?_) (fun _ => ?_) | dsimp only
    | fail_if_no_progress (refine Ext.mk_of ?_) | split | intro _

theorem keep_State_latch {F : Area → Bool} {s0 : State} (s : State) (hk : Only F [.ep]) (hx : Ext F s0 s) :
    Ext F s0 (State.latch s) := by
  unfold State.latch
  repeat' with_reducible first
    | assumption | exact Only.sub hk (by decide) | dsimp only | fail_if_no_progress (refine Ext.mk_of ?_)

theorem keep_State_boundary {F : Area → Bool} {s0 : State} (s : State) (synth : Bool) (slk : State → State) (hk : Only F [.regs, .nv, .mbx, .evt, .ep, .resets, .lnk, .ing, .bkc, .items, .rings, .allocs, .cpl, .lnd, .vcd, .mon, .tim, .aud, .cbs, .dmc, .pwr, .out, .spd, .rc, .epoch]) (hf_slk : ∀ v0, Ext F s0 v0 → Ext F s0 (slk v0)) (hx : Ext F s0 s) :
    Ext F s0 (State.boundary s synth slk).2 := by
  unfold State.boundary
  repeat' with_reducible first
    | assumption | apply hf_slk | exact Only.sub hk (by decide) | apply keep_State_latch
    | apply keep_State_keepCommits | apply keep_State_count | apply keep_State_qosEvents | apply keep_State_activated
    | apply keep_State_applied | apply keep_State_activate | apply keep_State_derived | apply keep_State_gpioBoundary
    | apply keep_State_audBoundary | apply keep_State_timBoundary | apply keep_State_monBoundary
    | apply keep_State_lnaBoundary | apply keep_State_hold | refine Ext.of_pair (by assumption) ?_
    | refine Ext.of_triple (by assumption) ?_ | refine Ext.of_done (by assumption) ?_
    | refine Ext.of_wait (by assumption) ?_ | refine Ext.ite (fun _ => ?_) (fun _ => ?_)
    | refine Ext.ite_pair (fun _ => ?_) (fun _ => ?_) | dsimp only | split | intro _

theorem keep_State_cadZero {F : Area → Bool} {s0 : State} (s : State) (t : Int) (hk : Only F [.regs, .nv, .mbx, .evt, .ep, .resets, .lnk, .ing, .bkc, .items, .rings, .allocs, .cpl, .lnd, .vcd, .mon, .tim, .aud, .cbs, .dmc, .pwr, .out, .spd, .rc, .epoch]) (hx : Ext F s0 s) :
    Ext F s0 (State.cadZero s t) := by
  unfold State.cadZero
  have h := Ext.ite (c := s.fd (R.TIM_CAD_CFG 0) 0 2 ≠ 3 && !s.linkOn) (fun _ => keep_State_boundary s true id hk (fun _ h => h) hx) (fun _ => hx)
  exact Ext.ite (fun _ => keep_State_expose _ _ _ _ (Only.sub hk (by decide)) h) (fun _ => h)

end Sys2Proof.Laws
end

