-- ==== Sys2Proof/Laws/KeepLink.lean ====
section
/-!
SUPPORT. The operations of Machine/Link.lean keep the relation Ext.
-/

set_option Elab.async false

namespace Sys2Proof.Laws

open Sys2Proof.Machine

set_option linter.unusedTactic false
set_option linter.unreachableTactic false
set_option maxRecDepth 2000

theorem keep_State_hdrError {F : Area → Bool} {s0 : State} (s : State) (g : Nat) (hk : Only F [.regs, .lnk, .ing, .rc]) (hx : Ext F s0 s) :
    Ext F s0 (State.hdrError s g) := by
  unfold State.hdrError
  repeat' with_reducible first
    | assumption | exact Only.sub hk (by decide) | apply keep_State_putFrame | apply keep_State_bump
    | refine Ext.of_pair (by assumption) ?_ | refine Ext.of_triple (by assumption) ?_
    | refine Ext.of_done (by assumption) ?_ | refine Ext.of_wait (by assumption) ?_ | dsimp only
    | fail_if_no_progress (refine Ext.mk_of ?_) | split | intro _

theorem keep_State_closeFrame {F : Area → Bool} {s0 : State} (s : State) (f : Frame) (hk : Only F [.regs, .mem, .nv, .mbx, .evt, .ing, .items, .rings, .cpl, .crs, .lnd, .dmc, .pwr, .free, .out, .spd, .rc]) (hx : Ext F s0 s) :
    Ext F s0 (State.closeFrame s f) := by
  unfold State.closeFrame
  repeat' with_reducible first
    | assumption | exact Only.sub hk (by decide) | apply keep_State_settle | apply keep_State_putFrame
    | apply keep_State_streamItem | refine Ext.ite (fun _ => ?_) (fun _ => ?_) | dsimp only
    | fail_if_no_progress (refine Ext.mk_of ?_) | split

theorem keep_State_closeOpen {F : Area → Bool} {s0 : State} (s : State) (hk : Only F [.regs, .mem, .nv, .mbx, .evt, .ing, .items, .rings, .cpl, .crs, .lnd, .dmc, .pwr, .free, .out, .spd, .rc]) (hx : Ext F s0 s) :
    Ext F s0 (State.closeOpen s) := by
  unfold State.closeOpen
  repeat' with_reducible first
    | assumption | exact Only.sub hk (by decide) | apply keep_State_closeFrame | refine Ext.of_pair (by assumption) ?_
    | refine Ext.of_triple (by assumption) ?_ | refine Ext.of_done (by assumption) ?_
    | refine Ext.of_wait (by assumption) ?_ | dsimp only | split

theorem keep_State_groupDead {F : Area → Bool} {s0 : State} (s : State) (f : Frame) (g : Nat) (hk : Only F [.ing]) (hx : Ext F s0 s) :
    Ext F s0 (State.groupDead s f g) := by
  unfold State.groupDead
  repeat' with_reducible first
    | assumption | exact Only.sub hk (by decide) | apply keep_State_putFrame | dsimp only
    | fail_if_no_progress (refine Ext.mk_of ?_)

theorem keep_State_fsAgain {F : Area → Bool} {s0 : State} (s : State) (f : Frame) (g : Nat) (hk : Only F [.regs, .ing, .rc]) (hx : Ext F s0 s) :
    Ext F s0 (State.fsAgain s f g) := by
  unfold State.fsAgain
  repeat' with_reducible first
    | assumption | exact Only.sub hk (by decide) | apply keep_State_groupDead | apply keep_State_putFrame
    | apply keep_State_bump | refine Ext.ite (fun _ => ?_) (fun _ => ?_) | dsimp only
    | fail_if_no_progress (refine Ext.mk_of ?_) | split

theorem keep_State_exposureStart {F : Area → Bool} {s0 : State} (s : State) (h : BitVec 128) (hk : Only F [.free]) (hx : Ext F s0 s) :
    Ext F s0 (State.exposureStart s h).2 := by
  unfold State.exposureStart
  repeat' with_reducible first
    | assumption | exact Only.sub hk (by decide) | apply keep_State_fresh | refine Ext.of_pair (by assumption) ?_
    | refine Ext.of_triple (by assumption) ?_ | refine Ext.of_done (by assumption) ?_
    | refine Ext.of_wait (by assumption) ?_ | refine Ext.ite (fun _ => ?_) (fun _ => ?_)
    | refine Ext.ite_pair (fun _ => ?_) (fun _ => ?_) | dsimp only | split | intro _

theorem keep_State_openNew {F : Area → Bool} {s0 : State} (s : State) (g : Nat) (h : BitVec 128) (flags : Nat) (fast : Bool) (hk : Only F [.regs, .lnk, .ing, .lnd, .free]) (hx : Ext F s0 s) :
    Ext F s0 (State.openNew s g h flags fast) := by
  unfold State.openNew
  repeat' with_reducible first
    | assumption | exact Only.sub hk (by decide) | apply keep_State_exposureStart | apply keep_State_lndOpen
    | apply keep_State_setRefValid | refine Ext.of_pair (by assumption) ?_ | refine Ext.of_triple (by assumption) ?_
    | refine Ext.of_done (by assumption) ?_ | refine Ext.of_wait (by assumption) ?_
    | refine Ext.ite (fun _ => ?_) (fun _ => ?_) | dsimp only | fail_if_no_progress (refine Ext.mk_of ?_) | split
    | intro _

theorem keep_State_swapLanes {F : Area → Bool} {s0 : State} (s : State) (n : Nat) (hk : Only F [.regs, .lnk]) (hx : Ext F s0 s) :
    Ext F s0 (State.swapLanes s n).2 := by
  unfold State.swapLanes
  repeat' with_reducible first
    | assumption | exact Only.sub hk (by decide) | apply keep_State_setLane | apply keep_State_wrF
    | apply keep_State_wr | refine Ext.foldl (fun _ _ _ => ?_) ?_ | refine Ext.foldl_pair (fun _ _ _ => ?_) ?_
    | refine Ext.foldl_triple (fun _ _ _ => ?_) ?_ | refine Ext.of_pair (by assumption) ?_
    | refine Ext.of_triple (by assumption) ?_ | refine Ext.of_done (by assumption) ?_
    | refine Ext.of_wait (by assumption) ?_ | refine Ext.ite (fun _ => ?_) (fun _ => ?_)
    | refine Ext.ite_pair (fun _ => ?_) (fun _ => ?_) | dsimp only | split | fail_if_no_progress (refine Ext.mk_of ?_)
    | intro _

theorem keep_State_rejoinLanes {F : Area → Bool} {s0 : State} (s : State) (hk : Only F [.regs, .lnk]) (hx : Ext F s0 s) :
    Ext F s0 (State.rejoinLanes s).2 := by
  unfold State.rejoinLanes
  repeat' with_reducible first
    | assumption | exact Only.sub hk (by decide) | apply keep_State_setLane | apply keep_State_wrF
    | refine Ext.foldl (fun _ _ _ => ?_) ?_ | refine Ext.foldl_pair (fun _ _ _ => ?_) ?_
    | refine Ext.foldl_triple (fun _ _ _ => ?_) ?_ | refine Ext.of_pair (by assumption) ?_
    | refine Ext.of_triple (by assumption) ?_ | refine Ext.of_done (by assumption) ?_
    | refine Ext.of_wait (by assumption) ?_ | dsimp only | split | fail_if_no_progress (refine Ext.mk_of ?_) | intro _

theorem keep_State_laneEvents {F : Area → Bool} {s0 : State} (s : State) (ws : List Swap) (ls : List Nat) (hk : Only F [.regs, .mbx, .evt, .lnk, .ing, .out, .rc]) (hx : Ext F s0 s) :
    Ext F s0 (State.laneEvents s ws ls) := by
  unfold State.laneEvents
  repeat' with_reducible first
    | assumption | exact Only.sub hk (by decide) | apply keep_State_laneLoss | apply keep_State_linkMode
    | apply keep_State_linkCounts | apply keep_State_raise | refine Ext.foldl (fun _ _ _ => ?_) ?_
    | refine Ext.foldl_pair (fun _ _ _ => ?_) ?_ | refine Ext.foldl_triple (fun _ _ _ => ?_) ?_
    | refine Ext.ite (fun _ => ?_) (fun _ => ?_) | dsimp only | split | intro _

theorem keep_State_freshMap {F : Area → Bool} {s0 : State} (s : State) (hk : Only F [.regs, .lnk]) (hx : Ext F s0 s) :
    Ext F s0 (State.freshMap s) := by
  unfold State.freshMap
  repeat' with_reducible first
    | assumption | exact Only.sub hk (by decide) | apply keep_State_loadMap | apply keep_State_wr
    | refine Ext.foldl (fun _ _ _ => ?_) ?_ | refine Ext.foldl_pair (fun _ _ _ => ?_) ?_
    | refine Ext.foldl_triple (fun _ _ _ => ?_) ?_ | dsimp only | intro _

theorem keep_State_reversedAll {F : Area → Bool} {s0 : State} (s : State) (hk : Only F [.regs]) (hx : Ext F s0 s) :
    Ext F s0 (State.reversedAll s) := by
  unfold State.reversedAll
  repeat' with_reducible first
    | assumption | exact Only.sub hk (by decide) | apply keep_State_reversedNow
    | refine Ext.foldl (fun _ _ _ => ?_) ?_ | refine Ext.foldl_pair (fun _ _ _ => ?_) ?_
    | refine Ext.foldl_triple (fun _ _ _ => ?_) ?_ | dsimp only | intro _

theorem keep_State_linkBegin {F : Area → Bool} {s0 : State} (s : State) (hk : Only F [.regs, .lnk, .free, .out]) (hx : Ext F s0 s) :
    Ext F s0 (State.linkBegin s) := by
  unfold State.linkBegin
  repeat' with_reducible first
    | assumption | exact Only.sub hk (by decide) | apply keep_State_reversedAll | apply keep_State_freshMap
    | apply keep_State_setRefValid | apply keep_State_bcRestart | apply keep_State_fresh | apply keep_State_wrF
    | apply keep_State_wr | refine Ext.foldl (fun _ _ _ => ?_) ?_ | refine Ext.foldl_pair (fun _ _ _ => ?_) ?_
    | refine Ext.foldl_triple (fun _ _ _ => ?_) ?_ | refine Ext.of_pair (by assumption) ?_
    | refine Ext.of_triple (by assumption) ?_ | refine Ext.of_done (by assumption) ?_
    | refine Ext.of_wait (by assumption) ?_ | refine Ext.ite (fun _ => ?_) (fun _ => ?_) | dsimp only
    | fail_if_no_progress (refine Ext.mk_of ?_) | split | intro _

theorem keep_State_linkEnd {F : Area → Bool} {s0 : State} (s : State) (hk : Only F [.regs, .lnk, .lnd]) (hx : Ext F s0 s) :
    Ext F s0 (State.linkEnd s) := by
  unfold State.linkEnd
  repeat' with_reducible first
    | assumption | exact Only.sub hk (by decide) | apply keep_State_reversedAll | apply keep_State_freshMap
    | apply keep_State_lndLinkStop | apply keep_State_wr | refine Ext.foldl (fun _ _ _ => ?_) ?_
    | refine Ext.foldl_pair (fun _ _ _ => ?_) ?_ | refine Ext.foldl_triple (fun _ _ _ => ?_) ?_ | dsimp only
    | fail_if_no_progress (refine Ext.mk_of ?_) | intro _

theorem keep_linkStart {F : Area → Bool} {s0 : State} (r : Req) (s : State) (hk : Only F [.regs, .lnk, .free, .out]) (hx : Ext F s0 s) :
    Ext F s0 (ansSt (linkStart r s)) := by
  unfold linkStart
  repeat' with_reducible first
    | assumption | exact Only.sub hk (by decide) | apply keep_State_linkBegin
    | refine Ext.ite (fun _ => ?_) (fun _ => ?_) | refine Ext.ite_ans (fun _ => ?_) (fun _ => ?_) | refine Ext.done ?_
    | refine Ext.wait ?_ | dsimp only | split

theorem keep_linkStop {F : Area → Bool} {s0 : State} (u0 : Req) (s : State) (hk : Only F [.regs, .lnk, .lnd]) (hx : Ext F s0 s) :
    Ext F s0 (ansSt (linkStop u0 s)) := by
  unfold linkStop
  repeat' with_reducible first
    | assumption | exact Only.sub hk (by decide) | apply keep_State_linkEnd
    | refine Ext.ite (fun _ => ?_) (fun _ => ?_) | refine Ext.ite_ans (fun _ => ?_) (fun _ => ?_) | refine Ext.done ?_
    | dsimp only | split | fail_if_no_progress (refine Ext.mk_of ?_)

theorem keep_State_hurtBlock {F : Area → Bool} {s0 : State} (s : State) (n : Nat) (bs : List Byte) (hk : Only F [.regs, .mbx, .evt, .lnk, .ing, .dmc, .free, .out, .rc]) (hx : Ext F s0 s) :
    Ext F s0 (State.hurtBlock s n bs).2 := by
  unfold State.hurtBlock
  repeat' with_reducible first
    | assumption | exact Only.sub hk (by decide) | apply keep_State_badHeader | apply keep_State_useInj
    | apply keep_State_freshBytes | apply keep_State_fresh | apply keep_State_bump
    | refine Ext.of_pair (by assumption) ?_ | refine Ext.of_triple (by assumption) ?_
    | refine Ext.of_done (by assumption) ?_ | refine Ext.of_wait (by assumption) ?_
    | refine Ext.ite (fun _ => ?_) (fun _ => ?_) | refine Ext.ite_pair (fun _ => ?_) (fun _ => ?_) | dsimp only
    | split | intro _

theorem keep_State_hurtBlocks {F : Area → Bool} {s0 : State} (s : State) (g : Nat) (l : Nat) (y0 : Nat) (y1 : List Byte) (y2 : Nat) (hk : Only F [.regs, .mbx, .evt, .lnk, .ing, .dmc, .free, .out, .rc]) (hx : Ext F s0 s) :
    Ext F s0 (State.hurtBlocks s g l y0 y1 y2).2 := by
  induction y0 generalizing s g l y1 y2 hx with
  | zero =>
    unfold State.hurtBlocks
    repeat' with_reducible first
      | assumption | exact Only.sub hk (by decide) | apply keep_State_hurtBlock
      | refine Ext.of_pair (by assumption) ?_ | refine Ext.of_triple (by assumption) ?_
      | refine Ext.of_done (by assumption) ?_ | refine Ext.of_wait (by assumption) ?_ | dsimp only | split
      | fail_if_no_progress (refine Ext.mk_of ?_)
  | succ k ih =>
    unfold State.hurtBlocks
    repeat' with_reducible first
      | assumption | apply ih | exact Only.sub hk (by decide) | apply keep_State_hurtBlock
      | refine Ext.of_pair (by assumption) ?_ | refine Ext.of_triple (by assumption) ?_
      | refine Ext.of_done (by assumption) ?_ | refine Ext.of_wait (by assumption) ?_ | dsimp only | split
      | fail_if_no_progress (refine Ext.mk_of ?_)

theorem keep_State_descramble {F : Area → Bool} {s0 : State} (s : State) (n : Nat) (k : Nat) (hk : Only F [.lnk]) (hx : Ext F s0 s) :
    Ext F s0 (State.descramble s n k) := by
  unfold State.descramble
  repeat' with_reducible first
    | assumption | exact Only.sub hk (by decide) | dsimp only | fail_if_no_progress (refine Ext.mk_of ?_) | intro _

theorem keep_State_receive {F : Area → Bool} {s0 : State} (s : State) (g : Nat) (h : BitVec 128) (payload : List Byte) (pcrc : Word) (hk : Only F [.regs, .mbx, .evt, .lnk, .ing, .dmc, .free, .out, .rc]) (hx : Ext F s0 s) :
    Ext F s0 (State.receive s g h payload pcrc).2 := by
  unfold State.receive
  repeat' with_reducible first
    | assumption | exact Only.sub hk (by decide) | apply keep_State_descramble | apply keep_State_hurtBlocks
    | refine Ext.foldl (fun _ _ _ => ?_) ?_ | refine Ext.foldl_pair (fun _ _ _ => ?_) ?_
    | refine Ext.foldl_triple (fun _ _ _ => ?_) ?_ | refine Ext.of_pair (by assumption) ?_
    | refine Ext.of_triple (by assumption) ?_ | refine Ext.of_done (by assumption) ?_
    | refine Ext.of_wait (by assumption) ?_ | refine Ext.ite (fun _ => ?_) (fun _ => ?_)
    | refine Ext.ite_pair (fun _ => ?_) (fun _ => ?_) | dsimp only | split | fail_if_no_progress (refine Ext.mk_of ?_)
    | intro _

theorem keep_State_fsOpen {F : Area → Bool} {s0 : State} (s : State) (g : Nat) (h : BitVec 128) (hk : Only F [.regs, .mem, .nv, .mbx, .evt, .ep, .resets, .lnk, .ing, .bkc, .items, .rings, .allocs, .cpl, .crs, .lnd, .vcd, .mon, .tim, .aud, .cbs, .dmc, .pwr, .free, .out, .spd, .rc, .epoch]) (hx : Ext F s0 s) :
    Ext F s0 (State.fsOpen s g h) := by
  unfold State.fsOpen
  repeat' with_reducible first
    | assumption | exact Only.sub hk (by decide) | apply keep_State_linkEnd | apply keep_State_laneEvents
    | apply keep_State_rejoinLanes | apply keep_State_swapLanes | apply keep_State_openNew
    | apply keep_State_closeOpen | apply keep_State_boundary | apply keep_State_raise | apply keep_State_bump
    | refine Ext.of_pair (by assumption) ?_ | refine Ext.of_triple (by assumption) ?_
    | refine Ext.of_done (by assumption) ?_ | refine Ext.of_wait (by assumption) ?_
    | refine Ext.ite (fun _ => ?_) (fun _ => ?_) | dsimp only | fail_if_no_progress (refine Ext.mk_of ?_) | split
    | intro _

theorem keep_State_onPacket {F : Area → Bool} {s0 : State} (s : State) (g : Nat) (h : BitVec 128) (payload : List Byte) (pcrc : Word) (f : BitVec 128 → List Byte → Word → State → State) (hk : Only F [.regs, .mbx, .evt, .lnk, .ing, .dmc, .free, .out, .rc]) (hf_f : ∀ v0 v1 v2 v3, Ext F s0 v3 → Ext F s0 (f v0 v1 v2 v3)) (hx : Ext F s0 s) :
    Ext F s0 (State.onPacket s g h payload pcrc f) := by
  unfold State.onPacket
  repeat' with_reducible first
    | assumption | apply hf_f | exact Only.sub hk (by decide) | apply keep_State_receive | apply keep_State_hdrError
    | refine Ext.of_pair (by assumption) ?_ | refine Ext.of_triple (by assumption) ?_
    | refine Ext.of_done (by assumption) ?_ | refine Ext.of_wait (by assumption) ?_
    | refine Ext.ite (fun _ => ?_) (fun _ => ?_) | dsimp only | split | intro _

theorem keep_State_feTaken {F : Area → Bool} {s0 : State} (s : State) (f : Frame) (hk : Only F [.regs, .mem, .nv, .mbx, .evt, .ing, .items, .rings, .cpl, .crs, .lnd, .dmc, .pwr, .free, .out, .spd, .rc]) (hx : Ext F s0 s) :
    Ext F s0 (State.feTaken s f) := by
  unfold State.feTaken
  repeat' with_reducible first
    | assumption | exact Only.sub hk (by decide) | apply keep_State_closeFrame | apply keep_State_putFrame
    | refine Ext.ite (fun _ => ?_) (fun _ => ?_) | dsimp only | split | intro _

theorem keep_State_segment {F : Area → Bool} {s0 : State} (s : State) (f : Frame) (g : Nat) (h : BitVec 128) (bs : List Byte) (ok : Bool) (hk : Only F [.regs, .ing, .rc]) (hx : Ext F s0 s) :
    Ext F s0 (State.segment s f g h bs ok) := by
  unfold State.segment
  repeat' with_reducible first
    | assumption | exact Only.sub hk (by decide) | apply keep_State_putFrame | apply keep_State_bump
    | refine Ext.ite (fun _ => ?_) (fun _ => ?_) | dsimp only | fail_if_no_progress (refine Ext.mk_of ?_) | split

theorem keep_State_embedIn {F : Area → Bool} {s0 : State} (s : State) (f : Frame) (g : Nat) (h : BitVec 128) (payload : List Byte) (ok : Bool) (hk : Only F [.regs, .ing, .rc]) (hx : Ext F s0 s) :
    Ext F s0 (State.embedIn s f g h payload ok) := by
  unfold State.embedIn
  repeat' with_reducible first
    | assumption | exact Only.sub hk (by decide) | apply keep_State_putFrame | apply keep_State_bump
    | refine Ext.ite (fun _ => ?_) (fun _ => ?_) | dsimp only | fail_if_no_progress (refine Ext.mk_of ?_) | split

theorem keep_State_replyIn {F : Area → Bool} {s0 : State} (s : State) (hdr : BitVec 128) (payload : List Byte) (pcrc : Word) (hk : Only F [.regs, .mbx, .evt, .ep, .lnk, .out, .rc]) (hx : Ext F s0 s) :
    Ext F s0 (State.replyIn s hdr payload pcrc) := by
  unfold State.replyIn
  repeat' with_reducible first
    | assumption | exact Only.sub hk (by decide) | apply keep_State_bcReply | apply keep_State_bump
    | refine Ext.of_pair (by assumption) ?_ | refine Ext.of_triple (by assumption) ?_
    | refine Ext.of_done (by assumption) ?_ | refine Ext.of_wait (by assumption) ?_
    | refine Ext.ite (fun _ => ?_) (fun _ => ?_) | dsimp only | fail_if_no_progress (refine Ext.mk_of ?_) | split
    | intro _

theorem keep_sensorCmd {F : Area → Bool} {s0 : State} (r : Req) (s : State) (hk : Only F [.lnk]) (hx : Ext F s0 s) :
    Ext F s0 (ansSt (sensorCmd r s)) := by
  unfold sensorCmd
  repeat' with_reducible first
    | assumption | exact Only.sub hk (by decide) | apply keep_State_bcPush | refine Ext.of_pair (by assumption) ?_
    | refine Ext.of_triple (by assumption) ?_ | refine Ext.of_done (by assumption) ?_
    | refine Ext.of_wait (by assumption) ?_ | refine Ext.done ?_ | refine Ext.wait ?_ | dsimp only | split

theorem keep_State_bcSend {F : Area → Bool} {s0 : State} (s : State) (b : BcCmd) (bs : List BcCmd) (hk : Only F [.lnk, .out]) (hx : Ext F s0 s) :
    Ext F s0 (State.bcSend s b bs) := by
  unfold State.bcSend
  repeat' with_reducible first
    | assumption | exact Only.sub hk (by decide) | apply keep_State_bcData
    | refine Ext.ite (fun _ => ?_) (fun _ => ?_) | dsimp only | fail_if_no_progress (refine Ext.mk_of ?_) | split

theorem keep_State_bcRetry {F : Area → Bool} {s0 : State} (s : State) (b : BcCmd) (hk : Only F [.regs, .mbx, .evt, .ep, .lnk, .out, .rc]) (hx : Ext F s0 s) :
    Ext F s0 (State.bcRetry s b) := by
  unfold State.bcRetry
  repeat' with_reducible first
    | assumption | exact Only.sub hk (by decide) | apply keep_State_bcFail | apply keep_State_bump
    | refine Ext.ite (fun _ => ?_) (fun _ => ?_) | dsimp only | fail_if_no_progress (refine Ext.mk_of ?_) | split

theorem keep_State_swapFor {F : Area → Bool} {s0 : State} (s : State) (l : Nat) (hk : Only F [.regs, .mbx, .evt, .lnk, .out, .rc]) (hx : Ext F s0 s) :
    Ext F s0 (State.swapFor s l) := by
  unfold State.swapFor
  repeat' with_reducible first
    | assumption | exact Only.sub hk (by decide) | apply keep_State_bcPush | apply keep_State_degrade
    | apply keep_State_setAct | refine Ext.of_pair (by assumption) ?_ | refine Ext.of_triple (by assumption) ?_
    | refine Ext.of_done (by assumption) ?_ | refine Ext.of_wait (by assumption) ?_ | dsimp only | split | intro _

end Sys2Proof.Laws
end

