-- ==== Sys2Proof/Laws/KeepControl.lean ====
section
/-!
SUPPORT. The operations of Machine/Control.lean keep the relation Ext.
-/

set_option Elab.async false

namespace Sys2Proof.Laws

open Sys2Proof.Machine

set_option linter.unusedTactic false
set_option linter.unreachableTactic false
set_option maxRecDepth 2000

theorem keep_sysInfo {F : Area → Bool} {s0 : State} (u0 : Req) (s : State)  (hx : Ext F s0 s) :
    Ext F s0 (ansSt (sysInfo u0 s)) := by
  unfold sysInfo
  repeat' with_reducible first
    | assumption | refine Ext.done ?_ | dsimp only

theorem keep_memAlloc {F : Area → Bool} {s0 : State} (n : Nat) (r : Req) (s : State) (hk : Only F [.regs, .allocs, .free]) (hx : Ext F s0 s) :
    Ext F s0 (ansSt (memAlloc n r s)) := by
  unfold memAlloc
  repeat' with_reducible first
    | assumption | exact Only.sub hk (by decide) | apply keep_State_addAlloc | apply keep_State_findRange
    | refine Ext.of_pair (by assumption) ?_ | refine Ext.of_triple (by assumption) ?_
    | refine Ext.of_done (by assumption) ?_ | refine Ext.of_wait (by assumption) ?_
    | refine Ext.ite (fun _ => ?_) (fun _ => ?_) | refine Ext.ite_ans (fun _ => ?_) (fun _ => ?_) | refine Ext.done ?_
    | dsimp only | split

theorem keep_memFree {F : Area → Bool} {s0 : State} (a : Nat) (r : Req) (s : State) (hk : Only F [.regs, .allocs]) (hx : Ext F s0 s) :
    Ext F s0 (ansSt (memFree a r s)) := by
  unfold memFree
  repeat' with_reducible first
    | assumption | exact Only.sub hk (by decide) | apply keep_State_dropAlloc | refine Ext.of_pair (by assumption) ?_
    | refine Ext.of_triple (by assumption) ?_ | refine Ext.of_done (by assumption) ?_
    | refine Ext.of_wait (by assumption) ?_ | refine Ext.done ?_ | dsimp only | split | intro _

theorem keep_State_memViol {F : Area → Bool} {s0 : State} (s : State) (p : Nat) (ctx : Nat) (x : Nat) (hk : Only F [.regs]) (hx : Ext F s0 s) :
    Ext F s0 (State.memViol s p ctx x) := by
  unfold State.memViol
  repeat' with_reducible first
    | assumption | exact Only.sub hk (by decide) | apply keep_State_viol | refine Ext.ite (fun _ => ?_) (fun _ => ?_)
    | dsimp only | split

theorem keep_memWrite {F : Area → Bool} {s0 : State} (a : Nat) (r : Req) (s : State) (hk : Only F [.regs, .mem, .nv, .mbx, .evt, .items, .dmc, .pwr, .out, .rc]) (hx : Ext F s0 s) :
    Ext F s0 (ansSt (memWrite a r s)) := by
  unfold memWrite
  repeat' with_reducible first
    | assumption | exact Only.sub hk (by decide) | apply keep_State_memViol | apply keep_State_eccStore
    | apply keep_State_ask | refine Ext.of_pair (by assumption) ?_ | refine Ext.of_triple (by assumption) ?_
    | refine Ext.of_done (by assumption) ?_ | refine Ext.of_wait (by assumption) ?_
    | refine Ext.ite (fun _ => ?_) (fun _ => ?_) | refine Ext.ite_ans (fun _ => ?_) (fun _ => ?_) | refine Ext.done ?_
    | dsimp only | split

theorem keep_memRead {F : Area → Bool} {s0 : State} (a : Nat) (n : Nat) (r : Req) (s : State) (hk : Only F [.regs, .nv, .mbx, .evt, .items, .dmc, .pwr, .out, .rc]) (hx : Ext F s0 s) :
    Ext F s0 (ansSt (memRead a n r s)) := by
  unfold memRead
  repeat' with_reducible first
    | assumption | exact Only.sub hk (by decide) | apply keep_State_memViol | apply keep_dmaOut
    | apply keep_State_eccReads | apply keep_State_ask | refine Ext.of_pair (by assumption) ?_
    | refine Ext.of_triple (by assumption) ?_ | refine Ext.of_done (by assumption) ?_
    | refine Ext.of_wait (by assumption) ?_ | refine Ext.ite (fun _ => ?_) (fun _ => ?_)
    | refine Ext.ite_ans (fun _ => ?_) (fun _ => ?_) | refine Ext.done ?_ | dsimp only | split

theorem keep_settingsStage {F : Area → Bool} {s0 : State} (r : Req) (s : State) (hk : Only F [.regs, .ep]) (hx : Ext F s0 s) :
    Ext F s0 (ansSt (settingsStage r s)) := by
  unfold settingsStage
  repeat' with_reducible first
    | assumption | exact Only.sub hk (by decide) | apply keep_stageAnswer | refine Ext.of_pair (by assumption) ?_
    | refine Ext.of_triple (by assumption) ?_ | refine Ext.of_done (by assumption) ?_
    | refine Ext.of_wait (by assumption) ?_ | refine Ext.ite (fun _ => ?_) (fun _ => ?_)
    | refine Ext.ite_ans (fun _ => ?_) (fun _ => ?_) | refine Ext.done ?_ | dsimp only | split

theorem keep_settingsReadAt {F : Area → Bool} {s0 : State} (a : Nat) (r : Req) (s : State) (hk : Only F [.regs, .nv, .mbx, .evt, .items, .dmc, .pwr, .free, .out, .spd, .rc]) (hx : Ext F s0 s) :
    Ext F s0 (ansSt (settingsReadAt a r s)) := by
  unfold settingsReadAt
  repeat' with_reducible first
    | assumption | exact Only.sub hk (by decide) | apply keep_State_readAt | refine Ext.of_pair (by assumption) ?_
    | refine Ext.of_triple (by assumption) ?_ | refine Ext.of_done (by assumption) ?_
    | refine Ext.of_wait (by assumption) ?_ | refine Ext.done ?_ | dsimp only | split

theorem keep_settingsRead {F : Area → Bool} {s0 : State} (r : Req) (s : State) (hk : Only F [.regs, .nv, .mbx, .evt, .items, .dmc, .pwr, .free, .out, .spd, .rc]) (hx : Ext F s0 s) :
    Ext F s0 (ansSt (settingsRead r s)) := by
  unfold settingsRead
  repeat' with_reducible first
    | assumption | exact Only.sub hk (by decide) | apply keep_settingsReadAt | refine Ext.done ?_ | dsimp only

theorem keep_epochStatus {F : Area → Bool} {s0 : State} (u0 : Req) (s : State)  (hx : Ext F s0 s) :
    Ext F s0 (ansSt (epochStatus u0 s)) := by
  unfold epochStatus
  repeat' with_reducible first
    | assumption | refine Ext.done ?_ | dsimp only | intro _

theorem keep_statusSnapshot {F : Area → Bool} {s0 : State} (r : Req) (s : State) (hk : Only F [.out]) (hx : Ext F s0 s) :
    Ext F s0 (ansSt (statusSnapshot r s)) := by
  unfold statusSnapshot
  repeat' with_reducible first
    | assumption | exact Only.sub hk (by decide) | apply keep_dmaOut | refine Ext.ite (fun _ => ?_) (fun _ => ?_)
    | refine Ext.ite_ans (fun _ => ?_) (fun _ => ?_) | refine Ext.done ?_ | dsimp only | split | intro _

theorem keep_ctxAlloc {F : Area → Bool} {s0 : State} (r : Req) (s : State) (hk : Only F [.regs, .ep]) (hx : Ext F s0 s) :
    Ext F s0 (ansSt (ctxAlloc r s)) := by
  unfold ctxAlloc
  repeat' with_reducible first
    | assumption | exact Only.sub hk (by decide) | apply keep_stageAnswer | refine Ext.done ?_ | dsimp only | intro _

theorem keep_ctxFree {F : Area → Bool} {s0 : State} (r : Req) (s : State) (hk : Only F [.regs, .ep]) (hx : Ext F s0 s) :
    Ext F s0 (ansSt (ctxFree r s)) := by
  unfold ctxFree
  repeat' with_reducible first
    | assumption | exact Only.sub hk (by decide) | apply keep_stageAnswer | refine Ext.done ?_ | dsimp only | intro _

theorem keep_partConfig {F : Area → Bool} {s0 : State} (r : Req) (s : State) (hk : Only F [.regs, .ep]) (hx : Ext F s0 s) :
    Ext F s0 (ansSt (partConfig r s)) := by
  unfold partConfig
  repeat' with_reducible first
    | assumption | exact Only.sub hk (by decide) | apply keep_stageAnswer | refine Ext.ite (fun _ => ?_) (fun _ => ?_)
    | refine Ext.ite_ans (fun _ => ?_) (fun _ => ?_) | refine Ext.done ?_ | dsimp only | split

theorem keep_violationRead {F : Area → Bool} {s0 : State} (r : Req) (s : State) (hk : Only F [.regs]) (hx : Ext F s0 s) :
    Ext F s0 (ansSt (violationRead r s)) := by
  unfold violationRead
  repeat' with_reducible first
    | assumption | exact Only.sub hk (by decide) | apply keep_State_regClear
    | refine Ext.ite (fun _ => ?_) (fun _ => ?_) | refine Ext.ite_ans (fun _ => ?_) (fun _ => ?_) | refine Ext.done ?_
    | dsimp only | split | intro _

theorem keep_evqConfig {F : Area → Bool} {s0 : State} (r : Req) (s : State) (hk : Only F [.evt]) (hx : Ext F s0 s) :
    Ext F s0 (ansSt (evqConfig r s)) := by
  unfold evqConfig
  repeat' with_reducible first
    | assumption | exact Only.sub hk (by decide) | apply keep_State_setEvq | refine Ext.done ?_ | dsimp only

theorem keep_streamOpen {F : Area → Bool} {s0 : State} (r : Req) (s : State) (hk : Only F [.regs, .ep]) (hx : Ext F s0 s) :
    Ext F s0 (ansSt (streamOpen r s)) := by
  unfold streamOpen
  repeat' with_reducible first
    | assumption | exact Only.sub hk (by decide) | apply keep_stageAnswer | refine Ext.ite (fun _ => ?_) (fun _ => ?_)
    | refine Ext.ite_ans (fun _ => ?_) (fun _ => ?_) | refine Ext.done ?_ | dsimp only | split

theorem keep_streamClose {F : Area → Bool} {s0 : State} (r : Req) (s : State) (hk : Only F [.regs, .ep]) (hx : Ext F s0 s) :
    Ext F s0 (ansSt (streamClose r s)) := by
  unfold streamClose
  repeat' with_reducible first
    | assumption | exact Only.sub hk (by decide) | apply keep_submitAnswer | apply keep_State_submit
    | refine Ext.ite (fun _ => ?_) (fun _ => ?_) | refine Ext.ite_ans (fun _ => ?_) (fun _ => ?_) | refine Ext.done ?_
    | dsimp only | split

theorem keep_statsRoute {F : Area → Bool} {s0 : State} (route : Nat) (ctx : Nat) (en : Bool) (ring : Nat) (r : Req) (s : State) (hk : Only F [.regs, .ep, .crs]) (hx : Ext F s0 s) :
    Ext F s0 (ansSt (statsRoute route ctx en ring r s)) := by
  unfold statsRoute
  repeat' with_reducible first
    | assumption | exact Only.sub hk (by decide) | apply keep_stageAnswer | refine Ext.of_pair (by assumption) ?_
    | refine Ext.of_triple (by assumption) ?_ | refine Ext.of_done (by assumption) ?_
    | refine Ext.of_wait (by assumption) ?_ | refine Ext.ite (fun _ => ?_) (fun _ => ?_)
    | refine Ext.ite_ans (fun _ => ?_) (fun _ => ?_) | refine Ext.done ?_ | dsimp only | split
    | fail_if_no_progress (refine Ext.mk_of ?_) | intro _

end Sys2Proof.Laws
end

