-- ==== Sys2Proof/Laws/KeepMailbox.lean ====
section
/-!
SUPPORT. The operations of Machine/Mailbox.lean keep the relation Ext.
-/

set_option Elab.async false

namespace Sys2Proof.Laws

open Sys2Proof.Machine

set_option linter.unusedTactic false
set_option linter.unreachableTactic false
set_option maxRecDepth 2000

theorem keep_State_doorbell {F : Area → Bool} {s0 : State} (s : State) (p : Nat) (w : Nat) (hk : Only F [.time, .regs, .mbx, .evt, .tim, .free, .out, .rc]) (hx : Ext F s0 s) :
    Ext F s0 (State.doorbell s p w) := by
  unfold State.doorbell
  repeat' with_reducible first
    | assumption | exact Only.sub hk (by decide) | apply keep_State_wakeP1 | apply keep_State_refuse
    | apply keep_State_setSlot | apply keep_State_bump | refine Ext.of_pair (by assumption) ?_
    | refine Ext.of_triple (by assumption) ?_ | refine Ext.of_done (by assumption) ?_
    | refine Ext.of_wait (by assumption) ?_ | refine Ext.ite (fun _ => ?_) (fun _ => ?_) | dsimp only
    | fail_if_no_progress (refine Ext.mk_of ?_) | split

theorem keep_State_bar0Read {F : Area → Bool} {s0 : State} (s : State) (p : Nat) (o : Nat) (hk : Only F [.regs]) (hx : Ext F s0 s) :
    Ext F s0 (State.bar0Read s p o).2 := by
  unfold State.bar0Read
  repeat' with_reducible first
    | assumption | exact Only.sub hk (by decide) | apply keep_State_wr | refine Ext.ite (fun _ => ?_) (fun _ => ?_)
    | refine Ext.ite_pair (fun _ => ?_) (fun _ => ?_) | dsimp only | split | intro _

theorem keep_State_pendClear {F : Area → Bool} {s0 : State} (s : State) (p : Nat) (c : Nat) (hk : Only F [.regs, .mbx, .evt, .out]) (hx : Ext F s0 s) :
    Ext F s0 (State.pendClear s p c) := by
  unfold State.pendClear
  repeat' with_reducible first
    | assumption | exact Only.sub hk (by decide) | apply keep_State_ctxMessage | apply keep_State_setEvq
    | apply keep_State_viol | refine Ext.ite (fun _ => ?_) (fun _ => ?_) | dsimp only
    | fail_if_no_progress (refine Ext.mk_of ?_) | split

theorem keep_State_repEffect {F : Area → Bool} {s0 : State} (s : State) (f : FaultRep) (hk : Only F [.regs, .items, .pwr, .rc]) (hx : Ext F s0 s) :
    Ext F s0 (State.repEffect s f) := by
  unfold State.repEffect
  repeat' with_reducible first
    | assumption | exact Only.sub hk (by decide) | apply keep_State_bump | apply keep_State_wrF | apply keep_State_wr
    | refine Ext.of_pair (by assumption) ?_ | refine Ext.of_triple (by assumption) ?_
    | refine Ext.of_done (by assumption) ?_ | refine Ext.of_wait (by assumption) ?_
    | refine Ext.ite (fun _ => ?_) (fun _ => ?_) | dsimp only | fail_if_no_progress (refine Ext.mk_of ?_) | split
    | intro _

theorem keep_State_reported {F : Area → Bool} {s0 : State} (s : State) (f : FaultRep) (hk : Only F [.regs, .nv, .mbx, .evt, .items, .pwr, .out, .rc]) (hx : Ext F s0 s) :
    Ext F s0 (State.reported s f).2 := by
  unfold State.reported
  repeat' with_reducible first
    | assumption | exact Only.sub hk (by decide) | apply keep_State_repEffect | apply keep_State_faultCore
    | apply keep_State_logRoot | refine Ext.of_pair (by assumption) ?_ | refine Ext.of_triple (by assumption) ?_
    | refine Ext.of_done (by assumption) ?_ | refine Ext.of_wait (by assumption) ?_
    | refine Ext.ite (fun _ => ?_) (fun _ => ?_) | refine Ext.ite_pair (fun _ => ?_) (fun _ => ?_) | dsimp only
    | split | intro _

theorem keep_State_reports {F : Area → Bool} {s0 : State} (s : State) (y0 : List FaultRep) (hk : Only F [.regs, .nv, .mbx, .evt, .items, .pwr, .out, .rc]) (hx : Ext F s0 s) :
    Ext F s0 (State.reports s y0).2 := by
  induction y0 generalizing s hx with
  | nil =>
    unfold State.reports
    repeat' with_reducible first
      | assumption | exact Only.sub hk (by decide) | apply keep_State_reported | refine Ext.of_pair (by assumption) ?_
      | refine Ext.of_triple (by assumption) ?_ | refine Ext.of_done (by assumption) ?_
      | refine Ext.of_wait (by assumption) ?_ | dsimp only | split
  | cons x r ih =>
    unfold State.reports
    repeat' with_reducible first
      | assumption | apply ih | exact Only.sub hk (by decide) | apply keep_State_reported
      | refine Ext.of_pair (by assumption) ?_ | refine Ext.of_triple (by assumption) ?_
      | refine Ext.of_done (by assumption) ?_ | refine Ext.of_wait (by assumption) ?_ | dsimp only | split

end Sys2Proof.Laws
end

