-- ==== Sys2Proof/Laws/KeepHostLink.lean ====
section
/-!
SUPPORT. The operations of Machine/HostLink.lean keep the relation Ext.
-/

set_option Elab.async false

namespace Sys2Proof.Laws

open Sys2Proof.Machine

set_option linter.unusedTactic false
set_option linter.unreachableTactic false
set_option maxRecDepth 2000

theorem keep_State_bmeOn {F : Area → Bool} {s0 : State} (s : State) (fn : Nat) (hk : Only F [.regs, .mbx, .evt, .rings, .lnd, .out, .rc]) (hx : Ext F s0 s) :
    Ext F s0 (State.bmeOn s fn) := by
  unfold State.bmeOn
  repeat' with_reducible first
    | assumption | exact Only.sub hk (by decide) | apply keep_State_sqPush | apply keep_State_hostFlush
    | apply keep_State_msixFlush | refine Ext.foldl (fun _ _ _ => ?_) ?_ | refine Ext.foldl_pair (fun _ _ _ => ?_) ?_
    | refine Ext.foldl_triple (fun _ _ _ => ?_) ?_ | refine Ext.of_pair (by assumption) ?_
    | refine Ext.of_triple (by assumption) ?_ | refine Ext.of_done (by assumption) ?_
    | refine Ext.of_wait (by assumption) ?_ | dsimp only | fail_if_no_progress (refine Ext.mk_of ?_) | split | intro _

theorem keep_State_popAll {F : Area → Bool} {s0 : State} (s : State) (r : Nat) (y0 : Nat) (hk : Only F [.regs, .mbx, .evt, .rings, .out, .rc]) (hx : Ext F s0 s) :
    Ext F s0 (State.popAll s r y0) := by
  induction y0 generalizing s r hx with
  | zero =>
    unfold State.popAll
    repeat' with_reducible first
      | assumption | exact Only.sub hk (by decide) | apply keep_State_complete1 | apply keep_State_setRing
      | refine Ext.of_pair (by assumption) ?_ | refine Ext.of_triple (by assumption) ?_
      | refine Ext.of_done (by assumption) ?_ | refine Ext.of_wait (by assumption) ?_
      | refine Ext.ite (fun _ => ?_) (fun _ => ?_) | dsimp only | fail_if_no_progress (refine Ext.mk_of ?_) | split
  | succ k ih =>
    unfold State.popAll
    repeat' with_reducible first
      | assumption | apply ih | exact Only.sub hk (by decide) | apply keep_State_complete1 | apply keep_State_setRing
      | refine Ext.of_pair (by assumption) ?_ | refine Ext.of_triple (by assumption) ?_
      | refine Ext.of_done (by assumption) ?_ | refine Ext.of_wait (by assumption) ?_
      | refine Ext.ite (fun _ => ?_) (fun _ => ?_) | dsimp only | fail_if_no_progress (refine Ext.mk_of ?_) | split

theorem keep_State_ringPoll {F : Area → Bool} {s0 : State} (s : State) (r : Nat) (hostWord : BitVec 64) (descs : List Desc) (hk : Only F [.regs, .rings]) (hx : Ext F s0 s) :
    Ext F s0 (State.ringPoll s r hostWord descs) := by
  unfold State.ringPoll
  repeat' with_reducible first
    | assumption | exact Only.sub hk (by decide) | apply keep_State_setRing | apply keep_State_wrF
    | refine Ext.ite (fun _ => ?_) (fun _ => ?_) | dsimp only | split | intro _

theorem keep_State_ringRead {F : Area → Bool} {s0 : State} (s : State) (r : Nat) (data : List Byte) (hk : Only F [.regs, .mbx, .evt, .rings, .out, .rc]) (hx : Ext F s0 s) :
    Ext F s0 (State.ringRead s r data) := by
  unfold State.ringRead
  repeat' with_reducible first
    | assumption | exact Only.sub hk (by decide) | apply keep_State_popAll | apply keep_State_complete1
    | apply keep_State_setRing | dsimp only | fail_if_no_progress (refine Ext.mk_of ?_)

end Sys2Proof.Laws
end

