-- ==== Sys2Proof/Laws/KeepExec.lean ====
section
/-!
SUPPORT. Every command keeps the relation Ext from the state that its time leaves.
-/

set_option Elab.async false

namespace Sys2Proof.Laws

open Sys2Proof.Machine

set_option linter.unusedTactic false
set_option linter.unreachableTactic false
set_option maxRecDepth 2000

theorem keep_serve {F : Area → Bool} {s0 : State} (o : Op) (args : Req → State → Bool) (body : Req → State → Ans) (r : Req) (s : State)
    (hk : Only F [.regs, .mbx, .out, .rc]) (hb : ∀ s0 r s, Ext F s0 s → Ext F s0 (ansSt (body r s))) (h : Ext F s0 s) : Ext F s0 (serve o args body r s) := by
  unfold serve
  refine Ext.ite (fun _ => ?_) (fun _ => Ext.ite (fun _ => ?_) (fun _ => ?_))
  · exact keep_State_answer _ _ _ _ _ (Only.sub hk (by decide)) h
  · exact keep_State_answer _ _ _ _ _ (Only.sub hk (by decide)) h
  · have hx := hb _ r _ (keep_State_setSlot _ r.part r.slot Slot.EXECUTING (Only.sub hk (by decide)) h)
    split
    · rename_i e
      exact keep_State_answer _ _ _ _ _ (Only.sub hk (by decide)) (Ext.of_done e hx)
    · rename_i e
      exact (Ext.of_wait e hx).mk_of

theorem keep_kilel {F : Area → Bool} (code : Nat) (args : Req → State → Bool) (body : Req → State → Ans) (dt : Nat) (c : Call) (s : State)
    (hk : Only F [.regs, .mbx, .out, .rc]) (hb : ∀ s0 r s, Ext F s0 s → Ext F s0 (ansSt (body r s))) : Ext F (s.tick dt) (kilel code args body dt c s) := by
  unfold kilel
  dsimp only
  have h0 := Ext.refl F (s.tick dt)
  have hu := keep_State_unpost _ c.part c.slot (Only.sub hk (by decide)) h0
  refine Ext.ite (fun _ => ?_) (fun _ => h0)
  split
  · exact keep_serve _ _ _ _ _ hk hb hu
  · exact keep_State_refuse _ _ _ _ (Only.sub hk (by decide)) hu

theorem keep_execPscBeat {F : Area → Bool} (dt : Nat) (stripe : Fin 48) (io : BeatIo) (s : State) (hk : Only F [.regs, .mem, .nv, .mbx, .evt, .ing, .items, .rings, .cpl, .crs, .lnd, .dmc, .pwr, .free, .out, .spd, .rc]) (t : State)
    (e : execPscBeat dt stripe io s = .next t) : Ext F (s.tick dt) t := by
  unfold execPscBeat at e
  obtain rfl := Host.Outcome.next.inj e
  repeat' with_reducible first
    | assumption | exact Only.sub hk (by decide) | intro _ | exact Ext.refl _ _ | apply keep_State_pscStep
    | refine Ext.of_pair (by assumption) ?_ | refine Ext.of_triple (by assumption) ?_
    | refine Ext.of_done (by assumption) ?_ | refine Ext.of_wait (by assumption) ?_
    | refine Ext.ite (fun _ => ?_) (fun _ => ?_) | dsimp only | split | simp only [id_eq]

theorem keep_execBkcBeat {F : Area → Bool} (dt : Nat) (stripe : Fin 48) (io : CodeIo) (s : State) (hk : Only F [.regs, .mem, .nv, .mbx, .evt, .ing, .items, .rings, .cpl, .crs, .lnd, .dmc, .pwr, .free, .out, .spd, .rc]) (t : State)
    (e : execBkcBeat dt stripe io s = .next t) : Ext F (s.tick dt) t := by
  unfold execBkcBeat at e
  obtain rfl := Host.Outcome.next.inj e
  repeat' with_reducible first
    | assumption | exact Only.sub hk (by decide) | intro _ | exact Ext.refl _ _ | apply keep_State_bkcCode
    | apply keep_State_bkcBlock | refine Ext.of_pair (by assumption) ?_ | refine Ext.of_triple (by assumption) ?_
    | refine Ext.of_done (by assumption) ?_ | refine Ext.of_wait (by assumption) ?_
    | refine Ext.ite (fun _ => ?_) (fun _ => ?_) | dsimp only | split | simp only [id_eq]

theorem keep_execBkcJobStart {F : Area → Bool} (dt : Nat) (s : State) (hk : Only F [.regs, .mbx, .evt, .ing, .bkc, .out, .rc]) (t : State)
    (e : execBkcJobStart dt s = .next t) : Ext F (s.tick dt) t := by
  unfold execBkcJobStart at e
  obtain rfl := Host.Outcome.next.inj e
  repeat' with_reducible first
    | assumption | exact Only.sub hk (by decide) | intro _ | exact Ext.refl _ _ | apply keep_State_jobBegin
    | refine Ext.ite (fun _ => ?_) (fun _ => ?_) | dsimp only | split | simp only [id_eq]

theorem keep_execBkcJobCompletion {F : Area → Bool} (dt : Nat) (frames : Nat) (stripes : Nat) (ue : List (Fin 48)) (par : List (Fin 48)) (s : State) (hk : Only F [.regs, .mem, .nv, .mbx, .evt, .ing, .bkc, .items, .dmc, .pwr, .free, .out, .spd, .rc]) (t : State)
    (e : execBkcJobCompletion dt frames stripes ue par s = .next t) : Ext F (s.tick dt) t := by
  unfold execBkcJobCompletion at e
  obtain rfl := Host.Outcome.next.inj e
  repeat' with_reducible first
    | assumption | exact Only.sub hk (by decide) | intro _ | exact Ext.refl _ _ | apply keep_State_jobFinish
    | refine Ext.of_pair (by assumption) ?_ | refine Ext.of_triple (by assumption) ?_
    | refine Ext.of_done (by assumption) ?_ | refine Ext.of_wait (by assumption) ?_
    | refine Ext.ite (fun _ => ?_) (fun _ => ?_) | dsimp only | split | simp only [id_eq]

theorem keep_execTakeConfig {F : Area → Bool} (dt : Nat) (c : Call) (s : State) (hk : Only F [.regs, .mbx, .lnd, .out, .rc]) (t : State)
    (e : execTakeConfig dt c s = .next t) : Ext F (s.tick dt) t := by
  unfold execTakeConfig at e
  obtain rfl := Host.Outcome.next.inj e
  repeat' with_reducible first
    | assumption | exact Only.sub hk (by decide) | intro _ | exact Ext.refl _ _ | apply keep_kilel
    | apply keep_takeConfig | apply keep_takeCmd | refine Ext.ite (fun _ => ?_) (fun _ => ?_)
    | refine Ext.ite_ans (fun _ => ?_) (fun _ => ?_) | refine Ext.done ?_ | dsimp only | split | simp only [id_eq]

theorem keep_execTakeDirRead {F : Area → Bool} (dt : Nat) (c : Call) (s : State) (hk : Only F [.regs, .mbx, .out, .rc]) (t : State)
    (e : execTakeDirRead dt c s = .next t) : Ext F (s.tick dt) t := by
  unfold execTakeDirRead at e
  obtain rfl := Host.Outcome.next.inj e
  repeat' with_reducible first
    | assumption | exact Only.sub hk (by decide) | intro _ | exact Ext.refl _ _ | apply keep_kilel
    | apply keep_takeDirRead | refine Ext.ite (fun _ => ?_) (fun _ => ?_)
    | refine Ext.ite_ans (fun _ => ?_) (fun _ => ?_) | refine Ext.done ?_ | dsimp only | split | simp only [id_eq]

theorem keep_execTakeArm {F : Area → Bool} (dt : Nat) (c : Call) (s : State) (hk : Only F [.regs, .mbx, .ing, .allocs, .lnd, .pwr, .free, .out, .rc]) (t : State)
    (e : execTakeArm dt c s = .next t) : Ext F (s.tick dt) t := by
  unfold execTakeArm at e
  obtain rfl := Host.Outcome.next.inj e
  repeat' with_reducible first
    | assumption | exact Only.sub hk (by decide) | intro _ | exact Ext.refl _ _ | apply keep_kilel
    | apply keep_takeArm | apply keep_takeCmd | refine Ext.ite (fun _ => ?_) (fun _ => ?_)
    | refine Ext.ite_ans (fun _ => ?_) (fun _ => ?_) | refine Ext.done ?_ | dsimp only | split | simp only [id_eq]

theorem keep_execTakeDisarm {F : Area → Bool} (dt : Nat) (c : Call) (s : State) (hk : Only F [.regs, .mbx, .allocs, .lnd, .out, .rc]) (t : State)
    (e : execTakeDisarm dt c s = .next t) : Ext F (s.tick dt) t := by
  unfold execTakeDisarm at e
  obtain rfl := Host.Outcome.next.inj e
  repeat' with_reducible first
    | assumption | exact Only.sub hk (by decide) | intro _ | exact Ext.refl _ _ | apply keep_kilel
    | apply keep_takeDisarm | apply keep_takeCmd | refine Ext.ite (fun _ => ?_) (fun _ => ?_)
    | refine Ext.ite_ans (fun _ => ?_) (fun _ => ?_) | refine Ext.done ?_ | dsimp only | split | simp only [id_eq]

theorem keep_execTakeStart {F : Area → Bool} (dt : Nat) (c : Call) (s : State) (hk : Only F [.regs, .mbx, .evt, .lnd, .out, .rc]) (t : State)
    (e : execTakeStart dt c s = .next t) : Ext F (s.tick dt) t := by
  unfold execTakeStart at e
  obtain rfl := Host.Outcome.next.inj e
  repeat' with_reducible first
    | assumption | exact Only.sub hk (by decide) | intro _ | exact Ext.refl _ _ | apply keep_kilel
    | apply keep_takeStart | apply keep_takeCmd | refine Ext.ite (fun _ => ?_) (fun _ => ?_)
    | refine Ext.ite_ans (fun _ => ?_) (fun _ => ?_) | refine Ext.done ?_ | dsimp only | split | simp only [id_eq]

theorem keep_execTakeStop {F : Area → Bool} (dt : Nat) (c : Call) (s : State) (hk : Only F [.regs, .mbx, .lnd, .out, .rc]) (t : State)
    (e : execTakeStop dt c s = .next t) : Ext F (s.tick dt) t := by
  unfold execTakeStop at e
  obtain rfl := Host.Outcome.next.inj e
  repeat' with_reducible first
    | assumption | exact Only.sub hk (by decide) | intro _ | exact Ext.refl _ _ | apply keep_kilel
    | apply keep_takeStop | apply keep_takeCmd | refine Ext.ite (fun _ => ?_) (fun _ => ?_)
    | refine Ext.ite_ans (fun _ => ?_) (fun _ => ?_) | refine Ext.done ?_ | dsimp only | split | simp only [id_eq]

theorem keep_execTakeTrigger {F : Area → Bool} (dt : Nat) (c : Call) (s : State) (hk : Only F [.regs, .mbx, .evt, .lnd, .out, .rc]) (t : State)
    (e : execTakeTrigger dt c s = .next t) : Ext F (s.tick dt) t := by
  unfold execTakeTrigger at e
  obtain rfl := Host.Outcome.next.inj e
  repeat' with_reducible first
    | assumption | exact Only.sub hk (by decide) | intro _ | exact Ext.refl _ _ | apply keep_kilel
    | apply keep_takeTrigger | apply keep_takeCmd | refine Ext.ite (fun _ => ?_) (fun _ => ?_)
    | refine Ext.ite_ans (fun _ => ?_) (fun _ => ?_) | refine Ext.done ?_ | dsimp only | split | simp only [id_eq]

theorem keep_execTakeDelete {F : Area → Bool} (dt : Nat) (c : Call) (s : State) (hk : Only F [.regs, .nv, .mbx, .allocs, .lnd, .nvHeld, .out, .rc]) (t : State)
    (e : execTakeDelete dt c s = .next t) : Ext F (s.tick dt) t := by
  unfold execTakeDelete at e
  obtain rfl := Host.Outcome.next.inj e
  repeat' with_reducible first
    | assumption | exact Only.sub hk (by decide) | intro _ | exact Ext.refl _ _ | apply keep_kilel
    | apply keep_takeDelete | apply keep_takeCmd | refine Ext.ite (fun _ => ?_) (fun _ => ?_)
    | refine Ext.ite_ans (fun _ => ?_) (fun _ => ?_) | refine Ext.done ?_ | dsimp only | split | simp only [id_eq]

theorem keep_execTakeRead {F : Area → Bool} (dt : Nat) (c : Call) (ue : List Nat) (s : State) (hk : Only F [.regs, .mbx, .evt, .items, .rings, .cpl, .lnd, .out, .rc]) (t : State)
    (e : execTakeRead dt c ue s = .next t) : Ext F (s.tick dt) t := by
  unfold execTakeRead at e
  obtain rfl := Host.Outcome.next.inj e
  repeat' with_reducible first
    | assumption | exact Only.sub hk (by decide) | intro _ | exact Ext.refl _ _ | apply keep_kilel
    | apply keep_takeRead | apply keep_takeCmd | refine Ext.ite (fun _ => ?_) (fun _ => ?_)
    | refine Ext.ite_ans (fun _ => ?_) (fun _ => ?_) | refine Ext.done ?_ | dsimp only | split | simp only [id_eq]

theorem keep_execLandingStatus {F : Area → Bool} (dt : Nat) (c : Call) (s : State) (hk : Only F [.regs, .mbx, .out, .rc]) (t : State)
    (e : execLandingStatus dt c s = .next t) : Ext F (s.tick dt) t := by
  unfold execLandingStatus at e
  obtain rfl := Host.Outcome.next.inj e
  repeat' with_reducible first
    | assumption | exact Only.sub hk (by decide) | intro _ | exact Ext.refl _ _ | apply keep_kilel
    | apply keep_landingStatus | refine Ext.ite (fun _ => ?_) (fun _ => ?_)
    | refine Ext.ite_ans (fun _ => ?_) (fun _ => ?_) | refine Ext.done ?_ | dsimp only | split | simp only [id_eq]

theorem keep_execLandingUnitWrite {F : Area → Bool} (dt : Nat) (slot : Fin 16) (cut : Option Nat) (s : State) (hk : Only F [.regs, .mem, .nv, .mbx, .evt, .ing, .items, .rings, .cpl, .crs, .lnd, .dmc, .pwr, .free, .out, .spd, .rc]) (t : State)
    (e : execLandingUnitWrite dt slot cut s = .next t) : Ext F (s.tick dt) t := by
  unfold execLandingUnitWrite at e
  obtain rfl := Host.Outcome.next.inj e
  repeat' with_reducible first
    | assumption | exact Only.sub hk (by decide) | intro _ | exact Ext.refl _ _ | apply keep_State_landUnit
    | refine Ext.of_pair (by assumption) ?_ | refine Ext.of_triple (by assumption) ?_
    | refine Ext.of_done (by assumption) ?_ | refine Ext.of_wait (by assumption) ?_
    | refine Ext.ite (fun _ => ?_) (fun _ => ?_) | dsimp only | split | simp only [id_eq]

theorem keep_execTakeFinalisation {F : Area → Bool} (dt : Nat) (slot : Fin 16) (s : State) (hk : Only F [.regs, .mem, .nv, .mbx, .evt, .ing, .items, .rings, .cpl, .crs, .lnd, .dmc, .pwr, .free, .out, .spd, .rc]) (t : State)
    (e : execTakeFinalisation dt slot s = .next t) : Ext F (s.tick dt) t := by
  unfold execTakeFinalisation at e
  obtain rfl := Host.Outcome.next.inj e
  repeat' with_reducible first
    | assumption | exact Only.sub hk (by decide) | intro _ | exact Ext.refl _ _ | apply keep_State_tryFinal
    | apply keep_State_settle | refine Ext.ite (fun _ => ?_) (fun _ => ?_) | dsimp only | split | simp only [id_eq]

theorem keep_execTakeEntryWritten {F : Area → Bool} (dt : Nat) (slot : Fin 16) (s : State) (hk : Only F [.regs, .nv, .mbx, .evt, .lnd, .nvHeld, .out, .rc]) (t : State)
    (e : execTakeEntryWritten dt slot s = .next t) : Ext F (s.tick dt) t := by
  unfold execTakeEntryWritten at e
  obtain rfl := Host.Outcome.next.inj e
  repeat' with_reducible first
    | assumption | exact Only.sub hk (by decide) | intro _ | exact Ext.refl _ _ | apply keep_State_entryWritten
    | refine Ext.ite (fun _ => ?_) (fun _ => ?_) | dsimp only | split | simp only [id_eq]

theorem keep_execLaneCdrLock {F : Area → Bool} (dt : Nat) (lane : Fin 64) (s : State) (hk : Only F [.regs]) (t : State)
    (e : execLaneCdrLock dt lane s = .next t) : Ext F (s.tick dt) t := by
  unfold execLaneCdrLock at e
  obtain rfl := Host.Outcome.next.inj e
  repeat' with_reducible first
    | assumption | exact Only.sub hk (by decide) | intro _ | exact Ext.refl _ _ | apply keep_State_setLane
    | refine Ext.ite (fun _ => ?_) (fun _ => ?_) | dsimp only | split | simp only [id_eq]

theorem keep_execLaneCdrTimeout {F : Area → Bool} (dt : Nat) (lane : Fin 64) (s : State) (hk : Only F [.regs, .nv, .mbx, .evt, .items, .pwr, .out, .rc]) (t : State)
    (e : execLaneCdrTimeout dt lane s = .next t) : Ext F (s.tick dt) t := by
  unfold execLaneCdrTimeout at e
  obtain rfl := Host.Outcome.next.inj e
  repeat' with_reducible first
    | assumption | exact Only.sub hk (by decide) | intro _ | exact Ext.refl _ _ | apply keep_State_failLane
    | refine Ext.ite (fun _ => ?_) (fun _ => ?_) | dsimp only | split | simp only [id_eq]

theorem keep_execLaneBlockLock {F : Area → Bool} (dt : Nat) (lane : Fin 64) (s : State) (hk : Only F [.regs, .lnk]) (t : State)
    (e : execLaneBlockLock dt lane s = .next t) : Ext F (s.tick dt) t := by
  unfold execLaneBlockLock at e
  obtain rfl := Host.Outcome.next.inj e
  repeat' with_reducible first
    | assumption | exact Only.sub hk (by decide) | intro _ | exact Ext.refl _ _ | apply keep_State_setLane
    | refine Ext.ite (fun _ => ?_) (fun _ => ?_) | dsimp only | fail_if_no_progress (refine Ext.mk_of ?_) | split
    | simp only [id_eq]

theorem keep_execLaneLockLoss {F : Area → Bool} (dt : Nat) (lane : Fin 64) (s : State) (hk : Only F [.regs, .mbx, .evt, .lnk, .ing, .out, .rc]) (t : State)
    (e : execLaneLockLoss dt lane s = .next t) : Ext F (s.tick dt) t := by
  unfold execLaneLockLoss at e
  obtain rfl := Host.Outcome.next.inj e
  repeat' with_reducible first
    | assumption | exact Only.sub hk (by decide) | intro _ | exact Ext.refl _ _ | apply keep_State_dropLane
    | apply keep_State_bump | refine Ext.ite (fun _ => ?_) (fun _ => ?_) | dsimp only | split | simp only [id_eq]

theorem keep_execLaneSignalLoss {F : Area → Bool} (dt : Nat) (lane : Fin 64) (s : State) (hk : Only F [.regs, .mbx, .evt, .lnk, .ing, .out, .rc]) (t : State)
    (e : execLaneSignalLoss dt lane s = .next t) : Ext F (s.tick dt) t := by
  unfold execLaneSignalLoss at e
  obtain rfl := Host.Outcome.next.inj e
  repeat' with_reducible first
    | assumption | exact Only.sub hk (by decide) | intro _ | exact Ext.refl _ _ | apply keep_State_dropLane
    | refine Ext.ite (fun _ => ?_) (fun _ => ?_) | dsimp only | split | simp only [id_eq]

theorem keep_execAlignBlock {F : Area → Bool} (dt : Nat) (lane : Fin 64) (h0 : Bool) (h1 : Bool) (pay : BitVec 256) (gap : Nat) (skewUi : Nat) (s : State) (hk : Only F [.regs, .nv, .mbx, .evt, .lnk, .ing, .items, .dmc, .pwr, .out, .rc]) (t : State)
    (e : execAlignBlock dt lane h0 h1 pay gap skewUi s = .next t) : Ext F (s.tick dt) t := by
  unfold execAlignBlock at e
  obtain rfl := Host.Outcome.next.inj e
  repeat' with_reducible first
    | assumption | exact Only.sub hk (by decide) | intro _ | exact Ext.refl _ _ | apply keep_State_takeBlock
    | apply keep_State_emit | refine Ext.ite (fun _ => ?_) (fun _ => ?_) | dsimp only | split | simp only [id_eq]

theorem keep_execLaneAlignTimeout {F : Area → Bool} (dt : Nat) (lane : Fin 64) (s : State) (hk : Only F [.regs, .nv, .mbx, .evt, .items, .pwr, .out, .rc]) (t : State)
    (e : execLaneAlignTimeout dt lane s = .next t) : Ext F (s.tick dt) t := by
  unfold execLaneAlignTimeout at e
  obtain rfl := Host.Outcome.next.inj e
  repeat' with_reducible first
    | assumption | exact Only.sub hk (by decide) | intro _ | exact Ext.refl _ _ | apply keep_State_failLane
    | apply keep_State_setLane | refine Ext.ite (fun _ => ?_) (fun _ => ?_) | dsimp only | split | simp only [id_eq]

theorem keep_execPrbsCheckerLock {F : Area → Bool} (dt : Nat) (rx : PrbsRx) (s : State) (hk : Only F [.regs, .lnk, .dmc, .rc]) (t : State)
    (e : execPrbsCheckerLock dt rx s = .next t) : Ext F (s.tick dt) t := by
  unfold execPrbsCheckerLock at e
  obtain rfl := Host.Outcome.next.inj e
  repeat' with_reducible first
    | assumption | exact Only.sub hk (by decide) | intro _ | exact Ext.refl _ _ | apply keep_State_prbsSend
    | apply keep_State_prbsBit | refine Ext.foldl (fun _ _ _ => ?_) ?_ | refine Ext.foldl_pair (fun _ _ _ => ?_) ?_
    | refine Ext.foldl_triple (fun _ _ _ => ?_) ?_ | refine Ext.of_pair (by assumption) ?_
    | refine Ext.of_triple (by assumption) ?_ | refine Ext.of_done (by assumption) ?_
    | refine Ext.of_wait (by assumption) ?_ | refine Ext.ite (fun _ => ?_) (fun _ => ?_) | dsimp only | split
    | simp only [id_eq]

theorem keep_execLoopbackSet {F : Area → Bool} (dt : Nat) (c : Call) (lane : Fin 64) (mode : Fin 4) (s : State) (hk : Only F [.regs, .mbx, .out, .rc]) (t : State)
    (e : execLoopbackSet dt c lane mode s = .next t) : Ext F (s.tick dt) t := by
  unfold execLoopbackSet at e
  obtain rfl := Host.Outcome.next.inj e
  repeat' with_reducible first
    | assumption | exact Only.sub hk (by decide) | intro _ | exact Ext.refl _ _ | apply keep_kilel
    | apply keep_State_wr | refine Ext.ite (fun _ => ?_) (fun _ => ?_)
    | refine Ext.ite_ans (fun _ => ?_) (fun _ => ?_) | refine Ext.done ?_ | dsimp only | split | simp only [id_eq]

theorem keep_execPrbsConfig {F : Area → Bool} (dt : Nat) (c : Call) (lane : Fin 64) (v : Word) (s : State) (hk : Only F [.regs, .mbx, .lnk, .out, .rc]) (t : State)
    (e : execPrbsConfig dt c lane v s = .next t) : Ext F (s.tick dt) t := by
  unfold execPrbsConfig at e
  obtain rfl := Host.Outcome.next.inj e
  repeat' with_reducible first
    | assumption | exact Only.sub hk (by decide) | intro _ | exact Ext.refl _ _ | apply keep_kilel
    | apply keep_State_prbsWrite | refine Ext.ite (fun _ => ?_) (fun _ => ?_)
    | refine Ext.ite_ans (fun _ => ?_) (fun _ => ?_) | refine Ext.done ?_ | dsimp only | split | simp only [id_eq]

theorem keep_execLinkStatus {F : Area → Bool} (dt : Nat) (c : Call) (s : State) (hk : Only F [.regs, .mbx, .out, .rc]) (t : State)
    (e : execLinkStatus dt c s = .next t) : Ext F (s.tick dt) t := by
  unfold execLinkStatus at e
  obtain rfl := Host.Outcome.next.inj e
  repeat' with_reducible first
    | assumption | exact Only.sub hk (by decide) | intro _ | exact Ext.refl _ _ | apply keep_kilel
    | refine Ext.ite (fun _ => ?_) (fun _ => ?_) | refine Ext.ite_ans (fun _ => ?_) (fun _ => ?_) | refine Ext.done ?_
    | dsimp only | split | simp only [id_eq]

theorem keep_execSqCreate {F : Area → Bool} (dt : Nat) (c : Call) (s : State) (hk : Only F [.regs, .mbx, .lnd, .free, .out, .rc]) (t : State)
    (e : execSqCreate dt c s = .next t) : Ext F (s.tick dt) t := by
  unfold execSqCreate at e
  obtain rfl := Host.Outcome.next.inj e
  repeat' with_reducible first
    | assumption | exact Only.sub hk (by decide) | intro _ | exact Ext.refl _ _ | apply keep_kilel
    | apply keep_sqCreate | refine Ext.ite (fun _ => ?_) (fun _ => ?_)
    | refine Ext.ite_ans (fun _ => ?_) (fun _ => ?_) | refine Ext.done ?_ | dsimp only | split | simp only [id_eq]

theorem keep_execSqDelete {F : Area → Bool} (dt : Nat) (c : Call) (qid : Fin 32) (s : State) (hk : Only F [.regs, .mbx, .lnd, .out, .rc]) (t : State)
    (e : execSqDelete dt c qid s = .next t) : Ext F (s.tick dt) t := by
  unfold execSqDelete at e
  obtain rfl := Host.Outcome.next.inj e
  repeat' with_reducible first
    | assumption | exact Only.sub hk (by decide) | intro _ | exact Ext.refl _ _ | apply keep_kilel
    | apply keep_sqDelete | refine Ext.ite (fun _ => ?_) (fun _ => ?_)
    | refine Ext.ite_ans (fun _ => ?_) (fun _ => ?_) | refine Ext.done ?_ | dsimp only | split | simp only [id_eq]

theorem keep_execSqAbort {F : Area → Bool} (dt : Nat) (c : Call) (qid : Fin 32) (tag : Fin 32) (s : State) (hk : Only F [.regs, .mbx, .evt, .lnd, .out, .rc]) (t : State)
    (e : execSqAbort dt c qid tag s = .next t) : Ext F (s.tick dt) t := by
  unfold execSqAbort at e
  obtain rfl := Host.Outcome.next.inj e
  repeat' with_reducible first
    | assumption | exact Only.sub hk (by decide) | intro _ | exact Ext.refl _ _ | apply keep_kilel
    | apply keep_sqAbort | refine Ext.ite (fun _ => ?_) (fun _ => ?_) | refine Ext.ite_ans (fun _ => ?_) (fun _ => ?_)
    | refine Ext.done ?_ | dsimp only | split | simp only [id_eq]

theorem keep_execSqStatus {F : Area → Bool} (dt : Nat) (c : Call) (qid : Fin 32) (s : State) (hk : Only F [.regs, .mbx, .out, .rc]) (t : State)
    (e : execSqStatus dt c qid s = .next t) : Ext F (s.tick dt) t := by
  unfold execSqStatus at e
  obtain rfl := Host.Outcome.next.inj e
  repeat' with_reducible first
    | assumption | exact Only.sub hk (by decide) | intro _ | exact Ext.refl _ _ | apply keep_kilel
    | apply keep_sqStatus | refine Ext.ite (fun _ => ?_) (fun _ => ?_)
    | refine Ext.ite_ans (fun _ => ?_) (fun _ => ?_) | refine Ext.done ?_ | dsimp only | split | simp only [id_eq]

theorem keep_execSqPoll {F : Area → Bool} (dt : Nat) (qid : Fin 32) (hostWord : BitVec 64) (cmds : List (BitVec 512)) (s : State) (hk : Only F [.time, .regs, .mbx, .evt, .lnd, .tim, .free, .out, .rc]) (t : State)
    (e : execSqPoll dt qid hostWord cmds s = .next t) : Ext F (s.tick dt) t := by
  unfold execSqPoll at e
  obtain rfl := Host.Outcome.next.inj e
  repeat' with_reducible first
    | assumption | exact Only.sub hk (by decide) | intro _ | exact Ext.refl _ _ | apply keep_State_sqPolled
    | refine Ext.of_pair (by assumption) ?_ | refine Ext.of_triple (by assumption) ?_
    | refine Ext.of_done (by assumption) ?_ | refine Ext.of_wait (by assumption) ?_
    | refine Ext.ite (fun _ => ?_) (fun _ => ?_) | dsimp only | split | simp only [id_eq]

theorem keep_execSqRead {F : Area → Bool} (dt : Nat) (qid : Fin 32) (s : State) (hk : Only F [.lnd]) (t : State)
    (e : execSqRead dt qid s = .next t) : Ext F (s.tick dt) t := by
  unfold execSqRead at e
  obtain rfl := Host.Outcome.next.inj e
  repeat' with_reducible first
    | assumption | exact Only.sub hk (by decide) | intro _ | exact Ext.refl _ _ | apply keep_State_sqStart
    | refine Ext.of_pair (by assumption) ?_ | refine Ext.of_triple (by assumption) ?_
    | refine Ext.of_done (by assumption) ?_ | refine Ext.of_wait (by assumption) ?_
    | refine Ext.ite (fun _ => ?_) (fun _ => ?_) | dsimp only | split | simp only [id_eq]

theorem keep_execSqWrite {F : Area → Bool} (dt : Nat) (qid : Fin 32) (data : Option (List Byte)) (s : State) (hk : Only F [.regs, .mbx, .evt, .lnd, .out, .rc]) (t : State)
    (e : execSqWrite dt qid data s = .next t) : Ext F (s.tick dt) t := by
  unfold execSqWrite at e
  obtain rfl := Host.Outcome.next.inj e
  repeat' with_reducible first
    | assumption | exact Only.sub hk (by decide) | intro _ | exact Ext.refl _ _ | apply keep_State_sqWriteStart
    | refine Ext.ite (fun _ => ?_) (fun _ => ?_) | dsimp only | split | simp only [id_eq]

theorem keep_execSqAtomicWrite {F : Area → Bool} (dt : Nat) (qid : Fin 32) (data : Option (List Byte)) (s : State) (hk : Only F [.regs, .mbx, .evt, .lnd, .out, .rc]) (t : State)
    (e : execSqAtomicWrite dt qid data s = .next t) : Ext F (s.tick dt) t := by
  unfold execSqAtomicWrite at e
  obtain rfl := Host.Outcome.next.inj e
  repeat' with_reducible first
    | assumption | exact Only.sub hk (by decide) | intro _ | exact Ext.refl _ _ | apply keep_State_sqWriteStart
    | refine Ext.ite (fun _ => ?_) (fun _ => ?_) | dsimp only | split | simp only [id_eq]

theorem keep_execSqNop {F : Area → Bool} (dt : Nat) (qid : Fin 32) (s : State) (hk : Only F [.regs, .mbx, .evt, .lnd, .out, .rc]) (t : State)
    (e : execSqNop dt qid s = .next t) : Ext F (s.tick dt) t := by
  unfold execSqNop at e
  obtain rfl := Host.Outcome.next.inj e
  repeat' with_reducible first
    | assumption | exact Only.sub hk (by decide) | intro _ | exact Ext.refl _ _ | apply keep_State_sqEnd
    | refine Ext.of_pair (by assumption) ?_ | refine Ext.of_triple (by assumption) ?_
    | refine Ext.of_done (by assumption) ?_ | refine Ext.of_wait (by assumption) ?_
    | refine Ext.ite (fun _ => ?_) (fun _ => ?_) | dsimp only | split | simp only [id_eq]

theorem keep_execUaHoldExpiry {F : Area → Bool} (dt : Nat) (s : State) (hk : Only F [.nv, .lnd]) (t : State)
    (e : execUaHoldExpiry dt s = .next t) : Ext F (s.tick dt) t := by
  unfold execUaHoldExpiry at e
  obtain rfl := Host.Outcome.next.inj e
  repeat' with_reducible first
    | assumption | exact Only.sub hk (by decide) | intro _ | exact Ext.refl _ _ | apply keep_State_uaHeld
    | refine Ext.of_pair (by assumption) ?_ | refine Ext.of_triple (by assumption) ?_
    | refine Ext.of_done (by assumption) ?_ | refine Ext.of_wait (by assumption) ?_
    | refine Ext.ite (fun _ => ?_) (fun _ => ?_) | dsimp only | split | simp only [id_eq]

theorem keep_execErrInject {F : Area → Bool} (dt : Nat) (c : Call) (kind : Nat) (target : BitVec 40) (count : Nat) (s : State) (hk : Only F [.regs, .mbx, .evt, .lnk, .ing, .dmc, .out, .rc]) (t : State)
    (e : execErrInject dt c kind target count s = .next t) : Ext F (s.tick dt) t := by
  unfold execErrInject at e
  obtain rfl := Host.Outcome.next.inj e
  repeat' with_reducible first
    | assumption | exact Only.sub hk (by decide) | intro _ | exact Ext.refl _ _ | apply keep_kilel
    | apply keep_errInject | refine Ext.ite (fun _ => ?_) (fun _ => ?_)
    | refine Ext.ite_ans (fun _ => ?_) (fun _ => ?_) | refine Ext.done ?_ | dsimp only | split | simp only [id_eq]

theorem keep_execSpdHandoverComplete {F : Area → Bool} (dt : Nat) (bank : Fin 64) (s : State) (hk : Only F [.regs, .mem, .dmc]) (t : State)
    (e : execSpdHandoverComplete dt bank s = .next t) : Ext F (s.tick dt) t := by
  unfold execSpdHandoverComplete at e
  obtain rfl := Host.Outcome.next.inj e
  repeat' with_reducible first
    | assumption | exact Only.sub hk (by decide) | intro _ | exact Ext.refl _ _ | apply keep_State_spdZero
    | apply keep_State_wr | refine Ext.ite (fun _ => ?_) (fun _ => ?_) | dsimp only | split | simp only [id_eq]

theorem keep_execChuteWrite {F : Area → Bool} (dt : Nat) (chute : Fin 128) (kind : Fin 3) (data : BitVec 64) (poison : Bool) (s : State) (hk : Only F [.regs, .dmc, .chutes, .rc]) (t : State)
    (e : execChuteWrite dt chute kind data poison s = .next t) : Ext F (s.tick dt) t := by
  unfold execChuteWrite at e
  obtain rfl := Host.Outcome.next.inj e
  repeat' with_reducible first
    | assumption | exact Only.sub hk (by decide) | intro _ | exact Ext.refl _ _ | apply keep_State_chutePut
    | apply keep_State_setChute | refine Ext.ite (fun _ => ?_) (fun _ => ?_) | dsimp only
    | fail_if_no_progress (refine Ext.mk_of ?_) | split | simp only [id_eq]

theorem keep_execChuteRead {F : Area → Bool} (dt : Nat) (chute : Fin 128) (s : State) (hk : Only F [.regs, .nv, .mbx, .evt, .items, .dmc, .chutes, .pwr, .out, .rc]) (t : State)
    (e : execChuteRead dt chute s = .next t) : Ext F (s.tick dt) t := by
  unfold execChuteRead at e
  obtain rfl := Host.Outcome.next.inj e
  repeat' with_reducible first
    | assumption | exact Only.sub hk (by decide) | intro _ | exact Ext.refl _ _ | apply keep_State_chuteOffer
    | apply keep_State_setChute | apply keep_State_faultItem | apply keep_State_emit | apply keep_State_bump
    | apply keep_State_wr | refine Ext.of_pair (by assumption) ?_ | refine Ext.of_triple (by assumption) ?_
    | refine Ext.of_done (by assumption) ?_ | refine Ext.of_wait (by assumption) ?_
    | refine Ext.ite (fun _ => ?_) (fun _ => ?_) | dsimp only | fail_if_no_progress (refine Ext.mk_of ?_) | split
    | simp only [id_eq]

theorem keep_execPageIdleExpiry {F : Area → Bool} (dt : Nat) (ch : Fin 32) (bank : Fin 16) (s : State) (hk : Only F [.dmc]) (t : State)
    (e : execPageIdleExpiry dt ch bank s = .next t) : Ext F (s.tick dt) t := by
  unfold execPageIdleExpiry at e
  obtain rfl := Host.Outcome.next.inj e
  repeat' with_reducible first
    | assumption | exact Only.sub hk (by decide) | intro _ | exact Ext.refl _ _ | apply keep_State_dramDrain
    | refine Ext.of_pair (by assumption) ?_ | refine Ext.of_triple (by assumption) ?_
    | refine Ext.of_done (by assumption) ?_ | refine Ext.of_wait (by assumption) ?_
    | refine Ext.ite (fun _ => ?_) (fun _ => ?_) | dsimp only | fail_if_no_progress (refine Ext.mk_of ?_) | split
    | simp only [id_eq]

theorem keep_execSelfRefreshEntry {F : Area → Bool} (dt : Nat) (ch : Fin 32) (s : State) (hk : Only F [.dmc]) (t : State)
    (e : execSelfRefreshEntry dt ch s = .next t) : Ext F (s.tick dt) t := by
  unfold execSelfRefreshEntry at e
  obtain rfl := Host.Outcome.next.inj e
  repeat' with_reducible first
    | assumption | exact Only.sub hk (by decide) | intro _ | exact Ext.refl _ _ | apply keep_State_dramDrain
    | refine Ext.ite (fun _ => ?_) (fun _ => ?_) | dsimp only | fail_if_no_progress (refine Ext.mk_of ?_) | split
    | simp only [id_eq]

theorem keep_execDqsTracking {F : Area → Bool} (dt : Nat) (ch : Fin 32) (s : State) (hk : Only F [.dmc]) (t : State)
    (e : execDqsTracking dt ch s = .next t) : Ext F (s.tick dt) t := by
  unfold execDqsTracking at e
  obtain rfl := Host.Outcome.next.inj e
  repeat' with_reducible first
    | assumption | exact Only.sub hk (by decide) | intro _ | exact Ext.refl _ _
    | refine Ext.ite (fun _ => ?_) (fun _ => ?_) | dsimp only | fail_if_no_progress (refine Ext.mk_of ?_) | split
    | simp only [id_eq]

theorem keep_execDevelopmentStart {F : Area → Bool} (dt : Nat) (tapUe : List (Nat × Nat × Nat)) (lutUe : List (Fin 8 × Fin 3)) (s : State) (hk : Only F [.regs, .nv, .mbx, .evt, .ing, .items, .cpl, .crs, .dmc, .pwr, .out, .spd, .rc]) (t : State)
    (e : execDevelopmentStart dt tapUe lutUe s = .next t) : Ext F (s.tick dt) t := by
  unfold execDevelopmentStart at e
  obtain rfl := Host.Outcome.next.inj e
  repeat' with_reducible first
    | assumption | exact Only.sub hk (by decide) | intro _ | exact Ext.refl _ _ | apply keep_State_devBegin
    | refine Ext.of_pair (by assumption) ?_ | refine Ext.of_triple (by assumption) ?_
    | refine Ext.of_done (by assumption) ?_ | refine Ext.of_wait (by assumption) ?_
    | refine Ext.ite (fun _ => ?_) (fun _ => ?_) | dsimp only | split | simp only [id_eq]

theorem keep_execScalerOutputRecord {F : Area → Bool} (dt : Nat) (scaler : Fin 8) (s : State) (hk : Only F [.regs, .mem, .nv, .mbx, .evt, .ing, .items, .rings, .cpl, .crs, .lnd, .vcd, .dmc, .pwr, .out, .spd, .rc]) (t : State)
    (e : execScalerOutputRecord dt scaler s = .next t) : Ext F (s.tick dt) t := by
  unfold execScalerOutputRecord at e
  obtain rfl := Host.Outcome.next.inj e
  repeat' with_reducible first
    | assumption | exact Only.sub hk (by decide) | intro _ | exact Ext.refl _ _ | apply keep_State_scRecord
    | refine Ext.of_pair (by assumption) ?_ | refine Ext.of_triple (by assumption) ?_
    | refine Ext.of_done (by assumption) ?_ | refine Ext.of_wait (by assumption) ?_
    | refine Ext.ite (fun _ => ?_) (fun _ => ?_) | dsimp only | split | simp only [id_eq]

theorem keep_execStatsRecordComplete {F : Area → Bool} (dt : Nat) (full : Bool) (parity : Bool) (s : State) (hk : Only F [.regs, .mem, .nv, .mbx, .evt, .items, .rings, .cpl, .crs, .lnd, .dmc, .pwr, .free, .out, .spd, .rc]) (t : State)
    (e : execStatsRecordComplete dt full parity s = .next t) : Ext F (s.tick dt) t := by
  unfold execStatsRecordComplete at e
  obtain rfl := Host.Outcome.next.inj e
  repeat' with_reducible first
    | assumption | exact Only.sub hk (by decide) | intro _ | exact Ext.refl _ _ | apply keep_State_statsDrop
    | apply keep_State_stage | apply keep_State_faultItem | apply keep_State_bump
    | refine Ext.of_pair (by assumption) ?_ | refine Ext.of_triple (by assumption) ?_
    | refine Ext.of_done (by assumption) ?_ | refine Ext.of_wait (by assumption) ?_
    | refine Ext.ite (fun _ => ?_) (fun _ => ?_) | dsimp only | fail_if_no_progress (refine Ext.mk_of ?_) | split
    | simp only [id_eq]

theorem keep_execPipeStatus {F : Area → Bool} (dt : Nat) (c : Call) (s : State) (hk : Only F [.regs, .mbx, .out, .rc]) (t : State)
    (e : execPipeStatus dt c s = .next t) : Ext F (s.tick dt) t := by
  unfold execPipeStatus at e
  obtain rfl := Host.Outcome.next.inj e
  repeat' with_reducible first
    | assumption | exact Only.sub hk (by decide) | intro _ | exact Ext.refl _ _ | apply keep_kilel
    | apply keep_pipeStatus | refine Ext.ite (fun _ => ?_) (fun _ => ?_)
    | refine Ext.ite_ans (fun _ => ?_) (fun _ => ?_) | refine Ext.done ?_ | dsimp only | split | simp only [id_eq]

theorem keep_execVcSessionOpen {F : Area → Bool} (dt : Nat) (c : Call) (s : State) (hk : Only F [.regs, .mbx, .vcd, .free, .out, .rc]) (t : State)
    (e : execVcSessionOpen dt c s = .next t) : Ext F (s.tick dt) t := by
  unfold execVcSessionOpen at e
  obtain rfl := Host.Outcome.next.inj e
  repeat' with_reducible first
    | assumption | exact Only.sub hk (by decide) | intro _ | exact Ext.refl _ _ | apply keep_kilel | apply keep_vcOpen
    | refine Ext.ite (fun _ => ?_) (fun _ => ?_) | refine Ext.ite_ans (fun _ => ?_) (fun _ => ?_) | refine Ext.done ?_
    | dsimp only | split | simp only [id_eq]

theorem keep_execVcSessionClose {F : Area → Bool} (dt : Nat) (c : Call) (session : Fin 64) (s : State) (hk : Only F [.regs, .mem, .nv, .mbx, .evt, .items, .rings, .cpl, .lnd, .vcd, .dmc, .pwr, .free, .out, .spd, .rc]) (t : State)
    (e : execVcSessionClose dt c session s = .next t) : Ext F (s.tick dt) t := by
  unfold execVcSessionClose at e
  obtain rfl := Host.Outcome.next.inj e
  repeat' with_reducible first
    | assumption | exact Only.sub hk (by decide) | intro _ | exact Ext.refl _ _ | apply keep_kilel
    | apply keep_vcClose | refine Ext.ite (fun _ => ?_) (fun _ => ?_) | refine Ext.ite_ans (fun _ => ?_) (fun _ => ?_)
    | refine Ext.done ?_ | dsimp only | split | simp only [id_eq]

theorem keep_execVcEncode {F : Area → Bool} (dt : Nat) (c : Call) (s : State) (hk : Only F [.regs, .mbx, .vcd, .out, .rc]) (t : State)
    (e : execVcEncode dt c s = .next t) : Ext F (s.tick dt) t := by
  unfold execVcEncode at e
  obtain rfl := Host.Outcome.next.inj e
  repeat' with_reducible first
    | assumption | exact Only.sub hk (by decide) | intro _ | exact Ext.refl _ _ | apply keep_kilel | apply keep_vcJob
    | refine Ext.ite (fun _ => ?_) (fun _ => ?_) | refine Ext.ite_ans (fun _ => ?_) (fun _ => ?_) | refine Ext.done ?_
    | dsimp only | split | simp only [id_eq]

theorem keep_execVcDecode {F : Area → Bool} (dt : Nat) (c : Call) (s : State) (hk : Only F [.regs, .mbx, .vcd, .out, .rc]) (t : State)
    (e : execVcDecode dt c s = .next t) : Ext F (s.tick dt) t := by
  unfold execVcDecode at e
  obtain rfl := Host.Outcome.next.inj e
  repeat' with_reducible first
    | assumption | exact Only.sub hk (by decide) | intro _ | exact Ext.refl _ _ | apply keep_kilel | apply keep_vcJob
    | refine Ext.ite (fun _ => ?_) (fun _ => ?_) | refine Ext.ite_ans (fun _ => ?_) (fun _ => ?_) | refine Ext.done ?_
    | dsimp only | split | simp only [id_eq]

theorem keep_execVcPoolAlloc {F : Area → Bool} (dt : Nat) (c : Call) (s : State) (hk : Only F [.regs, .mbx, .vcd, .out, .rc]) (t : State)
    (e : execVcPoolAlloc dt c s = .next t) : Ext F (s.tick dt) t := by
  unfold execVcPoolAlloc at e
  obtain rfl := Host.Outcome.next.inj e
  repeat' with_reducible first
    | assumption | exact Only.sub hk (by decide) | intro _ | exact Ext.refl _ _ | apply keep_kilel
    | apply keep_vcPoolAlloc | refine Ext.ite (fun _ => ?_) (fun _ => ?_)
    | refine Ext.ite_ans (fun _ => ?_) (fun _ => ?_) | refine Ext.done ?_ | dsimp only | split | simp only [id_eq]

theorem keep_execVcMark {F : Area → Bool} (dt : Nat) (c : Call) (session : Fin 64) (poc : Word) (mark : Fin 3) (s : State) (hk : Only F [.regs, .mbx, .vcd, .out, .rc]) (t : State)
    (e : execVcMark dt c session poc mark s = .next t) : Ext F (s.tick dt) t := by
  unfold execVcMark at e
  obtain rfl := Host.Outcome.next.inj e
  repeat' with_reducible first
    | assumption | exact Only.sub hk (by decide) | intro _ | exact Ext.refl _ _ | apply keep_kilel | apply keep_vcMark
    | refine Ext.ite (fun _ => ?_) (fun _ => ?_) | refine Ext.ite_ans (fun _ => ?_) (fun _ => ?_) | refine Ext.done ?_
    | dsimp only | split | simp only [id_eq]

theorem keep_execVcAbort {F : Area → Bool} (dt : Nat) (c : Call) (s : State) (hk : Only F [.regs, .mbx, .evt, .vcd, .out, .rc]) (t : State)
    (e : execVcAbort dt c s = .next t) : Ext F (s.tick dt) t := by
  unfold execVcAbort at e
  obtain rfl := Host.Outcome.next.inj e
  repeat' with_reducible first
    | assumption | exact Only.sub hk (by decide) | intro _ | exact Ext.refl _ _ | apply keep_kilel
    | apply keep_vcAbort | refine Ext.ite (fun _ => ?_) (fun _ => ?_) | refine Ext.ite_ans (fun _ => ?_) (fun _ => ?_)
    | refine Ext.done ?_ | dsimp only | split | simp only [id_eq]

theorem keep_execLivePictureHold {F : Area → Bool} (dt : Nat) (session : Fin 64) (s : State) (hk : Only F [.regs, .mbx, .evt, .cpl, .vcd, .out, .rc]) (t : State)
    (e : execLivePictureHold dt session s = .next t) : Ext F (s.tick dt) t := by
  unfold execLivePictureHold at e
  obtain rfl := Host.Outcome.next.inj e
  repeat' with_reducible first
    | assumption | exact Only.sub hk (by decide) | intro _ | exact Ext.refl _ _ | apply keep_State_liveQueue
    | apply keep_State_vcSkip | refine Ext.of_pair (by assumption) ?_ | refine Ext.of_triple (by assumption) ?_
    | refine Ext.of_done (by assumption) ?_ | refine Ext.of_wait (by assumption) ?_
    | refine Ext.ite (fun _ => ?_) (fun _ => ?_) | dsimp only | fail_if_no_progress (refine Ext.mk_of ?_) | split
    | simp only [id_eq]

theorem keep_execVcSliceBoundary {F : Area → Bool} (dt : Nat) (out : SliceOut) (s : State) (hk : Only F [.regs, .mem, .nv, .mbx, .evt, .items, .rings, .cpl, .lnd, .vcd, .dmc, .pwr, .free, .out, .spd, .rc]) (t : State)
    (e : execVcSliceBoundary dt out s = .next t) : Ext F (s.tick dt) t := by
  unfold execVcSliceBoundary at e
  obtain rfl := Host.Outcome.next.inj e
  repeat' with_reducible first
    | assumption | exact Only.sub hk (by decide) | intro _ | exact Ext.refl _ _ | apply keep_State_vcSlice
    | apply keep_State_vcPick | refine Ext.of_pair (by assumption) ?_ | refine Ext.of_triple (by assumption) ?_
    | refine Ext.of_done (by assumption) ?_ | refine Ext.of_wait (by assumption) ?_
    | refine Ext.ite (fun _ => ?_) (fun _ => ?_) | dsimp only | split | simp only [id_eq]

theorem keep_execVcDecodeStart {F : Area → Bool} (dt : Nat) (s : State) (hk : Only F [.regs, .mem, .nv, .mbx, .evt, .items, .rings, .cpl, .lnd, .vcd, .dmc, .pwr, .free, .out, .spd, .rc]) (t : State)
    (e : execVcDecodeStart dt s = .next t) : Ext F (s.tick dt) t := by
  unfold execVcDecodeStart at e
  obtain rfl := Host.Outcome.next.inj e
  repeat' with_reducible first
    | assumption | exact Only.sub hk (by decide) | intro _ | exact Ext.refl _ _ | apply keep_State_decBegin
    | refine Ext.of_pair (by assumption) ?_ | refine Ext.of_triple (by assumption) ?_
    | refine Ext.of_done (by assumption) ?_ | refine Ext.of_wait (by assumption) ?_
    | refine Ext.ite (fun _ => ?_) (fun _ => ?_) | dsimp only | split | simp only [id_eq]

theorem keep_execVcDecodeDone {F : Area → Bool} (dt : Nat) (out : DecOut) (s : State) (hk : Only F [.regs, .mem, .nv, .mbx, .evt, .items, .rings, .cpl, .lnd, .vcd, .dmc, .pwr, .free, .out, .spd, .rc]) (t : State)
    (e : execVcDecodeDone dt out s = .next t) : Ext F (s.tick dt) t := by
  unfold execVcDecodeDone at e
  obtain rfl := Host.Outcome.next.inj e
  repeat' with_reducible first
    | assumption | exact Only.sub hk (by decide) | intro _ | exact Ext.refl _ _ | apply keep_State_decEnd
    | apply keep_State_vcTryClose | apply keep_State_decFree | refine Ext.of_pair (by assumption) ?_
    | refine Ext.of_triple (by assumption) ?_ | refine Ext.of_done (by assumption) ?_
    | refine Ext.of_wait (by assumption) ?_ | refine Ext.ite (fun _ => ?_) (fun _ => ?_) | dsimp only | split
    | simp only [id_eq]

theorem keep_execTimeRead {F : Area → Bool} (dt : Nat) (c : Call) (s : State) (hk : Only F [.regs, .mbx, .out, .rc]) (t : State)
    (e : execTimeRead dt c s = .next t) : Ext F (s.tick dt) t := by
  unfold execTimeRead at e
  obtain rfl := Host.Outcome.next.inj e
  repeat' with_reducible first
    | assumption | exact Only.sub hk (by decide) | intro _ | exact Ext.refl _ _ | apply keep_kilel
    | apply keep_timeRead | refine Ext.ite (fun _ => ?_) (fun _ => ?_)
    | refine Ext.ite_ans (fun _ => ?_) (fun _ => ?_) | refine Ext.done ?_ | dsimp only | split | simp only [id_eq]

theorem keep_execTimeSet {F : Area → Bool} (dt : Nat) (c : Call) (s : State) (hk : Only F [.time, .regs, .mbx, .evt, .mon, .tim, .out, .rc]) (t : State)
    (e : execTimeSet dt c s = .next t) : Ext F (s.tick dt) t := by
  unfold execTimeSet at e
  obtain rfl := Host.Outcome.next.inj e
  repeat' with_reducible first
    | assumption | exact Only.sub hk (by decide) | intro _ | exact Ext.refl _ _ | apply keep_kilel
    | apply keep_timeSet | refine Ext.ite (fun _ => ?_) (fun _ => ?_) | refine Ext.ite_ans (fun _ => ?_) (fun _ => ?_)
    | refine Ext.done ?_ | dsimp only | split | simp only [id_eq]

theorem keep_execPtpConfig {F : Area → Bool} (dt : Nat) (c : Call) (cfg : Word) (intv : Word) (servo : Word) (step : Word) (s : State) (hk : Only F [.regs, .mbx, .ep, .out, .rc]) (t : State)
    (e : execPtpConfig dt c cfg intv servo step s = .next t) : Ext F (s.tick dt) t := by
  unfold execPtpConfig at e
  obtain rfl := Host.Outcome.next.inj e
  repeat' with_reducible first
    | assumption | exact Only.sub hk (by decide) | intro _ | exact Ext.refl _ _ | apply keep_kilel
    | apply keep_ptpConfig | refine Ext.ite (fun _ => ?_) (fun _ => ?_)
    | refine Ext.ite_ans (fun _ => ?_) (fun _ => ?_) | refine Ext.done ?_ | dsimp only | split | simp only [id_eq]

theorem keep_execPtpStatus {F : Area → Bool} (dt : Nat) (c : Call) (s : State) (hk : Only F [.regs, .mbx, .out, .rc]) (t : State)
    (e : execPtpStatus dt c s = .next t) : Ext F (s.tick dt) t := by
  unfold execPtpStatus at e
  obtain rfl := Host.Outcome.next.inj e
  repeat' with_reducible first
    | assumption | exact Only.sub hk (by decide) | intro _ | exact Ext.refl _ _ | apply keep_kilel
    | apply keep_ptpStatus | refine Ext.ite (fun _ => ?_) (fun _ => ?_)
    | refine Ext.ite_ans (fun _ => ?_) (fun _ => ?_) | refine Ext.done ?_ | dsimp only | split | simp only [id_eq]

theorem keep_execTrigSchedule {F : Area → Bool} (dt : Nat) (c : Call) (s : State) (hk : Only F [.regs, .mbx, .tim, .out, .rc]) (t : State)
    (e : execTrigSchedule dt c s = .next t) : Ext F (s.tick dt) t := by
  unfold execTrigSchedule at e
  obtain rfl := Host.Outcome.next.inj e
  repeat' with_reducible first
    | assumption | exact Only.sub hk (by decide) | intro _ | exact Ext.refl _ _ | apply keep_kilel
    | apply keep_trigSchedule | refine Ext.ite (fun _ => ?_) (fun _ => ?_)
    | refine Ext.ite_ans (fun _ => ?_) (fun _ => ?_) | refine Ext.done ?_ | dsimp only | split | simp only [id_eq]

theorem keep_execTrigPinEdge {F : Area → Bool} (dt : Nat) (pin : Fin 4) (falling : Bool) (s : State) (hk : Only F [.regs, .mbx, .evt, .lnk, .lnd, .tim, .out, .rc]) (t : State)
    (e : execTrigPinEdge dt pin falling s = .next t) : Ext F (s.tick dt) t := by
  unfold execTrigPinEdge at e
  obtain rfl := Host.Outcome.next.inj e
  repeat' with_reducible first
    | assumption | exact Only.sub hk (by decide) | intro _ | exact Ext.refl _ _ | apply keep_State_trigEdge
    | refine Ext.ite (fun _ => ?_) (fun _ => ?_) | dsimp only | split | simp only [id_eq]

theorem keep_execScheduleEntryDue {F : Area → Bool} (dt : Nat) (pin : Fin 4) (strb : Bool) (s : State) (hk : Only F [.regs, .mbx, .evt, .lnk, .lnd, .tim, .out, .rc]) (t : State)
    (e : execScheduleEntryDue dt pin strb s = .next t) : Ext F (s.tick dt) t := by
  unfold execScheduleEntryDue at e
  obtain rfl := Host.Outcome.next.inj e
  repeat' with_reducible first
    | assumption | exact Only.sub hk (by decide) | intro _ | exact Ext.refl _ _ | apply keep_State_schedFire
    | refine Ext.of_pair (by assumption) ?_ | refine Ext.of_triple (by assumption) ?_
    | refine Ext.of_done (by assumption) ?_ | refine Ext.of_wait (by assumption) ?_
    | refine Ext.ite (fun _ => ?_) (fun _ => ?_) | dsimp only | split | simp only [id_eq]

theorem keep_execStrobeTrailingEdge {F : Area → Bool} (dt : Nat) (strobe : Fin 4) (s : State) (hk : Only F [.tim, .out]) (t : State)
    (e : execStrobeTrailingEdge dt strobe s = .next t) : Ext F (s.tick dt) t := by
  unfold execStrobeTrailingEdge at e
  obtain rfl := Host.Outcome.next.inj e
  repeat' with_reducible first
    | assumption | exact Only.sub hk (by decide) | intro _ | exact Ext.refl _ _ | apply keep_State_strobeEnd
    | refine Ext.of_pair (by assumption) ?_ | refine Ext.of_triple (by assumption) ?_
    | refine Ext.of_done (by assumption) ?_ | refine Ext.of_wait (by assumption) ?_
    | refine Ext.ite (fun _ => ?_) (fun _ => ?_) | dsimp only | split | simp only [id_eq]

theorem keep_execGenlockConfig {F : Area → Bool} (dt : Nat) (c : Call) (cad : Fin 4) (cfg : Word) (rate : Word) (phase : Word) (gl : Word) (s : State) (hk : Only F [.regs, .mbx, .ep, .out, .rc]) (t : State)
    (e : execGenlockConfig dt c cad cfg rate phase gl s = .next t) : Ext F (s.tick dt) t := by
  unfold execGenlockConfig at e
  obtain rfl := Host.Outcome.next.inj e
  repeat' with_reducible first
    | assumption | exact Only.sub hk (by decide) | intro _ | exact Ext.refl _ _ | apply keep_kilel
    | apply keep_genlockConfig | refine Ext.ite (fun _ => ?_) (fun _ => ?_)
    | refine Ext.ite_ans (fun _ => ?_) (fun _ => ?_) | refine Ext.done ?_ | dsimp only | split | simp only [id_eq]

theorem keep_execGenlockEdge {F : Area → Bool} (dt : Nat) (falling : Bool) (s : State) (hk : Only F [.regs, .mbx, .evt, .tim, .out, .rc]) (t : State)
    (e : execGenlockEdge dt falling s = .next t) : Ext F (s.tick dt) t := by
  unfold execGenlockEdge at e
  obtain rfl := Host.Outcome.next.inj e
  repeat' with_reducible first
    | assumption | exact Only.sub hk (by decide) | intro _ | exact Ext.refl _ _ | apply keep_State_genEdge
    | apply keep_State_timLog | refine Ext.foldl (fun _ _ _ => ?_) ?_ | refine Ext.foldl_pair (fun _ _ _ => ?_) ?_
    | refine Ext.foldl_triple (fun _ _ _ => ?_) ?_ | refine Ext.ite (fun _ => ?_) (fun _ => ?_) | dsimp only | split
    | simp only [id_eq]

theorem keep_execGenlockEdgeTimeout {F : Area → Bool} (dt : Nat) (cad : Fin 4) (s : State) (hk : Only F [.regs, .mbx, .evt, .tim, .out, .rc]) (t : State)
    (e : execGenlockEdgeTimeout dt cad s = .next t) : Ext F (s.tick dt) t := by
  unfold execGenlockEdgeTimeout at e
  obtain rfl := Host.Outcome.next.inj e
  repeat' with_reducible first
    | assumption | exact Only.sub hk (by decide) | intro _ | exact Ext.refl _ _ | apply keep_State_genBad
    | refine Ext.ite (fun _ => ?_) (fun _ => ?_) | dsimp only | split | simp only [id_eq]

theorem keep_execTimecodeSet {F : Area → Bool} (dt : Nat) (c : Call) (s : State) (hk : Only F [.regs, .mbx, .tim, .out, .rc]) (t : State)
    (e : execTimecodeSet dt c s = .next t) : Ext F (s.tick dt) t := by
  unfold execTimecodeSet at e
  obtain rfl := Host.Outcome.next.inj e
  repeat' with_reducible first
    | assumption | exact Only.sub hk (by decide) | intro _ | exact Ext.refl _ _ | apply keep_kilel
    | apply keep_timecodeSet | refine Ext.ite (fun _ => ?_) (fun _ => ?_)
    | refine Ext.ite_ans (fun _ => ?_) (fun _ => ?_) | refine Ext.done ?_ | dsimp only | split | simp only [id_eq]

theorem keep_execTimecodeFrameStart {F : Area → Bool} (dt : Nat) (s : State) (hk : Only F [.regs, .tim, .out]) (t : State)
    (e : execTimecodeFrameStart dt s = .next t) : Ext F (s.tick dt) t := by
  unfold execTimecodeFrameStart at e
  obtain rfl := Host.Outcome.next.inj e
  repeat' with_reducible first
    | assumption | exact Only.sub hk (by decide) | intro _ | exact Ext.refl _ _ | apply keep_State_tcBaseTaken
    | apply keep_State_emit | refine Ext.ite (fun _ => ?_) (fun _ => ?_) | dsimp only | split | simp only [id_eq]

theorem keep_execLtcInFrame {F : Area → Bool} (dt : Nat) (tc : Word) (s : State) (hk : Only F [.regs, .mbx, .evt, .tim, .out, .rc]) (t : State)
    (e : execLtcInFrame dt tc s = .next t) : Ext F (s.tick dt) t := by
  unfold execLtcInFrame at e
  obtain rfl := Host.Outcome.next.inj e
  repeat' with_reducible first
    | assumption | exact Only.sub hk (by decide) | intro _ | exact Ext.refl _ _ | apply keep_State_ltcTaken
    | refine Ext.of_pair (by assumption) ?_ | refine Ext.of_triple (by assumption) ?_
    | refine Ext.of_done (by assumption) ?_ | refine Ext.of_wait (by assumption) ?_
    | refine Ext.ite (fun _ => ?_) (fun _ => ?_) | dsimp only | split | simp only [id_eq]

theorem keep_execLtcInTimeout {F : Area → Bool} (dt : Nat) (s : State) (hk : Only F [.regs, .mbx, .evt, .tim, .out, .rc]) (t : State)
    (e : execLtcInTimeout dt s = .next t) : Ext F (s.tick dt) t := by
  unfold execLtcInTimeout at e
  obtain rfl := Host.Outcome.next.inj e
  repeat' with_reducible first
    | assumption | exact Only.sub hk (by decide) | intro _ | exact Ext.refl _ _ | apply keep_State_raise
    | refine Ext.ite (fun _ => ?_) (fun _ => ?_) | dsimp only | fail_if_no_progress (refine Ext.mk_of ?_) | split
    | simp only [id_eq]

theorem keep_execEthFrameReceived {F : Area → Bool} (dt : Nat) (port : Fin 2) (frame : List Byte) (residence : Nat) (busy : Bool) (s : State) (hk : Only F [.regs, .out, .rc]) (t : State)
    (e : execEthFrameReceived dt port frame residence busy s = .next t) : Ext F (s.tick dt) t := by
  unfold execEthFrameReceived at e
  obtain rfl := Host.Outcome.next.inj e
  repeat' with_reducible first
    | assumption | exact Only.sub hk (by decide) | intro _ | exact Ext.refl _ _ | apply keep_State_ethForward
    | apply keep_State_bump | refine Ext.ite (fun _ => ?_) (fun _ => ?_) | dsimp only | split | simp only [id_eq]

theorem keep_execPtpMessageReceived {F : Area → Bool} (dt : Nat) (port : Fin 2) (msg : PtpIn) (s : State) (hk : Only F [.time, .regs, .mbx, .evt, .mon, .tim, .free, .out, .rc]) (t : State)
    (e : execPtpMessageReceived dt port msg s = .next t) : Ext F (s.tick dt) t := by
  unfold execPtpMessageReceived at e
  obtain rfl := Host.Outcome.next.inj e
  repeat' with_reducible first
    | assumption | exact Only.sub hk (by decide) | intro _ | exact Ext.refl _ _ | apply keep_State_servoOffset
    | apply keep_State_setServo | apply keep_State_wrs | apply keep_State_bump | refine Ext.of_pair (by assumption) ?_
    | refine Ext.of_triple (by assumption) ?_ | refine Ext.of_done (by assumption) ?_
    | refine Ext.of_wait (by assumption) ?_ | refine Ext.ite (fun _ => ?_) (fun _ => ?_) | dsimp only
    | fail_if_no_progress (refine Ext.mk_of ?_) | split | simp only [id_eq]

theorem keep_execPtpMessageTransmit {F : Area → Bool} (dt : Nat) (port : Fin 2) (type : Fin 4) (turn : Nat) (s : State) (hk : Only F [.out]) (t : State)
    (e : execPtpMessageTransmit dt port type turn s = .next t) : Ext F (s.tick dt) t := by
  unfold execPtpMessageTransmit at e
  obtain rfl := Host.Outcome.next.inj e
  repeat' with_reducible first
    | assumption | exact Only.sub hk (by decide) | intro _ | exact Ext.refl _ _ | apply keep_State_emit
    | refine Ext.ite (fun _ => ?_) (fun _ => ?_) | dsimp only | split | simp only [id_eq]

theorem keep_execAnnounceReceiptTimeout {F : Area → Bool} (dt : Nat) (s : State) (hk : Only F [.regs, .mbx, .evt, .tim, .out, .rc]) (t : State)
    (e : execAnnounceReceiptTimeout dt s = .next t) : Ext F (s.tick dt) t := by
  unfold execAnnounceReceiptTimeout at e
  obtain rfl := Host.Outcome.next.inj e
  repeat' with_reducible first
    | assumption | exact Only.sub hk (by decide) | intro _ | exact Ext.refl _ _ | apply keep_State_setServo
    | refine Ext.of_pair (by assumption) ?_ | refine Ext.of_triple (by assumption) ?_
    | refine Ext.of_done (by assumption) ?_ | refine Ext.of_wait (by assumption) ?_
    | refine Ext.ite (fun _ => ?_) (fun _ => ?_) | dsimp only | split | simp only [id_eq]

theorem keep_execAudPortConfig {F : Area → Bool} (dt : Nat) (c : Call) (port : Fin 8) (cfg : Word) (mask : Word) (s : State) (hk : Only F [.regs, .mbx, .ep, .out, .rc]) (t : State)
    (e : execAudPortConfig dt c port cfg mask s = .next t) : Ext F (s.tick dt) t := by
  unfold execAudPortConfig at e
  obtain rfl := Host.Outcome.next.inj e
  repeat' with_reducible first
    | assumption | exact Only.sub hk (by decide) | intro _ | exact Ext.refl _ _ | apply keep_kilel
    | apply keep_audPortConfig | refine Ext.ite (fun _ => ?_) (fun _ => ?_)
    | refine Ext.ite_ans (fun _ => ?_) (fun _ => ?_) | refine Ext.done ?_ | dsimp only | split | simp only [id_eq]

theorem keep_execAudStart {F : Area → Bool} (dt : Nat) (c : Call) (s : State) (hk : Only F [.regs, .mbx, .aud, .out, .rc]) (t : State)
    (e : execAudStart dt c s = .next t) : Ext F (s.tick dt) t := by
  unfold execAudStart at e
  obtain rfl := Host.Outcome.next.inj e
  repeat' with_reducible first
    | assumption | exact Only.sub hk (by decide) | intro _ | exact Ext.refl _ _ | apply keep_kilel
    | apply keep_audStartCmd | refine Ext.ite (fun _ => ?_) (fun _ => ?_)
    | refine Ext.ite_ans (fun _ => ?_) (fun _ => ?_) | refine Ext.done ?_ | dsimp only | split | simp only [id_eq]

theorem keep_execAudStop {F : Area → Bool} (dt : Nat) (c : Call) (parts : List (Fin 8 × List (List Nat))) (s : State) (hk : Only F [.regs, .mem, .nv, .mbx, .evt, .items, .rings, .cpl, .lnd, .aud, .dmc, .pwr, .free, .out, .spd, .rc]) (t : State)
    (e : execAudStop dt c parts s = .next t) : Ext F (s.tick dt) t := by
  unfold execAudStop at e
  obtain rfl := Host.Outcome.next.inj e
  repeat' with_reducible first
    | assumption | exact Only.sub hk (by decide) | intro _ | exact Ext.refl _ _ | apply keep_kilel
    | apply keep_audStopCmd | refine Ext.ite (fun _ => ?_) (fun _ => ?_)
    | refine Ext.ite_ans (fun _ => ?_) (fun _ => ?_) | refine Ext.done ?_ | dsimp only | split | simp only [id_eq]

theorem keep_execAudMute {F : Area → Bool} (dt : Nat) (c : Call) (s : State) (hk : Only F [.regs, .mbx, .aud, .out, .rc]) (t : State)
    (e : execAudMute dt c s = .next t) : Ext F (s.tick dt) t := by
  unfold execAudMute at e
  obtain rfl := Host.Outcome.next.inj e
  repeat' with_reducible first
    | assumption | exact Only.sub hk (by decide) | intro _ | exact Ext.refl _ _ | apply keep_kilel
    | apply keep_audMute | refine Ext.ite (fun _ => ?_) (fun _ => ?_) | refine Ext.ite_ans (fun _ => ?_) (fun _ => ?_)
    | refine Ext.done ?_ | dsimp only | split | simp only [id_eq]

theorem keep_execAudStatus {F : Area → Bool} (dt : Nat) (c : Call) (s : State) (hk : Only F [.regs, .mbx, .out, .rc]) (t : State)
    (e : execAudStatus dt c s = .next t) : Ext F (s.tick dt) t := by
  unfold execAudStatus at e
  obtain rfl := Host.Outcome.next.inj e
  repeat' with_reducible first
    | assumption | exact Only.sub hk (by decide) | intro _ | exact Ext.refl _ _ | apply keep_kilel
    | apply keep_audStatus | refine Ext.ite (fun _ => ?_) (fun _ => ?_)
    | refine Ext.ite_ans (fun _ => ?_) (fun _ => ?_) | refine Ext.done ?_ | dsimp only | split | simp only [id_eq]

theorem keep_execAudPortStartInstant {F : Area → Bool} (dt : Nat) (port : Fin 8) (s : State) (hk : Only F [.regs, .mbx, .evt, .aud, .out, .rc]) (t : State)
    (e : execAudPortStartInstant dt port s = .next t) : Ext F (s.tick dt) t := by
  unfold execAudPortStartInstant at e
  obtain rfl := Host.Outcome.next.inj e
  repeat' with_reducible first
    | assumption | exact Only.sub hk (by decide) | intro _ | exact Ext.refl _ _ | apply keep_State_audNote
    | apply keep_State_audApply | apply keep_State_audEvent | apply keep_State_setAudSt | apply keep_State_wr
    | refine Ext.ite (fun _ => ?_) (fun _ => ?_) | dsimp only | split | simp only [id_eq]

theorem keep_execAudBlockStart {F : Area → Bool} (dt : Nat) (port : Fin 8) (s : State) (hk : Only F [.regs, .mbx, .evt, .rings, .aud, .out, .rc]) (t : State)
    (e : execAudBlockStart dt port s = .next t) : Ext F (s.tick dt) t := by
  unfold execAudBlockStart at e
  obtain rfl := Host.Outcome.next.inj e
  repeat' with_reducible first
    | assumption | exact Only.sub hk (by decide) | intro _ | exact Ext.refl _ _ | apply keep_State_audBegin
    | refine Ext.ite (fun _ => ?_) (fun _ => ?_) | dsimp only | split | simp only [id_eq]

theorem keep_execAudBlockEnd {F : Area → Bool} (dt : Nat) (port : Fin 8) (data : List (List Nat)) (parity : List Nat) (s : State) (hk : Only F [.regs, .mem, .nv, .mbx, .evt, .items, .rings, .cpl, .lnd, .aud, .dmc, .pwr, .free, .out, .spd, .rc]) (t : State)
    (e : execAudBlockEnd dt port data parity s = .next t) : Ext F (s.tick dt) t := by
  unfold execAudBlockEnd at e
  obtain rfl := Host.Outcome.next.inj e
  repeat' with_reducible first
    | assumption | exact Only.sub hk (by decide) | intro _ | exact Ext.refl _ _ | apply keep_State_audBlockEnds
    | refine Ext.ite (fun _ => ?_) (fun _ => ?_) | dsimp only | split | simp only [id_eq]

theorem keep_execFollowerFrameStart {F : Area → Bool} (dt : Nat) (port : Fin 4) (clocks : Nat) (midOk : Bool) (s : State) (hk : Only F [.regs, .mbx, .evt, .aud, .out, .rc]) (t : State)
    (e : execFollowerFrameStart dt port clocks midOk s = .next t) : Ext F (s.tick dt) t := by
  unfold execFollowerFrameStart at e
  obtain rfl := Host.Outcome.next.inj e
  repeat' with_reducible first
    | assumption | exact Only.sub hk (by decide) | intro _ | exact Ext.refl _ _ | apply keep_State_audFollow
    | refine Ext.ite (fun _ => ?_) (fun _ => ?_) | dsimp only | split | simp only [id_eq]

theorem keep_execAudClockLossTimeout {F : Area → Bool} (dt : Nat) (port : Fin 8) (s : State) (hk : Only F [.regs, .mbx, .evt, .aud, .out, .rc]) (t : State)
    (e : execAudClockLossTimeout dt port s = .next t) : Ext F (s.tick dt) t := by
  unfold execAudClockLossTimeout at e
  obtain rfl := Host.Outcome.next.inj e
  repeat' with_reducible first
    | assumption | exact Only.sub hk (by decide) | intro _ | exact Ext.refl _ _ | apply keep_State_audLost
    | refine Ext.ite (fun _ => ?_) (fun _ => ?_) | dsimp only | split | simp only [id_eq]

theorem keep_execAes3Frame {F : Area → Bool} (dt : Nat) (input : Fin 2) (z : Bool) (a : AesSub) (b : AesSub) (s : State) (hk : Only F [.regs, .mbx, .evt, .aud, .out, .rc]) (t : State)
    (e : execAes3Frame dt input z a b s = .next t) : Ext F (s.tick dt) t := by
  unfold execAes3Frame at e
  obtain rfl := Host.Outcome.next.inj e
  repeat' with_reducible first
    | assumption | exact Only.sub hk (by decide) | intro _ | exact Ext.refl _ _ | apply keep_State_aesFrame
    | refine Ext.ite (fun _ => ?_) (fun _ => ?_) | dsimp only | split | simp only [id_eq]

theorem keep_execMonOutputConfig {F : Area → Bool} (dt : Nat) (c : Call) (output : Fin 8) (ctx : Fin 4096) (s : State) (hk : Only F [.regs, .mbx, .ep, .out, .rc]) (t : State)
    (e : execMonOutputConfig dt c output ctx s = .next t) : Ext F (s.tick dt) t := by
  unfold execMonOutputConfig at e
  obtain rfl := Host.Outcome.next.inj e
  repeat' with_reducible first
    | assumption | exact Only.sub hk (by decide) | intro _ | exact Ext.refl _ _ | apply keep_kilel
    | apply keep_monConfig | refine Ext.ite (fun _ => ?_) (fun _ => ?_)
    | refine Ext.ite_ans (fun _ => ?_) (fun _ => ?_) | refine Ext.done ?_ | dsimp only | split | simp only [id_eq]

theorem keep_execMonPush {F : Area → Bool} (dt : Nat) (c : Call) (s : State) (hk : Only F [.regs, .mbx, .mon, .free, .out, .rc]) (t : State)
    (e : execMonPush dt c s = .next t) : Ext F (s.tick dt) t := by
  unfold execMonPush at e
  obtain rfl := Host.Outcome.next.inj e
  repeat' with_reducible first
    | assumption | exact Only.sub hk (by decide) | intro _ | exact Ext.refl _ _ | apply keep_kilel
    | apply keep_monPush | refine Ext.ite (fun _ => ?_) (fun _ => ?_) | refine Ext.ite_ans (fun _ => ?_) (fun _ => ?_)
    | refine Ext.done ?_ | dsimp only | split | simp only [id_eq]

theorem keep_execMonFbAlloc {F : Area → Bool} (dt : Nat) (c : Call) (s : State) (hk : Only F [.regs, .mbx, .mon, .free, .out, .rc]) (t : State)
    (e : execMonFbAlloc dt c s = .next t) : Ext F (s.tick dt) t := by
  unfold execMonFbAlloc at e
  obtain rfl := Host.Outcome.next.inj e
  repeat' with_reducible first
    | assumption | exact Only.sub hk (by decide) | intro _ | exact Ext.refl _ _ | apply keep_kilel
    | apply keep_monFbAlloc | refine Ext.ite (fun _ => ?_) (fun _ => ?_)
    | refine Ext.ite_ans (fun _ => ?_) (fun _ => ?_) | refine Ext.done ?_ | dsimp only | split | simp only [id_eq]

theorem keep_execMonStatus {F : Area → Bool} (dt : Nat) (c : Call) (s : State) (hk : Only F [.regs, .mbx, .out, .rc]) (t : State)
    (e : execMonStatus dt c s = .next t) : Ext F (s.tick dt) t := by
  unfold execMonStatus at e
  obtain rfl := Host.Outcome.next.inj e
  repeat' with_reducible first
    | assumption | exact Only.sub hk (by decide) | intro _ | exact Ext.refl _ _ | apply keep_kilel
    | apply keep_monStatus | refine Ext.ite (fun _ => ?_) (fun _ => ?_)
    | refine Ext.ite_ans (fun _ => ?_) (fun _ => ?_) | refine Ext.done ?_ | dsimp only | split | simp only [id_eq]

theorem keep_execOutputFrameStart {F : Area → Bool} (dt : Nat) (output : Fin 6) (s : State) (hk : Only F [.regs, .cpl, .mon, .out, .rc]) (t : State)
    (e : execOutputFrameStart dt output s = .next t) : Ext F (s.tick dt) t := by
  unfold execOutputFrameStart at e
  obtain rfl := Host.Outcome.next.inj e
  repeat' with_reducible first
    | assumption | exact Only.sub hk (by decide) | intro _ | exact Ext.refl _ _ | apply keep_State_monCadence
    | apply keep_State_monStart | refine Ext.of_pair (by assumption) ?_ | refine Ext.of_triple (by assumption) ?_
    | refine Ext.of_done (by assumption) ?_ | refine Ext.of_wait (by assumption) ?_
    | refine Ext.ite (fun _ => ?_) (fun _ => ?_) | dsimp only | split | simp only [id_eq]

theorem keep_execTeEdge {F : Area → Bool} (dt : Nat) (port : Fin 2) (s : State) (hk : Only F [.regs, .mbx, .evt, .mon, .out, .rc]) (t : State)
    (e : execTeEdge dt port s = .next t) : Ext F (s.tick dt) t := by
  unfold execTeEdge at e
  obtain rfl := Host.Outcome.next.inj e
  repeat' with_reducible first
    | assumption | exact Only.sub hk (by decide) | intro _ | exact Ext.refl _ _ | apply keep_State_monBlank
    | apply keep_State_setMon | apply keep_State_wrF | refine Ext.ite (fun _ => ?_) (fun _ => ?_) | dsimp only
    | fail_if_no_progress (refine Ext.mk_of ?_) | split | simp only [id_eq]

theorem keep_execTeMissTimeout {F : Area → Bool} (dt : Nat) (port : Fin 2) (s : State) (hk : Only F [.regs, .cpl, .mon, .out, .rc]) (t : State)
    (e : execTeMissTimeout dt port s = .next t) : Ext F (s.tick dt) t := by
  unfold execTeMissTimeout at e
  obtain rfl := Host.Outcome.next.inj e
  repeat' with_reducible first
    | assumption | exact Only.sub hk (by decide) | intro _ | exact Ext.refl _ _ | apply keep_State_monCadence
    | apply keep_State_wrF | refine Ext.ite (fun _ => ?_) (fun _ => ?_) | dsimp only | split | simp only [id_eq]

theorem keep_execDsiTransferDone {F : Area → Bool} (dt : Nat) (port : Fin 2) (under : List (Nat × Nat)) (ue : List Nat) (s : State) (hk : Only F [.regs, .nv, .mbx, .evt, .items, .mon, .dmc, .pwr, .out, .spd, .rc]) (t : State)
    (e : execDsiTransferDone dt port under ue s = .next t) : Ext F (s.tick dt) t := by
  unfold execDsiTransferDone at e
  obtain rfl := Host.Outcome.next.inj e
  repeat' with_reducible first
    | assumption | exact Only.sub hk (by decide) | intro _ | exact Ext.refl _ _ | apply keep_State_dsiSent
    | refine Ext.of_pair (by assumption) ?_ | refine Ext.of_triple (by assumption) ?_
    | refine Ext.of_done (by assumption) ?_ | refine Ext.of_wait (by assumption) ?_
    | refine Ext.ite (fun _ => ?_) (fun _ => ?_) | dsimp only | split | simp only [id_eq]

theorem keep_execSdiLineStart {F : Area → Bool} (dt : Nat) (output : Fin 4) (miss : Option Nat) (ue : Bool) (s : State) (hk : Only F [.regs, .nv, .mbx, .evt, .items, .mon, .dmc, .pwr, .out, .spd, .rc]) (t : State)
    (e : execSdiLineStart dt output miss ue s = .next t) : Ext F (s.tick dt) t := by
  unfold execSdiLineStart at e
  obtain rfl := Host.Outcome.next.inj e
  repeat' with_reducible first
    | assumption | exact Only.sub hk (by decide) | intro _ | exact Ext.refl _ _ | apply keep_State_sdiLine
    | refine Ext.of_pair (by assumption) ?_ | refine Ext.of_triple (by assumption) ?_
    | refine Ext.of_done (by assumption) ?_ | refine Ext.of_wait (by assumption) ?_
    | refine Ext.ite (fun _ => ?_) (fun _ => ?_) | dsimp only | split | simp only [id_eq]

theorem keep_execSdiFrameEnd {F : Area → Bool} (dt : Nat) (output : Fin 4) (s : State) (hk : Only F [.regs, .mbx, .evt, .mon, .out, .rc]) (t : State)
    (e : execSdiFrameEnd dt output s = .next t) : Ext F (s.tick dt) t := by
  unfold execSdiFrameEnd at e
  obtain rfl := Host.Outcome.next.inj e
  repeat' with_reducible first
    | assumption | exact Only.sub hk (by decide) | intro _ | exact Ext.refl _ _ | apply keep_State_monBlank
    | apply keep_State_monDone | apply keep_State_setMon | refine Ext.ite (fun _ => ?_) (fun _ => ?_) | dsimp only
    | fail_if_no_progress (refine Ext.mk_of ?_) | split | simp only [id_eq]

theorem keep_execEpochCommit {F : Area → Bool} (dt : Nat) (c : Call) (sensor : List SensorWrite) (s : State) (hk : Only F [.regs, .mbx, .ep, .out, .rc]) (t : State)
    (e : execEpochCommit dt c sensor s = .next t) : Ext F (s.tick dt) t := by
  unfold execEpochCommit at e
  obtain rfl := Host.Outcome.next.inj e
  repeat' with_reducible first
    | assumption | exact Only.sub hk (by decide) | intro _ | exact Ext.refl _ _ | apply keep_kilel
    | apply keep_epochCommit | refine Ext.ite (fun _ => ?_) (fun _ => ?_)
    | refine Ext.ite_ans (fun _ => ?_) (fun _ => ?_) | refine Ext.done ?_ | dsimp only | split | simp only [id_eq]

theorem keep_execResetDrainComplete {F : Area → Bool} (dt : Nat) (id : Nat) (s : State) (hk : Only F [.regs, .mem, .mbx, .evt, .resets, .rings, .allocs, .cpl, .lnd, .vcd, .mon, .dmc, .out, .rc]) (t : State)
    (e : execResetDrainComplete dt id s = .next t) : Ext F (s.tick dt) t := by
  unfold execResetDrainComplete at e
  obtain rfl := Host.Outcome.next.inj e
  repeat' with_reducible first
    | assumption | exact Only.sub hk (by decide) | intro _ | exact Ext.refl _ _ | apply keep_State_endDrain
    | refine Ext.of_pair (by assumption) ?_ | refine Ext.of_triple (by assumption) ?_
    | refine Ext.of_done (by assumption) ?_ | refine Ext.of_wait (by assumption) ?_
    | refine Ext.ite (fun _ => ?_) (fun _ => ?_) | dsimp only | split | simp only [id_eq]

theorem keep_execReset {F : Area → Bool} (dt : Nat) (c : Call) (s : State) (hk : Only F [.regs, .mem, .nv, .mbx, .evt, .ep, .resets, .lnk, .ing, .bkc, .items, .rings, .allocs, .cpl, .crs, .lnd, .vcd, .mon, .tim, .aud, .cbs, .dmc, .chutes, .pwr, .nvHeld, .out, .spd, .rc, .epoch]) (t : State)
    (e : execReset dt c s = .next t) : Ext F (s.tick dt) t := by
  unfold execReset at e
  obtain rfl := Host.Outcome.next.inj e
  repeat' with_reducible first
    | assumption | exact Only.sub hk (by decide) | intro _ | exact Ext.refl _ _ | apply keep_kilel
    | apply keep_resetCmd | apply keep_State_warmDue | refine Ext.ite (fun _ => ?_) (fun _ => ?_)
    | refine Ext.ite_ans (fun _ => ?_) (fun _ => ?_) | refine Ext.done ?_ | dsimp only | split | simp only [id_eq]

theorem keep_execPcieHotReset {F : Area → Bool} (dt : Nat) (s : State) (hk : Only F [.regs, .mem, .nv, .mbx, .evt, .ep, .resets, .lnk, .ing, .bkc, .items, .rings, .allocs, .cpl, .crs, .lnd, .vcd, .mon, .tim, .aud, .cbs, .dmc, .chutes, .pwr, .nvHeld, .out, .spd, .rc, .epoch]) (t : State)
    (e : execPcieHotReset dt s = .next t) : Ext F (s.tick dt) t := by
  unfold execPcieHotReset at e
  obtain rfl := Host.Outcome.next.inj e
  repeat' with_reducible first
    | assumption | exact Only.sub hk (by decide) | intro _ | exact Ext.refl _ _ | apply keep_State_warmReset
    | refine Ext.ite (fun _ => ?_) (fun _ => ?_) | dsimp only | split | simp only [id_eq]

theorem keep_execPcieDlDown {F : Area → Bool} (dt : Nat) (s : State) (hk : Only F [.regs, .mem, .nv, .mbx, .evt, .ep, .resets, .lnk, .ing, .bkc, .items, .rings, .allocs, .cpl, .crs, .lnd, .vcd, .mon, .tim, .aud, .cbs, .dmc, .chutes, .pwr, .nvHeld, .out, .spd, .rc, .epoch]) (t : State)
    (e : execPcieDlDown dt s = .next t) : Ext F (s.tick dt) t := by
  unfold execPcieDlDown at e
  obtain rfl := Host.Outcome.next.inj e
  repeat' with_reducible first
    | assumption | exact Only.sub hk (by decide) | intro _ | exact Ext.refl _ _ | apply keep_State_warmReset
    | refine Ext.ite (fun _ => ?_) (fun _ => ?_) | dsimp only | split | simp only [id_eq]

theorem keep_execPciePerstNAssert {F : Area → Bool} (dt : Nat) (s : State) (hk : Only F [.regs, .mem, .nv, .mbx, .evt, .ep, .resets, .lnk, .ing, .bkc, .items, .rings, .allocs, .cpl, .crs, .lnd, .vcd, .mon, .tim, .aud, .cbs, .dmc, .chutes, .pwr, .nvHeld, .out, .spd, .rc, .epoch]) (t : State)
    (e : execPciePerstNAssert dt s = .next t) : Ext F (s.tick dt) t := by
  unfold execPciePerstNAssert at e
  obtain rfl := Host.Outcome.next.inj e
  repeat' with_reducible first
    | assumption | exact Only.sub hk (by decide) | intro _ | exact Ext.refl _ _ | apply keep_State_warmReset
    | refine Ext.ite (fun _ => ?_) (fun _ => ?_) | dsimp only | split | simp only [id_eq]

theorem keep_execVfFlr {F : Area → Bool} (dt : Nat) (p : Fin 64) (s : State) (hk : Only F [.regs, .nv, .mbx, .evt, .ep, .resets, .ing, .bkc, .items, .rings, .allocs, .cpl, .lnd, .vcd, .cbs, .dmc, .pwr, .out, .spd, .rc]) (t : State)
    (e : execVfFlr dt p s = .next t) : Ext F (s.tick dt) t := by
  unfold execVfFlr at e
  obtain rfl := Host.Outcome.next.inj e
  repeat' with_reducible first
    | assumption | exact Only.sub hk (by decide) | intro _ | exact Ext.refl _ _ | apply keep_State_startReset
    | refine Ext.ite (fun _ => ?_) (fun _ => ?_) | dsimp only | split | simp only [id_eq]

theorem keep_execPfFlr {F : Area → Bool} (dt : Nat) (s : State) (hk : Only F [.regs, .nv, .mbx, .evt, .ep, .resets, .ing, .bkc, .items, .rings, .allocs, .cpl, .lnd, .vcd, .cbs, .dmc, .pwr, .out, .spd, .rc]) (t : State)
    (e : execPfFlr dt s = .next t) : Ext F (s.tick dt) t := by
  unfold execPfFlr at e
  obtain rfl := Host.Outcome.next.inj e
  repeat' with_reducible first
    | assumption | exact Only.sub hk (by decide) | intro _ | exact Ext.refl _ _ | apply keep_State_startReset
    | refine Ext.ite (fun _ => ?_) (fun _ => ?_) | dsimp only | split | simp only [id_eq]

theorem keep_execFirmwareWatchdog {F : Area → Bool} (dt : Nat) (s : State) (hk : Only F [.regs, .mem, .nv, .mbx, .evt, .ep, .resets, .lnk, .ing, .bkc, .items, .rings, .allocs, .cpl, .crs, .lnd, .vcd, .mon, .tim, .aud, .cbs, .dmc, .chutes, .pwr, .nvHeld, .out, .spd, .rc, .epoch]) (t : State)
    (e : execFirmwareWatchdog dt s = .next t) : Ext F (s.tick dt) t := by
  unfold execFirmwareWatchdog at e
  obtain rfl := Host.Outcome.next.inj e
  repeat' with_reducible first
    | assumption | exact Only.sub hk (by decide) | intro _ | exact Ext.refl _ _ | apply keep_State_warmReset
    | refine Ext.ite (fun _ => ?_) (fun _ => ?_) | dsimp only | split | simp only [id_eq]

theorem keep_execNvImageBegin {F : Area → Bool} (dt : Nat) (c : Call) (s : State) (hk : Only F [.regs, .nv, .mbx, .pwr, .nvHeld, .out, .rc]) (t : State)
    (e : execNvImageBegin dt c s = .next t) : Ext F (s.tick dt) t := by
  unfold execNvImageBegin at e
  obtain rfl := Host.Outcome.next.inj e
  repeat' with_reducible first
    | assumption | exact Only.sub hk (by decide) | intro _ | exact Ext.refl _ _ | apply keep_kilel
    | apply keep_imageBegin | refine Ext.ite (fun _ => ?_) (fun _ => ?_)
    | refine Ext.ite_ans (fun _ => ?_) (fun _ => ?_) | refine Ext.done ?_ | dsimp only | split | simp only [id_eq]

theorem keep_execNvImageWrite {F : Area → Bool} (dt : Nat) (c : Call) (s : State) (hk : Only F [.regs, .nv, .mbx, .out, .rc]) (t : State)
    (e : execNvImageWrite dt c s = .next t) : Ext F (s.tick dt) t := by
  unfold execNvImageWrite at e
  obtain rfl := Host.Outcome.next.inj e
  repeat' with_reducible first
    | assumption | exact Only.sub hk (by decide) | intro _ | exact Ext.refl _ _ | apply keep_kilel
    | apply keep_imageWrite | refine Ext.ite (fun _ => ?_) (fun _ => ?_)
    | refine Ext.ite_ans (fun _ => ?_) (fun _ => ?_) | refine Ext.done ?_ | dsimp only | split | simp only [id_eq]

theorem keep_execNvImageCommit {F : Area → Bool} (dt : Nat) (c : Call) (s : State) (hk : Only F [.regs, .mem, .nv, .mbx, .evt, .ep, .resets, .lnk, .ing, .bkc, .items, .rings, .allocs, .cpl, .crs, .lnd, .vcd, .mon, .tim, .aud, .cbs, .dmc, .chutes, .pwr, .nvHeld, .out, .spd, .rc, .epoch]) (t : State)
    (e : execNvImageCommit dt c s = .next t) : Ext F (s.tick dt) t := by
  unfold execNvImageCommit at e
  obtain rfl := Host.Outcome.next.inj e
  repeat' with_reducible first
    | assumption | exact Only.sub hk (by decide) | intro _ | exact Ext.refl _ _ | apply keep_kilel
    | apply keep_imageCommit | apply keep_State_warmDue | refine Ext.ite (fun _ => ?_) (fun _ => ?_)
    | refine Ext.ite_ans (fun _ => ?_) (fun _ => ?_) | refine Ext.done ?_ | dsimp only | split | simp only [id_eq]

theorem keep_execNvImageStatus {F : Area → Bool} (dt : Nat) (c : Call) (s : State) (hk : Only F [.regs, .mbx, .out, .rc]) (t : State)
    (e : execNvImageStatus dt c s = .next t) : Ext F (s.tick dt) t := by
  unfold execNvImageStatus at e
  obtain rfl := Host.Outcome.next.inj e
  repeat' with_reducible first
    | assumption | exact Only.sub hk (by decide) | intro _ | exact Ext.refl _ _ | apply keep_kilel
    | apply keep_imageStatus | refine Ext.ite (fun _ => ?_) (fun _ => ?_)
    | refine Ext.ite_ans (fun _ => ?_) (fun _ => ?_) | refine Ext.done ?_ | dsimp only | split | simp only [id_eq]

theorem keep_execNvImageSelect {F : Area → Bool} (dt : Nat) (c : Call) (slot : Fin 2) (s : State) (hk : Only F [.regs, .nv, .mbx, .nvHeld, .out, .rc]) (t : State)
    (e : execNvImageSelect dt c slot s = .next t) : Ext F (s.tick dt) t := by
  unfold execNvImageSelect at e
  obtain rfl := Host.Outcome.next.inj e
  repeat' with_reducible first
    | assumption | exact Only.sub hk (by decide) | intro _ | exact Ext.refl _ _ | apply keep_kilel
    | apply keep_imageSelect | refine Ext.ite (fun _ => ?_) (fun _ => ?_)
    | refine Ext.ite_ans (fun _ => ?_) (fun _ => ?_) | refine Ext.done ?_ | dsimp only | split | simp only [id_eq]

theorem keep_execNvLogRead {F : Area → Bool} (dt : Nat) (c : Call) (first : Fin 32768) (count : Fin 32769) (s : State) (hk : Only F [.regs, .mbx, .out, .rc]) (t : State)
    (e : execNvLogRead dt c first count s = .next t) : Ext F (s.tick dt) t := by
  unfold execNvLogRead at e
  obtain rfl := Host.Outcome.next.inj e
  repeat' with_reducible first
    | assumption | exact Only.sub hk (by decide) | intro _ | exact Ext.refl _ _ | apply keep_kilel
    | apply keep_nvLogRead | refine Ext.ite (fun _ => ?_) (fun _ => ?_)
    | refine Ext.ite_ans (fun _ => ?_) (fun _ => ?_) | refine Ext.done ?_ | dsimp only | split | simp only [id_eq]

theorem keep_execBootAttempt {F : Area → Bool} (dt : Nat) (trainFail : List (Fin 32)) (fastFail : List (Fin 32)) (step : Fin 16) (ready : Bool) (s : State) (hk : Only F [.regs, .mem, .nv, .mbx, .evt, .ep, .resets, .lnk, .ing, .bkc, .items, .rings, .allocs, .cpl, .crs, .lnd, .vcd, .mon, .tim, .aud, .cbs, .dmc, .chutes, .pwr, .nvHeld, .free, .out, .spd, .rc, .epoch]) (t : State)
    (e : execBootAttempt dt trainFail fastFail step ready s = .next t) : Ext F (s.tick dt) t := by
  unfold execBootAttempt at e
  obtain rfl := Host.Outcome.next.inj e
  repeat' with_reducible first
    | assumption | exact Only.sub hk (by decide) | intro _ | exact Ext.refl _ _ | apply keep_State_bootSteps
    | apply keep_State_spdReady | apply keep_State_bootStep1 | refine Ext.ite (fun _ => ?_) (fun _ => ?_) | dsimp only
    | split | simp only [id_eq]

theorem keep_execBootWatchdog {F : Area → Bool} (dt : Nat) (s : State) (hk : Only F [.regs, .mem, .nv, .mbx, .evt, .ep, .resets, .lnk, .ing, .bkc, .items, .rings, .allocs, .cpl, .crs, .lnd, .vcd, .mon, .tim, .aud, .cbs, .dmc, .chutes, .pwr, .nvHeld, .out, .spd, .rc, .epoch]) (t : State)
    (e : execBootWatchdog dt s = .next t) : Ext F (s.tick dt) t := by
  unfold execBootWatchdog at e
  obtain rfl := Host.Outcome.next.inj e
  repeat' with_reducible first
    | assumption | exact Only.sub hk (by decide) | intro _ | exact Ext.refl _ _ | apply keep_State_deviceReset
    | refine Ext.of_pair (by assumption) ?_ | refine Ext.of_triple (by assumption) ?_
    | refine Ext.of_done (by assumption) ?_ | refine Ext.of_wait (by assumption) ?_
    | refine Ext.ite (fun _ => ?_) (fun _ => ?_) | dsimp only | split | simp only [id_eq]

theorem keep_execBootSuccessTimer {F : Area → Bool} (dt : Nat) (s : State) (hk : Only F [.regs, .nv, .pwr, .nvHeld]) (t : State)
    (e : execBootSuccessTimer dt s = .next t) : Ext F (s.tick dt) t := by
  unfold execBootSuccessTimer at e
  obtain rfl := Host.Outcome.next.inj e
  repeat' with_reducible first
    | assumption | exact Only.sub hk (by decide) | intro _ | exact Ext.refl _ _ | apply keep_State_setBoot
    | apply keep_State_setConsecAs | refine Ext.of_pair (by assumption) ?_ | refine Ext.of_triple (by assumption) ?_
    | refine Ext.of_done (by assumption) ?_ | refine Ext.of_wait (by assumption) ?_
    | refine Ext.ite (fun _ => ?_) (fun _ => ?_) | dsimp only | fail_if_no_progress (refine Ext.mk_of ?_) | split
    | simp only [id_eq]

theorem keep_execThmSample {F : Area → Bool} (dt : Nat) (tj : Option (BitVec 16)) (raw : Word) (s : State) (hk : Only F [.regs, .mem, .nv, .mbx, .evt, .ep, .resets, .lnk, .ing, .bkc, .items, .rings, .allocs, .cpl, .crs, .lnd, .vcd, .mon, .tim, .aud, .cbs, .dmc, .chutes, .pwr, .nvHeld, .out, .spd, .rc, .epoch]) (t : State)
    (e : execThmSample dt tj raw s = .next t) : Ext F (s.tick dt) t := by
  unfold execThmSample at e
  obtain rfl := Host.Outcome.next.inj e
  repeat' with_reducible first
    | assumption | exact Only.sub hk (by decide) | intro _ | exact Ext.refl _ _ | apply keep_State_thmFail
    | apply keep_State_thmValid | refine Ext.of_pair (by assumption) ?_ | refine Ext.of_triple (by assumption) ?_
    | refine Ext.of_done (by assumption) ?_ | refine Ext.of_wait (by assumption) ?_
    | refine Ext.ite (fun _ => ?_) (fun _ => ?_) | dsimp only | split | simp only [id_eq]

theorem keep_execVbakSample {F : Area → Bool} (dt : Nat) (mv : Fin 4096) (s : State) (hk : Only F [.regs, .mbx, .evt, .pwr, .out, .rc]) (t : State)
    (e : execVbakSample dt mv s = .next t) : Ext F (s.tick dt) t := by
  unfold execVbakSample at e
  obtain rfl := Host.Outcome.next.inj e
  repeat' with_reducible first
    | assumption | exact Only.sub hk (by decide) | intro _ | exact Ext.refl _ _ | apply keep_State_bakSample
    | refine Ext.ite (fun _ => ?_) (fun _ => ?_) | dsimp only | split | simp only [id_eq]

theorem keep_execNvHeldWriteFlush {F : Area → Bool} (dt : Nat) (s : State) (hk : Only F [.regs, .nv, .evt, .pwr, .nvHeld, .rc]) (t : State)
    (e : execNvHeldWriteFlush dt s = .next t) : Ext F (s.tick dt) t := by
  unfold execNvHeldWriteFlush at e
  obtain rfl := Host.Outcome.next.inj e
  repeat' with_reducible first
    | assumption | exact Only.sub hk (by decide) | intro _ | exact Ext.refl _ _ | apply keep_State_copyThermal
    | apply keep_State_nvFlush | apply keep_State_logFlush | refine Ext.ite (fun _ => ?_) (fun _ => ?_) | dsimp only
    | split | simp only [id_eq]

theorem keep_execThermalRead {F : Area → Bool} (dt : Nat) (c : Call) (s : State) (hk : Only F [.regs, .mbx, .out, .rc]) (t : State)
    (e : execThermalRead dt c s = .next t) : Ext F (s.tick dt) t := by
  unfold execThermalRead at e
  obtain rfl := Host.Outcome.next.inj e
  repeat' with_reducible first
    | assumption | exact Only.sub hk (by decide) | intro _ | exact Ext.refl _ _ | apply keep_kilel
    | apply keep_thermalRead | refine Ext.ite (fun _ => ?_) (fun _ => ?_)
    | refine Ext.ite_ans (fun _ => ?_) (fun _ => ?_) | refine Ext.done ?_ | dsimp only | split | simp only [id_eq]

theorem keep_execThermalConfig {F : Area → Bool} (dt : Nat) (c : Call) (limit : Word) (rate : Word) (s : State) (hk : Only F [.regs, .mbx, .ep, .out, .rc]) (t : State)
    (e : execThermalConfig dt c limit rate s = .next t) : Ext F (s.tick dt) t := by
  unfold execThermalConfig at e
  obtain rfl := Host.Outcome.next.inj e
  repeat' with_reducible first
    | assumption | exact Only.sub hk (by decide) | intro _ | exact Ext.refl _ _ | apply keep_kilel
    | apply keep_stageAnswer | refine Ext.ite (fun _ => ?_) (fun _ => ?_)
    | refine Ext.ite_ans (fun _ => ?_) (fun _ => ?_) | refine Ext.done ?_ | dsimp only | split | simp only [id_eq]

theorem keep_execBackupStatus {F : Area → Bool} (dt : Nat) (c : Call) (s : State) (hk : Only F [.regs, .mbx, .out, .rc]) (t : State)
    (e : execBackupStatus dt c s = .next t) : Ext F (s.tick dt) t := by
  unfold execBackupStatus at e
  obtain rfl := Host.Outcome.next.inj e
  repeat' with_reducible first
    | assumption | exact Only.sub hk (by decide) | intro _ | exact Ext.refl _ _ | apply keep_kilel
    | refine Ext.ite (fun _ => ?_) (fun _ => ?_) | refine Ext.ite_ans (fun _ => ?_) (fun _ => ?_) | refine Ext.done ?_
    | dsimp only | split | simp only [id_eq]

theorem keep_execBootInfo {F : Area → Bool} (dt : Nat) (c : Call) (s : State) (hk : Only F [.regs, .mbx, .out, .rc]) (t : State)
    (e : execBootInfo dt c s = .next t) : Ext F (s.tick dt) t := by
  unfold execBootInfo at e
  obtain rfl := Host.Outcome.next.inj e
  repeat' with_reducible first
    | assumption | exact Only.sub hk (by decide) | intro _ | exact Ext.refl _ _ | apply keep_kilel
    | refine Ext.ite (fun _ => ?_) (fun _ => ?_) | refine Ext.ite_ans (fun _ => ?_) (fun _ => ?_) | refine Ext.done ?_
    | dsimp only | split | simp only [id_eq]

theorem keep_execPowerState {F : Area → Bool} (dt : Nat) (c : Call) (s : State) (hk : Only F [.time, .regs, .mem, .nv, .mbx, .evt, .ep, .resets, .lnk, .ing, .bkc, .items, .rings, .allocs, .cpl, .crs, .lnd, .vcd, .mon, .tim, .aud, .cbs, .dmc, .chutes, .pwr, .nvHeld, .free, .out, .spd, .rc, .epoch]) (t : State)
    (e : execPowerState dt c s = .next t) : Ext F (s.tick dt) t := by
  unfold execPowerState at e
  obtain rfl := Host.Outcome.next.inj e
  repeat' with_reducible first
    | assumption | exact Only.sub hk (by decide) | intro _ | exact Ext.refl _ _ | apply keep_kilel
    | apply keep_powerState | apply keep_State_p3Due | refine Ext.ite (fun _ => ?_) (fun _ => ?_)
    | refine Ext.ite_ans (fun _ => ?_) (fun _ => ?_) | refine Ext.done ?_ | dsimp only | split | simp only [id_eq]

theorem keep_execSqCommandDone {F : Area → Bool} (dt : Nat) (qid : Fin 32) (tag : Fin 32) (blocks : Nat) (fail : Option (Fin 2048)) (s : State) (hk : Only F [.regs, .mem, .nv, .mbx, .evt, .ep, .resets, .lnk, .ing, .bkc, .items, .rings, .allocs, .cpl, .crs, .lnd, .vcd, .mon, .tim, .aud, .cbs, .dmc, .chutes, .pwr, .nvHeld, .out, .spd, .rc, .epoch]) (t : State)
    (e : execSqCommandDone dt qid tag blocks fail s = .next t) : Ext F (s.tick dt) t := by
  unfold execSqCommandDone at e
  obtain rfl := Host.Outcome.next.inj e
  repeat' with_reducible first
    | assumption | exact Only.sub hk (by decide) | intro _ | exact Ext.refl _ _ | apply keep_State_p2Due
    | apply keep_State_p3Due | apply keep_State_sqDone | refine Ext.ite (fun _ => ?_) (fun _ => ?_) | dsimp only
    | split | simp only [id_eq]

theorem keep_execPmeHandshakeComplete {F : Area → Bool} (dt : Nat) (s : State) (hk : Only F [.regs, .nv, .mbx, .evt, .items, .rings, .cpl, .lnd, .tim, .cbs, .dmc, .pwr, .out, .spd, .rc]) (t : State)
    (e : execPmeHandshakeComplete dt s = .next t) : Ext F (s.tick dt) t := by
  unfold execPmeHandshakeComplete at e
  obtain rfl := Host.Outcome.next.inj e
  repeat' with_reducible first
    | assumption | exact Only.sub hk (by decide) | intro _ | exact Ext.refl _ _ | apply keep_State_p2Due
    | refine Ext.of_pair (by assumption) ?_ | refine Ext.of_triple (by assumption) ?_
    | refine Ext.of_done (by assumption) ?_ | refine Ext.of_wait (by assumption) ?_
    | refine Ext.ite (fun _ => ?_) (fun _ => ?_) | dsimp only | fail_if_no_progress (refine Ext.mk_of ?_) | split
    | simp only [id_eq]

theorem keep_execP2HandshakeTimeout {F : Area → Bool} (dt : Nat) (s : State) (hk : Only F [.regs, .mbx, .evt, .lnd, .pwr, .out, .rc]) (t : State)
    (e : execP2HandshakeTimeout dt s = .next t) : Ext F (s.tick dt) t := by
  unfold execP2HandshakeTimeout at e
  obtain rfl := Host.Outcome.next.inj e
  repeat' with_reducible first
    | assumption | exact Only.sub hk (by decide) | intro _ | exact Ext.refl _ _ | apply keep_State_raise
    | refine Ext.of_pair (by assumption) ?_ | refine Ext.of_triple (by assumption) ?_
    | refine Ext.of_done (by assumption) ?_ | refine Ext.of_wait (by assumption) ?_
    | refine Ext.ite (fun _ => ?_) (fun _ => ?_) | dsimp only | fail_if_no_progress (refine Ext.mk_of ?_) | split
    | simp only [id_eq]

theorem keep_execPciePerstNDeassert {F : Area → Bool} (dt : Nat) (s : State) (hk : Only F [.time, .regs, .mem, .nv, .mbx, .evt, .ep, .resets, .lnk, .ing, .bkc, .items, .rings, .allocs, .cpl, .crs, .lnd, .vcd, .mon, .tim, .aud, .cbs, .dmc, .chutes, .pwr, .nvHeld, .free, .out, .spd, .rc, .epoch]) (t : State)
    (e : execPciePerstNDeassert dt s = .next t) : Ext F (s.tick dt) t := by
  unfold execPciePerstNDeassert at e
  obtain rfl := Host.Outcome.next.inj e
  repeat' with_reducible first
    | assumption | exact Only.sub hk (by decide) | intro _ | exact Ext.refl _ _ | apply keep_State_wakeP2
    | refine Ext.ite (fun _ => ?_) (fun _ => ?_) | dsimp only | split | simp only [id_eq]

theorem keep_execMainGoodFall {F : Area → Bool} (dt : Nat) (s : State) (hk : Only F [.regs, .mem, .nv, .mbx, .evt, .ep, .resets, .lnk, .ing, .bkc, .items, .rings, .allocs, .cpl, .crs, .lnd, .vcd, .mon, .tim, .aud, .cbs, .dmc, .chutes, .pwr, .nvHeld, .out, .spd, .rc, .epoch]) (t : State)
    (e : execMainGoodFall dt s = .next t) : Ext F (s.tick dt) t := by
  unfold execMainGoodFall at e
  obtain rfl := Host.Outcome.next.inj e
  repeat' with_reducible first
    | assumption | exact Only.sub hk (by decide) | intro _ | exact Ext.refl _ _ | apply keep_State_enterP3
    | refine Ext.ite (fun _ => ?_) (fun _ => ?_) | dsimp only | fail_if_no_progress (refine Ext.mk_of ?_) | split
    | simp only [id_eq]

theorem keep_execRetentionArbitration {F : Area → Bool} (dt : Nat) (good : Bool) (s : State) (hk : Only F [.time, .regs, .mem, .mbx, .evt, .tim, .dmc, .pwr, .free, .out, .rc]) (t : State)
    (e : execRetentionArbitration dt good s = .next t) : Ext F (s.tick dt) t := by
  unfold execRetentionArbitration at e
  obtain rfl := Host.Outcome.next.inj e
  repeat' with_reducible first
    | assumption | exact Only.sub hk (by decide) | intro _ | exact Ext.refl _ _ | apply keep_State_retained
    | refine Ext.of_pair (by assumption) ?_ | refine Ext.of_triple (by assumption) ?_
    | refine Ext.of_done (by assumption) ?_ | refine Ext.of_wait (by assumption) ?_
    | refine Ext.ite (fun _ => ?_) (fun _ => ?_) | dsimp only | split | simp only [id_eq]

theorem keep_execAonPowerLoss {F : Area → Bool} (dt : Nat) (s : State) (hk : Only F [.time, .regs, .mem, .mbx, .evt, .ep, .resets, .lnk, .ing, .bkc, .items, .rings, .allocs, .cpl, .crs, .lnd, .vcd, .mon, .tim, .aud, .cbs, .dmc, .chutes, .pwr, .nvHeld, .out, .spd, .rc, .epoch]) (t : State)
    (e : execAonPowerLoss dt s = .next t) : Ext F (s.tick dt) t := by
  unfold execAonPowerLoss at e
  obtain rfl := Host.Outcome.next.inj e
  repeat' with_reducible first
    | assumption | exact Only.sub hk (by decide) | intro _ | exact Ext.refl _ _ | apply keep_State_aonDrop
    | refine Ext.ite (fun _ => ?_) (fun _ => ?_) | dsimp only | split | simp only [id_eq]

theorem keep_execPorstNAssert {F : Area → Bool} (dt : Nat) (s : State) (hk : Only F [.regs, .mem, .nv, .mbx, .evt, .ep, .resets, .lnk, .ing, .bkc, .items, .rings, .allocs, .cpl, .crs, .lnd, .vcd, .mon, .tim, .aud, .cbs, .dmc, .chutes, .pwr, .nvHeld, .out, .spd, .rc, .epoch]) (t : State)
    (e : execPorstNAssert dt s = .next t) : Ext F (s.tick dt) t := by
  unfold execPorstNAssert at e
  obtain rfl := Host.Outcome.next.inj e
  repeat' with_reducible first
    | assumption | exact Only.sub hk (by decide) | intro _ | exact Ext.refl _ _ | apply keep_State_freezeTakes
    | apply keep_State_deviceReset | refine Ext.ite (fun _ => ?_) (fun _ => ?_) | dsimp only | split
    | simp only [id_eq]

theorem keep_execMaintStart {F : Area → Bool} (dt : Nat) (c : Call) (s : State) (hk : Only F [.regs, .mbx, .pwr, .out, .rc]) (t : State)
    (e : execMaintStart dt c s = .next t) : Ext F (s.tick dt) t := by
  unfold execMaintStart at e
  obtain rfl := Host.Outcome.next.inj e
  repeat' with_reducible first
    | assumption | exact Only.sub hk (by decide) | intro _ | exact Ext.refl _ _ | apply keep_kilel
    | apply keep_maintStart | refine Ext.ite (fun _ => ?_) (fun _ => ?_)
    | refine Ext.ite_ans (fun _ => ?_) (fun _ => ?_) | refine Ext.done ?_ | dsimp only | split | simp only [id_eq]

theorem keep_execMaintStatus {F : Area → Bool} (dt : Nat) (c : Call) (s : State) (hk : Only F [.regs, .mbx, .out, .rc]) (t : State)
    (e : execMaintStatus dt c s = .next t) : Ext F (s.tick dt) t := by
  unfold execMaintStatus at e
  obtain rfl := Host.Outcome.next.inj e
  repeat' with_reducible first
    | assumption | exact Only.sub hk (by decide) | intro _ | exact Ext.refl _ _ | apply keep_kilel
    | refine Ext.ite (fun _ => ?_) (fun _ => ?_) | refine Ext.ite_ans (fun _ => ?_) (fun _ => ?_) | refine Ext.done ?_
    | dsimp only | split | simp only [id_eq]

theorem keep_execMaintCancel {F : Area → Bool} (dt : Nat) (c : Call) (act : Fin 256) (s : State) (hk : Only F [.regs, .mbx, .evt, .pwr, .out, .rc]) (t : State)
    (e : execMaintCancel dt c act s = .next t) : Ext F (s.tick dt) t := by
  unfold execMaintCancel at e
  obtain rfl := Host.Outcome.next.inj e
  repeat' with_reducible first
    | assumption | exact Only.sub hk (by decide) | intro _ | exact Ext.refl _ _ | apply keep_kilel
    | apply keep_maintCancel | refine Ext.ite (fun _ => ?_) (fun _ => ?_)
    | refine Ext.ite_ans (fun _ => ?_) (fun _ => ?_) | refine Ext.done ?_ | dsimp only | split | simp only [id_eq]

theorem keep_execScheduledRetrainDue {F : Area → Bool} (dt : Nat) (s : State) (hk : Only F [.regs, .pwr, .rc]) (t : State)
    (e : execScheduledRetrainDue dt s = .next t) : Ext F (s.tick dt) t := by
  unfold execScheduledRetrainDue at e
  obtain rfl := Host.Outcome.next.inj e
  repeat' with_reducible first
    | assumption | exact Only.sub hk (by decide) | intro _ | exact Ext.refl _ _ | apply keep_State_actRequest
    | refine Ext.ite (fun _ => ?_) (fun _ => ?_) | dsimp only | split | simp only [id_eq]

theorem keep_execDeferredActivityStart {F : Area → Bool} (dt : Nat) (s : State) (hk : Only F [.regs, .mbx, .evt, .pwr, .out, .rc]) (t : State)
    (e : execDeferredActivityStart dt s = .next t) : Ext F (s.tick dt) t := by
  unfold execDeferredActivityStart at e
  obtain rfl := Host.Outcome.next.inj e
  repeat' with_reducible first
    | assumption | exact Only.sub hk (by decide) | intro _ | exact Ext.refl _ _ | apply keep_State_deferStart
    | refine Ext.of_pair (by assumption) ?_ | refine Ext.of_triple (by assumption) ?_
    | refine Ext.of_done (by assumption) ?_ | refine Ext.of_wait (by assumption) ?_
    | refine Ext.ite (fun _ => ?_) (fun _ => ?_) | dsimp only | split | simp only [id_eq]

theorem keep_execDramRetrainStep {F : Area → Bool} (dt : Nat) (fail : Bool) (s : State) (hk : Only F [.regs, .nv, .mbx, .evt, .ing, .items, .allocs, .lnd, .dmc, .pwr, .nvHeld, .free, .out, .rc]) (t : State)
    (e : execDramRetrainStep dt fail s = .next t) : Ext F (s.tick dt) t := by
  unfold execDramRetrainStep at e
  obtain rfl := Host.Outcome.next.inj e
  repeat' with_reducible first
    | assumption | exact Only.sub hk (by decide) | intro _ | exact Ext.refl _ _ | apply keep_State_retrainStep
    | apply keep_State_atStep | refine Ext.ite (fun _ => ?_) (fun _ => ?_) | dsimp only | split | simp only [id_eq]

theorem keep_execDramRetrainDone {F : Area → Bool} (dt : Nat) (s : State) (hk : Only F [.regs, .nv, .mbx, .evt, .ing, .allocs, .lnd, .dmc, .pwr, .nvHeld, .out, .rc]) (t : State)
    (e : execDramRetrainDone dt s = .next t) : Ext F (s.tick dt) t := by
  unfold execDramRetrainDone at e
  obtain rfl := Host.Outcome.next.inj e
  repeat' with_reducible first
    | assumption | exact Only.sub hk (by decide) | intro _ | exact Ext.refl _ _ | apply keep_State_retrainDone
    | apply keep_State_atStep | refine Ext.ite (fun _ => ?_) (fun _ => ?_) | dsimp only | split | simp only [id_eq]

theorem keep_execLaneEyeScanDone {F : Area → Bool} (dt : Nat) (counts : List Word) (outOk : Bool) (s : State) (hk : Only F [.regs, .nv, .mbx, .evt, .ing, .allocs, .lnd, .dmc, .pwr, .nvHeld, .free, .out, .rc]) (t : State)
    (e : execLaneEyeScanDone dt counts outOk s = .next t) : Ext F (s.tick dt) t := by
  unfold execLaneEyeScanDone at e
  obtain rfl := Host.Outcome.next.inj e
  repeat' with_reducible first
    | assumption | exact Only.sub hk (by decide) | intro _ | exact Ext.refl _ _ | apply keep_State_eyeDone
    | apply keep_State_atStep | refine Ext.ite (fun _ => ?_) (fun _ => ?_) | dsimp only | split | simp only [id_eq]

theorem keep_execNvScrubDone {F : Area → Bool} (dt : Nat) (s : State) (hk : Only F [.regs, .nv, .mbx, .evt, .ing, .allocs, .lnd, .dmc, .pwr, .nvHeld, .out, .rc]) (t : State)
    (e : execNvScrubDone dt s = .next t) : Ext F (s.tick dt) t := by
  unfold execNvScrubDone at e
  obtain rfl := Host.Outcome.next.inj e
  repeat' with_reducible first
    | assumption | exact Only.sub hk (by decide) | intro _ | exact Ext.refl _ _ | apply keep_State_nvScrubbed
    | apply keep_State_atStep | refine Ext.ite (fun _ => ?_) (fun _ => ?_) | dsimp only | split | simp only [id_eq]

theorem keep_execDramScrubDone {F : Area → Bool} (dt : Nat) (s : State) (hk : Only F [.regs, .nv, .mbx, .evt, .ing, .items, .allocs, .lnd, .dmc, .pwr, .nvHeld, .out, .rc]) (t : State)
    (e : execDramScrubDone dt s = .next t) : Ext F (s.tick dt) t := by
  unfold execDramScrubDone at e
  obtain rfl := Host.Outcome.next.inj e
  repeat' with_reducible first
    | assumption | exact Only.sub hk (by decide) | intro _ | exact Ext.refl _ _ | apply keep_State_dramScrubbed
    | apply keep_State_atStep | refine Ext.ite (fun _ => ?_) (fun _ => ?_) | dsimp only | split | simp only [id_eq]

theorem keep_execRegRead {F : Area → Bool} (dt : Nat) (c : Call) (s : State) (hk : Only F [.regs, .nv, .mbx, .evt, .items, .dmc, .pwr, .free, .out, .spd, .rc]) (t : State)
    (e : execRegRead dt c s = .next t) : Ext F (s.tick dt) t := by
  unfold execRegRead at e
  obtain rfl := Host.Outcome.next.inj e
  repeat' with_reducible first
    | assumption | exact Only.sub hk (by decide) | intro _ | exact Ext.refl _ _ | apply keep_kilel
    | apply keep_regRead | refine Ext.ite (fun _ => ?_) (fun _ => ?_) | refine Ext.ite_ans (fun _ => ?_) (fun _ => ?_)
    | refine Ext.done ?_ | dsimp only | split | simp only [id_eq]

theorem keep_execRegWrite {F : Area → Bool} (dt : Nat) (c : Call) (s : State) (hk : Only F [.regs, .mem, .nv, .mbx, .evt, .lnk, .ing, .bkc, .items, .rings, .cpl, .lnd, .cbs, .dmc, .pwr, .out, .spd, .rc]) (t : State)
    (e : execRegWrite dt c s = .next t) : Ext F (s.tick dt) t := by
  unfold execRegWrite at e
  obtain rfl := Host.Outcome.next.inj e
  repeat' with_reducible first
    | assumption | exact Only.sub hk (by decide) | intro _ | exact Ext.refl _ _ | apply keep_kilel
    | apply keep_regWrite | refine Ext.ite (fun _ => ?_) (fun _ => ?_)
    | refine Ext.ite_ans (fun _ => ?_) (fun _ => ?_) | refine Ext.done ?_ | dsimp only | split | simp only [id_eq]

theorem keep_execBar2Enable {F : Area → Bool} (dt : Nat) (c : Call) (s : State) (hk : Only F [.regs, .mbx, .out, .rc]) (t : State)
    (e : execBar2Enable dt c s = .next t) : Ext F (s.tick dt) t := by
  unfold execBar2Enable at e
  obtain rfl := Host.Outcome.next.inj e
  repeat' with_reducible first
    | assumption | exact Only.sub hk (by decide) | intro _ | exact Ext.refl _ _ | apply keep_kilel
    | apply keep_State_wrF | refine Ext.ite (fun _ => ?_) (fun _ => ?_)
    | refine Ext.ite_ans (fun _ => ?_) (fun _ => ?_) | refine Ext.done ?_ | dsimp only | split | simp only [id_eq]

theorem keep_execBar2Read {F : Area → Bool} (dt : Nat) (off : BitVec 24) (size : Nat) (s : State) (hk : Only F [.regs, .nv, .mbx, .evt, .items, .dmc, .pwr, .free, .out, .spd, .rc]) (t : State)
    (e : execBar2Read dt off size s = .next t) : Ext F (s.tick dt) t := by
  unfold execBar2Read at e
  obtain rfl := Host.Outcome.next.inj e
  repeat' with_reducible first
    | assumption | exact Only.sub hk (by decide) | intro _ | exact Ext.refl _ _ | apply keep_State_readRun
    | apply keep_State_viol | apply keep_State_emit | refine Ext.of_pair (by assumption) ?_
    | refine Ext.of_triple (by assumption) ?_ | refine Ext.of_done (by assumption) ?_
    | refine Ext.of_wait (by assumption) ?_ | refine Ext.ite (fun _ => ?_) (fun _ => ?_) | dsimp only | split
    | simp only [id_eq]

theorem keep_execBar2Write {F : Area → Bool} (dt : Nat) (off : BitVec 24) (size : Nat) (v : BitVec 64) (s : State) (hk : Only F [.regs, .mem, .nv, .mbx, .evt, .lnk, .ing, .bkc, .items, .rings, .cpl, .lnd, .cbs, .dmc, .pwr, .out, .spd, .rc]) (t : State)
    (e : execBar2Write dt off size v s = .next t) : Ext F (s.tick dt) t := by
  unfold execBar2Write at e
  obtain rfl := Host.Outcome.next.inj e
  repeat' with_reducible first
    | assumption | exact Only.sub hk (by decide) | intro _ | exact Ext.refl _ _ | apply keep_State_bar2Write
    | refine Ext.ite (fun _ => ?_) (fun _ => ?_) | dsimp only | split | simp only [id_eq]

theorem keep_execPlainRegisterWrite {F : Area → Bool} (dt : Nat) (path : WrPath) (addr : BitVec 40) (v : Word) (s : State) (hk : Only F [.regs, .mem, .nv, .mbx, .evt, .lnk, .ing, .bkc, .items, .rings, .cpl, .lnd, .cbs, .dmc, .pwr, .out, .spd, .rc]) (t : State)
    (e : execPlainRegisterWrite dt path addr v s = .next t) : Ext F (s.tick dt) t := by
  unfold execPlainRegisterWrite at e
  obtain rfl := Host.Outcome.next.inj e
  repeat' with_reducible first
    | assumption | exact Only.sub hk (by decide) | intro _ | exact Ext.refl _ _ | apply keep_State_bar0Write
    | apply keep_State_pathWrite | refine Ext.of_pair (by assumption) ?_ | refine Ext.of_triple (by assumption) ?_
    | refine Ext.of_done (by assumption) ?_ | refine Ext.of_wait (by assumption) ?_
    | refine Ext.ite (fun _ => ?_) (fun _ => ?_) | dsimp only | split | simp only [id_eq]

theorem keep_execRingEnable {F : Area → Bool} (dt : Nat) (path : WrPath) (ring : Fin 16384) (v : Word) (s : State) (hk : Only F [.regs, .mem, .nv, .mbx, .evt, .lnk, .ing, .bkc, .items, .rings, .cpl, .lnd, .cbs, .dmc, .pwr, .out, .spd, .rc]) (t : State)
    (e : execRingEnable dt path ring v s = .next t) : Ext F (s.tick dt) t := by
  unfold execRingEnable at e
  obtain rfl := Host.Outcome.next.inj e
  repeat' with_reducible first
    | assumption | exact Only.sub hk (by decide) | intro _ | exact Ext.refl _ _ | apply keep_State_pathWrite
    | refine Ext.ite (fun _ => ?_) (fun _ => ?_) | dsimp only | split | simp only [id_eq]

theorem keep_execRingDisable {F : Area → Bool} (dt : Nat) (path : WrPath) (ring : Fin 16384) (v : Word) (written : Nat) (s : State) (hk : Only F [.regs, .mem, .nv, .mbx, .evt, .lnk, .ing, .bkc, .items, .rings, .cpl, .lnd, .cbs, .dmc, .pwr, .out, .spd, .rc]) (t : State)
    (e : execRingDisable dt path ring v written s = .next t) : Ext F (s.tick dt) t := by
  unfold execRingDisable at e
  obtain rfl := Host.Outcome.next.inj e
  repeat' with_reducible first
    | assumption | exact Only.sub hk (by decide) | intro _ | exact Ext.refl _ _ | apply keep_State_pathWrite
    | refine Ext.ite (fun _ => ?_) (fun _ => ?_) | dsimp only | split | simp only [id_eq]

theorem keep_execEvtRootClose {F : Area → Bool} (dt : Nat) (path : WrPath) (v : Word) (s : State) (hk : Only F [.regs, .mem, .nv, .mbx, .evt, .lnk, .ing, .bkc, .items, .rings, .cpl, .lnd, .cbs, .dmc, .pwr, .out, .spd, .rc]) (t : State)
    (e : execEvtRootClose dt path v s = .next t) : Ext F (s.tick dt) t := by
  unfold execEvtRootClose at e
  obtain rfl := Host.Outcome.next.inj e
  repeat' with_reducible first
    | assumption | exact Only.sub hk (by decide) | intro _ | exact Ext.refl _ _ | apply keep_State_pathWrite
    | refine Ext.ite (fun _ => ?_) (fun _ => ?_) | dsimp only | split | simp only [id_eq]

theorem keep_execBkcKeyReq {F : Area → Bool} (dt : Nat) (path : WrPath) (v : Word) (s : State) (hk : Only F [.regs, .mem, .nv, .mbx, .evt, .lnk, .ing, .bkc, .items, .rings, .cpl, .lnd, .cbs, .dmc, .pwr, .out, .spd, .rc]) (t : State)
    (e : execBkcKeyReq dt path v s = .next t) : Ext F (s.tick dt) t := by
  unfold execBkcKeyReq at e
  obtain rfl := Host.Outcome.next.inj e
  repeat' with_reducible first
    | assumption | exact Only.sub hk (by decide) | intro _ | exact Ext.refl _ _ | apply keep_State_pathWrite
    | refine Ext.ite (fun _ => ?_) (fun _ => ?_) | dsimp only | split | simp only [id_eq]

theorem keep_execBkcJobProd {F : Area → Bool} (dt : Nat) (path : WrPath) (v : Word) (s : State) (hk : Only F [.regs, .mem, .nv, .mbx, .evt, .lnk, .ing, .bkc, .items, .rings, .cpl, .lnd, .cbs, .dmc, .pwr, .out, .spd, .rc]) (t : State)
    (e : execBkcJobProd dt path v s = .next t) : Ext F (s.tick dt) t := by
  unfold execBkcJobProd at e
  obtain rfl := Host.Outcome.next.inj e
  repeat' with_reducible first
    | assumption | exact Only.sub hk (by decide) | intro _ | exact Ext.refl _ _ | apply keep_State_pathWrite
    | refine Ext.ite (fun _ => ?_) (fun _ => ?_) | dsimp only | split | simp only [id_eq]

theorem keep_execBkcJobAbort {F : Area → Bool} (dt : Nat) (path : WrPath) (v : Word) (s : State) (hk : Only F [.regs, .mem, .nv, .mbx, .evt, .lnk, .ing, .bkc, .items, .rings, .cpl, .lnd, .cbs, .dmc, .pwr, .out, .spd, .rc]) (t : State)
    (e : execBkcJobAbort dt path v s = .next t) : Ext F (s.tick dt) t := by
  unfold execBkcJobAbort at e
  obtain rfl := Host.Outcome.next.inj e
  repeat' with_reducible first
    | assumption | exact Only.sub hk (by decide) | intro _ | exact Ext.refl _ _ | apply keep_State_pathWrite
    | refine Ext.ite (fun _ => ?_) (fun _ => ?_) | dsimp only | split | simp only [id_eq]

theorem keep_execSpdBankHo {F : Area → Bool} (dt : Nat) (path : WrPath) (bank : Fin 64) (v : Word) (s : State) (hk : Only F [.regs, .mem, .nv, .mbx, .evt, .lnk, .ing, .bkc, .items, .rings, .cpl, .lnd, .cbs, .dmc, .pwr, .out, .spd, .rc]) (t : State)
    (e : execSpdBankHo dt path bank v s = .next t) : Ext F (s.tick dt) t := by
  unfold execSpdBankHo at e
  obtain rfl := Host.Outcome.next.inj e
  repeat' with_reducible first
    | assumption | exact Only.sub hk (by decide) | intro _ | exact Ext.refl _ _ | apply keep_State_pathWrite
    | refine Ext.ite (fun _ => ?_) (fun _ => ?_) | dsimp only | split | simp only [id_eq]

theorem keep_execCbsI2cXfer {F : Area → Bool} (dt : Nat) (path : WrPath) (ctl : Fin 4) (v : Word) (s : State) (hk : Only F [.regs, .mem, .nv, .mbx, .evt, .lnk, .ing, .bkc, .items, .rings, .cpl, .lnd, .cbs, .dmc, .pwr, .out, .spd, .rc]) (t : State)
    (e : execCbsI2cXfer dt path ctl v s = .next t) : Ext F (s.tick dt) t := by
  unfold execCbsI2cXfer at e
  obtain rfl := Host.Outcome.next.inj e
  repeat' with_reducible first
    | assumption | exact Only.sub hk (by decide) | intro _ | exact Ext.refl _ _ | apply keep_State_pathWrite
    | refine Ext.ite (fun _ => ?_) (fun _ => ?_) | dsimp only | split | simp only [id_eq]

theorem keep_execCbsGpioSet {F : Area → Bool} (dt : Nat) (path : WrPath) (v : Word) (s : State) (hk : Only F [.regs, .mem, .nv, .mbx, .evt, .lnk, .ing, .bkc, .items, .rings, .cpl, .lnd, .cbs, .dmc, .pwr, .out, .spd, .rc]) (t : State)
    (e : execCbsGpioSet dt path v s = .next t) : Ext F (s.tick dt) t := by
  unfold execCbsGpioSet at e
  obtain rfl := Host.Outcome.next.inj e
  repeat' with_reducible first
    | assumption | exact Only.sub hk (by decide) | intro _ | exact Ext.refl _ _ | apply keep_State_pathWrite
    | refine Ext.ite (fun _ => ?_) (fun _ => ?_) | dsimp only | split | simp only [id_eq]

theorem keep_execCbsGpioClr {F : Area → Bool} (dt : Nat) (path : WrPath) (v : Word) (s : State) (hk : Only F [.regs, .mem, .nv, .mbx, .evt, .lnk, .ing, .bkc, .items, .rings, .cpl, .lnd, .cbs, .dmc, .pwr, .out, .spd, .rc]) (t : State)
    (e : execCbsGpioClr dt path v s = .next t) : Ext F (s.tick dt) t := by
  unfold execCbsGpioClr at e
  obtain rfl := Host.Outcome.next.inj e
  repeat' with_reducible first
    | assumption | exact Only.sub hk (by decide) | intro _ | exact Ext.refl _ _ | apply keep_State_pathWrite
    | refine Ext.ite (fun _ => ?_) (fun _ => ?_) | dsimp only | split | simp only [id_eq]

theorem keep_execI2cTargetRead {F : Area → Bool} (dt : Nat) (addr : BitVec 7) (n : Nat) (cut : Bool) (s : State) (hk : Only F [.regs, .nv, .lnd, .cbs, .out, .rc]) (t : State)
    (e : execI2cTargetRead dt addr n cut s = .next t) : Ext F (s.tick dt) t := by
  unfold execI2cTargetRead at e
  obtain rfl := Host.Outcome.next.inj e
  repeat' with_reducible first
    | assumption | exact Only.sub hk (by decide) | intro _ | exact Ext.refl _ _ | apply keep_State_targetRead
    | apply keep_State_tgtAck | apply keep_State_tgtEnd | refine Ext.of_pair (by assumption) ?_
    | refine Ext.of_triple (by assumption) ?_ | refine Ext.of_done (by assumption) ?_
    | refine Ext.of_wait (by assumption) ?_ | refine Ext.ite (fun _ => ?_) (fun _ => ?_) | dsimp only | split
    | simp only [id_eq]

theorem keep_execI2cTargetWrite {F : Area → Bool} (dt : Nat) (addr : BitVec 7) (start : Bool) (bytes : List Byte) (cut : Bool) (stop : Bool) (s : State) (hk : Only F [.regs, .nv, .lnd, .cbs, .rc]) (t : State)
    (e : execI2cTargetWrite dt addr start bytes cut stop s = .next t) : Ext F (s.tick dt) t := by
  unfold execI2cTargetWrite at e
  obtain rfl := Host.Outcome.next.inj e
  repeat' with_reducible first
    | assumption | exact Only.sub hk (by decide) | intro _ | exact Ext.refl _ _ | apply keep_State_targetWrite
    | refine Ext.ite (fun _ => ?_) (fun _ => ?_) | dsimp only | split | simp only [id_eq]

theorem keep_execI2cTransferEnd {F : Area → Bool} (dt : Nat) (ctl : Fin 4) (result : Fin 4) (idx : Fin 17) (data : List Byte) (s : State) (hk : Only F [.regs, .mbx, .evt, .cbs, .out, .rc]) (t : State)
    (e : execI2cTransferEnd dt ctl result idx data s = .next t) : Ext F (s.tick dt) t := by
  unfold execI2cTransferEnd at e
  obtain rfl := Host.Outcome.next.inj e
  repeat' with_reducible first
    | assumption | exact Only.sub hk (by decide) | intro _ | exact Ext.refl _ _ | apply keep_State_i2cEnd
    | refine Ext.of_pair (by assumption) ?_ | refine Ext.of_triple (by assumption) ?_
    | refine Ext.of_done (by assumption) ?_ | refine Ext.of_wait (by assumption) ?_
    | refine Ext.ite (fun _ => ?_) (fun _ => ?_) | dsimp only | split | simp only [id_eq]

theorem keep_execI2cSclTimeout {F : Area → Bool} (dt : Nat) (ctl : Fin 4) (s : State) (hk : Only F [.regs, .mbx, .evt, .cbs, .out, .rc]) (t : State)
    (e : execI2cSclTimeout dt ctl s = .next t) : Ext F (s.tick dt) t := by
  unfold execI2cSclTimeout at e
  obtain rfl := Host.Outcome.next.inj e
  repeat' with_reducible first
    | assumption | exact Only.sub hk (by decide) | intro _ | exact Ext.refl _ _ | apply keep_State_i2cEnd
    | refine Ext.ite (fun _ => ?_) (fun _ => ?_) | dsimp only | split | simp only [id_eq]

theorem keep_execGpioPinEdge {F : Area → Bool} (dt : Nat) (pin : Fin 32) (falling : Bool) (s : State) (hk : Only F [.time, .regs, .mem, .nv, .mbx, .evt, .ep, .resets, .lnk, .ing, .bkc, .items, .rings, .allocs, .cpl, .crs, .lnd, .vcd, .mon, .tim, .aud, .cbs, .dmc, .chutes, .pwr, .nvHeld, .free, .out, .spd, .rc, .epoch]) (t : State)
    (e : execGpioPinEdge dt pin falling s = .next t) : Ext F (s.tick dt) t := by
  unfold execGpioPinEdge at e
  obtain rfl := Host.Outcome.next.inj e
  repeat' with_reducible first
    | assumption | exact Only.sub hk (by decide) | intro _ | exact Ext.refl _ _ | apply keep_State_wakeP2
    | apply keep_State_gpioEdge | apply keep_State_wakeP1 | apply keep_State_emit | apply keep_State_wrF
    | refine Ext.ite (fun _ => ?_) (fun _ => ?_) | dsimp only | split | simp only [id_eq]

theorem keep_execEpochRetirement {F : Area → Bool} (dt : Nat) (s : State) (hk : Only F [.regs, .mbx, .evt, .ep, .ing, .out, .rc]) (t : State)
    (e : execEpochRetirement dt s = .next t) : Ext F (s.tick dt) t := by
  unfold execEpochRetirement at e
  obtain rfl := Host.Outcome.next.inj e
  repeat' with_reducible first
    | assumption | exact Only.sub hk (by decide) | intro _ | exact Ext.refl _ _ | apply keep_State_raiseEv
    | refine Ext.foldl (fun _ _ _ => ?_) ?_ | refine Ext.foldl_pair (fun _ _ _ => ?_) ?_
    | refine Ext.foldl_triple (fun _ _ _ => ?_) ?_ | refine Ext.of_pair (by assumption) ?_
    | refine Ext.of_triple (by assumption) ?_ | refine Ext.of_done (by assumption) ?_
    | refine Ext.of_wait (by assumption) ?_ | refine Ext.ite (fun _ => ?_) (fun _ => ?_) | dsimp only
    | fail_if_no_progress (refine Ext.mk_of ?_) | split | simp only [id_eq]

theorem keep_execCadenceTick {F : Area → Bool} (dt : Nat) (cad : Fin 4) (s : State) (hk : Only F [.regs, .nv, .mbx, .evt, .ep, .resets, .lnk, .ing, .bkc, .items, .rings, .allocs, .cpl, .lnd, .vcd, .mon, .tim, .aud, .cbs, .dmc, .pwr, .out, .spd, .rc, .epoch]) (t : State)
    (e : execCadenceTick dt cad s = .next t) : Ext F (s.tick dt) t := by
  unfold execCadenceTick at e
  obtain rfl := Host.Outcome.next.inj e
  repeat' with_reducible first
    | assumption | exact Only.sub hk (by decide) | intro _ | exact Ext.refl _ _ | apply keep_State_cadZero
    | refine Ext.of_pair (by assumption) ?_ | refine Ext.of_triple (by assumption) ?_
    | refine Ext.of_done (by assumption) ?_ | refine Ext.of_wait (by assumption) ?_
    | refine Ext.ite (fun _ => ?_) (fun _ => ?_) | dsimp only | fail_if_no_progress (refine Ext.mk_of ?_) | split
    | simp only [id_eq]

theorem keep_execSyntheticBoundary {F : Area → Bool} (dt : Nat) (s : State) (hk : Only F [.regs, .nv, .mbx, .evt, .ep, .resets, .lnk, .ing, .bkc, .items, .rings, .allocs, .cpl, .lnd, .vcd, .mon, .tim, .aud, .cbs, .dmc, .pwr, .out, .spd, .rc, .epoch]) (t : State)
    (e : execSyntheticBoundary dt s = .next t) : Ext F (s.tick dt) t := by
  unfold execSyntheticBoundary at e
  obtain rfl := Host.Outcome.next.inj e
  repeat' with_reducible first
    | assumption | exact Only.sub hk (by decide) | intro _ | exact Ext.refl _ _ | apply keep_State_boundary
    | refine Ext.ite (fun _ => ?_) (fun _ => ?_) | dsimp only | split | simp only [id_eq]

theorem keep_execLinkStart {F : Area → Bool} (dt : Nat) (c : Call) (s : State) (hk : Only F [.regs, .mbx, .lnk, .free, .out, .rc]) (t : State)
    (e : execLinkStart dt c s = .next t) : Ext F (s.tick dt) t := by
  unfold execLinkStart at e
  obtain rfl := Host.Outcome.next.inj e
  repeat' with_reducible first
    | assumption | exact Only.sub hk (by decide) | intro _ | exact Ext.refl _ _ | apply keep_kilel
    | apply keep_linkStart | refine Ext.ite (fun _ => ?_) (fun _ => ?_)
    | refine Ext.ite_ans (fun _ => ?_) (fun _ => ?_) | refine Ext.done ?_ | dsimp only | split | simp only [id_eq]

theorem keep_execLinkStop {F : Area → Bool} (dt : Nat) (c : Call) (s : State) (hk : Only F [.regs, .mbx, .lnk, .lnd, .out, .rc]) (t : State)
    (e : execLinkStop dt c s = .next t) : Ext F (s.tick dt) t := by
  unfold execLinkStop at e
  obtain rfl := Host.Outcome.next.inj e
  repeat' with_reducible first
    | assumption | exact Only.sub hk (by decide) | intro _ | exact Ext.refl _ _ | apply keep_kilel
    | apply keep_linkStop | refine Ext.ite (fun _ => ?_) (fun _ => ?_)
    | refine Ext.ite_ans (fun _ => ?_) (fun _ => ?_) | refine Ext.done ?_ | dsimp only | split | simp only [id_eq]

theorem keep_execLinkUpTimeout {F : Area → Bool} (dt : Nat) (s : State) (hk : Only F [.regs, .mbx, .out]) (t : State)
    (e : execLinkUpTimeout dt s = .next t) : Ext F (s.tick dt) t := by
  unfold execLinkUpTimeout at e
  obtain rfl := Host.Outcome.next.inj e
  repeat' with_reducible first
    | assumption | exact Only.sub hk (by decide) | intro _ | exact Ext.refl _ _ | apply keep_State_finish
    | refine Ext.of_pair (by assumption) ?_ | refine Ext.of_triple (by assumption) ?_
    | refine Ext.of_done (by assumption) ?_ | refine Ext.of_wait (by assumption) ?_
    | refine Ext.ite (fun _ => ?_) (fun _ => ?_) | dsimp only | split | simp only [id_eq]

theorem keep_execFsPacket {F : Area → Bool} (dt : Nat) (g : Fin 48) (hdr : BitVec 128) (s : State) (hk : Only F [.regs, .mem, .nv, .mbx, .evt, .ep, .resets, .lnk, .ing, .bkc, .items, .rings, .allocs, .cpl, .crs, .lnd, .vcd, .mon, .tim, .aud, .cbs, .dmc, .pwr, .free, .out, .spd, .rc, .epoch]) (t : State)
    (e : execFsPacket dt g hdr s = .next t) : Ext F (s.tick dt) t := by
  unfold execFsPacket at e
  obtain rfl := Host.Outcome.next.inj e
  repeat' with_reducible first
    | assumption | exact Only.sub hk (by decide) | intro _ | exact Ext.refl _ _ | apply keep_State_fsOpen
    | apply keep_State_receive | apply keep_State_fsAgain | apply keep_State_hdrError | apply keep_State_fillSeen
    | refine Ext.of_pair (by assumption) ?_ | refine Ext.of_triple (by assumption) ?_
    | refine Ext.of_done (by assumption) ?_ | refine Ext.of_wait (by assumption) ?_
    | refine Ext.ite (fun _ => ?_) (fun _ => ?_) | dsimp only | split | simp only [id_eq]

theorem keep_execFsSkewTimeout {F : Area → Bool} (dt : Nat) (g : Fin 48) (s : State) (hk : Only F [.ing]) (t : State)
    (e : execFsSkewTimeout dt g s = .next t) : Ext F (s.tick dt) t := by
  unfold execFsSkewTimeout at e
  obtain rfl := Host.Outcome.next.inj e
  repeat' with_reducible first
    | assumption | exact Only.sub hk (by decide) | intro _ | exact Ext.refl _ _ | apply keep_State_groupDead
    | refine Ext.of_pair (by assumption) ?_ | refine Ext.of_triple (by assumption) ?_
    | refine Ext.of_done (by assumption) ?_ | refine Ext.of_wait (by assumption) ?_
    | refine Ext.ite (fun _ => ?_) (fun _ => ?_) | dsimp only | split | simp only [id_eq]

theorem keep_execFePacket {F : Area → Bool} (dt : Nat) (g : Fin 48) (hdr : BitVec 128) (s : State) (hk : Only F [.regs, .mem, .nv, .mbx, .evt, .lnk, .ing, .items, .rings, .cpl, .crs, .lnd, .dmc, .pwr, .free, .out, .spd, .rc]) (t : State)
    (e : execFePacket dt g hdr s = .next t) : Ext F (s.tick dt) t := by
  unfold execFePacket at e
  obtain rfl := Host.Outcome.next.inj e
  repeat' with_reducible first
    | assumption | exact Only.sub hk (by decide) | intro _ | exact Ext.refl _ _ | apply keep_State_feTaken
    | apply keep_State_onPacket | refine Ext.of_pair (by assumption) ?_ | refine Ext.of_triple (by assumption) ?_
    | refine Ext.of_done (by assumption) ?_ | refine Ext.of_wait (by assumption) ?_
    | refine Ext.ite (fun _ => ?_) (fun _ => ?_) | dsimp only | fail_if_no_progress (refine Ext.mk_of ?_) | split
    | simp only [id_eq]

theorem keep_execPixelPacket {F : Area → Bool} (dt : Nat) (g : Fin 48) (hdr : BitVec 128) (payload : List Byte) (pcrc : Word) (s : State) (hk : Only F [.regs, .mbx, .evt, .lnk, .ing, .dmc, .free, .out, .rc]) (t : State)
    (e : execPixelPacket dt g hdr payload pcrc s = .next t) : Ext F (s.tick dt) t := by
  unfold execPixelPacket at e
  obtain rfl := Host.Outcome.next.inj e
  repeat' with_reducible first
    | assumption | exact Only.sub hk (by decide) | intro _ | exact Ext.refl _ _ | apply keep_State_segment
    | apply keep_State_onPacket | apply keep_State_bump | refine Ext.of_pair (by assumption) ?_
    | refine Ext.of_triple (by assumption) ?_ | refine Ext.of_done (by assumption) ?_
    | refine Ext.of_wait (by assumption) ?_ | refine Ext.ite (fun _ => ?_) (fun _ => ?_) | dsimp only | split
    | simp only [id_eq]

theorem keep_execEmbedPacket {F : Area → Bool} (dt : Nat) (g : Fin 48) (hdr : BitVec 128) (payload : List Byte) (pcrc : Word) (s : State) (hk : Only F [.regs, .mbx, .evt, .lnk, .ing, .dmc, .free, .out, .rc]) (t : State)
    (e : execEmbedPacket dt g hdr payload pcrc s = .next t) : Ext F (s.tick dt) t := by
  unfold execEmbedPacket at e
  obtain rfl := Host.Outcome.next.inj e
  repeat' with_reducible first
    | assumption | exact Only.sub hk (by decide) | intro _ | exact Ext.refl _ _ | apply keep_State_embedIn
    | apply keep_State_onPacket | apply keep_State_bump | refine Ext.of_pair (by assumption) ?_
    | refine Ext.of_triple (by assumption) ?_ | refine Ext.of_done (by assumption) ?_
    | refine Ext.of_wait (by assumption) ?_ | refine Ext.ite (fun _ => ?_) (fun _ => ?_) | dsimp only | split
    | simp only [id_eq]

theorem keep_execNullPacket {F : Area → Bool} (dt : Nat) (g : Fin 48) (hdr : BitVec 128) (s : State) (hk : Only F [.regs, .mbx, .evt, .lnk, .ing, .dmc, .free, .out, .rc]) (t : State)
    (e : execNullPacket dt g hdr s = .next t) : Ext F (s.tick dt) t := by
  unfold execNullPacket at e
  obtain rfl := Host.Outcome.next.inj e
  repeat' with_reducible first
    | assumption | exact Only.sub hk (by decide) | intro _ | exact Ext.refl _ _ | apply keep_State_onPacket
    | refine Ext.ite (fun _ => ?_) (fun _ => ?_) | dsimp only | split | simp only [id_eq]

theorem keep_execReplyPacket {F : Area → Bool} (dt : Nat) (g : Fin 48) (hdr : BitVec 128) (payload : List Byte) (pcrc : Word) (s : State) (hk : Only F [.regs, .mbx, .evt, .ep, .lnk, .ing, .dmc, .free, .out, .rc]) (t : State)
    (e : execReplyPacket dt g hdr payload pcrc s = .next t) : Ext F (s.tick dt) t := by
  unfold execReplyPacket at e
  obtain rfl := Host.Outcome.next.inj e
  repeat' with_reducible first
    | assumption | exact Only.sub hk (by decide) | intro _ | exact Ext.refl _ _ | apply keep_State_replyIn
    | apply keep_State_receive | apply keep_State_hdrError | refine Ext.of_pair (by assumption) ?_
    | refine Ext.of_triple (by assumption) ?_ | refine Ext.of_done (by assumption) ?_
    | refine Ext.of_wait (by assumption) ?_ | refine Ext.ite (fun _ => ?_) (fun _ => ?_) | dsimp only | split
    | simp only [id_eq]

theorem keep_execSensorCmd {F : Area → Bool} (dt : Nat) (c : Call) (s : State) (hk : Only F [.regs, .mbx, .lnk, .out, .rc]) (t : State)
    (e : execSensorCmd dt c s = .next t) : Ext F (s.tick dt) t := by
  unfold execSensorCmd at e
  obtain rfl := Host.Outcome.next.inj e
  repeat' with_reducible first
    | assumption | exact Only.sub hk (by decide) | intro _ | exact Ext.refl _ _ | apply keep_kilel
    | apply keep_sensorCmd | refine Ext.ite (fun _ => ?_) (fun _ => ?_)
    | refine Ext.ite_ans (fun _ => ?_) (fun _ => ?_) | refine Ext.done ?_ | dsimp only | split | simp only [id_eq]

theorem keep_execBackchannelCommandSend {F : Area → Bool} (dt : Nat) (s : State) (hk : Only F [.lnk, .out]) (t : State)
    (e : execBackchannelCommandSend dt s = .next t) : Ext F (s.tick dt) t := by
  unfold execBackchannelCommandSend at e
  obtain rfl := Host.Outcome.next.inj e
  repeat' with_reducible first
    | assumption | exact Only.sub hk (by decide) | intro _ | exact Ext.refl _ _ | apply keep_State_bcSend
    | refine Ext.of_pair (by assumption) ?_ | refine Ext.of_triple (by assumption) ?_
    | refine Ext.of_done (by assumption) ?_ | refine Ext.of_wait (by assumption) ?_
    | refine Ext.ite (fun _ => ?_) (fun _ => ?_) | dsimp only | split | simp only [id_eq]

theorem keep_execBcCommandTimeout {F : Area → Bool} (dt : Nat) (tag : BitVec 8) (s : State) (hk : Only F [.regs, .mbx, .evt, .ep, .lnk, .out, .rc]) (t : State)
    (e : execBcCommandTimeout dt tag s = .next t) : Ext F (s.tick dt) t := by
  unfold execBcCommandTimeout at e
  obtain rfl := Host.Outcome.next.inj e
  repeat' with_reducible first
    | assumption | exact Only.sub hk (by decide) | intro _ | exact Ext.refl _ _ | apply keep_State_bcRetry
    | refine Ext.of_pair (by assumption) ?_ | refine Ext.of_triple (by assumption) ?_
    | refine Ext.of_done (by assumption) ?_ | refine Ext.of_wait (by assumption) ?_
    | refine Ext.ite (fun _ => ?_) (fun _ => ?_) | dsimp only | split | simp only [id_eq]

theorem keep_execSpareMap {F : Area → Bool} (dt : Nat) (c : Call) (s : State) (hk : Only F [.regs, .mbx, .ep, .lnk, .out, .rc]) (t : State)
    (e : execSpareMap dt c s = .next t) : Ext F (s.tick dt) t := by
  unfold execSpareMap at e
  obtain rfl := Host.Outcome.next.inj e
  repeat' with_reducible first
    | assumption | exact Only.sub hk (by decide) | intro _ | exact Ext.refl _ _ | apply keep_kilel
    | apply keep_stageAnswer | refine Ext.of_pair (by assumption) ?_ | refine Ext.of_triple (by assumption) ?_
    | refine Ext.of_done (by assumption) ?_ | refine Ext.of_wait (by assumption) ?_
    | refine Ext.ite (fun _ => ?_) (fun _ => ?_) | refine Ext.ite_ans (fun _ => ?_) (fun _ => ?_) | refine Ext.done ?_
    | dsimp only | fail_if_no_progress (refine Ext.mk_of ?_) | split | simp only [id_eq]

theorem keep_execSpareSwapDue {F : Area → Bool} (dt : Nat) (lane : Fin 64) (s : State) (hk : Only F [.regs, .mbx, .evt, .lnk, .out, .rc]) (t : State)
    (e : execSpareSwapDue dt lane s = .next t) : Ext F (s.tick dt) t := by
  unfold execSpareSwapDue at e
  obtain rfl := Host.Outcome.next.inj e
  repeat' with_reducible first
    | assumption | exact Only.sub hk (by decide) | intro _ | exact Ext.refl _ _ | apply keep_State_swapFor
    | refine Ext.ite (fun _ => ?_) (fun _ => ?_) | dsimp only | split | simp only [id_eq]

theorem keep_execNop {F : Area → Bool} (dt : Nat) (c : Call) (s : State) (hk : Only F [.regs, .mbx, .out, .rc]) (t : State)
    (e : execNop dt c s = .next t) : Ext F (s.tick dt) t := by
  unfold execNop at e
  obtain rfl := Host.Outcome.next.inj e
  repeat' with_reducible first
    | assumption | exact Only.sub hk (by decide) | intro _ | exact Ext.refl _ _ | apply keep_kilel
    | refine Ext.ite (fun _ => ?_) (fun _ => ?_) | refine Ext.ite_ans (fun _ => ?_) (fun _ => ?_) | refine Ext.done ?_
    | dsimp only | split | simp only [id_eq]

theorem keep_execSysInfo {F : Area → Bool} (dt : Nat) (c : Call) (s : State) (hk : Only F [.regs, .mbx, .out, .rc]) (t : State)
    (e : execSysInfo dt c s = .next t) : Ext F (s.tick dt) t := by
  unfold execSysInfo at e
  obtain rfl := Host.Outcome.next.inj e
  repeat' with_reducible first
    | assumption | exact Only.sub hk (by decide) | intro _ | exact Ext.refl _ _ | apply keep_kilel
    | apply keep_sysInfo | refine Ext.ite (fun _ => ?_) (fun _ => ?_) | refine Ext.ite_ans (fun _ => ?_) (fun _ => ?_)
    | refine Ext.done ?_ | dsimp only | split | simp only [id_eq]

theorem keep_execFwLogRead {F : Area → Bool} (dt : Nat) (c : Call) (log : List Byte) (s : State) (hk : Only F [.regs, .mbx, .out, .rc]) (t : State)
    (e : execFwLogRead dt c log s = .next t) : Ext F (s.tick dt) t := by
  unfold execFwLogRead at e
  obtain rfl := Host.Outcome.next.inj e
  repeat' with_reducible first
    | assumption | exact Only.sub hk (by decide) | intro _ | exact Ext.refl _ _ | apply keep_kilel | apply keep_dmaOut
    | refine Ext.ite (fun _ => ?_) (fun _ => ?_) | refine Ext.ite_ans (fun _ => ?_) (fun _ => ?_) | refine Ext.done ?_
    | dsimp only | split | simp only [id_eq]

theorem keep_execMemAlloc {F : Area → Bool} (dt : Nat) (c : Call) (pages : Nat) (s : State) (hk : Only F [.regs, .mbx, .allocs, .free, .out, .rc]) (t : State)
    (e : execMemAlloc dt c pages s = .next t) : Ext F (s.tick dt) t := by
  unfold execMemAlloc at e
  obtain rfl := Host.Outcome.next.inj e
  repeat' with_reducible first
    | assumption | exact Only.sub hk (by decide) | intro _ | exact Ext.refl _ _ | apply keep_kilel
    | apply keep_memAlloc | refine Ext.ite (fun _ => ?_) (fun _ => ?_)
    | refine Ext.ite_ans (fun _ => ?_) (fun _ => ?_) | refine Ext.done ?_ | dsimp only | split | simp only [id_eq]

theorem keep_execMemFree {F : Area → Bool} (dt : Nat) (c : Call) (addr : BitVec 40) (s : State) (hk : Only F [.regs, .mbx, .allocs, .out, .rc]) (t : State)
    (e : execMemFree dt c addr s = .next t) : Ext F (s.tick dt) t := by
  unfold execMemFree at e
  obtain rfl := Host.Outcome.next.inj e
  repeat' with_reducible first
    | assumption | exact Only.sub hk (by decide) | intro _ | exact Ext.refl _ _ | apply keep_kilel
    | apply keep_memFree | refine Ext.ite (fun _ => ?_) (fun _ => ?_) | refine Ext.ite_ans (fun _ => ?_) (fun _ => ?_)
    | refine Ext.done ?_ | dsimp only | split | simp only [id_eq]

theorem keep_execMemWrite {F : Area → Bool} (dt : Nat) (c : Call) (addr : BitVec 40) (s : State) (hk : Only F [.regs, .mem, .nv, .mbx, .evt, .items, .dmc, .pwr, .out, .rc]) (t : State)
    (e : execMemWrite dt c addr s = .next t) : Ext F (s.tick dt) t := by
  unfold execMemWrite at e
  obtain rfl := Host.Outcome.next.inj e
  repeat' with_reducible first
    | assumption | exact Only.sub hk (by decide) | intro _ | exact Ext.refl _ _ | apply keep_kilel
    | apply keep_memWrite | refine Ext.ite (fun _ => ?_) (fun _ => ?_)
    | refine Ext.ite_ans (fun _ => ?_) (fun _ => ?_) | refine Ext.done ?_ | dsimp only | split | simp only [id_eq]

theorem keep_execMemRead {F : Area → Bool} (dt : Nat) (c : Call) (addr : BitVec 40) (len : Nat) (s : State) (hk : Only F [.regs, .nv, .mbx, .evt, .items, .dmc, .pwr, .out, .rc]) (t : State)
    (e : execMemRead dt c addr len s = .next t) : Ext F (s.tick dt) t := by
  unfold execMemRead at e
  obtain rfl := Host.Outcome.next.inj e
  repeat' with_reducible first
    | assumption | exact Only.sub hk (by decide) | intro _ | exact Ext.refl _ _ | apply keep_kilel
    | apply keep_memRead | refine Ext.ite (fun _ => ?_) (fun _ => ?_) | refine Ext.ite_ans (fun _ => ?_) (fun _ => ?_)
    | refine Ext.done ?_ | dsimp only | split | simp only [id_eq]

theorem keep_execSettingsStage {F : Area → Bool} (dt : Nat) (c : Call) (s : State) (hk : Only F [.regs, .mbx, .ep, .out, .rc]) (t : State)
    (e : execSettingsStage dt c s = .next t) : Ext F (s.tick dt) t := by
  unfold execSettingsStage at e
  obtain rfl := Host.Outcome.next.inj e
  repeat' with_reducible first
    | assumption | exact Only.sub hk (by decide) | intro _ | exact Ext.refl _ _ | apply keep_kilel
    | apply keep_settingsStage | refine Ext.ite (fun _ => ?_) (fun _ => ?_)
    | refine Ext.ite_ans (fun _ => ?_) (fun _ => ?_) | refine Ext.done ?_ | dsimp only | split | simp only [id_eq]

theorem keep_execEpochDiscard {F : Area → Bool} (dt : Nat) (c : Call) (s : State) (hk : Only F [.regs, .mbx, .ep, .out, .rc]) (t : State)
    (e : execEpochDiscard dt c s = .next t) : Ext F (s.tick dt) t := by
  unfold execEpochDiscard at e
  obtain rfl := Host.Outcome.next.inj e
  repeat' with_reducible first
    | assumption | exact Only.sub hk (by decide) | intro _ | exact Ext.refl _ _ | apply keep_kilel
    | apply keep_State_unstage | refine Ext.ite (fun _ => ?_) (fun _ => ?_)
    | refine Ext.ite_ans (fun _ => ?_) (fun _ => ?_) | refine Ext.done ?_ | dsimp only | split | simp only [id_eq]

theorem keep_execSettingsRead {F : Area → Bool} (dt : Nat) (c : Call) (s : State) (hk : Only F [.regs, .nv, .mbx, .evt, .items, .dmc, .pwr, .free, .out, .spd, .rc]) (t : State)
    (e : execSettingsRead dt c s = .next t) : Ext F (s.tick dt) t := by
  unfold execSettingsRead at e
  obtain rfl := Host.Outcome.next.inj e
  repeat' with_reducible first
    | assumption | exact Only.sub hk (by decide) | intro _ | exact Ext.refl _ _ | apply keep_kilel
    | apply keep_settingsRead | refine Ext.ite (fun _ => ?_) (fun _ => ?_)
    | refine Ext.ite_ans (fun _ => ?_) (fun _ => ?_) | refine Ext.done ?_ | dsimp only | split | simp only [id_eq]

theorem keep_execEpochStatus {F : Area → Bool} (dt : Nat) (c : Call) (s : State) (hk : Only F [.regs, .mbx, .out, .rc]) (t : State)
    (e : execEpochStatus dt c s = .next t) : Ext F (s.tick dt) t := by
  unfold execEpochStatus at e
  obtain rfl := Host.Outcome.next.inj e
  repeat' with_reducible first
    | assumption | exact Only.sub hk (by decide) | intro _ | exact Ext.refl _ _ | apply keep_kilel
    | apply keep_epochStatus | refine Ext.ite (fun _ => ?_) (fun _ => ?_)
    | refine Ext.ite_ans (fun _ => ?_) (fun _ => ?_) | refine Ext.done ?_ | dsimp only | split | simp only [id_eq]

theorem keep_execStatusSnapshot {F : Area → Bool} (dt : Nat) (c : Call) (s : State) (hk : Only F [.regs, .mbx, .out, .rc]) (t : State)
    (e : execStatusSnapshot dt c s = .next t) : Ext F (s.tick dt) t := by
  unfold execStatusSnapshot at e
  obtain rfl := Host.Outcome.next.inj e
  repeat' with_reducible first
    | assumption | exact Only.sub hk (by decide) | intro _ | exact Ext.refl _ _ | apply keep_kilel
    | apply keep_statusSnapshot | refine Ext.ite (fun _ => ?_) (fun _ => ?_)
    | refine Ext.ite_ans (fun _ => ?_) (fun _ => ?_) | refine Ext.done ?_ | dsimp only | split | simp only [id_eq]

theorem keep_execCtxAlloc {F : Area → Bool} (dt : Nat) (c : Call) (s : State) (hk : Only F [.regs, .mbx, .ep, .out, .rc]) (t : State)
    (e : execCtxAlloc dt c s = .next t) : Ext F (s.tick dt) t := by
  unfold execCtxAlloc at e
  obtain rfl := Host.Outcome.next.inj e
  repeat' with_reducible first
    | assumption | exact Only.sub hk (by decide) | intro _ | exact Ext.refl _ _ | apply keep_kilel
    | apply keep_ctxAlloc | refine Ext.ite (fun _ => ?_) (fun _ => ?_)
    | refine Ext.ite_ans (fun _ => ?_) (fun _ => ?_) | refine Ext.done ?_ | dsimp only | split | simp only [id_eq]

theorem keep_execCtxFree {F : Area → Bool} (dt : Nat) (c : Call) (s : State) (hk : Only F [.regs, .mbx, .ep, .out, .rc]) (t : State)
    (e : execCtxFree dt c s = .next t) : Ext F (s.tick dt) t := by
  unfold execCtxFree at e
  obtain rfl := Host.Outcome.next.inj e
  repeat' with_reducible first
    | assumption | exact Only.sub hk (by decide) | intro _ | exact Ext.refl _ _ | apply keep_kilel
    | apply keep_ctxFree | refine Ext.ite (fun _ => ?_) (fun _ => ?_) | refine Ext.ite_ans (fun _ => ?_) (fun _ => ?_)
    | refine Ext.done ?_ | dsimp only | split | simp only [id_eq]

theorem keep_execCtxConfig {F : Area → Bool} (dt : Nat) (c : Call) (s : State) (hk : Only F [.regs, .mbx, .ep, .out, .rc]) (t : State)
    (e : execCtxConfig dt c s = .next t) : Ext F (s.tick dt) t := by
  unfold execCtxConfig at e
  obtain rfl := Host.Outcome.next.inj e
  repeat' with_reducible first
    | assumption | exact Only.sub hk (by decide) | intro _ | exact Ext.refl _ _ | apply keep_kilel
    | apply keep_stageAnswer | refine Ext.ite (fun _ => ?_) (fun _ => ?_)
    | refine Ext.ite_ans (fun _ => ?_) (fun _ => ?_) | refine Ext.done ?_ | dsimp only | split | simp only [id_eq]

theorem keep_execPartConfig {F : Area → Bool} (dt : Nat) (c : Call) (s : State) (hk : Only F [.regs, .mbx, .ep, .out, .rc]) (t : State)
    (e : execPartConfig dt c s = .next t) : Ext F (s.tick dt) t := by
  unfold execPartConfig at e
  obtain rfl := Host.Outcome.next.inj e
  repeat' with_reducible first
    | assumption | exact Only.sub hk (by decide) | intro _ | exact Ext.refl _ _ | apply keep_kilel
    | apply keep_partConfig | refine Ext.ite (fun _ => ?_) (fun _ => ?_)
    | refine Ext.ite_ans (fun _ => ?_) (fun _ => ?_) | refine Ext.done ?_ | dsimp only | split | simp only [id_eq]

theorem keep_execViolationRead {F : Area → Bool} (dt : Nat) (c : Call) (s : State) (hk : Only F [.regs, .mbx, .out, .rc]) (t : State)
    (e : execViolationRead dt c s = .next t) : Ext F (s.tick dt) t := by
  unfold execViolationRead at e
  obtain rfl := Host.Outcome.next.inj e
  repeat' with_reducible first
    | assumption | exact Only.sub hk (by decide) | intro _ | exact Ext.refl _ _ | apply keep_kilel
    | apply keep_violationRead | refine Ext.ite (fun _ => ?_) (fun _ => ?_)
    | refine Ext.ite_ans (fun _ => ?_) (fun _ => ?_) | refine Ext.done ?_ | dsimp only | split | simp only [id_eq]

theorem keep_execEvqConfig {F : Area → Bool} (dt : Nat) (c : Call) (s : State) (hk : Only F [.regs, .mbx, .evt, .out, .rc]) (t : State)
    (e : execEvqConfig dt c s = .next t) : Ext F (s.tick dt) t := by
  unfold execEvqConfig at e
  obtain rfl := Host.Outcome.next.inj e
  repeat' with_reducible first
    | assumption | exact Only.sub hk (by decide) | intro _ | exact Ext.refl _ _ | apply keep_kilel
    | apply keep_evqConfig | refine Ext.ite (fun _ => ?_) (fun _ => ?_)
    | refine Ext.ite_ans (fun _ => ?_) (fun _ => ?_) | refine Ext.done ?_ | dsimp only | split | simp only [id_eq]

theorem keep_execStreamOpen {F : Area → Bool} (dt : Nat) (c : Call) (s : State) (hk : Only F [.regs, .mbx, .ep, .out, .rc]) (t : State)
    (e : execStreamOpen dt c s = .next t) : Ext F (s.tick dt) t := by
  unfold execStreamOpen at e
  obtain rfl := Host.Outcome.next.inj e
  repeat' with_reducible first
    | assumption | exact Only.sub hk (by decide) | intro _ | exact Ext.refl _ _ | apply keep_kilel
    | apply keep_streamOpen | refine Ext.ite (fun _ => ?_) (fun _ => ?_)
    | refine Ext.ite_ans (fun _ => ?_) (fun _ => ?_) | refine Ext.done ?_ | dsimp only | split | simp only [id_eq]

theorem keep_execStreamClose {F : Area → Bool} (dt : Nat) (c : Call) (s : State) (hk : Only F [.regs, .mbx, .ep, .out, .rc]) (t : State)
    (e : execStreamClose dt c s = .next t) : Ext F (s.tick dt) t := by
  unfold execStreamClose at e
  obtain rfl := Host.Outcome.next.inj e
  repeat' with_reducible first
    | assumption | exact Only.sub hk (by decide) | intro _ | exact Ext.refl _ _ | apply keep_kilel
    | apply keep_streamClose | refine Ext.ite (fun _ => ?_) (fun _ => ?_)
    | refine Ext.ite_ans (fun _ => ?_) (fun _ => ?_) | refine Ext.done ?_ | dsimp only | split | simp only [id_eq]

theorem keep_execStatsRoute {F : Area → Bool} (dt : Nat) (c : Call) (route : Fin 15) (ctx : Fin 4096) (en : Bool) (ring : Fin 16384) (s : State) (hk : Only F [.regs, .mbx, .ep, .crs, .out, .rc]) (t : State)
    (e : execStatsRoute dt c route ctx en ring s = .next t) : Ext F (s.tick dt) t := by
  unfold execStatsRoute at e
  obtain rfl := Host.Outcome.next.inj e
  repeat' with_reducible first
    | assumption | exact Only.sub hk (by decide) | intro _ | exact Ext.refl _ _ | apply keep_kilel
    | apply keep_statsRoute | refine Ext.ite (fun _ => ?_) (fun _ => ?_)
    | refine Ext.ite_ans (fun _ => ?_) (fun _ => ?_) | refine Ext.done ?_ | dsimp only | split | simp only [id_eq]

theorem keep_execMbxDoorbell {F : Area → Bool} (dt : Nat) (fn : Fin 64) (w : Word) (s : State) (hk : Only F [.time, .regs, .mbx, .evt, .tim, .free, .out, .rc]) (t : State)
    (e : execMbxDoorbell dt fn w s = .next t) : Ext F (s.tick dt) t := by
  unfold execMbxDoorbell at e
  obtain rfl := Host.Outcome.next.inj e
  repeat' with_reducible first
    | assumption | exact Only.sub hk (by decide) | intro _ | exact Ext.refl _ _ | apply keep_State_doorbell
    | refine Ext.ite (fun _ => ?_) (fun _ => ?_) | dsimp only | split | simp only [id_eq]

theorem keep_execRequestAreaWrite {F : Area → Bool} (dt : Nat) (fn : Fin 64) (slot : Fin 16) (word : Fin 64) (v : Word) (s : State) (hk : Only F [.regs, .rc]) (t : State)
    (e : execRequestAreaWrite dt fn slot word v s = .next t) : Ext F (s.tick dt) t := by
  unfold execRequestAreaWrite at e
  obtain rfl := Host.Outcome.next.inj e
  repeat' with_reducible first
    | assumption | exact Only.sub hk (by decide) | intro _ | exact Ext.refl _ _ | apply keep_State_bump
    | apply keep_State_wr | refine Ext.ite (fun _ => ?_) (fun _ => ?_) | dsimp only | split | simp only [id_eq]

theorem keep_execMbxSlotAck {F : Area → Bool} (dt : Nat) (fn : Fin 64) (w : Word) (s : State) (hk : Only F [.regs]) (t : State)
    (e : execMbxSlotAck dt fn w s = .next t) : Ext F (s.tick dt) t := by
  unfold execMbxSlotAck at e
  obtain rfl := Host.Outcome.next.inj e
  repeat' with_reducible first
    | assumption | exact Only.sub hk (by decide) | intro _ | exact Ext.refl _ _ | apply keep_State_setSlot
    | refine Ext.foldl (fun _ _ _ => ?_) ?_ | refine Ext.foldl_pair (fun _ _ _ => ?_) ?_
    | refine Ext.foldl_triple (fun _ _ _ => ?_) ?_ | refine Ext.ite (fun _ => ?_) (fun _ => ?_) | dsimp only | split
    | simp only [id_eq]

theorem keep_execMbxIntStat {F : Area → Bool} (dt : Nat) (fn : Fin 64) (w : Word) (s : State) (hk : Only F [.regs]) (t : State)
    (e : execMbxIntStat dt fn w s = .next t) : Ext F (s.tick dt) t := by
  unfold execMbxIntStat at e
  obtain rfl := Host.Outcome.next.inj e
  repeat' with_reducible first
    | assumption | exact Only.sub hk (by decide) | intro _ | exact Ext.refl _ _ | apply keep_State_wr
    | refine Ext.ite (fun _ => ?_) (fun _ => ?_) | dsimp only | split | simp only [id_eq]

theorem keep_execBar0ReservedAccess {F : Area → Bool} (dt : Nat) (fn : Fin 64) (off : BitVec 16) (write : Bool) (s : State) (hk : Only F [.regs, .out]) (t : State)
    (e : execBar0ReservedAccess dt fn off write s = .next t) : Ext F (s.tick dt) t := by
  unfold execBar0ReservedAccess at e
  obtain rfl := Host.Outcome.next.inj e
  repeat' with_reducible first
    | assumption | exact Only.sub hk (by decide) | intro _ | exact Ext.refl _ _ | apply keep_State_bar0Read
    | apply keep_State_viol | apply keep_State_emit | refine Ext.ite (fun _ => ?_) (fun _ => ?_) | dsimp only | split
    | simp only [id_eq]

theorem keep_execPendingBitmapClear {F : Area → Bool} (dt : Nat) (fn : Fin 64) (word : Fin 128) (v : Word) (s : State) (hk : Only F [.regs, .mbx, .evt, .out]) (t : State)
    (e : execPendingBitmapClear dt fn word v s = .next t) : Ext F (s.tick dt) t := by
  unfold execPendingBitmapClear at e
  obtain rfl := Host.Outcome.next.inj e
  repeat' with_reducible first
    | assumption | exact Only.sub hk (by decide) | intro _ | exact Ext.refl _ _ | apply keep_State_pendClear
    | refine Ext.foldl (fun _ _ _ => ?_) ?_ | refine Ext.foldl_pair (fun _ _ _ => ?_) ?_
    | refine Ext.foldl_triple (fun _ _ _ => ?_) ?_ | refine Ext.ite (fun _ => ?_) (fun _ => ?_) | dsimp only | split
    | simp only [id_eq]

theorem keep_execEvqConsWrite {F : Area → Bool} (dt : Nat) (fn : Fin 64) (ctx : Fin 4096) (cons : BitVec 16) (s : State) (hk : Only F [.regs, .mbx, .evt, .out]) (t : State)
    (e : execEvqConsWrite dt fn ctx cons s = .next t) : Ext F (s.tick dt) t := by
  unfold execEvqConsWrite at e
  obtain rfl := Host.Outcome.next.inj e
  repeat' with_reducible first
    | assumption | exact Only.sub hk (by decide) | intro _ | exact Ext.refl _ _ | apply keep_State_flushLost
    | apply keep_State_setEvq | apply keep_State_viol | refine Ext.ite (fun _ => ?_) (fun _ => ?_) | dsimp only
    | fail_if_no_progress (refine Ext.mk_of ?_) | split | simp only [id_eq]

theorem keep_execEvqModExpiry {F : Area → Bool} (dt : Nat) (ctx : Fin 4096) (s : State) (hk : Only F [.mbx, .evt, .out]) (t : State)
    (e : execEvqModExpiry dt ctx s = .next t) : Ext F (s.tick dt) t := by
  unfold execEvqModExpiry at e
  obtain rfl := Host.Outcome.next.inj e
  repeat' with_reducible first
    | assumption | exact Only.sub hk (by decide) | intro _ | exact Ext.refl _ _ | apply keep_State_ctxMessage
    | apply keep_State_setEvq | refine Ext.of_pair (by assumption) ?_ | refine Ext.of_triple (by assumption) ?_
    | refine Ext.of_done (by assumption) ?_ | refine Ext.of_wait (by assumption) ?_
    | refine Ext.ite (fun _ => ?_) (fun _ => ?_) | dsimp only | fail_if_no_progress (refine Ext.mk_of ?_) | split
    | simp only [id_eq]

theorem keep_execFaultReport {F : Area → Bool} (dt : Nat) (reps : List FaultRep) (s : State) (hk : Only F [.regs, .mem, .nv, .mbx, .evt, .ep, .resets, .lnk, .ing, .bkc, .items, .rings, .allocs, .cpl, .crs, .lnd, .vcd, .mon, .tim, .aud, .cbs, .dmc, .chutes, .pwr, .nvHeld, .out, .spd, .rc, .epoch]) (t : State)
    (e : execFaultReport dt reps s = .next t) : Ext F (s.tick dt) t := by
  unfold execFaultReport at e
  obtain rfl := Host.Outcome.next.inj e
  repeat' with_reducible first
    | assumption | exact Only.sub hk (by decide) | intro _ | exact Ext.refl _ _ | apply keep_State_reports
    | apply keep_State_warmReset | apply keep_State_rootMessages | refine Ext.of_pair (by assumption) ?_
    | refine Ext.of_triple (by assumption) ?_ | refine Ext.of_done (by assumption) ?_
    | refine Ext.of_wait (by assumption) ?_ | refine Ext.ite (fun _ => ?_) (fun _ => ?_) | dsimp only | split
    | simp only [id_eq]

theorem keep_execRootQuietClose {F : Area → Bool} (dt : Nat) (id : Word) (s : State) (hk : Only F [.regs, .nv, .mbx, .evt, .out, .rc]) (t : State)
    (e : execRootQuietClose dt id s = .next t) : Ext F (s.tick dt) t := by
  unfold execRootQuietClose at e
  obtain rfl := Host.Outcome.next.inj e
  repeat' with_reducible first
    | assumption | exact Only.sub hk (by decide) | intro _ | exact Ext.refl _ _ | apply keep_State_closeRoot
    | refine Ext.of_pair (by assumption) ?_ | refine Ext.of_triple (by assumption) ?_
    | refine Ext.of_done (by assumption) ?_ | refine Ext.of_wait (by assumption) ?_
    | refine Ext.ite (fun _ => ?_) (fun _ => ?_) | dsimp only | split | simp only [id_eq]

theorem keep_execMsixUnmask {F : Area → Bool} (dt : Nat) (fn : Fin 64) (vec : Option (Fin 2048)) (s : State) (hk : Only F [.mbx, .out]) (t : State)
    (e : execMsixUnmask dt fn vec s = .next t) : Ext F (s.tick dt) t := by
  unfold execMsixUnmask at e
  obtain rfl := Host.Outcome.next.inj e
  repeat' with_reducible first
    | assumption | exact Only.sub hk (by decide) | intro _ | exact Ext.refl _ _ | apply keep_State_msixFlush
    | refine Ext.of_pair (by assumption) ?_ | refine Ext.of_triple (by assumption) ?_
    | refine Ext.of_done (by assumption) ?_ | refine Ext.of_wait (by assumption) ?_
    | refine Ext.ite (fun _ => ?_) (fun _ => ?_) | dsimp only | fail_if_no_progress (refine Ext.mk_of ?_) | split
    | simp only [id_eq]

theorem keep_execBmeClear {F : Area → Bool} (dt : Nat) (fn : Fin 64) (s : State) (hk : Only F [.mbx]) (t : State)
    (e : execBmeClear dt fn s = .next t) : Ext F (s.tick dt) t := by
  unfold execBmeClear at e
  obtain rfl := Host.Outcome.next.inj e
  repeat' with_reducible first
    | assumption | exact Only.sub hk (by decide) | intro _ | exact Ext.refl _ _
    | refine Ext.ite (fun _ => ?_) (fun _ => ?_) | dsimp only | fail_if_no_progress (refine Ext.mk_of ?_) | split
    | simp only [id_eq]

theorem keep_execBmeSet {F : Area → Bool} (dt : Nat) (fn : Fin 64) (s : State) (hk : Only F [.regs, .mbx, .evt, .rings, .lnd, .out, .rc]) (t : State)
    (e : execBmeSet dt fn s = .next t) : Ext F (s.tick dt) t := by
  unfold execBmeSet at e
  obtain rfl := Host.Outcome.next.inj e
  repeat' with_reducible first
    | assumption | exact Only.sub hk (by decide) | intro _ | exact Ext.refl _ _ | apply keep_State_bmeOn
    | refine Ext.ite (fun _ => ?_) (fun _ => ?_) | dsimp only | split | simp only [id_eq]

theorem keep_execHlkRingPoll {F : Area → Bool} (dt : Nat) (ring : Fin 16384) (hostWord : BitVec 64) (descs : List Desc) (s : State) (hk : Only F [.regs, .mbx, .evt, .items, .rings, .cpl, .lnd, .out, .rc]) (t : State)
    (e : execHlkRingPoll dt ring hostWord descs s = .next t) : Ext F (s.tick dt) t := by
  unfold execHlkRingPoll at e
  obtain rfl := Host.Outcome.next.inj e
  repeat' with_reducible first
    | assumption | exact Only.sub hk (by decide) | intro _ | exact Ext.refl _ _ | apply keep_State_ringPoll
    | apply keep_State_popAll | apply keep_State_startNext | refine Ext.ite (fun _ => ?_) (fun _ => ?_) | dsimp only
    | split | simp only [id_eq]

theorem keep_execH2cReadComplete {F : Area → Bool} (dt : Nat) (ring : Fin 16384) (data : List Byte) (s : State) (hk : Only F [.regs, .mbx, .evt, .rings, .out, .rc]) (t : State)
    (e : execH2cReadComplete dt ring data s = .next t) : Ext F (s.tick dt) t := by
  unfold execH2cReadComplete at e
  obtain rfl := Host.Outcome.next.inj e
  repeat' with_reducible first
    | assumption | exact Only.sub hk (by decide) | intro _ | exact Ext.refl _ _ | apply keep_State_ringRead
    | refine Ext.of_pair (by assumption) ?_ | refine Ext.of_triple (by assumption) ?_
    | refine Ext.of_done (by assumption) ?_ | refine Ext.of_wait (by assumption) ?_
    | refine Ext.ite (fun _ => ?_) (fun _ => ?_) | dsimp only | split | simp only [id_eq]

theorem keep_execHlkItemDelivery {F : Area → Bool} (dt : Nat) (ring : Fin 16384) (bytes : Nat) (s : State) (hk : Only F [.regs, .nv, .mbx, .evt, .items, .rings, .cpl, .lnd, .dmc, .pwr, .out, .spd, .rc]) (t : State)
    (e : execHlkItemDelivery dt ring bytes s = .next t) : Ext F (s.tick dt) t := by
  unfold execHlkItemDelivery at e
  obtain rfl := Host.Outcome.next.inj e
  repeat' with_reducible first
    | assumption | exact Only.sub hk (by decide) | intro _ | exact Ext.refl _ _ | apply keep_State_fill
    | apply keep_State_startNext | refine Ext.ite (fun _ => ?_) (fun _ => ?_) | dsimp only | split | simp only [id_eq]

theorem keep_execReadCompletionError {F : Area → Bool} (dt : Nat) (ring : Fin 16384) (what : RingRead) (s : State) (hk : Only F [.regs, .nv, .mbx, .evt, .items, .rings, .cpl, .lnd, .dmc, .pwr, .out, .spd, .rc]) (t : State)
    (e : execReadCompletionError dt ring what s = .next t) : Ext F (s.tick dt) t := by
  unfold execReadCompletionError at e
  obtain rfl := Host.Outcome.next.inj e
  repeat' with_reducible first
    | assumption | exact Only.sub hk (by decide) | intro _ | exact Ext.refl _ _ | apply keep_State_stopRing
    | apply keep_State_raise | apply keep_State_emit | apply keep_State_bump
    | refine Ext.ite (fun _ => ?_) (fun _ => ?_) | dsimp only | split | simp only [id_eq]

theorem keep_execCplModExpiry {F : Area → Bool} (dt : Nat) (ring : Fin 16384) (s : State) (hk : Only F [.regs, .mbx, .evt, .rings, .out, .rc]) (t : State)
    (e : execCplModExpiry dt ring s = .next t) : Ext F (s.tick dt) t := by
  unfold execCplModExpiry at e
  obtain rfl := Host.Outcome.next.inj e
  repeat' with_reducible first
    | assumption | exact Only.sub hk (by decide) | intro _ | exact Ext.refl _ _ | apply keep_State_ringEvent
    | apply keep_State_setRing | refine Ext.of_pair (by assumption) ?_ | refine Ext.of_triple (by assumption) ?_
    | refine Ext.of_done (by assumption) ?_ | refine Ext.of_wait (by assumption) ?_
    | refine Ext.ite (fun _ => ?_) (fun _ => ?_) | dsimp only | fail_if_no_progress (refine Ext.mk_of ?_) | split
    | simp only [id_eq]

end Sys2Proof.Laws
end

