-- ==== Sys2Proof/Laws/Exec.lean ====
section
/-!
SUPPORT. Every command, as `exec` dispatches it, keeps the relation Ext from the state that its time leaves, and changes no part
of the state beside those that `touches` names.
-/

set_option Elab.async false

namespace Sys2Proof.Laws

open Sys2Proof.Machine

/-- The parts that a command may change, as a test. -/
def may (c : Instr) (a : Area) : Bool := (touches c).contains a

theorem may_only (c : Instr) : Only (may c) (touches c) := by
  simp [Only, may]

theorem keep_exec (c : Instr) (s t : State) (e : exec c s = .next t) : Ext (may c) (s.tick c.dt) t := by
  have hk := may_only c
  cases c with
  | nop _ _ => exact keep_execNop _ _ s hk t e
  | sysInfo _ _ => exact keep_execSysInfo _ _ s hk t e
  | regRead _ _ => exact keep_execRegRead _ _ s hk t e
  | regWrite _ _ => exact keep_execRegWrite _ _ s hk t e
  | plainRegisterWrite _ _ _ _ => exact keep_execPlainRegisterWrite _ _ _ _ s hk t e
  | bar2Enable _ _ => exact keep_execBar2Enable _ _ s hk t e
  | bar2Read _ _ _ => exact keep_execBar2Read _ _ _ s hk t e
  | bar2Write _ _ _ _ => exact keep_execBar2Write _ _ _ _ s hk t e
  | fwLogRead _ _ _ => exact keep_execFwLogRead _ _ _ s hk t e
  | memAlloc _ _ _ => exact keep_execMemAlloc _ _ _ s hk t e
  | memFree _ _ _ => exact keep_execMemFree _ _ _ s hk t e
  | memWrite _ _ _ => exact keep_execMemWrite _ _ _ s hk t e
  | memRead _ _ _ _ => exact keep_execMemRead _ _ _ _ s hk t e
  | settingsStage _ _ => exact keep_execSettingsStage _ _ s hk t e
  | epochCommit _ _ _ => exact keep_execEpochCommit _ _ _ s hk t e
  | epochDiscard _ _ => exact keep_execEpochDiscard _ _ s hk t e
  | statusSnapshot _ _ => exact keep_execStatusSnapshot _ _ s hk t e
  | settingsRead _ _ => exact keep_execSettingsRead _ _ s hk t e
  | epochStatus _ _ => exact keep_execEpochStatus _ _ s hk t e
  | ctxAlloc _ _ => exact keep_execCtxAlloc _ _ s hk t e
  | ctxFree _ _ => exact keep_execCtxFree _ _ s hk t e
  | ctxConfig _ _ => exact keep_execCtxConfig _ _ s hk t e
  | partConfig _ _ => exact keep_execPartConfig _ _ s hk t e
  | reset _ _ => exact keep_execReset _ _ s hk t e
  | violationRead _ _ => exact keep_execViolationRead _ _ s hk t e
  | evqConfig _ _ => exact keep_execEvqConfig _ _ s hk t e
  | linkStart _ _ => exact keep_execLinkStart _ _ s hk t e
  | linkStop _ _ => exact keep_execLinkStop _ _ s hk t e
  | linkStatus _ _ => exact keep_execLinkStatus _ _ s hk t e
  | sensorCmd _ _ => exact keep_execSensorCmd _ _ s hk t e
  | spareMap _ _ => exact keep_execSpareMap _ _ s hk t e
  | takeConfig _ _ => exact keep_execTakeConfig _ _ s hk t e
  | takeDirRead _ _ => exact keep_execTakeDirRead _ _ s hk t e
  | takeArm _ _ => exact keep_execTakeArm _ _ s hk t e
  | takeDisarm _ _ => exact keep_execTakeDisarm _ _ s hk t e
  | takeStart _ _ => exact keep_execTakeStart _ _ s hk t e
  | takeStop _ _ => exact keep_execTakeStop _ _ s hk t e
  | takeTrigger _ _ => exact keep_execTakeTrigger _ _ s hk t e
  | takeDelete _ _ => exact keep_execTakeDelete _ _ s hk t e
  | takeRead _ _ _ => exact keep_execTakeRead _ _ _ s hk t e
  | landingStatus _ _ => exact keep_execLandingStatus _ _ s hk t e
  | streamOpen _ _ => exact keep_execStreamOpen _ _ s hk t e
  | streamClose _ _ => exact keep_execStreamClose _ _ s hk t e
  | pipeStatus _ _ => exact keep_execPipeStatus _ _ s hk t e
  | statsRoute _ _ _ _ _ _ => exact keep_execStatsRoute _ _ _ _ _ _ s hk t e
  | vcSessionOpen _ _ => exact keep_execVcSessionOpen _ _ s hk t e
  | vcSessionClose _ _ _ => exact keep_execVcSessionClose _ _ _ s hk t e
  | vcEncode _ _ => exact keep_execVcEncode _ _ s hk t e
  | vcDecode _ _ => exact keep_execVcDecode _ _ s hk t e
  | vcPoolAlloc _ _ => exact keep_execVcPoolAlloc _ _ s hk t e
  | vcMark _ _ _ _ _ => exact keep_execVcMark _ _ _ _ _ s hk t e
  | vcAbort _ _ => exact keep_execVcAbort _ _ s hk t e
  | monOutputConfig _ _ _ _ => exact keep_execMonOutputConfig _ _ _ _ s hk t e
  | monPush _ _ => exact keep_execMonPush _ _ s hk t e
  | monFbAlloc _ _ => exact keep_execMonFbAlloc _ _ s hk t e
  | monStatus _ _ => exact keep_execMonStatus _ _ s hk t e
  | timeRead _ _ => exact keep_execTimeRead _ _ s hk t e
  | timeSet _ _ => exact keep_execTimeSet _ _ s hk t e
  | ptpConfig _ _ _ _ _ _ => exact keep_execPtpConfig _ _ _ _ _ _ s hk t e
  | trigSchedule _ _ => exact keep_execTrigSchedule _ _ s hk t e
  | genlockConfig _ _ _ _ _ _ _ => exact keep_execGenlockConfig _ _ _ _ _ _ _ s hk t e
  | timecodeSet _ _ => exact keep_execTimecodeSet _ _ s hk t e
  | ptpStatus _ _ => exact keep_execPtpStatus _ _ s hk t e
  | audPortConfig _ _ _ _ _ => exact keep_execAudPortConfig _ _ _ _ _ s hk t e
  | audStart _ _ => exact keep_execAudStart _ _ s hk t e
  | audStop _ _ _ => exact keep_execAudStop _ _ _ s hk t e
  | audMute _ _ => exact keep_execAudMute _ _ s hk t e
  | audStatus _ _ => exact keep_execAudStatus _ _ s hk t e
  | sqCreate _ _ => exact keep_execSqCreate _ _ s hk t e
  | sqDelete _ _ _ => exact keep_execSqDelete _ _ _ s hk t e
  | sqAbort _ _ _ _ => exact keep_execSqAbort _ _ _ _ s hk t e
  | sqStatus _ _ _ => exact keep_execSqStatus _ _ _ s hk t e
  | maintStart _ _ => exact keep_execMaintStart _ _ s hk t e
  | maintStatus _ _ => exact keep_execMaintStatus _ _ s hk t e
  | maintCancel _ _ _ => exact keep_execMaintCancel _ _ _ s hk t e
  | prbsConfig _ _ _ _ => exact keep_execPrbsConfig _ _ _ _ s hk t e
  | errInject _ _ _ _ _ => exact keep_execErrInject _ _ _ _ _ s hk t e
  | loopbackSet _ _ _ _ => exact keep_execLoopbackSet _ _ _ _ s hk t e
  | nvImageBegin _ _ => exact keep_execNvImageBegin _ _ s hk t e
  | nvImageWrite _ _ => exact keep_execNvImageWrite _ _ s hk t e
  | nvImageCommit _ _ => exact keep_execNvImageCommit _ _ s hk t e
  | nvImageStatus _ _ => exact keep_execNvImageStatus _ _ s hk t e
  | nvImageSelect _ _ _ => exact keep_execNvImageSelect _ _ _ s hk t e
  | nvLogRead _ _ _ _ => exact keep_execNvLogRead _ _ _ _ s hk t e
  | powerState _ _ => exact keep_execPowerState _ _ s hk t e
  | thermalRead _ _ => exact keep_execThermalRead _ _ s hk t e
  | thermalConfig _ _ _ _ => exact keep_execThermalConfig _ _ _ _ s hk t e
  | backupStatus _ _ => exact keep_execBackupStatus _ _ s hk t e
  | bootInfo _ _ => exact keep_execBootInfo _ _ s hk t e
  | mbxDoorbell _ _ _ => exact keep_execMbxDoorbell _ _ _ s hk t e
  | requestAreaWrite _ _ _ _ _ => exact keep_execRequestAreaWrite _ _ _ _ _ s hk t e
  | mbxSlotAck _ _ _ => exact keep_execMbxSlotAck _ _ _ s hk t e
  | mbxIntStat _ _ _ => exact keep_execMbxIntStat _ _ _ s hk t e
  | bar0ReservedAccess _ _ _ _ => exact keep_execBar0ReservedAccess _ _ _ _ s hk t e
  | pendingBitmapClear _ _ _ _ => exact keep_execPendingBitmapClear _ _ _ _ s hk t e
  | evqConsWrite _ _ _ _ => exact keep_execEvqConsWrite _ _ _ _ s hk t e
  | evqModExpiry _ _ => exact keep_execEvqModExpiry _ _ s hk t e
  | msixUnmask _ _ _ => exact keep_execMsixUnmask _ _ _ s hk t e
  | bmeClear _ _ => exact keep_execBmeClear _ _ s hk t e
  | bmeSet _ _ => exact keep_execBmeSet _ _ s hk t e
  | pcieHotReset _ => exact keep_execPcieHotReset _ s hk t e
  | pcieDlDown _ => exact keep_execPcieDlDown _ s hk t e
  | vfFlr _ _ => exact keep_execVfFlr _ _ s hk t e
  | pfFlr _ => exact keep_execPfFlr _ s hk t e
  | pciePerstNAssert _ => exact keep_execPciePerstNAssert _ s hk t e
  | pciePerstNDeassert _ => exact keep_execPciePerstNDeassert _ s hk t e
  | readCompletionError _ _ _ => exact keep_execReadCompletionError _ _ _ s hk t e
  | ringEnable _ _ _ _ => exact keep_execRingEnable _ _ _ _ s hk t e
  | ringDisable _ _ _ _ _ => exact keep_execRingDisable _ _ _ _ _ s hk t e
  | hlkRingPoll _ _ _ _ => exact keep_execHlkRingPoll _ _ _ _ s hk t e
  | h2cReadComplete _ _ _ => exact keep_execH2cReadComplete _ _ _ s hk t e
  | hlkItemDelivery _ _ _ => exact keep_execHlkItemDelivery _ _ _ s hk t e
  | cplModExpiry _ _ => exact keep_execCplModExpiry _ _ s hk t e
  | syntheticBoundary _ => exact keep_execSyntheticBoundary _ s hk t e
  | epochRetirement _ => exact keep_execEpochRetirement _ s hk t e
  | resetDrainComplete _ _ => exact keep_execResetDrainComplete _ _ s hk t e
  | faultReport _ _ => exact keep_execFaultReport _ _ s hk t e
  | rootQuietClose _ _ => exact keep_execRootQuietClose _ _ s hk t e
  | evtRootClose _ _ _ => exact keep_execEvtRootClose _ _ _ s hk t e
  | laneCdrLock _ _ => exact keep_execLaneCdrLock _ _ s hk t e
  | laneCdrTimeout _ _ => exact keep_execLaneCdrTimeout _ _ s hk t e
  | laneBlockLock _ _ => exact keep_execLaneBlockLock _ _ s hk t e
  | laneLockLoss _ _ => exact keep_execLaneLockLoss _ _ s hk t e
  | laneSignalLoss _ _ => exact keep_execLaneSignalLoss _ _ s hk t e
  | alignBlock _ _ _ _ _ _ _ => exact keep_execAlignBlock _ _ _ _ _ _ _ s hk t e
  | laneAlignTimeout _ _ => exact keep_execLaneAlignTimeout _ _ s hk t e
  | prbsCheckerLock _ _ => exact keep_execPrbsCheckerLock _ _ s hk t e
  | fsPacket _ _ _ => exact keep_execFsPacket _ _ _ s hk t e
  | fsSkewTimeout _ _ => exact keep_execFsSkewTimeout _ _ s hk t e
  | fePacket _ _ _ => exact keep_execFePacket _ _ _ s hk t e
  | pixelPacket _ _ _ _ _ => exact keep_execPixelPacket _ _ _ _ _ s hk t e
  | embedPacket _ _ _ _ _ => exact keep_execEmbedPacket _ _ _ _ _ s hk t e
  | nullPacket _ _ _ => exact keep_execNullPacket _ _ _ s hk t e
  | replyPacket _ _ _ _ _ => exact keep_execReplyPacket _ _ _ _ _ s hk t e
  | backchannelCommandSend _ => exact keep_execBackchannelCommandSend _ s hk t e
  | bcCommandTimeout _ _ => exact keep_execBcCommandTimeout _ _ s hk t e
  | spareSwapDue _ _ => exact keep_execSpareSwapDue _ _ s hk t e
  | pscBeat _ _ _ => exact keep_execPscBeat _ _ _ s hk t e
  | bkcBeat _ _ _ => exact keep_execBkcBeat _ _ _ s hk t e
  | bkcKeyReq _ _ _ => exact keep_execBkcKeyReq _ _ _ s hk t e
  | bkcJobProd _ _ _ => exact keep_execBkcJobProd _ _ _ s hk t e
  | bkcJobStart _ => exact keep_execBkcJobStart _ s hk t e
  | bkcJobCompletion _ _ _ _ _ => exact keep_execBkcJobCompletion _ _ _ _ _ s hk t e
  | bkcJobAbort _ _ _ => exact keep_execBkcJobAbort _ _ _ s hk t e
  | landingUnitWrite _ _ _ => exact keep_execLandingUnitWrite _ _ _ s hk t e
  | takeFinalisation _ _ => exact keep_execTakeFinalisation _ _ s hk t e
  | takeEntryWritten _ _ => exact keep_execTakeEntryWritten _ _ s hk t e
  | developmentStart _ _ _ => exact keep_execDevelopmentStart _ _ _ s hk t e
  | scalerOutputRecord _ _ => exact keep_execScalerOutputRecord _ _ s hk t e
  | statsRecordComplete _ _ _ => exact keep_execStatsRecordComplete _ _ _ s hk t e
  | livePictureHold _ _ => exact keep_execLivePictureHold _ _ s hk t e
  | vcSliceBoundary _ _ => exact keep_execVcSliceBoundary _ _ s hk t e
  | vcDecodeStart _ => exact keep_execVcDecodeStart _ s hk t e
  | vcDecodeDone _ _ => exact keep_execVcDecodeDone _ _ s hk t e
  | outputFrameStart _ _ => exact keep_execOutputFrameStart _ _ s hk t e
  | teEdge _ _ => exact keep_execTeEdge _ _ s hk t e
  | teMissTimeout _ _ => exact keep_execTeMissTimeout _ _ s hk t e
  | dsiTransferDone _ _ _ _ => exact keep_execDsiTransferDone _ _ _ _ s hk t e
  | sdiLineStart _ _ _ _ => exact keep_execSdiLineStart _ _ _ _ s hk t e
  | sdiFrameEnd _ _ => exact keep_execSdiFrameEnd _ _ s hk t e
  | trigPinEdge _ _ _ => exact keep_execTrigPinEdge _ _ _ s hk t e
  | scheduleEntryDue _ _ _ => exact keep_execScheduleEntryDue _ _ _ s hk t e
  | strobeTrailingEdge _ _ => exact keep_execStrobeTrailingEdge _ _ s hk t e
  | cadenceTick _ _ => exact keep_execCadenceTick _ _ s hk t e
  | genlockEdge _ _ => exact keep_execGenlockEdge _ _ s hk t e
  | genlockEdgeTimeout _ _ => exact keep_execGenlockEdgeTimeout _ _ s hk t e
  | ltcInFrame _ _ => exact keep_execLtcInFrame _ _ s hk t e
  | ltcInTimeout _ => exact keep_execLtcInTimeout _ s hk t e
  | timecodeFrameStart _ => exact keep_execTimecodeFrameStart _ s hk t e
  | ethFrameReceived _ _ _ _ _ => exact keep_execEthFrameReceived _ _ _ _ _ s hk t e
  | ptpMessageReceived _ _ _ => exact keep_execPtpMessageReceived _ _ _ s hk t e
  | ptpMessageTransmit _ _ _ _ => exact keep_execPtpMessageTransmit _ _ _ _ s hk t e
  | announceReceiptTimeout _ => exact keep_execAnnounceReceiptTimeout _ s hk t e
  | audPortStartInstant _ _ => exact keep_execAudPortStartInstant _ _ s hk t e
  | audBlockEnd _ _ _ _ => exact keep_execAudBlockEnd _ _ _ _ s hk t e
  | audBlockStart _ _ => exact keep_execAudBlockStart _ _ s hk t e
  | followerFrameStart _ _ _ _ => exact keep_execFollowerFrameStart _ _ _ _ s hk t e
  | audClockLossTimeout _ _ => exact keep_execAudClockLossTimeout _ _ s hk t e
  | aes3Frame _ _ _ _ _ => exact keep_execAes3Frame _ _ _ _ _ s hk t e
  | sqPoll _ _ _ _ => exact keep_execSqPoll _ _ _ _ s hk t e
  | sqRead _ _ => exact keep_execSqRead _ _ s hk t e
  | sqWrite _ _ _ => exact keep_execSqWrite _ _ _ s hk t e
  | sqAtomicWrite _ _ _ => exact keep_execSqAtomicWrite _ _ _ s hk t e
  | sqNop _ _ => exact keep_execSqNop _ _ s hk t e
  | sqCommandDone _ _ _ _ _ => exact keep_execSqCommandDone _ _ _ _ _ s hk t e
  | i2cTargetRead _ _ _ _ => exact keep_execI2cTargetRead _ _ _ _ s hk t e
  | i2cTargetWrite _ _ _ _ _ _ => exact keep_execI2cTargetWrite _ _ _ _ _ _ s hk t e
  | uaHoldExpiry _ => exact keep_execUaHoldExpiry _ s hk t e
  | cbsI2cXfer _ _ _ _ => exact keep_execCbsI2cXfer _ _ _ _ s hk t e
  | i2cTransferEnd _ _ _ _ _ => exact keep_execI2cTransferEnd _ _ _ _ _ s hk t e
  | i2cSclTimeout _ _ => exact keep_execI2cSclTimeout _ _ s hk t e
  | cbsGpioSet _ _ _ => exact keep_execCbsGpioSet _ _ _ s hk t e
  | cbsGpioClr _ _ _ => exact keep_execCbsGpioClr _ _ _ s hk t e
  | gpioPinEdge _ _ _ => exact keep_execGpioPinEdge _ _ _ s hk t e
  | spdBankHo _ _ _ _ => exact keep_execSpdBankHo _ _ _ _ s hk t e
  | spdHandoverComplete _ _ => exact keep_execSpdHandoverComplete _ _ s hk t e
  | chuteWrite _ _ _ _ _ => exact keep_execChuteWrite _ _ _ _ _ s hk t e
  | chuteRead _ _ => exact keep_execChuteRead _ _ s hk t e
  | pageIdleExpiry _ _ _ => exact keep_execPageIdleExpiry _ _ _ s hk t e
  | selfRefreshEntry _ _ => exact keep_execSelfRefreshEntry _ _ s hk t e
  | dqsTracking _ _ => exact keep_execDqsTracking _ _ s hk t e
  | scheduledRetrainDue _ => exact keep_execScheduledRetrainDue _ s hk t e
  | deferredActivityStart _ => exact keep_execDeferredActivityStart _ s hk t e
  | dramRetrainStep _ _ => exact keep_execDramRetrainStep _ _ s hk t e
  | dramRetrainDone _ => exact keep_execDramRetrainDone _ s hk t e
  | laneEyeScanDone _ _ _ => exact keep_execLaneEyeScanDone _ _ _ s hk t e
  | nvScrubDone _ => exact keep_execNvScrubDone _ s hk t e
  | dramScrubDone _ => exact keep_execDramScrubDone _ s hk t e
  | thmSample _ _ _ => exact keep_execThmSample _ _ _ s hk t e
  | vbakSample _ _ => exact keep_execVbakSample _ _ s hk t e
  | nvHeldWriteFlush _ => exact keep_execNvHeldWriteFlush _ s hk t e
  | pmeHandshakeComplete _ => exact keep_execPmeHandshakeComplete _ s hk t e
  | p2HandshakeTimeout _ => exact keep_execP2HandshakeTimeout _ s hk t e
  | mainGoodFall _ => exact keep_execMainGoodFall _ s hk t e
  | retentionArbitration _ _ => exact keep_execRetentionArbitration _ _ s hk t e
  | porstNAssert _ => exact keep_execPorstNAssert _ s hk t e
  | bootAttempt _ _ _ _ _ => exact keep_execBootAttempt _ _ _ _ _ s hk t e
  | bootWatchdog _ => exact keep_execBootWatchdog _ s hk t e
  | bootSuccessTimer _ => exact keep_execBootSuccessTimer _ s hk t e
  | firmwareWatchdog _ => exact keep_execFirmwareWatchdog _ s hk t e
  | linkUpTimeout _ => exact keep_execLinkUpTimeout _ s hk t e
  | aonPowerLoss _ => exact keep_execAonPowerLoss _ s hk t e

end Sys2Proof.Laws
end

