-- ==== Sys2Proof/Laws/Ops.lean ====
section
/-!
SUPPORT. The shared operations over registers and memory: what a write leaves everywhere else, and what is read back.
-/

set_option Elab.async false

namespace Sys2Proof.Laws

open Sys2Proof.Machine

/-! ### Registers -/

/-- A register reads back what was written, and every other register reads as before. -/
theorem rd_wr (s : State) (a b : Nat) (v : Word) : (s.wr a v).rd b = if b = a then v else s.rd b := by
  unfold State.rd State.wr
  by_cases h : b = a
  · rw [if_pos h, h]; exact tabGet_tabSet_self _ _ _ _
  · rw [if_neg h]; exact tabGet_tabSet_ne _ _ _ _ _ h

@[simp] theorem rd_wr_self (s : State) (a : Nat) (v : Word) : (s.wr a v).rd a = v := by rw [rd_wr, if_pos rfl]

theorem rd_wr_ne {s : State} {a b : Nat} {v : Word} (h : b ≠ a) : (s.wr a v).rd b = s.rd b := by rw [rd_wr, if_neg h]

theorem rd_wrF_ne {s : State} {a b lo n v : Nat} (h : b ≠ a) : (s.wrF a lo n v).rd b = s.rd b := rd_wr_ne h

theorem rd_bump_ne {s : State} {a b lo n k : Nat} (h : b ≠ a) : (s.bump a lo n k).rd b = s.rd b := rd_wrF_ne h

/-- A run of writes leaves every register alone that it does not name. -/
theorem rd_wrs_ne {l : List (Nat × Word)} {s : State} {b : Nat} (h : ∀ e ∈ l, b ≠ e.1) : (s.wrs l).rd b = s.rd b := by
  induction l generalizing s with
  | nil => rfl
  | cons e l ih =>
    have := ih (s := s.wr e.1 e.2) (fun x hx => h x (List.mem_cons_of_mem _ hx))
    exact this.trans (rd_wr_ne (h e List.mem_cons_self))

theorem wrs_append (s : State) (l m : List (Nat × Word)) : s.wrs (l ++ m) = (s.wrs l).wrs m := List.foldl_append

/-- A run of writes at distinct addresses: each reads back its value. -/
theorem rd_wrs_range {f : Nat → Nat} {g : Nat → Word} {n i : Nat} (s : State) (hf : ∀ i j, f i = f j → i = j) (hi : i < n) :
    (s.wrs ((List.range n).map (fun i => (f i, g i)))).rd (f i) = g i := by
  induction n with
  | zero => exact absurd hi (Nat.not_lt_zero _)
  | succ n ih =>
    rw [List.range_succ, List.map_append, wrs_append]
    change ((s.wrs _).wr (f n) (g n)).rd (f i) = g i
    by_cases h : i = n
    · subst h; exact rd_wr_self _ _ _
    · rw [rd_wr_ne (fun e => h (hf _ _ e))]
      exact ih (by omega)

/-- Writes of registers change nothing else. -/
theorem wrs_only (l : List (Nat × Word)) (s : State) : s.wrs l = { s with regs := (s.wrs l).regs } := by
  induction l generalizing s with
  | nil => rfl
  | cons e l ih => exact ih (s.wr e.1 e.2)

/-- Registers cleared read their reset values; the others read as before. -/
theorem rd_regClear (s : State) (lo hi b : Nat) : (s.regClear lo hi).rd b = if lo ≤ b ∧ b < hi then regReset b else s.rd b := by
  unfold State.regClear State.rd tabClear
  dsimp only
  split
  · exact tabGet_filter_out _ _ _ _ (fun v => by simp; omega)
  · exact tabGet_filter _ _ _ _ (fun v => by simp; omega)

/-! ### Memory -/

/-- What a run of table writes leaves. -/
theorem tabGet_tabSets {α : Type} [DecidableEq α] (d : Nat → α) (t : Tab α) (a k : Nat) (vs : List α) :
    tabGet d (tabSets d t a vs) k = if h : a ≤ k ∧ k < a + vs.length then vs[k - a]'(by omega) else tabGet d t k := by
  induction vs generalizing t a with
  | nil => rw [dif_neg (by simp)]; rfl
  | cons v vs ih =>
    rw [tabSets, ih]
    by_cases h1 : k = a
    · subst h1
      rw [dif_neg (by omega), dif_pos (by simp), tabGet_tabSet_self]
      simp
    · by_cases h2 : a + 1 ≤ k ∧ k < a + 1 + vs.length
      · rw [dif_pos h2, dif_pos (by simp; omega)]
        have : k - a = (k - (a + 1)) + 1 := by omega
        simp only [this, List.getElem_cons_succ]
      · rw [dif_neg h2, dif_neg (by simp; omega), tabGet_tabSet_ne _ _ _ _ _ h1]

/-- A store changes the bytes that it names, in order, and no others. -/
theorem byte_store (s : State) (a k : Nat) (bs : List Byte) :
    (s.store a bs).byte k = if h : a ≤ k ∧ k < a + bs.length then bs[k - a]'(by omega) else s.byte k :=
  tabGet_tabSets _ _ _ _ _

/-- A store changes no register. -/
@[simp] theorem rd_store (s : State) (a b : Nat) (bs : List Byte) : (s.store a bs).rd b = s.rd b := rfl

/-! ### Answers -/

theorem emit_rd (s : State) (o : Out) (b : Nat) : (s.emit o).rd b = s.rd b := rfl

theorem msix_only (s : State) (fn vec : Nat) : s.msix fn vec = { s with mbx := (s.msix fn vec).mbx, out := (s.msix fn vec).out } := by
  unfold State.msix
  split <;> rfl

theorem intSet_only (s : State) (p k : Nat) :
    s.intSet p k = { s with regs := (s.intSet p k).regs, mbx := (s.intSet p k).mbx, out := (s.intSet p k).out } ∧
      ∀ b, b ≠ R.MBX p 0x14 → (s.intSet p k).rd b = s.rd b := by
  unfold State.intSet
  dsimp only
  split
  · rw [msix_only]
    exact ⟨rfl, fun b h => rd_wr_ne h⟩
  · exact ⟨rfl, fun b h => rd_wr_ne h⟩

theorem intSet_bits (s : State) (p k : Nat) : (s.intSet p k).rd (R.MBX p 0x14) = s.rd (R.MBX p 0x14) ||| w32 k := by
  unfold State.intSet
  dsimp only
  split
  · rw [msix_only]; exact rd_wr_self _ _ _
  · exact rd_wr_self _ _ _

/-- The response area, the slot and the interrupt bit are what a response writes (R53, R57). -/
theorem writeResponse_only (s : State) (slot : Nat) (c : Cached) (b : Bool) :
    s.writeResponse slot c b = { s with
        regs := (s.writeResponse slot c b).regs
        mbx := (s.writeResponse slot c b).mbx
        out := (s.writeResponse slot c b).out } ∧
      ∀ a, (a < R.MBX c.part 0 ∨ R.MBX c.part (0x2010 + 0x100 * slot + 4 * c.payload.length) ≤ a) → (s.writeResponse slot c b).rd a = s.rd a := by
  unfold State.writeResponse State.setSlot State.wrF
  dsimp only
  refine ⟨?_, fun a ha => ?_⟩
  · rw [(intSet_only _ _ _).1, State.wr, wrs_only (List.map _ _), wrs_only]
  · unfold R.MBX at *
    rw [(intSet_only _ _ _).2 a (by unfold R.MBX; omega), rd_wr_ne (by omega), rd_wrs_ne, rd_wrs_ne]
    · intro e he
      simp only [List.mem_cons, List.not_mem_nil, or_false] at he
      rcases he with rfl | rfl | rfl | rfl <;> dsimp only <;> omega
    · intro e he
      simp only [List.mem_map, List.mem_range] at he
      obtain ⟨i, hi, rfl⟩ := he
      dsimp only
      omega

/-- An answer writes the mailbox of its function and the responses kept, and nothing else. -/
theorem answer_only (s : State) (p slot st : Nat) (pay : List Word) :
    s.answer p slot st pay = { s with
        regs := (s.answer p slot st pay).regs
        mbx := (s.answer p slot st pay).mbx
        out := (s.answer p slot st pay).out } ∧
      ∀ a, (a < R.MBX p 0 ∨ R.MBX p (0x2010 + 0x100 * slot + 4 * pay.length) ≤ a) → (s.answer p slot st pay).rd a = s.rd a := by
  unfold State.answer
  refine ⟨?_, fun a ha => ?_⟩
  · rw [(writeResponse_only _ _ _ _).1]; rfl
  · exact (writeResponse_only _ _ _ _).2 a ha

end Sys2Proof.Laws
end

