-- ==== Sys2Proof/Laws/Frame.lean ====
section
/-!
SUPPORT. Registers outside a list read as before: the frame of commands that change a few registers.
-/

set_option Elab.async false

namespace Sys2Proof.Laws

open Sys2Proof.Machine

/-- Registers outside `l` read as before. -/
def Keeps (l : List Nat) (s t : State) : Prop := ∀ a, a ∉ l → t.rd a = s.rd a

/-- Nothing changes. -/
theorem Keeps.refl (l : List Nat) (s : State) : Keeps l s s := fun _ _ => rfl

/-- One after the other. -/
theorem Keeps.trans {l : List Nat} {s t u : State} (h : Keeps l s t) (g : Keeps l t u) : Keeps l s u := fun a ha => (g a ha).trans (h a ha)

/-- A write of a listed register. -/
theorem Keeps.wr {l : List Nat} {s t : State} {a : Nat} {v : Word} (h : Keeps l s t) (ha : a ∈ l) : Keeps l s (t.wr a v) :=
  fun b hb => (rd_wr_ne (fun e => hb (by rw [e]; exact ha))).trans (h b hb)

/-- A write of a field of one. -/
theorem Keeps.wrF {l : List Nat} {s t : State} {a lo n v : Nat} (h : Keeps l s t) (ha : a ∈ l) : Keeps l s (t.wrF a lo n v) := h.wr ha

/-- A counter in one. -/
theorem Keeps.bump {l : List Nat} {s t : State} {a lo n v : Nat} (h : Keeps l s t) (ha : a ∈ l) : Keeps l s (t.bump a lo n v) := h.wrF ha

/-- Output. -/
theorem Keeps.emit {l : List Nat} {s t : State} {o : Out} (h : Keeps l s t) : Keeps l s (t.emit o) := h

/-- A run of writes of listed registers. -/
theorem Keeps.wrs {l : List Nat} {s t : State} {es : List (Nat × Word)} (h : Keeps l s t) (he : ∀ e ∈ es, e.1 ∈ l) : Keeps l s (t.wrs es) :=
  fun b hb => (rd_wrs_ne (fun e m q => hb (by rw [q]; exact he e m))).trans (h b hb)

/-- A packet with a bad header (R162). -/
theorem Keeps.hdr {l : List Nat} {s t : State} {g : Nat} (h : Keeps l s t) (h1 : R.SLK_HCRC_ERR ∈ l) : Keeps l s (t.hdrError g) := by
  unfold State.hdrError
  dsimp only
  split
  · exact h.bump h1
  · exact h.bump h1

/-- Without a pending injection of kind 0 or 1 nothing is injected into a block (R154). -/
theorem injects_none {s : State} {k n : Nat} (h : ∀ j ∈ s.dmc.inj, 2 ≤ j.kind) (hk : k < 2) : s.injects k n = false := by
  unfold State.injects
  rw [List.any_eq_false]
  intro j hj
  have := h j hj
  simp only [Bool.and_eq_true, decide_eq_true_eq, not_and]
  omega

/-- A packet received without injections moves the descramblers and the position of its group and nothing else (R138, R158). -/
theorem receive_only {s : State} {g : Nat} {h : BitVec 128} {payload : List Byte} {pcrc : Word} (hi : ∀ j ∈ s.dmc.inj, 2 ≤ j.kind) :
    ∃ l, (s.receive g h payload pcrc).2 = ({ s with lnk := l } : State) := by
  have fold : ∀ (f : State → Nat → State) (_ : ∀ u x, ∃ l, f u x = ({ u with lnk := l } : State)) (xs : List Nat) (u : State),
      ∃ l, xs.foldl f u = ({ u with lnk := l } : State) := by
    intro f hf xs
    induction xs with
    | nil => exact fun u => ⟨u.lnk, rfl⟩
    | cons x xs ih =>
      intro u
      obtain ⟨l, e⟩ := hf u x
      obtain ⟨m, e2⟩ := ih (f u x)
      exact ⟨m, by rw [List.foldl_cons, e2, e]⟩
  unfold State.receive
  dsimp only
  split
  · exact ⟨s.lnk, rfl⟩
  · split
    · dsimp only
      generalize hq : List.foldl _ s (List.range _) = q
      have : ∃ l, q = ({ s with lnk := l } : State) := by
        rw [← hq]
        refine fold _ (fun u x => ?_) _ _
        repeat' split
        all_goals first | exact ⟨u.lnk, rfl⟩ | exact ⟨_, rfl⟩
      obtain ⟨l, e⟩ := this
      rw [e]
      exact ⟨_, rfl⟩
    · rename_i hn
      refine absurd ?_ hn
      rw [Bool.not_eq_true', List.any_eq_false]
      intro i _
      split
      · rw [injects_none hi (by omega), injects_none hi (by omega)]; exact Bool.noConfusion
      · exact Bool.noConfusion

/-- A packet of a group, without injections. -/
theorem Keeps.onPacket {l : List Nat} {s t : State} {g : Nat} {h : BitVec 128} {payload : List Byte} {pcrc : Word}
    {f : BitVec 128 → List Byte → Word → State → State} (k : Keeps l s t) (hi : ∀ j ∈ t.dmc.inj, 2 ≤ j.kind) (h1 : R.SLK_HCRC_ERR ∈ l)
    (kf : ∀ h p c u, Keeps l s u → Keeps l s (f h p c u)) : Keeps l s (t.onPacket g h payload pcrc f) := by
  unfold State.onPacket
  obtain ⟨n, e⟩ := receive_only (g := g) (h := h) (payload := payload) (pcrc := pcrc) hi
  have kr : Keeps l s (t.receive g h payload pcrc).2 := by rw [e]; exact k
  split
  · exact k
  · dsimp only
    split
    · exact kr
    · split
      · exact kr.hdr h1
      · exact kf _ _ _ _ kr

/-- A word in a chute. -/
theorem Keeps.push {l : List Nat} {s t : State} {n : Nat} {c : Chute} (k : Keeps l s t) (h : R.CHT_ERR n ∈ l) : Keeps l s (t.chutePush n c) := by
  unfold State.chutePush
  dsimp only
  split
  · split
    · exact Keeps.bump (t := State.setChute _ _ _) k h
    · exact k
  · exact k

/-- A write to a chute. -/
theorem Keeps.put {l : List Nat} {s t : State} {n kind : Nat} {w : ChuteWord} (k : Keeps l s t) (h : R.CHT_ERR n ∈ l) : Keeps l s (t.chutePut n kind w) := by
  unfold State.chutePut
  dsimp only
  split
  · split <;> exact k
  · split
    · exact k
    · refine Keeps.push ?_ h
      split <;> split <;> exact k

end Sys2Proof.Laws
end

