-- ==== Sys2Proof/Laws/Kilel.lean ====
section
/-!
SUPPORT. What serving a Kilel command comes to: the answer its meaning gives, once for all opcodes.
-/

set_option Elab.async false

namespace Sys2Proof.Laws

open Sys2Proof.Machine

variable {code dt : Nat} {args : Req → State → Bool} {body : Req → State → Ans} {c : Call} {s : State}

theorem admits_opens (h : s.admits code dt c = true) : s.opens code dt c = true := by
  simp only [State.admits, Bool.and_eq_true] at h
  exact h.1

/-- The request of a slot names that slot. -/
@[simp] theorem asked_part : (s.asked dt c).part = c.part := by simp only [State.asked, State.request]
@[simp] theorem asked_slot : (s.asked dt c).slot = c.slot := by simp only [State.asked, State.request]

/-- What serving a well-formed request comes to. -/
theorem serve_eq {o : Op} {r : Req} {u : State} (hw : r.wellFormed o = true) :
    serve o args body r u =
      if args r u = false then u.answer r.part r.slot St.BAD_ARGUMENT []
      else if u.inputOk r = false then u.answer r.part r.slot St.DMA_ERROR []
      else match body r (u.setSlot r.part r.slot Slot.EXECUTING) with
        | .done st pay t => t.answer r.part r.slot st pay
        | .wait k t => { t with mbx := { t.mbx with waits := t.mbx.waits ++ [{ part := r.part, slot := r.slot, kind := k }] } } := by
  unfold serve
  rw [hw, Bool.true_and]
  cases args r u
  · rfl
  · cases u.inputOk r
    · rfl
    · simp only [Bool.not_true, Bool.false_eq_true, Bool.true_eq_false, if_false] <;> rfl

/-- A command that opens is served. -/
theorem kilel_opens (h : s.opens code dt c = true) :
    ∃ o, (s.asked dt c).wellFormed o = true ∧ kilel code args body dt c s = serve o args body (s.asked dt c) (s.taken dt c) := by
  simp only [State.opens, Bool.and_eq_true, decide_eq_true_eq] at h
  obtain ⟨⟨ht, hg⟩, hw⟩ := h
  cases ho : opRow code with
  | none => rw [ho] at hw; exact Bool.noConfusion hw
  | some o =>
    rw [ho] at hw
    refine ⟨o, hw, ?_⟩
    simp only [kilel, ht, if_true, hg, ho, State.asked, State.taken]

/-- A served command whose checks pass is answered as its meaning says. -/
theorem kilel_done {st : Nat} {pay : List Word} {t : State} (h : s.admits code dt c = true)
    (ha : args (s.asked dt c) (s.taken dt c) = true) (hb : body (s.asked dt c) (s.begun dt c) = .done st pay t) :
    kilel code args body dt c s = t.answer c.part c.slot st pay := by
  simp only [State.admits, Bool.and_eq_true] at h
  obtain ⟨o, hw, he⟩ := kilel_opens (args := args) (body := body) h.1
  rw [he, serve_eq hw, ha, h.2, if_neg Bool.noConfusion, if_neg Bool.noConfusion, asked_part, asked_slot]
  unfold State.begun at hb
  rw [hb]

/-- A served command that waits. -/
theorem kilel_wait {k : WaitKind} {t : State} (h : s.admits code dt c = true)
    (ha : args (s.asked dt c) (s.taken dt c) = true) (hb : body (s.asked dt c) (s.begun dt c) = .wait k t) :
    kilel code args body dt c s = t.await c k := by
  simp only [State.admits, Bool.and_eq_true] at h
  obtain ⟨o, hw, he⟩ := kilel_opens (args := args) (body := body) h.1
  rw [he, serve_eq hw, ha, h.2, if_neg Bool.noConfusion, if_neg Bool.noConfusion, asked_part, asked_slot]
  unfold State.begun at hb
  rw [hb]
  unfold State.await
  rfl

/-- A command that opens and whose own checks fail is answered BAD_ARGUMENT (R58). -/
theorem kilel_bad (h : s.opens code dt c = true) (ha : args (s.asked dt c) (s.taken dt c) = false) :
    kilel code args body dt c s = (s.taken dt c).answer c.part c.slot St.BAD_ARGUMENT [] := by
  obtain ⟨o, hw, he⟩ := kilel_opens (args := args) (body := body) h
  rw [he, serve_eq hw, if_pos ha, asked_part, asked_slot]

/-- A command that opens and whose input data did not come back whole is answered DMA_ERROR (R67). -/
theorem kilel_dma (h : s.opens code dt c = true) (ha : args (s.asked dt c) (s.taken dt c) = true)
    (hi : (s.taken dt c).inputOk (s.asked dt c) = false) :
    kilel code args body dt c s = (s.taken dt c).answer c.part c.slot St.DMA_ERROR [] := by
  obtain ⟨o, hw, he⟩ := kilel_opens (args := args) (body := body) h
  rw [he, serve_eq hw, ha, if_neg Bool.noConfusion, if_pos hi, asked_part, asked_slot]

end Sys2Proof.Laws
end

