-- ==== Sys2Proof/Laws/Queues.lean ====
section
/-!
SUPPORT. Commit queues, event queues, allocations, epoch counters and bytes under the operations that many commands share.
-/

set_option Elab.async false

namespace Sys2Proof.Laws

open Sys2Proof.Machine

/-- Raising mailbox interrupts changes the interrupt status only. -/
theorem rd_intSet (s : State) (p k b : Nat) (h : b ≠ R.MBX p 0x14) : (s.intSet p k).rd b = s.rd b := (intSet_only s p k).2 b h

/-- A commit that is submitted leaves every queue at 8 at most (R22). -/
theorem submit_depth (s : State) (q ctx : Nat) (es : Over) (tg : Nat) (sw : List SensorWrite) (p : Nat) (h8 : s.depth q < 8) (hp : s.depth p ≤ 8) :
    (s.submit q ctx es tg sw).2.2.depth p ≤ 8 := by
  unfold State.submit
  rw [if_neg (by omega)]
  dsimp only
  split
  · unfold State.depth at *; dsimp only
    rw [List.filter_append, List.length_append]
    by_cases hp2 : q = p
    · subst hp2; simp; omega
    · simp [hp2]; omega
  · rename_i l _
    have k2 : ∀ l, (s.rejected l).ep = s.ep := fun l => (keep_State_rejected (F := fun a => [Area.regs].contains a) s l (by unfold Only; decide) (Ext.refl _ _)).keep .ep rfl
    unfold State.depth at *; dsimp only
    rw [k2]; exact hp

/-- So does `EPOCH_COMMIT`. -/
theorem commit_depth (sensor : List SensorWrite) (r : Req) (s : State) (p : Nat) (h8 : s.depth r.part < 8) (hp : s.depth p ≤ 8) :
    (ansSt (epochCommit sensor r s)).depth p ≤ 8 := by
  unfold epochCommit
  have k := submit_depth s r.part r.ctx (s.stageSet r.part) ((r.w 0).toNat + r.f 1 0 8 * 2 ^ 32) (if r.part = 0 then sensor else []) p h8 hp
  generalize s.submit r.part r.ctx (s.stageSet r.part) ((r.w 0).toNat + r.f 1 0 8 * 2 ^ 32) (if r.part = 0 then sensor else []) = x at *
  obtain ⟨st, acc, v⟩ := x
  dsimp only at *
  have hv : (if acc.isSome then v.unstage r.part else v).depth p = v.depth p := by split <;> rfl
  generalize (if acc.isSome then v.unstage r.part else v) = w at hv
  rw [← hv] at k
  unfold submitAnswer
  cases acc with
  | none => exact k
  | some a =>
    obtain ⟨a, b⟩ := a
    dsimp only
    split <;> exact k

/-- The violation counters are 0 after reset. -/
theorem cnt_zero : ∀ (p : Fin (2 ^ 6)) (k : Fin 16), regReset (R.CTX_VIOL_CNT p k) = 0 := by decide

/-- Erasing every element with a property, one by one, leaves none. -/
theorem erase_all {α : Type} [DecidableEq α] (f : α → Bool) (l : List α) : ∀ x ∈ (l.filter f).foldl (fun m y => m.erase y) l, f x = false := by
  have h : ∀ (l m : List α), (∀ x, f x = true → m.count x ≤ (l.filter f).count x) → ∀ x ∈ (l.filter f).foldl (fun m y => m.erase y) m, f x = false := by
    intro l
    induction l with
    | nil =>
      intro m hm x hx
      simp only [List.filter_nil, List.foldl_nil] at hx
      by_contra hc
      have := hm x (by simpa using hc)
      simp at this
      exact List.count_eq_zero.mp this hx
    | cons y l ih =>
      intro m hm
      by_cases hf : f y = true
      · rw [List.filter_cons_of_pos hf, List.foldl_cons]
        refine ih _ (fun x hx => ?_)
        have := hm x hx
        rw [List.filter_cons_of_pos hf, List.count_cons] at this
        rw [List.count_erase]
        by_cases hxy : y = x
        · subst hxy; simp at *; omega
        · have h2 : (y == x) = false := by simpa using hxy
          have h3 : (x == y) = false := by simpa using fun e => hxy e.symm
          simp only [h2, h3] at *; simpa using this
      · rw [List.filter_cons_of_neg hf]
        refine ih m (fun x hx => ?_)
        have := hm x hx
        rw [List.filter_cons_of_neg hf] at this
        exact this
  exact h l l (fun x hx => by rw [List.count_filter hx])

/-- An allocation that is dropped leaves the list of allocations. -/
theorem dropAlloc_allocs (s : State) (x : Alloc) : (s.dropAlloc x).allocs = s.allocs.erase x := by
  have k := (keep_State_usedRegs (F := fun a => [Area.regs].contains a) { s with allocs := s.allocs.erase x } x.part x.ctx (by unfold Only; decide) (Ext.refl _ _)).keep .allocs rfl
  exact k

/-- Allocations dropped one by one. -/
theorem foldDrop (l : List Alloc) (s : State) : (l.foldl (fun s x => s.dropAlloc x) s).allocs = l.foldl (fun m y => m.erase y) s.allocs := by
  induction l generalizing s with
  | nil => rfl
  | cons y l ih => rw [List.foldl_cons, List.foldl_cons, ih, dropAlloc_allocs]

/-- A message does not touch the event unit. -/
theorem msix_evt (s : State) (a b : Nat) : (s.msix a b).evt = s.evt := by rw [msix_only]

/-- A message does not touch an event queue. -/
theorem msix_evq (s : State) (a b d : Nat) : (s.msix a b).evq d = s.evq d := by unfold State.evq; rw [msix_evt]

/-- An event queue reads back; the others stay. -/
theorem evq_setEvq (s : State) (c d : Nat) (q : EvQueue) : (s.setEvq c q).evq d = if d = c then q else s.evq d := by
  unfold State.evq State.setEvq; dsimp only
  by_cases h : d = c
  · subst h; rw [if_pos rfl]; exact tabGet_tabSet_self _ _ _ _
  · rw [if_neg h]; exact tabGet_tabSet_ne _ _ _ _ _ h

/-- The message of a context leaves pending bits and the queues of other contexts alone. -/
theorem ctxMsg_evq (s : State) (c d : Nat) : ((s.ctxMessage c).evq d).pend = (s.evq d).pend ∧ (d ≠ c → (s.ctxMessage c).evq d = s.evq d) := by
  unfold State.ctxMessage; dsimp only
  split
  · split
    · rw [evq_setEvq]; refine ⟨?_, fun h => if_neg h⟩
      split <;> rename_i h <;> first | (subst h; rfl) | rfl
    · rw [msix_evq, evq_setEvq]; refine ⟨?_, fun h => if_neg h⟩
      split <;> rename_i h <;> first | (subst h; rfl) | rfl
  · rw [msix_evq, evq_setEvq]; refine ⟨?_, fun h => if_neg h⟩
    split <;> rename_i h <;> first | (subst h; rfl) | rfl

/-- Every part of the state but the epoch counters. -/
def FE : Area → Bool := fun a => decide (a ≠ .epoch)

/-- What an operation that leaves the epoch counters alone keeps. -/
theorem ofE {s t : State} (h : Ext FE s t) : t.ep.epoch = s.ep.epoch ∧ t.ep.frame = s.ep.frame ∧ t.ep.first = s.ep.first := h.keep .epoch rfl

/-- A list of parts without the epoch counters. -/
theorem onlyE (T : List Area) (h : T.contains .epoch = false) : Only FE T := by
  simp only [Only, List.all_eq_true, FE]; intro x hx
  simp only [decide_eq_true_eq]; rintro rfl
  simp at h; exact h hx

/-- Counting a boundary moves the frame number only (R14). -/
theorem count_ep (s : State) (b : Bool) : (s.count b).ep.epoch = s.ep.epoch ∧ (s.count b).ep.frame = (s.ep.frame + 1) % 2 ^ 40 ∧ (s.count b).ep.first = s.ep.first := by
  have k : ∀ (l : List Nat) (u : State), (l.foldl (fun s l => s.bump (R.SLK_LANE_STAT l) 16 8 1) u).ep = u.ep := by
    intro l; induction l with
    | nil => intro u; rfl
    | cons x l ih => intro u; rw [List.foldl_cons, ih]; rfl
  unfold State.count
  rcases s.dmc.latch (s.fd R.DMC_PAGE_IDLE 0 11) s.now s.withinBudget with ⟨q, d⟩
  dsimp only
  rw [k]; exact ⟨rfl, rfl, rfl⟩

/-- Activating commits moves the epoch by one (R26). -/
theorem activate_ep (s : State) (cs : List Commit) : (s.activate cs).ep.epoch = epochSucc s.ep.epoch ∧ (s.activate cs).ep.frame = s.ep.frame ∧ (s.activate cs).ep.first = s.ep.frame := by
  unfold State.activate
  extract_lets es b sparse e sw s1 s2 s3 se __src x1 s4
  have h1 : Ext FE s s1 := Ext.foldl (fun u x h => keep_State_applyEntry u x (onlyE _ rfl) h) (Ext.refl _ _)
  have h2 : Ext FE s s2 := Ext.ite (fun _ => keep_State_ctxCounts _ (onlyE _ rfl) h1) (fun _ => h1)
  have h3 : Ext FE s s3 := Ext.ite (fun _ => keep_State_loadMap _ (onlyE _ rfl) h2) (fun _ => h2)
  have q := ofE h3
  have k := ofE (keep_State_queueWrites s4 e sw (onlyE _ rfl) (Ext.refl _ _))
  have e4 : s4.ep.epoch = e ∧ s4.ep.frame = s3.ep.frame ∧ s4.ep.first = s3.ep.frame := ⟨rfl, rfl, rfl⟩
  exact ⟨k.1.trans e4.1, k.2.1.trans (e4.2.1.trans q.2.1), k.2.2.trans (e4.2.2.trans q.2.1)⟩

/-- The length of a list of blocks of one length. -/
theorem flat_len {α : Type} (f : α → List Word) (k : Nat) (hf : ∀ x, (f x).length = k) (l : List α) : (l.flatMap f).length = l.length * k := by
  induction l with
  | nil => simp
  | cons x l ih => rw [List.flatMap_cons, List.length_append, ih, hf]; simp [Nat.succ_mul, Nat.add_comm]

/-- At most `n` of `n` indices are selected. -/
theorem sel_len (n : Nat) (f : Nat → Bool) : (selIdx n f).length ≤ n := by
  unfold selIdx; exact (List.length_filter_le _ _).trans (by simp)

/-- Bytes are read from the memory. -/
theorem byte_mem {s t : State} (h : t.mem = s.mem) (k : Nat) : t.byte k = s.byte k := by unfold State.byte; rw [h]

/-- An answer does not touch DRAM or scratchpad. -/
theorem answer_mem (s : State) (p slot st : Nat) (pay : List Word) : (s.answer p slot st pay).mem = s.mem := by rw [(answer_only _ _ _ _ _).1]

/-- A store under ECC stores the same bytes. -/
theorem ecc_mem (s : State) (ctx a : Nat) (bs : List Byte) : (s.eccStore ctx a bs).mem = (s.store a bs).mem := by
  have h : ∀ (l : List (Nat × Nat)) (u : State), (l.foldl (fun s e => s.mend ctx e) u).mem = u.mem := by
    intro l
    induction l with
    | nil => exact fun _ => rfl
    | cons x l ih =>
      intro u
      rw [List.foldl_cons, ih]
      exact (keep_State_mend (F := fun a => decide (a ≠ .mem)) u ctx x (by unfold Only; decide) (Ext.refl _ _)).keep .mem rfl
  unfold State.eccStore State.store
  dsimp only
  rw [h]

/-- What a byte reads as after a store. -/
theorem store_get (s : State) (a k : Nat) (bs : List Byte) : (s.store a bs).byte k = if a ≤ k ∧ k < a + bs.length then bs.getD (k - a) 0 else s.byte k := by
  rw [byte_store]; split
  · rw [List.getD_eq_getElem _ _ (by omega)]
  · rfl

end Sys2Proof.Laws
end

