-- ==== Sys2Proof/Laws/Regs.lean ====
section
/-!
SUPPORT. Which row of the register tables a register belongs to, and where a write of it by REG_WRITE ends (R529).
-/

set_option Elab.async false

namespace Sys2Proof.Laws

open Sys2Proof.Machine

/-- An address that no index of a row reaches is not in the row. -/
theorem has_false {r : RegRow} {a : Nat} (h : ∀ i j, i ≤ r.n1 - 1 → a ≠ r.base + r.s1 * i + r.s2 * j) : r.has a = false := by
  have hi : r.idx1 a ≤ r.n1 - 1 := by
    unfold RegRow.idx1
    split
    · omega
    · exact Nat.min_le_right _ _
  unfold RegRow.has
  simp [h _ _ hi]

/-- The first row that has the address is its row. -/
theorem find_skip {r : RegRow} {l : List RegRow} {a : Nat} (h : ∀ i j, i ≤ r.n1 - 1 → a ≠ r.base + r.s1 * i + r.s2 * j) :
    (r :: l).find? (fun x => x.has a) = l.find? (fun x => x.has a) := by
  rw [List.find?_cons, has_false h]

theorem find_here {r : RegRow} {l : List RegRow} {a : Nat} (h : r.has a = true) :
    (r :: l).find? (fun x => x.has a) = some r := by
  rw [List.find?_cons, h]

/-- The row of HLK_RING_CTRL. -/
theorem row_ring {n : Nat} (hn : n < 16384) :
    regRow (R.HLK_RING_CTRL n) = some ⟨0x2b00100018, 0x40, 16384, 0x0, 1, .rw, 0xff3fff, 0x290, false, .ring⟩ := by
  have e : (0x2b00100018 + 0x40 * n) / 0x100000000 = 0x2b := by omega
  have e2 : R.HLK_RING_CTRL n = 0x2b00100018 + 0x40 * n := rfl
  have e3 : blockRows 0x2b = regsHlk := rfl
  unfold regRow
  rw [e2, e, e3]
  unfold regsHlk
  iterate 15 rw [find_skip (by intro i j hi; dsimp only at hi ⊢; omega)]
  refine find_here ?_
  simp only [RegRow.has, RegRow.idx1, RegRow.idx2]
  simp
  omega

/-- The row of SPD_BANK_HO. -/
theorem row_bank {n : Nat} (hn : n < 64) :
    regRow (R.SPD_BANK_HO n) = some ⟨0x3100000200, 0x4, 64, 0x0, 1, .wo, 0x7f, 0x0, false, .bank⟩ := by
  interval_cases n <;> rfl

/-- The row of CBS_I2C_XFER. -/
theorem row_xfer {n : Nat} (hn : n < 4) :
    regRow (R.CBS_I2C_XFER n) = some ⟨0x2c00010008, 0x40, 4, 0x0, 1, .rw, 0x1f1f7f, 0x0, false, .res 0x20⟩ := by
  interval_cases n <;> rfl

theorem row_gpioSet : regRow R.CBS_GPIO_SET = some ⟨0x2c00020104, 0, 1, 0, 1, .wo, 0xffffffff, 0, false, .perBit⟩ := by decide

theorem row_gpioClr : regRow R.CBS_GPIO_CLR = some ⟨0x2c00020108, 0, 1, 0, 1, .wo, 0xffffffff, 0, false, .perBit⟩ := by decide

theorem row_close : regRow R.EVT_ROOT_CLOSE = some ⟨R.EVT_ROOT_CLOSE, 0, 1, 0, 1, .wo, 0xffffffff, 0, false, .part0⟩ := by decide

theorem row_key : regRow R.BKC_KEY_REQ = some ⟨R.BKC_KEY_REQ, 0, 1, 0, 1, .wo, 1, 0, false, .part0⟩ := by decide

theorem row_prod : regRow R.BKC_JOB_PROD = some ⟨R.BKC_JOB_PROD, 0, 1, 0, 1, .rw, 0x1fff, 0, false, .part0⟩ := by decide

theorem row_abort : regRow R.BKC_JOB_ABORT = some ⟨R.BKC_JOB_ABORT, 0, 1, 0, 1, .wo, 0xffff, 0, false, .part0⟩ := by decide

theorem ownsReg_row {s : State} {p a : Nat} {r : RegRow} (h : regRow a = some r) : s.ownsReg p a = s.mayWrite p r a := by
  unfold State.ownsReg; rw [h]

theorem writeAt_reg {s : State} {p ctx a more : Nat} {v : Word} {r : RegRow} (h : regRow a = some r) (hw : s.where_ a = .window)
    (h1 : a / 0x100000000 ≠ 0x10) (h2 : a ≠ R.CBS_GPIO_SET) (h3 : a ≠ R.CBS_GPIO_CLR) (ho : s.ownsReg p a = true) :
    s.writeAt p ctx a v more = s.putReg a r v more := by
  rw [ownsReg_row h] at ho
  unfold State.writeAt; rw [hw]; dsimp only; rw [if_neg h1, h]; dsimp only; rw [if_neg h2, if_neg h3, ho]; rfl

theorem pathWrite_reg {s : State} {p : Fin 64} {ctx : Fin 4096} {a more : Nat} {v : Word} (h1 : isSetting a = false) (h2 : s.hoBad p a v = false)
    (h3 : s.bt (R.MBX p 0x04) 0 = true) (h4 : s.owns p ctx = true) : s.pathWrite (.regWrite p ctx) a v more = s.writeAt p ctx a v more := by
  unfold State.pathWrite; dsimp only; rw [h1, h2, h3, h4]; rfl

theorem window_of {s : State} {a k : Nat} (h : a / 0x100000000 = k) (hk : k ∈ [0x10, 0x11, 0x12, 0x20, 0x21, 0x22, 0x23, 0x24, 0x25, 0x26, 0x27, 0x28, 0x29, 0x2A, 0x2B, 0x2C,
      0x30, 0x31, 0x32, 0x3F]) (h2 : a % 0x100000000 < 0x1000000) : s.where_ a = .window := by
  unfold State.where_; rw [h, if_pos ⟨hk, h2⟩]

theorem hoBad_no {s : State} {p a : Nat} {v : Word} (h : a < 0x3100000200 ∨ 0x3100000300 ≤ a) : s.hoBad p a v = false := by
  have e0 : R.SPD_BANK_HO 0 = 0x3100000200 := rfl
  have e1 : R.SPD_BANK_HO 64 = 0x3100000300 := rfl
  unfold State.hoBad
  have : (decide (R.SPD_BANK_HO 0 ≤ a) && decide (a < R.SPD_BANK_HO 64)) = false := by
    rw [e0, e1, Bool.and_eq_false_iff, decide_eq_false_iff_not, decide_eq_false_iff_not]; omega
  rw [this]; rfl

theorem row1 {s : State} {p : Fin 64} {ctx : Fin 4096} {a more : Nat} {v : Word} {r : RegRow} (hr : regRow a = some r) (hs : r.setting = false)
    (hk : a / 0x100000000 ∈ [0x11, 0x12, 0x20, 0x21, 0x22, 0x23, 0x24, 0x25, 0x26, 0x27, 0x28, 0x29, 0x2A, 0x2B, 0x2C, 0x30, 0x32, 0x3F])
    (h2 : a % 0x100000000 < 0x1000000) (h2' : a ≠ R.CBS_GPIO_SET) (h3' : a ≠ R.CBS_GPIO_CLR)
    (h3 : s.bt (R.MBX p 0x04) 0 = true) (h4 : s.owns p ctx = true) (ho : s.ownsReg p a = true) :
    s.pathWrite (.regWrite p ctx) a v more = s.putReg a r v more := by
  have hb : s.hoBad p a v = false := hoBad_no (by
    simp only [List.mem_cons, List.not_mem_nil, or_false] at hk
    omega)
  rw [pathWrite_reg (by unfold isSetting; rw [hr]; simp [hs]) hb h3 h4]
  refine writeAt_reg hr (window_of rfl ?_ h2) ?_ h2' h3' ho
  · simp only [List.mem_cons, List.not_mem_nil, or_false] at hk ⊢; omega
  · simp only [List.mem_cons, List.not_mem_nil, or_false] at hk; omega

theorem put_close (s : State) (r : RegRow) (v : Word) (m : Nat) : s.putReg R.EVT_ROOT_CLOSE r v m = s.rootCloseWrite v := by
  unfold State.putReg; dsimp only; rw [if_pos rfl]

theorem put_key (s : State) (r : RegRow) (v : Word) (m : Nat) (hb : r.base = R.BKC_KEY_REQ) : s.putReg R.BKC_KEY_REQ r v m = s.keyReq v := by
  unfold State.putReg; dsimp only; rw [if_neg (by decide), if_neg (by rw [hb]; decide), if_pos rfl]

theorem put_prod (s : State) (r : RegRow) (v : Word) (m : Nat) (hb : r.base = R.BKC_JOB_PROD) : s.putReg R.BKC_JOB_PROD r v m = s.jobProd v := by
  unfold State.putReg; dsimp only; rw [if_neg (by decide), if_neg (by rw [hb]; decide), if_neg (by decide), if_pos rfl]

theorem put_abort (s : State) (r : RegRow) (v : Word) (m : Nat) (hb : r.base = R.BKC_JOB_ABORT) : s.putReg R.BKC_JOB_ABORT r v m = s.jobAbort (fld v 0 16) := by
  unfold State.putReg; dsimp only; rw [if_neg (by decide), if_neg (by rw [hb]; decide), if_neg (by decide), if_neg (by decide), if_neg (by decide), if_pos rfl]

theorem put_ring (s : State) (r : RegRow) (v : Word) (m n a : Nat) (ha : a = 0x2b00100018 + 0x40 * n) (hn : n < 16384) (hb : r.base = 0x2b00100018) (hi : r.idx1 a = n) : s.putReg a r v m = s.ringCtrl n v m := by
  unfold State.putReg
  dsimp only
  rw [hi, hb, ha]
  rw [if_neg, if_neg, if_neg, if_neg, if_neg, if_neg, if_neg, if_pos]
  · unfold R.HLK_RING_CTRL; rfl
  · unfold R.SPD_BANK_HO; decide
  · unfold R.BKC_JOB_ABORT; omega
  · unfold R.BKC_JOB_BASE_LO R.BKC_JOB_BASE_HI R.BKC_JOB_CTRL; omega
  · unfold R.BKC_JOB_PROD; omega
  · unfold R.BKC_KEY_REQ; omega
  · unfold R.LNA_PRBS_CTRL; decide
  · unfold R.EVT_ROOT_CLOSE; omega

theorem put_bank (s : State) (r : RegRow) (v : Word) (m n a : Nat) (ha : a = 0x3100000200 + 0x4 * n) (hn : n < 64) (hb : r.base = 0x3100000200) (hi : r.idx1 a = n) (hv : s.hoRefused n v = false) : s.putReg a r v m = s.hoAccept n v := by
  unfold State.putReg
  dsimp only
  rw [hi, hb, ha]
  rw [if_neg, if_neg, if_neg, if_neg, if_neg, if_neg, if_pos, hv]
  · rfl
  · unfold R.SPD_BANK_HO; rfl
  · unfold R.BKC_JOB_ABORT; omega
  · unfold R.BKC_JOB_BASE_LO R.BKC_JOB_BASE_HI R.BKC_JOB_CTRL; omega
  · unfold R.BKC_JOB_PROD; omega
  · unfold R.BKC_KEY_REQ; omega
  · unfold R.LNA_PRBS_CTRL; decide
  · unfold R.EVT_ROOT_CLOSE; omega

theorem put_xfer (s : State) (r : RegRow) (v : Word) (m n a : Nat) (ha : a = 0x2c00010008 + 0x40 * n) (hn : n < 4) (hb : r.base = 0x2c00010008) (ho : r.own ≠ .ring) (hi : r.idx1 a = n) : s.putReg a r v m = s.i2cXferWrite n v := by
  unfold State.putReg
  dsimp only
  rw [hi, hb, ha]
  rw [if_neg, if_neg, if_neg, if_neg, if_neg, if_neg, if_neg, if_neg, if_neg ho, if_pos]
  · unfold R.CBS_I2C_XFER; rfl
  · unfold R.HLK_RING_CTRL; decide
  · unfold R.SPD_BANK_HO; decide
  · unfold R.BKC_JOB_ABORT; omega
  · unfold R.BKC_JOB_BASE_LO R.BKC_JOB_BASE_HI R.BKC_JOB_CTRL; omega
  · unfold R.BKC_JOB_PROD; omega
  · unfold R.BKC_KEY_REQ; omega
  · unfold R.LNA_PRBS_CTRL; decide
  · unfold R.EVT_ROOT_CLOSE; omega

end Sys2Proof.Laws
end

