-- ==== Sys2Proof/Laws/Serve.lean ====
section
/-!
SUPPORT. Served Kilel commands: how their meanings answer.
-/

set_option Elab.async false

namespace Sys2Proof.Laws

open Sys2Proof.Machine

/-- The request knows whether its output can be written. -/
theorem asked_outOk {s : State} {dt : Nat} {c : Call} : (s.asked dt c).outOk = c.outOk := by simp only [State.asked, State.request]

/-- A served command whose meaning answers OK at once. -/
theorem ok_done {code dt : Nat} {args : Req → State → Bool} {body : Req → State → Ans} {c : Call} {s t : State} {pay : List Word}
    (h : s.admits code dt c = true) (ha : args (s.asked dt c) (s.taken dt c) = true) (hb : body (s.asked dt c) (s.begun dt c) = .done St.OK pay t) :
    (Host.Outcome.next (kilel code args body dt c s) : Host.Outcome State Fault Refusal) = .next (t.okay c pay) := by
  rw [kilel_done h ha hb]; rfl

/-- A served command whose meaning waits. -/
theorem ok_wait {code dt : Nat} {args : Req → State → Bool} {body : Req → State → Ans} {c : Call} {s t : State} {k : WaitKind}
    (h : s.admits code dt c = true) (ha : args (s.asked dt c) (s.taken dt c) = true) (hb : body (s.asked dt c) (s.begun dt c) = .wait k t) :
    (Host.Outcome.next (kilel code args body dt c s) : Host.Outcome State Fault Refusal) = .next (t.await c k) := by
  rw [kilel_wait h ha hb]

/-- Entries that are staged within the quota are answered with the two counts of R16. -/
theorem stageAnswer_ok {r : Req} {es : Over} {u v : State} {sup p : Nat} (hp : r.part = p) (h : u.stageAll p r.ctx es = (sup, v))
    (hq : (v.stageSet p).length ≤ u.fd (R.PART_STAGE_QUOTA p) 0 15) :
    stageAnswer r es u = .done St.OK [w32 (v.stageSet p).length, w32 sup] v := by
  unfold stageAnswer
  rw [hp, h]; dsimp only
  rw [if_neg (by omega)]

/-- Output that fits its buffer is written to the host. -/
theorem dmaOut_ok {r : Req} {bs : List Byte} {s t : State} (h : bs ≠ []) (h1 : bs.length ≤ r.outLen) (h2 : r.outOk = true) :
    dmaOut r bs s t = .done St.OK [w32 bs.length] (t.emit (.host r.part r.outAddr bs)) := by
  unfold dmaOut; rw [if_neg (by omega), h2]; simp [h]

/-- `SETTINGS_READ` of a register that the caller has not staged. -/
theorem settingsReadAt_none {a : Nat} {r : Req} {s v : State} {w : Word} {b : Bool} (h2 : s.staged r.part a = none)
    (h3 : s.readAt r.part r.ctx a = (w, b, v)) : settingsReadAt a r s = .done St.OK [0, w] v := by
  unfold settingsReadAt; rw [h2]; dsimp only; rw [h3]

/-- A take command on a slot of the caller's. -/
theorem takeCmd_mine {n : Nat} {body : Nat → Req → State → Ans} {r : Req} {s : State} (h : s.slotOwner (r.f 0 0 4) = r.part) :
    takeCmd n body r s = body (r.f 0 0 4) r s := by
  unfold takeCmd; dsimp only; rw [if_neg (by simpa using h)]

end Sys2Proof.Laws
end

