-- ==== Sys2Proof/Laws/State.lean ====
section
/-!
SUPPORT. Each plain update of the state and what it leaves alone: one lemma per update and field, true by unfolding.
-/

set_option Elab.async false

namespace Sys2Proof.Machine

variable (s : State)

/-! ### `tick` -/

@[simp] theorem State.tick_pending (n : Nat) : (s.tick n).pending = s.pending := rfl
@[simp] theorem State.tick_straps (n : Nat) : (s.tick n).straps = s.straps := rfl
@[simp] theorem State.tick_regs (n : Nat) : (s.tick n).regs = s.regs := rfl
@[simp] theorem State.tick_mem (n : Nat) : (s.tick n).mem = s.mem := rfl
@[simp] theorem State.tick_nv (n : Nat) : (s.tick n).nv = s.nv := rfl
@[simp] theorem State.tick_mbx (n : Nat) : (s.tick n).mbx = s.mbx := rfl
@[simp] theorem State.tick_evt (n : Nat) : (s.tick n).evt = s.evt := rfl
@[simp] theorem State.tick_ep (n : Nat) : (s.tick n).ep = s.ep := rfl
@[simp] theorem State.tick_resets (n : Nat) : (s.tick n).resets = s.resets := rfl
@[simp] theorem State.tick_resetSeq (n : Nat) : (s.tick n).resetSeq = s.resetSeq := rfl
@[simp] theorem State.tick_lnk (n : Nat) : (s.tick n).lnk = s.lnk := rfl
@[simp] theorem State.tick_ing (n : Nat) : (s.tick n).ing = s.ing := rfl
@[simp] theorem State.tick_bkcJob (n : Nat) : (s.tick n).bkcJob = s.bkcJob := rfl
@[simp] theorem State.tick_items (n : Nat) : (s.tick n).items = s.items := rfl
@[simp] theorem State.tick_rings (n : Nat) : (s.tick n).rings = s.rings := rfl
@[simp] theorem State.tick_allocs (n : Nat) : (s.tick n).allocs = s.allocs := rfl
@[simp] theorem State.tick_cpl (n : Nat) : (s.tick n).cpl = s.cpl := rfl
@[simp] theorem State.tick_crs (n : Nat) : (s.tick n).crs = s.crs := rfl
@[simp] theorem State.tick_lnd (n : Nat) : (s.tick n).lnd = s.lnd := rfl
@[simp] theorem State.tick_vcd (n : Nat) : (s.tick n).vcd = s.vcd := rfl
@[simp] theorem State.tick_mon (n : Nat) : (s.tick n).mon = s.mon := rfl
@[simp] theorem State.tick_tim (n : Nat) : (s.tick n).tim = s.tim := rfl
@[simp] theorem State.tick_aud (n : Nat) : (s.tick n).aud = s.aud := rfl
@[simp] theorem State.tick_cbs (n : Nat) : (s.tick n).cbs = s.cbs := rfl
@[simp] theorem State.tick_dmc (n : Nat) : (s.tick n).dmc = s.dmc := rfl
@[simp] theorem State.tick_chutes (n : Nat) : (s.tick n).chutes = s.chutes := rfl
@[simp] theorem State.tick_pwr (n : Nat) : (s.tick n).pwr = s.pwr := rfl
@[simp] theorem State.tick_nvHeld (n : Nat) : (s.tick n).nvHeld = s.nvHeld := rfl
@[simp] theorem State.tick_free (n : Nat) : (s.tick n).free = s.free := rfl
@[simp] theorem State.tick_out (n : Nat) : (s.tick n).out = s.out := rfl
@[simp] theorem State.tick_spdHo (n : Nat) : (s.tick n).spdHo = s.spdHo := rfl
@[simp] theorem State.tick_spdAcc (n : Nat) : (s.tick n).spdAcc = s.spdAcc := rfl
@[simp] theorem State.tick_rc (n : Nat) : (s.tick n).rc = s.rc := rfl

/-! ### `wr` -/

@[simp] theorem State.wr_pending (a : Nat) (v : Word) : (s.wr a v).pending = s.pending := rfl
@[simp] theorem State.wr_clk (a : Nat) (v : Word) : (s.wr a v).clk = s.clk := rfl
@[simp] theorem State.wr_straps (a : Nat) (v : Word) : (s.wr a v).straps = s.straps := rfl
@[simp] theorem State.wr_mem (a : Nat) (v : Word) : (s.wr a v).mem = s.mem := rfl
@[simp] theorem State.wr_nv (a : Nat) (v : Word) : (s.wr a v).nv = s.nv := rfl
@[simp] theorem State.wr_mbx (a : Nat) (v : Word) : (s.wr a v).mbx = s.mbx := rfl
@[simp] theorem State.wr_evt (a : Nat) (v : Word) : (s.wr a v).evt = s.evt := rfl
@[simp] theorem State.wr_ep (a : Nat) (v : Word) : (s.wr a v).ep = s.ep := rfl
@[simp] theorem State.wr_resets (a : Nat) (v : Word) : (s.wr a v).resets = s.resets := rfl
@[simp] theorem State.wr_resetSeq (a : Nat) (v : Word) : (s.wr a v).resetSeq = s.resetSeq := rfl
@[simp] theorem State.wr_lnk (a : Nat) (v : Word) : (s.wr a v).lnk = s.lnk := rfl
@[simp] theorem State.wr_ing (a : Nat) (v : Word) : (s.wr a v).ing = s.ing := rfl
@[simp] theorem State.wr_bkcJob (a : Nat) (v : Word) : (s.wr a v).bkcJob = s.bkcJob := rfl
@[simp] theorem State.wr_items (a : Nat) (v : Word) : (s.wr a v).items = s.items := rfl
@[simp] theorem State.wr_rings (a : Nat) (v : Word) : (s.wr a v).rings = s.rings := rfl
@[simp] theorem State.wr_allocs (a : Nat) (v : Word) : (s.wr a v).allocs = s.allocs := rfl
@[simp] theorem State.wr_cpl (a : Nat) (v : Word) : (s.wr a v).cpl = s.cpl := rfl
@[simp] theorem State.wr_crs (a : Nat) (v : Word) : (s.wr a v).crs = s.crs := rfl
@[simp] theorem State.wr_lnd (a : Nat) (v : Word) : (s.wr a v).lnd = s.lnd := rfl
@[simp] theorem State.wr_vcd (a : Nat) (v : Word) : (s.wr a v).vcd = s.vcd := rfl
@[simp] theorem State.wr_mon (a : Nat) (v : Word) : (s.wr a v).mon = s.mon := rfl
@[simp] theorem State.wr_tim (a : Nat) (v : Word) : (s.wr a v).tim = s.tim := rfl
@[simp] theorem State.wr_aud (a : Nat) (v : Word) : (s.wr a v).aud = s.aud := rfl
@[simp] theorem State.wr_cbs (a : Nat) (v : Word) : (s.wr a v).cbs = s.cbs := rfl
@[simp] theorem State.wr_dmc (a : Nat) (v : Word) : (s.wr a v).dmc = s.dmc := rfl
@[simp] theorem State.wr_chutes (a : Nat) (v : Word) : (s.wr a v).chutes = s.chutes := rfl
@[simp] theorem State.wr_pwr (a : Nat) (v : Word) : (s.wr a v).pwr = s.pwr := rfl
@[simp] theorem State.wr_nvHeld (a : Nat) (v : Word) : (s.wr a v).nvHeld = s.nvHeld := rfl
@[simp] theorem State.wr_free (a : Nat) (v : Word) : (s.wr a v).free = s.free := rfl
@[simp] theorem State.wr_out (a : Nat) (v : Word) : (s.wr a v).out = s.out := rfl
@[simp] theorem State.wr_spdHo (a : Nat) (v : Word) : (s.wr a v).spdHo = s.spdHo := rfl
@[simp] theorem State.wr_spdAcc (a : Nat) (v : Word) : (s.wr a v).spdAcc = s.spdAcc := rfl
@[simp] theorem State.wr_rc (a : Nat) (v : Word) : (s.wr a v).rc = s.rc := rfl

/-! ### `wrF` -/

@[simp] theorem State.wrF_pending (a lo n v : Nat) : (s.wrF a lo n v).pending = s.pending := rfl
@[simp] theorem State.wrF_clk (a lo n v : Nat) : (s.wrF a lo n v).clk = s.clk := rfl
@[simp] theorem State.wrF_straps (a lo n v : Nat) : (s.wrF a lo n v).straps = s.straps := rfl
@[simp] theorem State.wrF_mem (a lo n v : Nat) : (s.wrF a lo n v).mem = s.mem := rfl
@[simp] theorem State.wrF_nv (a lo n v : Nat) : (s.wrF a lo n v).nv = s.nv := rfl
@[simp] theorem State.wrF_mbx (a lo n v : Nat) : (s.wrF a lo n v).mbx = s.mbx := rfl
@[simp] theorem State.wrF_evt (a lo n v : Nat) : (s.wrF a lo n v).evt = s.evt := rfl
@[simp] theorem State.wrF_ep (a lo n v : Nat) : (s.wrF a lo n v).ep = s.ep := rfl
@[simp] theorem State.wrF_resets (a lo n v : Nat) : (s.wrF a lo n v).resets = s.resets := rfl
@[simp] theorem State.wrF_resetSeq (a lo n v : Nat) : (s.wrF a lo n v).resetSeq = s.resetSeq := rfl
@[simp] theorem State.wrF_lnk (a lo n v : Nat) : (s.wrF a lo n v).lnk = s.lnk := rfl
@[simp] theorem State.wrF_ing (a lo n v : Nat) : (s.wrF a lo n v).ing = s.ing := rfl
@[simp] theorem State.wrF_bkcJob (a lo n v : Nat) : (s.wrF a lo n v).bkcJob = s.bkcJob := rfl
@[simp] theorem State.wrF_items (a lo n v : Nat) : (s.wrF a lo n v).items = s.items := rfl
@[simp] theorem State.wrF_rings (a lo n v : Nat) : (s.wrF a lo n v).rings = s.rings := rfl
@[simp] theorem State.wrF_allocs (a lo n v : Nat) : (s.wrF a lo n v).allocs = s.allocs := rfl
@[simp] theorem State.wrF_cpl (a lo n v : Nat) : (s.wrF a lo n v).cpl = s.cpl := rfl
@[simp] theorem State.wrF_crs (a lo n v : Nat) : (s.wrF a lo n v).crs = s.crs := rfl
@[simp] theorem State.wrF_lnd (a lo n v : Nat) : (s.wrF a lo n v).lnd = s.lnd := rfl
@[simp] theorem State.wrF_vcd (a lo n v : Nat) : (s.wrF a lo n v).vcd = s.vcd := rfl
@[simp] theorem State.wrF_mon (a lo n v : Nat) : (s.wrF a lo n v).mon = s.mon := rfl
@[simp] theorem State.wrF_tim (a lo n v : Nat) : (s.wrF a lo n v).tim = s.tim := rfl
@[simp] theorem State.wrF_aud (a lo n v : Nat) : (s.wrF a lo n v).aud = s.aud := rfl
@[simp] theorem State.wrF_cbs (a lo n v : Nat) : (s.wrF a lo n v).cbs = s.cbs := rfl
@[simp] theorem State.wrF_dmc (a lo n v : Nat) : (s.wrF a lo n v).dmc = s.dmc := rfl
@[simp] theorem State.wrF_chutes (a lo n v : Nat) : (s.wrF a lo n v).chutes = s.chutes := rfl
@[simp] theorem State.wrF_pwr (a lo n v : Nat) : (s.wrF a lo n v).pwr = s.pwr := rfl
@[simp] theorem State.wrF_nvHeld (a lo n v : Nat) : (s.wrF a lo n v).nvHeld = s.nvHeld := rfl
@[simp] theorem State.wrF_free (a lo n v : Nat) : (s.wrF a lo n v).free = s.free := rfl
@[simp] theorem State.wrF_out (a lo n v : Nat) : (s.wrF a lo n v).out = s.out := rfl
@[simp] theorem State.wrF_spdHo (a lo n v : Nat) : (s.wrF a lo n v).spdHo = s.spdHo := rfl
@[simp] theorem State.wrF_spdAcc (a lo n v : Nat) : (s.wrF a lo n v).spdAcc = s.spdAcc := rfl
@[simp] theorem State.wrF_rc (a lo n v : Nat) : (s.wrF a lo n v).rc = s.rc := rfl

/-! ### `bump` -/

@[simp] theorem State.bump_pending (a lo n k : Nat) : (s.bump a lo n k).pending = s.pending := rfl
@[simp] theorem State.bump_clk (a lo n k : Nat) : (s.bump a lo n k).clk = s.clk := rfl
@[simp] theorem State.bump_straps (a lo n k : Nat) : (s.bump a lo n k).straps = s.straps := rfl
@[simp] theorem State.bump_mem (a lo n k : Nat) : (s.bump a lo n k).mem = s.mem := rfl
@[simp] theorem State.bump_nv (a lo n k : Nat) : (s.bump a lo n k).nv = s.nv := rfl
@[simp] theorem State.bump_mbx (a lo n k : Nat) : (s.bump a lo n k).mbx = s.mbx := rfl
@[simp] theorem State.bump_evt (a lo n k : Nat) : (s.bump a lo n k).evt = s.evt := rfl
@[simp] theorem State.bump_ep (a lo n k : Nat) : (s.bump a lo n k).ep = s.ep := rfl
@[simp] theorem State.bump_resets (a lo n k : Nat) : (s.bump a lo n k).resets = s.resets := rfl
@[simp] theorem State.bump_resetSeq (a lo n k : Nat) : (s.bump a lo n k).resetSeq = s.resetSeq := rfl
@[simp] theorem State.bump_lnk (a lo n k : Nat) : (s.bump a lo n k).lnk = s.lnk := rfl
@[simp] theorem State.bump_ing (a lo n k : Nat) : (s.bump a lo n k).ing = s.ing := rfl
@[simp] theorem State.bump_bkcJob (a lo n k : Nat) : (s.bump a lo n k).bkcJob = s.bkcJob := rfl
@[simp] theorem State.bump_items (a lo n k : Nat) : (s.bump a lo n k).items = s.items := rfl
@[simp] theorem State.bump_rings (a lo n k : Nat) : (s.bump a lo n k).rings = s.rings := rfl
@[simp] theorem State.bump_allocs (a lo n k : Nat) : (s.bump a lo n k).allocs = s.allocs := rfl
@[simp] theorem State.bump_cpl (a lo n k : Nat) : (s.bump a lo n k).cpl = s.cpl := rfl
@[simp] theorem State.bump_crs (a lo n k : Nat) : (s.bump a lo n k).crs = s.crs := rfl
@[simp] theorem State.bump_lnd (a lo n k : Nat) : (s.bump a lo n k).lnd = s.lnd := rfl
@[simp] theorem State.bump_vcd (a lo n k : Nat) : (s.bump a lo n k).vcd = s.vcd := rfl
@[simp] theorem State.bump_mon (a lo n k : Nat) : (s.bump a lo n k).mon = s.mon := rfl
@[simp] theorem State.bump_tim (a lo n k : Nat) : (s.bump a lo n k).tim = s.tim := rfl
@[simp] theorem State.bump_aud (a lo n k : Nat) : (s.bump a lo n k).aud = s.aud := rfl
@[simp] theorem State.bump_cbs (a lo n k : Nat) : (s.bump a lo n k).cbs = s.cbs := rfl
@[simp] theorem State.bump_dmc (a lo n k : Nat) : (s.bump a lo n k).dmc = s.dmc := rfl
@[simp] theorem State.bump_chutes (a lo n k : Nat) : (s.bump a lo n k).chutes = s.chutes := rfl
@[simp] theorem State.bump_pwr (a lo n k : Nat) : (s.bump a lo n k).pwr = s.pwr := rfl
@[simp] theorem State.bump_nvHeld (a lo n k : Nat) : (s.bump a lo n k).nvHeld = s.nvHeld := rfl
@[simp] theorem State.bump_free (a lo n k : Nat) : (s.bump a lo n k).free = s.free := rfl
@[simp] theorem State.bump_out (a lo n k : Nat) : (s.bump a lo n k).out = s.out := rfl
@[simp] theorem State.bump_spdHo (a lo n k : Nat) : (s.bump a lo n k).spdHo = s.spdHo := rfl
@[simp] theorem State.bump_spdAcc (a lo n k : Nat) : (s.bump a lo n k).spdAcc = s.spdAcc := rfl

/-! ### `regClear` -/

@[simp] theorem State.regClear_pending (lo hi : Nat) : (s.regClear lo hi).pending = s.pending := rfl
@[simp] theorem State.regClear_clk (lo hi : Nat) : (s.regClear lo hi).clk = s.clk := rfl
@[simp] theorem State.regClear_straps (lo hi : Nat) : (s.regClear lo hi).straps = s.straps := rfl
@[simp] theorem State.regClear_mem (lo hi : Nat) : (s.regClear lo hi).mem = s.mem := rfl
@[simp] theorem State.regClear_nv (lo hi : Nat) : (s.regClear lo hi).nv = s.nv := rfl
@[simp] theorem State.regClear_mbx (lo hi : Nat) : (s.regClear lo hi).mbx = s.mbx := rfl
@[simp] theorem State.regClear_evt (lo hi : Nat) : (s.regClear lo hi).evt = s.evt := rfl
@[simp] theorem State.regClear_ep (lo hi : Nat) : (s.regClear lo hi).ep = s.ep := rfl
@[simp] theorem State.regClear_resets (lo hi : Nat) : (s.regClear lo hi).resets = s.resets := rfl
@[simp] theorem State.regClear_resetSeq (lo hi : Nat) : (s.regClear lo hi).resetSeq = s.resetSeq := rfl
@[simp] theorem State.regClear_lnk (lo hi : Nat) : (s.regClear lo hi).lnk = s.lnk := rfl
@[simp] theorem State.regClear_ing (lo hi : Nat) : (s.regClear lo hi).ing = s.ing := rfl
@[simp] theorem State.regClear_bkcJob (lo hi : Nat) : (s.regClear lo hi).bkcJob = s.bkcJob := rfl
@[simp] theorem State.regClear_items (lo hi : Nat) : (s.regClear lo hi).items = s.items := rfl
@[simp] theorem State.regClear_rings (lo hi : Nat) : (s.regClear lo hi).rings = s.rings := rfl
@[simp] theorem State.regClear_allocs (lo hi : Nat) : (s.regClear lo hi).allocs = s.allocs := rfl
@[simp] theorem State.regClear_cpl (lo hi : Nat) : (s.regClear lo hi).cpl = s.cpl := rfl
@[simp] theorem State.regClear_crs (lo hi : Nat) : (s.regClear lo hi).crs = s.crs := rfl
@[simp] theorem State.regClear_lnd (lo hi : Nat) : (s.regClear lo hi).lnd = s.lnd := rfl
@[simp] theorem State.regClear_vcd (lo hi : Nat) : (s.regClear lo hi).vcd = s.vcd := rfl
@[simp] theorem State.regClear_mon (lo hi : Nat) : (s.regClear lo hi).mon = s.mon := rfl
@[simp] theorem State.regClear_tim (lo hi : Nat) : (s.regClear lo hi).tim = s.tim := rfl
@[simp] theorem State.regClear_aud (lo hi : Nat) : (s.regClear lo hi).aud = s.aud := rfl
@[simp] theorem State.regClear_cbs (lo hi : Nat) : (s.regClear lo hi).cbs = s.cbs := rfl
@[simp] theorem State.regClear_dmc (lo hi : Nat) : (s.regClear lo hi).dmc = s.dmc := rfl
@[simp] theorem State.regClear_chutes (lo hi : Nat) : (s.regClear lo hi).chutes = s.chutes := rfl
@[simp] theorem State.regClear_pwr (lo hi : Nat) : (s.regClear lo hi).pwr = s.pwr := rfl
@[simp] theorem State.regClear_nvHeld (lo hi : Nat) : (s.regClear lo hi).nvHeld = s.nvHeld := rfl
@[simp] theorem State.regClear_free (lo hi : Nat) : (s.regClear lo hi).free = s.free := rfl
@[simp] theorem State.regClear_out (lo hi : Nat) : (s.regClear lo hi).out = s.out := rfl
@[simp] theorem State.regClear_spdHo (lo hi : Nat) : (s.regClear lo hi).spdHo = s.spdHo := rfl
@[simp] theorem State.regClear_spdAcc (lo hi : Nat) : (s.regClear lo hi).spdAcc = s.spdAcc := rfl
@[simp] theorem State.regClear_rc (lo hi : Nat) : (s.regClear lo hi).rc = s.rc := rfl

/-! ### `emit` -/

@[simp] theorem State.emit_pending (o : Out) : (s.emit o).pending = s.pending := rfl
@[simp] theorem State.emit_clk (o : Out) : (s.emit o).clk = s.clk := rfl
@[simp] theorem State.emit_straps (o : Out) : (s.emit o).straps = s.straps := rfl
@[simp] theorem State.emit_regs (o : Out) : (s.emit o).regs = s.regs := rfl
@[simp] theorem State.emit_mem (o : Out) : (s.emit o).mem = s.mem := rfl
@[simp] theorem State.emit_nv (o : Out) : (s.emit o).nv = s.nv := rfl
@[simp] theorem State.emit_mbx (o : Out) : (s.emit o).mbx = s.mbx := rfl
@[simp] theorem State.emit_evt (o : Out) : (s.emit o).evt = s.evt := rfl
@[simp] theorem State.emit_ep (o : Out) : (s.emit o).ep = s.ep := rfl
@[simp] theorem State.emit_resets (o : Out) : (s.emit o).resets = s.resets := rfl
@[simp] theorem State.emit_resetSeq (o : Out) : (s.emit o).resetSeq = s.resetSeq := rfl
@[simp] theorem State.emit_lnk (o : Out) : (s.emit o).lnk = s.lnk := rfl
@[simp] theorem State.emit_ing (o : Out) : (s.emit o).ing = s.ing := rfl
@[simp] theorem State.emit_bkcJob (o : Out) : (s.emit o).bkcJob = s.bkcJob := rfl
@[simp] theorem State.emit_items (o : Out) : (s.emit o).items = s.items := rfl
@[simp] theorem State.emit_rings (o : Out) : (s.emit o).rings = s.rings := rfl
@[simp] theorem State.emit_allocs (o : Out) : (s.emit o).allocs = s.allocs := rfl
@[simp] theorem State.emit_cpl (o : Out) : (s.emit o).cpl = s.cpl := rfl
@[simp] theorem State.emit_crs (o : Out) : (s.emit o).crs = s.crs := rfl
@[simp] theorem State.emit_lnd (o : Out) : (s.emit o).lnd = s.lnd := rfl
@[simp] theorem State.emit_vcd (o : Out) : (s.emit o).vcd = s.vcd := rfl
@[simp] theorem State.emit_mon (o : Out) : (s.emit o).mon = s.mon := rfl
@[simp] theorem State.emit_tim (o : Out) : (s.emit o).tim = s.tim := rfl
@[simp] theorem State.emit_aud (o : Out) : (s.emit o).aud = s.aud := rfl
@[simp] theorem State.emit_cbs (o : Out) : (s.emit o).cbs = s.cbs := rfl
@[simp] theorem State.emit_dmc (o : Out) : (s.emit o).dmc = s.dmc := rfl
@[simp] theorem State.emit_chutes (o : Out) : (s.emit o).chutes = s.chutes := rfl
@[simp] theorem State.emit_pwr (o : Out) : (s.emit o).pwr = s.pwr := rfl
@[simp] theorem State.emit_nvHeld (o : Out) : (s.emit o).nvHeld = s.nvHeld := rfl
@[simp] theorem State.emit_free (o : Out) : (s.emit o).free = s.free := rfl
@[simp] theorem State.emit_spdHo (o : Out) : (s.emit o).spdHo = s.spdHo := rfl
@[simp] theorem State.emit_spdAcc (o : Out) : (s.emit o).spdAcc = s.spdAcc := rfl
@[simp] theorem State.emit_rc (o : Out) : (s.emit o).rc = s.rc := rfl

/-! ### `setSlot` -/

@[simp] theorem State.setSlot_pending (p q k : Nat) : (s.setSlot p q k).pending = s.pending := rfl
@[simp] theorem State.setSlot_clk (p q k : Nat) : (s.setSlot p q k).clk = s.clk := rfl
@[simp] theorem State.setSlot_straps (p q k : Nat) : (s.setSlot p q k).straps = s.straps := rfl
@[simp] theorem State.setSlot_mem (p q k : Nat) : (s.setSlot p q k).mem = s.mem := rfl
@[simp] theorem State.setSlot_nv (p q k : Nat) : (s.setSlot p q k).nv = s.nv := rfl
@[simp] theorem State.setSlot_mbx (p q k : Nat) : (s.setSlot p q k).mbx = s.mbx := rfl
@[simp] theorem State.setSlot_evt (p q k : Nat) : (s.setSlot p q k).evt = s.evt := rfl
@[simp] theorem State.setSlot_ep (p q k : Nat) : (s.setSlot p q k).ep = s.ep := rfl
@[simp] theorem State.setSlot_resets (p q k : Nat) : (s.setSlot p q k).resets = s.resets := rfl
@[simp] theorem State.setSlot_resetSeq (p q k : Nat) : (s.setSlot p q k).resetSeq = s.resetSeq := rfl
@[simp] theorem State.setSlot_lnk (p q k : Nat) : (s.setSlot p q k).lnk = s.lnk := rfl
@[simp] theorem State.setSlot_ing (p q k : Nat) : (s.setSlot p q k).ing = s.ing := rfl
@[simp] theorem State.setSlot_bkcJob (p q k : Nat) : (s.setSlot p q k).bkcJob = s.bkcJob := rfl
@[simp] theorem State.setSlot_items (p q k : Nat) : (s.setSlot p q k).items = s.items := rfl
@[simp] theorem State.setSlot_rings (p q k : Nat) : (s.setSlot p q k).rings = s.rings := rfl
@[simp] theorem State.setSlot_allocs (p q k : Nat) : (s.setSlot p q k).allocs = s.allocs := rfl
@[simp] theorem State.setSlot_cpl (p q k : Nat) : (s.setSlot p q k).cpl = s.cpl := rfl
@[simp] theorem State.setSlot_crs (p q k : Nat) : (s.setSlot p q k).crs = s.crs := rfl
@[simp] theorem State.setSlot_lnd (p q k : Nat) : (s.setSlot p q k).lnd = s.lnd := rfl
@[simp] theorem State.setSlot_vcd (p q k : Nat) : (s.setSlot p q k).vcd = s.vcd := rfl
@[simp] theorem State.setSlot_mon (p q k : Nat) : (s.setSlot p q k).mon = s.mon := rfl
@[simp] theorem State.setSlot_tim (p q k : Nat) : (s.setSlot p q k).tim = s.tim := rfl
@[simp] theorem State.setSlot_aud (p q k : Nat) : (s.setSlot p q k).aud = s.aud := rfl
@[simp] theorem State.setSlot_cbs (p q k : Nat) : (s.setSlot p q k).cbs = s.cbs := rfl
@[simp] theorem State.setSlot_dmc (p q k : Nat) : (s.setSlot p q k).dmc = s.dmc := rfl
@[simp] theorem State.setSlot_chutes (p q k : Nat) : (s.setSlot p q k).chutes = s.chutes := rfl
@[simp] theorem State.setSlot_pwr (p q k : Nat) : (s.setSlot p q k).pwr = s.pwr := rfl
@[simp] theorem State.setSlot_nvHeld (p q k : Nat) : (s.setSlot p q k).nvHeld = s.nvHeld := rfl
@[simp] theorem State.setSlot_free (p q k : Nat) : (s.setSlot p q k).free = s.free := rfl
@[simp] theorem State.setSlot_out (p q k : Nat) : (s.setSlot p q k).out = s.out := rfl
@[simp] theorem State.setSlot_spdHo (p q k : Nat) : (s.setSlot p q k).spdHo = s.spdHo := rfl
@[simp] theorem State.setSlot_spdAcc (p q k : Nat) : (s.setSlot p q k).spdAcc = s.spdAcc := rfl
@[simp] theorem State.setSlot_rc (p q k : Nat) : (s.setSlot p q k).rc = s.rc := rfl

/-! ### `unpost` -/

@[simp] theorem State.unpost_pending (p q : Nat) : (s.unpost p q).pending = s.pending := rfl
@[simp] theorem State.unpost_clk (p q : Nat) : (s.unpost p q).clk = s.clk := rfl
@[simp] theorem State.unpost_straps (p q : Nat) : (s.unpost p q).straps = s.straps := rfl
@[simp] theorem State.unpost_regs (p q : Nat) : (s.unpost p q).regs = s.regs := rfl
@[simp] theorem State.unpost_mem (p q : Nat) : (s.unpost p q).mem = s.mem := rfl
@[simp] theorem State.unpost_nv (p q : Nat) : (s.unpost p q).nv = s.nv := rfl
@[simp] theorem State.unpost_evt (p q : Nat) : (s.unpost p q).evt = s.evt := rfl
@[simp] theorem State.unpost_ep (p q : Nat) : (s.unpost p q).ep = s.ep := rfl
@[simp] theorem State.unpost_resets (p q : Nat) : (s.unpost p q).resets = s.resets := rfl
@[simp] theorem State.unpost_resetSeq (p q : Nat) : (s.unpost p q).resetSeq = s.resetSeq := rfl
@[simp] theorem State.unpost_lnk (p q : Nat) : (s.unpost p q).lnk = s.lnk := rfl
@[simp] theorem State.unpost_ing (p q : Nat) : (s.unpost p q).ing = s.ing := rfl
@[simp] theorem State.unpost_bkcJob (p q : Nat) : (s.unpost p q).bkcJob = s.bkcJob := rfl
@[simp] theorem State.unpost_items (p q : Nat) : (s.unpost p q).items = s.items := rfl
@[simp] theorem State.unpost_rings (p q : Nat) : (s.unpost p q).rings = s.rings := rfl
@[simp] theorem State.unpost_allocs (p q : Nat) : (s.unpost p q).allocs = s.allocs := rfl
@[simp] theorem State.unpost_cpl (p q : Nat) : (s.unpost p q).cpl = s.cpl := rfl
@[simp] theorem State.unpost_crs (p q : Nat) : (s.unpost p q).crs = s.crs := rfl
@[simp] theorem State.unpost_lnd (p q : Nat) : (s.unpost p q).lnd = s.lnd := rfl
@[simp] theorem State.unpost_vcd (p q : Nat) : (s.unpost p q).vcd = s.vcd := rfl
@[simp] theorem State.unpost_mon (p q : Nat) : (s.unpost p q).mon = s.mon := rfl
@[simp] theorem State.unpost_tim (p q : Nat) : (s.unpost p q).tim = s.tim := rfl
@[simp] theorem State.unpost_aud (p q : Nat) : (s.unpost p q).aud = s.aud := rfl
@[simp] theorem State.unpost_cbs (p q : Nat) : (s.unpost p q).cbs = s.cbs := rfl
@[simp] theorem State.unpost_dmc (p q : Nat) : (s.unpost p q).dmc = s.dmc := rfl
@[simp] theorem State.unpost_chutes (p q : Nat) : (s.unpost p q).chutes = s.chutes := rfl
@[simp] theorem State.unpost_pwr (p q : Nat) : (s.unpost p q).pwr = s.pwr := rfl
@[simp] theorem State.unpost_nvHeld (p q : Nat) : (s.unpost p q).nvHeld = s.nvHeld := rfl
@[simp] theorem State.unpost_free (p q : Nat) : (s.unpost p q).free = s.free := rfl
@[simp] theorem State.unpost_out (p q : Nat) : (s.unpost p q).out = s.out := rfl
@[simp] theorem State.unpost_spdHo (p q : Nat) : (s.unpost p q).spdHo = s.spdHo := rfl
@[simp] theorem State.unpost_spdAcc (p q : Nat) : (s.unpost p q).spdAcc = s.spdAcc := rfl
@[simp] theorem State.unpost_rc (p q : Nat) : (s.unpost p q).rc = s.rc := rfl

/-! ### `setEvq` -/

@[simp] theorem State.setEvq_pending (c : Nat) (q : EvQueue) : (s.setEvq c q).pending = s.pending := rfl
@[simp] theorem State.setEvq_clk (c : Nat) (q : EvQueue) : (s.setEvq c q).clk = s.clk := rfl
@[simp] theorem State.setEvq_straps (c : Nat) (q : EvQueue) : (s.setEvq c q).straps = s.straps := rfl
@[simp] theorem State.setEvq_regs (c : Nat) (q : EvQueue) : (s.setEvq c q).regs = s.regs := rfl
@[simp] theorem State.setEvq_mem (c : Nat) (q : EvQueue) : (s.setEvq c q).mem = s.mem := rfl
@[simp] theorem State.setEvq_nv (c : Nat) (q : EvQueue) : (s.setEvq c q).nv = s.nv := rfl
@[simp] theorem State.setEvq_mbx (c : Nat) (q : EvQueue) : (s.setEvq c q).mbx = s.mbx := rfl
@[simp] theorem State.setEvq_ep (c : Nat) (q : EvQueue) : (s.setEvq c q).ep = s.ep := rfl
@[simp] theorem State.setEvq_resets (c : Nat) (q : EvQueue) : (s.setEvq c q).resets = s.resets := rfl
@[simp] theorem State.setEvq_resetSeq (c : Nat) (q : EvQueue) : (s.setEvq c q).resetSeq = s.resetSeq := rfl
@[simp] theorem State.setEvq_lnk (c : Nat) (q : EvQueue) : (s.setEvq c q).lnk = s.lnk := rfl
@[simp] theorem State.setEvq_ing (c : Nat) (q : EvQueue) : (s.setEvq c q).ing = s.ing := rfl
@[simp] theorem State.setEvq_bkcJob (c : Nat) (q : EvQueue) : (s.setEvq c q).bkcJob = s.bkcJob := rfl
@[simp] theorem State.setEvq_items (c : Nat) (q : EvQueue) : (s.setEvq c q).items = s.items := rfl
@[simp] theorem State.setEvq_rings (c : Nat) (q : EvQueue) : (s.setEvq c q).rings = s.rings := rfl
@[simp] theorem State.setEvq_allocs (c : Nat) (q : EvQueue) : (s.setEvq c q).allocs = s.allocs := rfl
@[simp] theorem State.setEvq_cpl (c : Nat) (q : EvQueue) : (s.setEvq c q).cpl = s.cpl := rfl
@[simp] theorem State.setEvq_crs (c : Nat) (q : EvQueue) : (s.setEvq c q).crs = s.crs := rfl
@[simp] theorem State.setEvq_lnd (c : Nat) (q : EvQueue) : (s.setEvq c q).lnd = s.lnd := rfl
@[simp] theorem State.setEvq_vcd (c : Nat) (q : EvQueue) : (s.setEvq c q).vcd = s.vcd := rfl
@[simp] theorem State.setEvq_mon (c : Nat) (q : EvQueue) : (s.setEvq c q).mon = s.mon := rfl
@[simp] theorem State.setEvq_tim (c : Nat) (q : EvQueue) : (s.setEvq c q).tim = s.tim := rfl
@[simp] theorem State.setEvq_aud (c : Nat) (q : EvQueue) : (s.setEvq c q).aud = s.aud := rfl
@[simp] theorem State.setEvq_cbs (c : Nat) (q : EvQueue) : (s.setEvq c q).cbs = s.cbs := rfl
@[simp] theorem State.setEvq_dmc (c : Nat) (q : EvQueue) : (s.setEvq c q).dmc = s.dmc := rfl
@[simp] theorem State.setEvq_chutes (c : Nat) (q : EvQueue) : (s.setEvq c q).chutes = s.chutes := rfl
@[simp] theorem State.setEvq_pwr (c : Nat) (q : EvQueue) : (s.setEvq c q).pwr = s.pwr := rfl
@[simp] theorem State.setEvq_nvHeld (c : Nat) (q : EvQueue) : (s.setEvq c q).nvHeld = s.nvHeld := rfl
@[simp] theorem State.setEvq_free (c : Nat) (q : EvQueue) : (s.setEvq c q).free = s.free := rfl
@[simp] theorem State.setEvq_out (c : Nat) (q : EvQueue) : (s.setEvq c q).out = s.out := rfl
@[simp] theorem State.setEvq_spdHo (c : Nat) (q : EvQueue) : (s.setEvq c q).spdHo = s.spdHo := rfl
@[simp] theorem State.setEvq_spdAcc (c : Nat) (q : EvQueue) : (s.setEvq c q).spdAcc = s.spdAcc := rfl
@[simp] theorem State.setEvq_rc (c : Nat) (q : EvQueue) : (s.setEvq c q).rc = s.rc := rfl

/-! ### `setChute` -/

@[simp] theorem State.setChute_pending (n : Nat) (c : Chute) : (s.setChute n c).pending = s.pending := rfl
@[simp] theorem State.setChute_clk (n : Nat) (c : Chute) : (s.setChute n c).clk = s.clk := rfl
@[simp] theorem State.setChute_straps (n : Nat) (c : Chute) : (s.setChute n c).straps = s.straps := rfl
@[simp] theorem State.setChute_regs (n : Nat) (c : Chute) : (s.setChute n c).regs = s.regs := rfl
@[simp] theorem State.setChute_mem (n : Nat) (c : Chute) : (s.setChute n c).mem = s.mem := rfl
@[simp] theorem State.setChute_nv (n : Nat) (c : Chute) : (s.setChute n c).nv = s.nv := rfl
@[simp] theorem State.setChute_mbx (n : Nat) (c : Chute) : (s.setChute n c).mbx = s.mbx := rfl
@[simp] theorem State.setChute_evt (n : Nat) (c : Chute) : (s.setChute n c).evt = s.evt := rfl
@[simp] theorem State.setChute_ep (n : Nat) (c : Chute) : (s.setChute n c).ep = s.ep := rfl
@[simp] theorem State.setChute_resets (n : Nat) (c : Chute) : (s.setChute n c).resets = s.resets := rfl
@[simp] theorem State.setChute_resetSeq (n : Nat) (c : Chute) : (s.setChute n c).resetSeq = s.resetSeq := rfl
@[simp] theorem State.setChute_lnk (n : Nat) (c : Chute) : (s.setChute n c).lnk = s.lnk := rfl
@[simp] theorem State.setChute_ing (n : Nat) (c : Chute) : (s.setChute n c).ing = s.ing := rfl
@[simp] theorem State.setChute_bkcJob (n : Nat) (c : Chute) : (s.setChute n c).bkcJob = s.bkcJob := rfl
@[simp] theorem State.setChute_items (n : Nat) (c : Chute) : (s.setChute n c).items = s.items := rfl
@[simp] theorem State.setChute_rings (n : Nat) (c : Chute) : (s.setChute n c).rings = s.rings := rfl
@[simp] theorem State.setChute_allocs (n : Nat) (c : Chute) : (s.setChute n c).allocs = s.allocs := rfl
@[simp] theorem State.setChute_cpl (n : Nat) (c : Chute) : (s.setChute n c).cpl = s.cpl := rfl
@[simp] theorem State.setChute_crs (n : Nat) (c : Chute) : (s.setChute n c).crs = s.crs := rfl
@[simp] theorem State.setChute_lnd (n : Nat) (c : Chute) : (s.setChute n c).lnd = s.lnd := rfl
@[simp] theorem State.setChute_vcd (n : Nat) (c : Chute) : (s.setChute n c).vcd = s.vcd := rfl
@[simp] theorem State.setChute_mon (n : Nat) (c : Chute) : (s.setChute n c).mon = s.mon := rfl
@[simp] theorem State.setChute_tim (n : Nat) (c : Chute) : (s.setChute n c).tim = s.tim := rfl
@[simp] theorem State.setChute_aud (n : Nat) (c : Chute) : (s.setChute n c).aud = s.aud := rfl
@[simp] theorem State.setChute_cbs (n : Nat) (c : Chute) : (s.setChute n c).cbs = s.cbs := rfl
@[simp] theorem State.setChute_dmc (n : Nat) (c : Chute) : (s.setChute n c).dmc = s.dmc := rfl
@[simp] theorem State.setChute_pwr (n : Nat) (c : Chute) : (s.setChute n c).pwr = s.pwr := rfl
@[simp] theorem State.setChute_nvHeld (n : Nat) (c : Chute) : (s.setChute n c).nvHeld = s.nvHeld := rfl
@[simp] theorem State.setChute_free (n : Nat) (c : Chute) : (s.setChute n c).free = s.free := rfl
@[simp] theorem State.setChute_out (n : Nat) (c : Chute) : (s.setChute n c).out = s.out := rfl
@[simp] theorem State.setChute_spdHo (n : Nat) (c : Chute) : (s.setChute n c).spdHo = s.spdHo := rfl
@[simp] theorem State.setChute_spdAcc (n : Nat) (c : Chute) : (s.setChute n c).spdAcc = s.spdAcc := rfl
@[simp] theorem State.setChute_rc (n : Nat) (c : Chute) : (s.setChute n c).rc = s.rc := rfl

/-! ### `setRing` -/

@[simp] theorem State.setRing_pending (r : Nat) (x : Ring) : (s.setRing r x).pending = s.pending := rfl
@[simp] theorem State.setRing_clk (r : Nat) (x : Ring) : (s.setRing r x).clk = s.clk := rfl
@[simp] theorem State.setRing_straps (r : Nat) (x : Ring) : (s.setRing r x).straps = s.straps := rfl
@[simp] theorem State.setRing_regs (r : Nat) (x : Ring) : (s.setRing r x).regs = s.regs := rfl
@[simp] theorem State.setRing_mem (r : Nat) (x : Ring) : (s.setRing r x).mem = s.mem := rfl
@[simp] theorem State.setRing_nv (r : Nat) (x : Ring) : (s.setRing r x).nv = s.nv := rfl
@[simp] theorem State.setRing_mbx (r : Nat) (x : Ring) : (s.setRing r x).mbx = s.mbx := rfl
@[simp] theorem State.setRing_evt (r : Nat) (x : Ring) : (s.setRing r x).evt = s.evt := rfl
@[simp] theorem State.setRing_ep (r : Nat) (x : Ring) : (s.setRing r x).ep = s.ep := rfl
@[simp] theorem State.setRing_resets (r : Nat) (x : Ring) : (s.setRing r x).resets = s.resets := rfl
@[simp] theorem State.setRing_resetSeq (r : Nat) (x : Ring) : (s.setRing r x).resetSeq = s.resetSeq := rfl
@[simp] theorem State.setRing_lnk (r : Nat) (x : Ring) : (s.setRing r x).lnk = s.lnk := rfl
@[simp] theorem State.setRing_ing (r : Nat) (x : Ring) : (s.setRing r x).ing = s.ing := rfl
@[simp] theorem State.setRing_bkcJob (r : Nat) (x : Ring) : (s.setRing r x).bkcJob = s.bkcJob := rfl
@[simp] theorem State.setRing_items (r : Nat) (x : Ring) : (s.setRing r x).items = s.items := rfl
@[simp] theorem State.setRing_allocs (r : Nat) (x : Ring) : (s.setRing r x).allocs = s.allocs := rfl
@[simp] theorem State.setRing_cpl (r : Nat) (x : Ring) : (s.setRing r x).cpl = s.cpl := rfl
@[simp] theorem State.setRing_crs (r : Nat) (x : Ring) : (s.setRing r x).crs = s.crs := rfl
@[simp] theorem State.setRing_lnd (r : Nat) (x : Ring) : (s.setRing r x).lnd = s.lnd := rfl
@[simp] theorem State.setRing_vcd (r : Nat) (x : Ring) : (s.setRing r x).vcd = s.vcd := rfl
@[simp] theorem State.setRing_mon (r : Nat) (x : Ring) : (s.setRing r x).mon = s.mon := rfl
@[simp] theorem State.setRing_tim (r : Nat) (x : Ring) : (s.setRing r x).tim = s.tim := rfl
@[simp] theorem State.setRing_aud (r : Nat) (x : Ring) : (s.setRing r x).aud = s.aud := rfl
@[simp] theorem State.setRing_cbs (r : Nat) (x : Ring) : (s.setRing r x).cbs = s.cbs := rfl
@[simp] theorem State.setRing_dmc (r : Nat) (x : Ring) : (s.setRing r x).dmc = s.dmc := rfl
@[simp] theorem State.setRing_chutes (r : Nat) (x : Ring) : (s.setRing r x).chutes = s.chutes := rfl
@[simp] theorem State.setRing_pwr (r : Nat) (x : Ring) : (s.setRing r x).pwr = s.pwr := rfl
@[simp] theorem State.setRing_nvHeld (r : Nat) (x : Ring) : (s.setRing r x).nvHeld = s.nvHeld := rfl
@[simp] theorem State.setRing_free (r : Nat) (x : Ring) : (s.setRing r x).free = s.free := rfl
@[simp] theorem State.setRing_out (r : Nat) (x : Ring) : (s.setRing r x).out = s.out := rfl
@[simp] theorem State.setRing_spdHo (r : Nat) (x : Ring) : (s.setRing r x).spdHo = s.spdHo := rfl
@[simp] theorem State.setRing_spdAcc (r : Nat) (x : Ring) : (s.setRing r x).spdAcc = s.spdAcc := rfl
@[simp] theorem State.setRing_rc (r : Nat) (x : Ring) : (s.setRing r x).rc = s.rc := rfl

/-! ### `putFrame` -/

@[simp] theorem State.putFrame_pending (f : Frame) : (s.putFrame f).pending = s.pending := rfl
@[simp] theorem State.putFrame_clk (f : Frame) : (s.putFrame f).clk = s.clk := rfl
@[simp] theorem State.putFrame_straps (f : Frame) : (s.putFrame f).straps = s.straps := rfl
@[simp] theorem State.putFrame_regs (f : Frame) : (s.putFrame f).regs = s.regs := rfl
@[simp] theorem State.putFrame_mem (f : Frame) : (s.putFrame f).mem = s.mem := rfl
@[simp] theorem State.putFrame_nv (f : Frame) : (s.putFrame f).nv = s.nv := rfl
@[simp] theorem State.putFrame_mbx (f : Frame) : (s.putFrame f).mbx = s.mbx := rfl
@[simp] theorem State.putFrame_evt (f : Frame) : (s.putFrame f).evt = s.evt := rfl
@[simp] theorem State.putFrame_ep (f : Frame) : (s.putFrame f).ep = s.ep := rfl
@[simp] theorem State.putFrame_resets (f : Frame) : (s.putFrame f).resets = s.resets := rfl
@[simp] theorem State.putFrame_resetSeq (f : Frame) : (s.putFrame f).resetSeq = s.resetSeq := rfl
@[simp] theorem State.putFrame_lnk (f : Frame) : (s.putFrame f).lnk = s.lnk := rfl
@[simp] theorem State.putFrame_bkcJob (f : Frame) : (s.putFrame f).bkcJob = s.bkcJob := rfl
@[simp] theorem State.putFrame_items (f : Frame) : (s.putFrame f).items = s.items := rfl
@[simp] theorem State.putFrame_rings (f : Frame) : (s.putFrame f).rings = s.rings := rfl
@[simp] theorem State.putFrame_allocs (f : Frame) : (s.putFrame f).allocs = s.allocs := rfl
@[simp] theorem State.putFrame_cpl (f : Frame) : (s.putFrame f).cpl = s.cpl := rfl
@[simp] theorem State.putFrame_crs (f : Frame) : (s.putFrame f).crs = s.crs := rfl
@[simp] theorem State.putFrame_lnd (f : Frame) : (s.putFrame f).lnd = s.lnd := rfl
@[simp] theorem State.putFrame_vcd (f : Frame) : (s.putFrame f).vcd = s.vcd := rfl
@[simp] theorem State.putFrame_mon (f : Frame) : (s.putFrame f).mon = s.mon := rfl
@[simp] theorem State.putFrame_tim (f : Frame) : (s.putFrame f).tim = s.tim := rfl
@[simp] theorem State.putFrame_aud (f : Frame) : (s.putFrame f).aud = s.aud := rfl
@[simp] theorem State.putFrame_cbs (f : Frame) : (s.putFrame f).cbs = s.cbs := rfl
@[simp] theorem State.putFrame_dmc (f : Frame) : (s.putFrame f).dmc = s.dmc := rfl
@[simp] theorem State.putFrame_chutes (f : Frame) : (s.putFrame f).chutes = s.chutes := rfl
@[simp] theorem State.putFrame_pwr (f : Frame) : (s.putFrame f).pwr = s.pwr := rfl
@[simp] theorem State.putFrame_nvHeld (f : Frame) : (s.putFrame f).nvHeld = s.nvHeld := rfl
@[simp] theorem State.putFrame_free (f : Frame) : (s.putFrame f).free = s.free := rfl
@[simp] theorem State.putFrame_out (f : Frame) : (s.putFrame f).out = s.out := rfl
@[simp] theorem State.putFrame_spdHo (f : Frame) : (s.putFrame f).spdHo = s.spdHo := rfl
@[simp] theorem State.putFrame_spdAcc (f : Frame) : (s.putFrame f).spdAcc = s.spdAcc := rfl
@[simp] theorem State.putFrame_rc (f : Frame) : (s.putFrame f).rc = s.rc := rfl

/-! ### `setMon` -/

@[simp] theorem State.setMon_pending (o : Nat) (x : MonOut) : (s.setMon o x).pending = s.pending := rfl
@[simp] theorem State.setMon_clk (o : Nat) (x : MonOut) : (s.setMon o x).clk = s.clk := rfl
@[simp] theorem State.setMon_straps (o : Nat) (x : MonOut) : (s.setMon o x).straps = s.straps := rfl
@[simp] theorem State.setMon_regs (o : Nat) (x : MonOut) : (s.setMon o x).regs = s.regs := rfl
@[simp] theorem State.setMon_mem (o : Nat) (x : MonOut) : (s.setMon o x).mem = s.mem := rfl
@[simp] theorem State.setMon_nv (o : Nat) (x : MonOut) : (s.setMon o x).nv = s.nv := rfl
@[simp] theorem State.setMon_mbx (o : Nat) (x : MonOut) : (s.setMon o x).mbx = s.mbx := rfl
@[simp] theorem State.setMon_evt (o : Nat) (x : MonOut) : (s.setMon o x).evt = s.evt := rfl
@[simp] theorem State.setMon_ep (o : Nat) (x : MonOut) : (s.setMon o x).ep = s.ep := rfl
@[simp] theorem State.setMon_resets (o : Nat) (x : MonOut) : (s.setMon o x).resets = s.resets := rfl
@[simp] theorem State.setMon_resetSeq (o : Nat) (x : MonOut) : (s.setMon o x).resetSeq = s.resetSeq := rfl
@[simp] theorem State.setMon_lnk (o : Nat) (x : MonOut) : (s.setMon o x).lnk = s.lnk := rfl
@[simp] theorem State.setMon_ing (o : Nat) (x : MonOut) : (s.setMon o x).ing = s.ing := rfl
@[simp] theorem State.setMon_bkcJob (o : Nat) (x : MonOut) : (s.setMon o x).bkcJob = s.bkcJob := rfl
@[simp] theorem State.setMon_items (o : Nat) (x : MonOut) : (s.setMon o x).items = s.items := rfl
@[simp] theorem State.setMon_rings (o : Nat) (x : MonOut) : (s.setMon o x).rings = s.rings := rfl
@[simp] theorem State.setMon_allocs (o : Nat) (x : MonOut) : (s.setMon o x).allocs = s.allocs := rfl
@[simp] theorem State.setMon_cpl (o : Nat) (x : MonOut) : (s.setMon o x).cpl = s.cpl := rfl
@[simp] theorem State.setMon_crs (o : Nat) (x : MonOut) : (s.setMon o x).crs = s.crs := rfl
@[simp] theorem State.setMon_lnd (o : Nat) (x : MonOut) : (s.setMon o x).lnd = s.lnd := rfl
@[simp] theorem State.setMon_vcd (o : Nat) (x : MonOut) : (s.setMon o x).vcd = s.vcd := rfl
@[simp] theorem State.setMon_tim (o : Nat) (x : MonOut) : (s.setMon o x).tim = s.tim := rfl
@[simp] theorem State.setMon_aud (o : Nat) (x : MonOut) : (s.setMon o x).aud = s.aud := rfl
@[simp] theorem State.setMon_cbs (o : Nat) (x : MonOut) : (s.setMon o x).cbs = s.cbs := rfl
@[simp] theorem State.setMon_dmc (o : Nat) (x : MonOut) : (s.setMon o x).dmc = s.dmc := rfl
@[simp] theorem State.setMon_chutes (o : Nat) (x : MonOut) : (s.setMon o x).chutes = s.chutes := rfl
@[simp] theorem State.setMon_pwr (o : Nat) (x : MonOut) : (s.setMon o x).pwr = s.pwr := rfl
@[simp] theorem State.setMon_nvHeld (o : Nat) (x : MonOut) : (s.setMon o x).nvHeld = s.nvHeld := rfl
@[simp] theorem State.setMon_free (o : Nat) (x : MonOut) : (s.setMon o x).free = s.free := rfl
@[simp] theorem State.setMon_out (o : Nat) (x : MonOut) : (s.setMon o x).out = s.out := rfl
@[simp] theorem State.setMon_spdHo (o : Nat) (x : MonOut) : (s.setMon o x).spdHo = s.spdHo := rfl
@[simp] theorem State.setMon_spdAcc (o : Nat) (x : MonOut) : (s.setMon o x).spdAcc = s.spdAcc := rfl
@[simp] theorem State.setMon_rc (o : Nat) (x : MonOut) : (s.setMon o x).rc = s.rc := rfl

/-! ### `setAud` -/

@[simp] theorem State.setAud_pending (p : Nat) (x : AudPort) : (s.setAud p x).pending = s.pending := rfl
@[simp] theorem State.setAud_clk (p : Nat) (x : AudPort) : (s.setAud p x).clk = s.clk := rfl
@[simp] theorem State.setAud_straps (p : Nat) (x : AudPort) : (s.setAud p x).straps = s.straps := rfl
@[simp] theorem State.setAud_regs (p : Nat) (x : AudPort) : (s.setAud p x).regs = s.regs := rfl
@[simp] theorem State.setAud_mem (p : Nat) (x : AudPort) : (s.setAud p x).mem = s.mem := rfl
@[simp] theorem State.setAud_nv (p : Nat) (x : AudPort) : (s.setAud p x).nv = s.nv := rfl
@[simp] theorem State.setAud_mbx (p : Nat) (x : AudPort) : (s.setAud p x).mbx = s.mbx := rfl
@[simp] theorem State.setAud_evt (p : Nat) (x : AudPort) : (s.setAud p x).evt = s.evt := rfl
@[simp] theorem State.setAud_ep (p : Nat) (x : AudPort) : (s.setAud p x).ep = s.ep := rfl
@[simp] theorem State.setAud_resets (p : Nat) (x : AudPort) : (s.setAud p x).resets = s.resets := rfl
@[simp] theorem State.setAud_resetSeq (p : Nat) (x : AudPort) : (s.setAud p x).resetSeq = s.resetSeq := rfl
@[simp] theorem State.setAud_lnk (p : Nat) (x : AudPort) : (s.setAud p x).lnk = s.lnk := rfl
@[simp] theorem State.setAud_ing (p : Nat) (x : AudPort) : (s.setAud p x).ing = s.ing := rfl
@[simp] theorem State.setAud_bkcJob (p : Nat) (x : AudPort) : (s.setAud p x).bkcJob = s.bkcJob := rfl
@[simp] theorem State.setAud_items (p : Nat) (x : AudPort) : (s.setAud p x).items = s.items := rfl
@[simp] theorem State.setAud_rings (p : Nat) (x : AudPort) : (s.setAud p x).rings = s.rings := rfl
@[simp] theorem State.setAud_allocs (p : Nat) (x : AudPort) : (s.setAud p x).allocs = s.allocs := rfl
@[simp] theorem State.setAud_cpl (p : Nat) (x : AudPort) : (s.setAud p x).cpl = s.cpl := rfl
@[simp] theorem State.setAud_crs (p : Nat) (x : AudPort) : (s.setAud p x).crs = s.crs := rfl
@[simp] theorem State.setAud_lnd (p : Nat) (x : AudPort) : (s.setAud p x).lnd = s.lnd := rfl
@[simp] theorem State.setAud_vcd (p : Nat) (x : AudPort) : (s.setAud p x).vcd = s.vcd := rfl
@[simp] theorem State.setAud_mon (p : Nat) (x : AudPort) : (s.setAud p x).mon = s.mon := rfl
@[simp] theorem State.setAud_tim (p : Nat) (x : AudPort) : (s.setAud p x).tim = s.tim := rfl
@[simp] theorem State.setAud_cbs (p : Nat) (x : AudPort) : (s.setAud p x).cbs = s.cbs := rfl
@[simp] theorem State.setAud_dmc (p : Nat) (x : AudPort) : (s.setAud p x).dmc = s.dmc := rfl
@[simp] theorem State.setAud_chutes (p : Nat) (x : AudPort) : (s.setAud p x).chutes = s.chutes := rfl
@[simp] theorem State.setAud_pwr (p : Nat) (x : AudPort) : (s.setAud p x).pwr = s.pwr := rfl
@[simp] theorem State.setAud_nvHeld (p : Nat) (x : AudPort) : (s.setAud p x).nvHeld = s.nvHeld := rfl
@[simp] theorem State.setAud_free (p : Nat) (x : AudPort) : (s.setAud p x).free = s.free := rfl
@[simp] theorem State.setAud_out (p : Nat) (x : AudPort) : (s.setAud p x).out = s.out := rfl
@[simp] theorem State.setAud_spdHo (p : Nat) (x : AudPort) : (s.setAud p x).spdHo = s.spdHo := rfl
@[simp] theorem State.setAud_spdAcc (p : Nat) (x : AudPort) : (s.setAud p x).spdAcc = s.spdAcc := rfl
@[simp] theorem State.setAud_rc (p : Nat) (x : AudPort) : (s.setAud p x).rc = s.rc := rfl

/-! ### `setVc` -/

@[simp] theorem State.setVc_pending (q : Nat) (x : VcSession) : (s.setVc q x).pending = s.pending := rfl
@[simp] theorem State.setVc_clk (q : Nat) (x : VcSession) : (s.setVc q x).clk = s.clk := rfl
@[simp] theorem State.setVc_straps (q : Nat) (x : VcSession) : (s.setVc q x).straps = s.straps := rfl
@[simp] theorem State.setVc_mem (q : Nat) (x : VcSession) : (s.setVc q x).mem = s.mem := rfl
@[simp] theorem State.setVc_nv (q : Nat) (x : VcSession) : (s.setVc q x).nv = s.nv := rfl
@[simp] theorem State.setVc_mbx (q : Nat) (x : VcSession) : (s.setVc q x).mbx = s.mbx := rfl
@[simp] theorem State.setVc_evt (q : Nat) (x : VcSession) : (s.setVc q x).evt = s.evt := rfl
@[simp] theorem State.setVc_ep (q : Nat) (x : VcSession) : (s.setVc q x).ep = s.ep := rfl
@[simp] theorem State.setVc_resets (q : Nat) (x : VcSession) : (s.setVc q x).resets = s.resets := rfl
@[simp] theorem State.setVc_resetSeq (q : Nat) (x : VcSession) : (s.setVc q x).resetSeq = s.resetSeq := rfl
@[simp] theorem State.setVc_lnk (q : Nat) (x : VcSession) : (s.setVc q x).lnk = s.lnk := rfl
@[simp] theorem State.setVc_ing (q : Nat) (x : VcSession) : (s.setVc q x).ing = s.ing := rfl
@[simp] theorem State.setVc_bkcJob (q : Nat) (x : VcSession) : (s.setVc q x).bkcJob = s.bkcJob := rfl
@[simp] theorem State.setVc_items (q : Nat) (x : VcSession) : (s.setVc q x).items = s.items := rfl
@[simp] theorem State.setVc_rings (q : Nat) (x : VcSession) : (s.setVc q x).rings = s.rings := rfl
@[simp] theorem State.setVc_allocs (q : Nat) (x : VcSession) : (s.setVc q x).allocs = s.allocs := rfl
@[simp] theorem State.setVc_cpl (q : Nat) (x : VcSession) : (s.setVc q x).cpl = s.cpl := rfl
@[simp] theorem State.setVc_crs (q : Nat) (x : VcSession) : (s.setVc q x).crs = s.crs := rfl
@[simp] theorem State.setVc_lnd (q : Nat) (x : VcSession) : (s.setVc q x).lnd = s.lnd := rfl
@[simp] theorem State.setVc_mon (q : Nat) (x : VcSession) : (s.setVc q x).mon = s.mon := rfl
@[simp] theorem State.setVc_tim (q : Nat) (x : VcSession) : (s.setVc q x).tim = s.tim := rfl
@[simp] theorem State.setVc_aud (q : Nat) (x : VcSession) : (s.setVc q x).aud = s.aud := rfl
@[simp] theorem State.setVc_cbs (q : Nat) (x : VcSession) : (s.setVc q x).cbs = s.cbs := rfl
@[simp] theorem State.setVc_dmc (q : Nat) (x : VcSession) : (s.setVc q x).dmc = s.dmc := rfl
@[simp] theorem State.setVc_chutes (q : Nat) (x : VcSession) : (s.setVc q x).chutes = s.chutes := rfl
@[simp] theorem State.setVc_pwr (q : Nat) (x : VcSession) : (s.setVc q x).pwr = s.pwr := rfl
@[simp] theorem State.setVc_nvHeld (q : Nat) (x : VcSession) : (s.setVc q x).nvHeld = s.nvHeld := rfl
@[simp] theorem State.setVc_free (q : Nat) (x : VcSession) : (s.setVc q x).free = s.free := rfl
@[simp] theorem State.setVc_out (q : Nat) (x : VcSession) : (s.setVc q x).out = s.out := rfl
@[simp] theorem State.setVc_spdHo (q : Nat) (x : VcSession) : (s.setVc q x).spdHo = s.spdHo := rfl
@[simp] theorem State.setVc_spdAcc (q : Nat) (x : VcSession) : (s.setVc q x).spdAcc = s.spdAcc := rfl
@[simp] theorem State.setVc_rc (q : Nat) (x : VcSession) : (s.setVc q x).rc = s.rc := rfl

/-! ### `setSq` -/

@[simp] theorem State.setSq_pending (q : Nat) (x : Option SqQueue) : (s.setSq q x).pending = s.pending := rfl
@[simp] theorem State.setSq_clk (q : Nat) (x : Option SqQueue) : (s.setSq q x).clk = s.clk := rfl
@[simp] theorem State.setSq_straps (q : Nat) (x : Option SqQueue) : (s.setSq q x).straps = s.straps := rfl
@[simp] theorem State.setSq_regs (q : Nat) (x : Option SqQueue) : (s.setSq q x).regs = s.regs := rfl
@[simp] theorem State.setSq_mem (q : Nat) (x : Option SqQueue) : (s.setSq q x).mem = s.mem := rfl
@[simp] theorem State.setSq_nv (q : Nat) (x : Option SqQueue) : (s.setSq q x).nv = s.nv := rfl
@[simp] theorem State.setSq_mbx (q : Nat) (x : Option SqQueue) : (s.setSq q x).mbx = s.mbx := rfl
@[simp] theorem State.setSq_evt (q : Nat) (x : Option SqQueue) : (s.setSq q x).evt = s.evt := rfl
@[simp] theorem State.setSq_ep (q : Nat) (x : Option SqQueue) : (s.setSq q x).ep = s.ep := rfl
@[simp] theorem State.setSq_resets (q : Nat) (x : Option SqQueue) : (s.setSq q x).resets = s.resets := rfl
@[simp] theorem State.setSq_resetSeq (q : Nat) (x : Option SqQueue) : (s.setSq q x).resetSeq = s.resetSeq := rfl
@[simp] theorem State.setSq_lnk (q : Nat) (x : Option SqQueue) : (s.setSq q x).lnk = s.lnk := rfl
@[simp] theorem State.setSq_ing (q : Nat) (x : Option SqQueue) : (s.setSq q x).ing = s.ing := rfl
@[simp] theorem State.setSq_bkcJob (q : Nat) (x : Option SqQueue) : (s.setSq q x).bkcJob = s.bkcJob := rfl
@[simp] theorem State.setSq_items (q : Nat) (x : Option SqQueue) : (s.setSq q x).items = s.items := rfl
@[simp] theorem State.setSq_rings (q : Nat) (x : Option SqQueue) : (s.setSq q x).rings = s.rings := rfl
@[simp] theorem State.setSq_allocs (q : Nat) (x : Option SqQueue) : (s.setSq q x).allocs = s.allocs := rfl
@[simp] theorem State.setSq_cpl (q : Nat) (x : Option SqQueue) : (s.setSq q x).cpl = s.cpl := rfl
@[simp] theorem State.setSq_crs (q : Nat) (x : Option SqQueue) : (s.setSq q x).crs = s.crs := rfl
@[simp] theorem State.setSq_vcd (q : Nat) (x : Option SqQueue) : (s.setSq q x).vcd = s.vcd := rfl
@[simp] theorem State.setSq_mon (q : Nat) (x : Option SqQueue) : (s.setSq q x).mon = s.mon := rfl
@[simp] theorem State.setSq_tim (q : Nat) (x : Option SqQueue) : (s.setSq q x).tim = s.tim := rfl
@[simp] theorem State.setSq_aud (q : Nat) (x : Option SqQueue) : (s.setSq q x).aud = s.aud := rfl
@[simp] theorem State.setSq_cbs (q : Nat) (x : Option SqQueue) : (s.setSq q x).cbs = s.cbs := rfl
@[simp] theorem State.setSq_dmc (q : Nat) (x : Option SqQueue) : (s.setSq q x).dmc = s.dmc := rfl
@[simp] theorem State.setSq_chutes (q : Nat) (x : Option SqQueue) : (s.setSq q x).chutes = s.chutes := rfl
@[simp] theorem State.setSq_pwr (q : Nat) (x : Option SqQueue) : (s.setSq q x).pwr = s.pwr := rfl
@[simp] theorem State.setSq_nvHeld (q : Nat) (x : Option SqQueue) : (s.setSq q x).nvHeld = s.nvHeld := rfl
@[simp] theorem State.setSq_free (q : Nat) (x : Option SqQueue) : (s.setSq q x).free = s.free := rfl
@[simp] theorem State.setSq_out (q : Nat) (x : Option SqQueue) : (s.setSq q x).out = s.out := rfl
@[simp] theorem State.setSq_spdHo (q : Nat) (x : Option SqQueue) : (s.setSq q x).spdHo = s.spdHo := rfl
@[simp] theorem State.setSq_spdAcc (q : Nat) (x : Option SqQueue) : (s.setSq q x).spdAcc = s.spdAcc := rfl
@[simp] theorem State.setSq_rc (q : Nat) (x : Option SqQueue) : (s.setSq q x).rc = s.rc := rfl

/-! ### `setSlotT` -/

@[simp] theorem State.setSlotT_pending (k : Nat) (x : TakeSlot) : (s.setSlotT k x).pending = s.pending := rfl
@[simp] theorem State.setSlotT_clk (k : Nat) (x : TakeSlot) : (s.setSlotT k x).clk = s.clk := rfl
@[simp] theorem State.setSlotT_straps (k : Nat) (x : TakeSlot) : (s.setSlotT k x).straps = s.straps := rfl
@[simp] theorem State.setSlotT_regs (k : Nat) (x : TakeSlot) : (s.setSlotT k x).regs = s.regs := rfl
@[simp] theorem State.setSlotT_mem (k : Nat) (x : TakeSlot) : (s.setSlotT k x).mem = s.mem := rfl
@[simp] theorem State.setSlotT_nv (k : Nat) (x : TakeSlot) : (s.setSlotT k x).nv = s.nv := rfl
@[simp] theorem State.setSlotT_mbx (k : Nat) (x : TakeSlot) : (s.setSlotT k x).mbx = s.mbx := rfl
@[simp] theorem State.setSlotT_evt (k : Nat) (x : TakeSlot) : (s.setSlotT k x).evt = s.evt := rfl
@[simp] theorem State.setSlotT_ep (k : Nat) (x : TakeSlot) : (s.setSlotT k x).ep = s.ep := rfl
@[simp] theorem State.setSlotT_resets (k : Nat) (x : TakeSlot) : (s.setSlotT k x).resets = s.resets := rfl
@[simp] theorem State.setSlotT_resetSeq (k : Nat) (x : TakeSlot) : (s.setSlotT k x).resetSeq = s.resetSeq := rfl
@[simp] theorem State.setSlotT_lnk (k : Nat) (x : TakeSlot) : (s.setSlotT k x).lnk = s.lnk := rfl
@[simp] theorem State.setSlotT_ing (k : Nat) (x : TakeSlot) : (s.setSlotT k x).ing = s.ing := rfl
@[simp] theorem State.setSlotT_bkcJob (k : Nat) (x : TakeSlot) : (s.setSlotT k x).bkcJob = s.bkcJob := rfl
@[simp] theorem State.setSlotT_items (k : Nat) (x : TakeSlot) : (s.setSlotT k x).items = s.items := rfl
@[simp] theorem State.setSlotT_rings (k : Nat) (x : TakeSlot) : (s.setSlotT k x).rings = s.rings := rfl
@[simp] theorem State.setSlotT_allocs (k : Nat) (x : TakeSlot) : (s.setSlotT k x).allocs = s.allocs := rfl
@[simp] theorem State.setSlotT_cpl (k : Nat) (x : TakeSlot) : (s.setSlotT k x).cpl = s.cpl := rfl
@[simp] theorem State.setSlotT_crs (k : Nat) (x : TakeSlot) : (s.setSlotT k x).crs = s.crs := rfl
@[simp] theorem State.setSlotT_vcd (k : Nat) (x : TakeSlot) : (s.setSlotT k x).vcd = s.vcd := rfl
@[simp] theorem State.setSlotT_mon (k : Nat) (x : TakeSlot) : (s.setSlotT k x).mon = s.mon := rfl
@[simp] theorem State.setSlotT_tim (k : Nat) (x : TakeSlot) : (s.setSlotT k x).tim = s.tim := rfl
@[simp] theorem State.setSlotT_aud (k : Nat) (x : TakeSlot) : (s.setSlotT k x).aud = s.aud := rfl
@[simp] theorem State.setSlotT_cbs (k : Nat) (x : TakeSlot) : (s.setSlotT k x).cbs = s.cbs := rfl
@[simp] theorem State.setSlotT_dmc (k : Nat) (x : TakeSlot) : (s.setSlotT k x).dmc = s.dmc := rfl
@[simp] theorem State.setSlotT_chutes (k : Nat) (x : TakeSlot) : (s.setSlotT k x).chutes = s.chutes := rfl
@[simp] theorem State.setSlotT_pwr (k : Nat) (x : TakeSlot) : (s.setSlotT k x).pwr = s.pwr := rfl
@[simp] theorem State.setSlotT_nvHeld (k : Nat) (x : TakeSlot) : (s.setSlotT k x).nvHeld = s.nvHeld := rfl
@[simp] theorem State.setSlotT_free (k : Nat) (x : TakeSlot) : (s.setSlotT k x).free = s.free := rfl
@[simp] theorem State.setSlotT_out (k : Nat) (x : TakeSlot) : (s.setSlotT k x).out = s.out := rfl
@[simp] theorem State.setSlotT_spdHo (k : Nat) (x : TakeSlot) : (s.setSlotT k x).spdHo = s.spdHo := rfl
@[simp] theorem State.setSlotT_spdAcc (k : Nat) (x : TakeSlot) : (s.setSlotT k x).spdAcc = s.spdAcc := rfl
@[simp] theorem State.setSlotT_rc (k : Nat) (x : TakeSlot) : (s.setSlotT k x).rc = s.rc := rfl

end Sys2Proof.Machine
end

