-- ==== Sys2Proof/Machine/Package.lean ====
section
/-! DEFINITION. The ball map of chapter 20 (R511 to R514, Tables 20-1 to 20-3) and what the DRAM
balls carry while DRAM_HOLD is asserted (R519). No command reads it: which ball a signal leaves
by is no state of the part. -/

set_option Elab.async false

namespace Sys2Proof.Machine.Package

/-- A signal of one DRAM channel (Table 20-2). -/
inductive DramSignal where
  /-- Data bit 0 to 15. -/
  | dq (n : Nat)
  /-- Data mask and inversion of byte 0 or 1. -/
  | dmi (n : Nat)
  /-- Write clock of byte 0 or 1; `true` is its complement. -/
  | wck (n : Nat) (c : Bool)
  /-- Read strobe of byte 0 or 1; `true` is its complement. -/
  | rdqs (n : Nat) (c : Bool)
  /-- Command clock; `true` is its complement. -/
  | ck (c : Bool)
  /-- Chip select. -/
  | cs
  /-- Command and address bit 0 to 6. -/
  | ca (n : Nat)
  /-- Device reset, active low. -/
  | resetN
  deriving DecidableEq, Repr

/-- The supplies that the chapter gives balls (Table 20-4). -/
inductive Rail where
  | vddLna | vddhLna | vddPcie | vddhPcie | vddqDram | vddDphy | vddio18 | vddio33 | vbak
  deriving DecidableEq, Repr

/-- The signals of one audio port, in the order of Table 20-3. -/
inductive AudSignal where
  | bclk | fs | sdi | sdo | mclk
  deriving DecidableEq, Repr

/-- Signals of row CA from column 41 on (Table 20-3), supplies apart. -/
inductive Control where
  | porstN | pwrgdMain | perstN | wakeN | thermN | dramHold | bakOk | refSel | refclkMainP
  | refclkMainN | xtal25In | xtalAonIn | xtalAonOut | xtal25Out
  deriving DecidableEq, Repr

/-- What a ball carries. -/
inductive Ball where
  /-- Ground, and every ball that the chapter does not assign (R511). -/
  | vss
  /-- A ball of a supply. -/
  | supply (r : Rail)
  /-- VDD_CORE_SENSE (`true`) or VSS_SENSE (R514). -/
  | sense (core : Bool)
  /-- A ball of the core power group to which the chapter gives a supply as a group only: its
  560 VDD_CORE and 64 VDD_SRAM balls are counted in Table 20-4 and placed nowhere. -/
  | corePower
  /-- LN_TXP or (`true`) LN_TXN of a lane. -/
  | lnTx (lane : Nat) (neg : Bool)
  /-- LN_RXP or (`true`) LN_RXN of a lane. -/
  | lnRx (lane : Nat) (neg : Bool)
  /-- PCIE_TXP or (`true`) PCIE_TXN of a PCIe lane. -/
  | pcieTx (lane : Nat) (neg : Bool)
  /-- PCIE_RXP or (`true`) PCIE_RXN of a PCIe lane. -/
  | pcieRx (lane : Nat) (neg : Bool)
  /-- REFCLK_PCIE_P or (`true`) REFCLK_PCIE_N. -/
  | refclkPcie (neg : Bool)
  /-- DDRc_ and the signal. -/
  | dram (channel : Nat) (sig : DramSignal)
  /-- DSI clock pair of a port. -/
  | dsiClk (port : Nat) (neg : Bool)
  /-- DSI data pair of a port. -/
  | dsiData (port lane : Nat) (neg : Bool)
  | control (c : Control)
  | trig (n : Nat)
  | strb (n : Nat)
  | genlock
  | ltcIn
  | ltcOut
  | gpio (n : Nat)
  | i2cScl (n : Nat)
  | i2cSda (n : Nat)
  | aud (port : Nat) (s : AudSignal)
  | aesIn (n : Nat)
  | aesOut (n : Nat)
  deriving DecidableEq, Repr

/-- The nineteen letters of ball rows, in order (chapter 0, "Signals and balls"). -/
def letters : List Char :=
  ['A', 'B', 'C', 'D', 'E', 'F', 'G', 'H', 'J', 'K', 'L', 'M', 'N', 'P', 'T', 'U', 'V', 'W', 'Y']

/-- The letters of row i, from 1 to 64 (R511). -/
def rowName (i : Nat) : List Char :=
  let l := (letters[(i - 1) % 19]?).toList
  if i ≤ 19 then l
  else if i ≤ 38 then 'A' :: l
  else if i ≤ 57 then 'B' :: l
  else 'C' :: l

/-- A ball of a lane column (R512): rows A to H are 1 to 8, lane n is in column n + 1. -/
def laneBall (row col : Nat) : Ball :=
  if row = 2 then .lnTx (col - 1) false
  else if row = 3 then .lnTx (col - 1) true
  else if row = 6 then .lnRx (col - 1) true
  else if row = 7 then .lnRx (col - 1) false
  else .vss

/-- The ball of a DRAM band in row 0 to 2 of the band and column 1 to 14 from the package's edge
(Table 20-2); `none` is VSS. -/
def bandSignal (r m : Nat) : Option DramSignal :=
  if r < 2 then
    if m = 1 then none
    else if m ≤ 9 then some (.dq (8 * r + (m - 2)))
    else if m = 10 then some (.dmi r)
    else if m = 11 then some (.wck r false)
    else if m = 12 then some (.wck r true)
    else if m = 13 then some (.rdqs r false)
    else some (.rdqs r true)
  else
    if m = 1 then none
    else if m = 2 then some (.ck false)
    else if m = 3 then some (.ck true)
    else if m = 4 then some .cs
    else if m ≤ 11 then some (.ca (m - 5))
    else if m = 12 then some .resetN
    else none

/-- A ball of a DRAM cluster (R513), rows 9 to 57: the upper eight channels of a side take rows 9
to 32, row AP (33) is VSS, the lower eight take rows 34 to 57; `m` counts columns from the
package's edge and `base` is the side's first channel. -/
def dramBall (base row m : Nat) : Ball :=
  if row = 33 then .vss
  else
    let k := if row < 33 then row - 9 else row - 34
    let c := base + (if row < 33 then 0 else 8) + k / 3
    match bandSignal (k % 3) m with
    | some g => .dram c g
    | none => .vss

/-- A ball of the core power group, rows J to BY and columns 15 to 50 (R513, R514). -/
def coreBall (row col : Nat) : Ball :=
  if col ≤ 16 || 49 ≤ col then (if row % 2 = 1 then .supply .vddqDram else .vss)
  else if row ≤ 10 && col ≤ 48 then .supply .vddLna
  else if row = 11 && col ≤ 48 then .supply .vddhLna
  else if row = 12 && col = 17 then .sense true
  else if row = 12 && col = 18 then .sense false
  else .corePower

/-- A ball of the PCIe group, rows CA to CG (58 to 64) and columns 1 to 32 (R512). -/
def pcieBall (row col : Nat) : Ball :=
  let lane := (col - 1) / 2
  let neg := (col - 1) % 2 = 1
  if row = 59 then .pcieTx lane neg
  else if row = 61 && col ≤ 16 then .supply .vddPcie
  else if row = 61 && col ≤ 24 then .supply .vddhPcie
  else if row = 62 then .pcieRx lane neg
  else if row = 64 && col = 1 then .refclkPcie false
  else if row = 64 && col = 2 then .refclkPcie true
  else .vss

/-- A ball of the DSI group, columns 33 to 40 (Table 20-3). -/
def dsiBall (row col : Nat) : Ball :=
  let neg := (col - 33) % 2 = 1
  let pair := (col - 33) / 2
  let port := if row < 62 then 0 else 1
  if (row = 59 || row = 62) && col ≤ 38 then
    (if pair = 0 then .dsiClk port neg else .dsiData port (pair - 1) neg)
  else if (row = 60 || row = 63) && col ≤ 36 then .dsiData port (pair + 2) neg
  else if row = 64 then .supply .vddDphy
  else .vss

/-- Row CA from column 41 to 57 (Table 20-3). -/
def controlRow : List Ball :=
  [.control .porstN, .control .pwrgdMain, .control .perstN, .control .wakeN, .control .thermN,
   .control .dramHold, .control .bakOk, .control .refSel, .supply .vbak, .supply .vbak, .vss,
   .control .refclkMainP, .control .refclkMainN, .control .xtal25In, .control .xtalAonIn,
   .control .xtalAonOut, .control .xtal25Out]

/-- The signals of an audio port in column order (Table 20-3). -/
def audSignals : List AudSignal := [.bclk, .fs, .sdi, .sdo, .mclk]

/-- Row CF from column 41 to 64 (Table 20-3). -/
def audioRow : List Ball :=
  [0, 1, 2, 3].flatMap (fun p => audSignals.map (Ball.aud p)) ++
    [.aesIn 0, .aesIn 1, .aesOut 0, .aesOut 1]

/-- A ball of the low-speed group, columns 41 to 64 (Table 20-3). -/
def lowSpeedBall (row col : Nat) : Ball :=
  let m := col - 41
  if row = 58 then controlRow[m]?.getD .vss
  else if row = 59 then
    (if m ≤ 3 then .trig m else if m ≤ 7 then .strb (m - 4) else if m = 8 then .genlock
     else if m = 9 then .ltcIn else if m = 10 then .ltcOut else .vss)
  else if row = 60 then .supply .vddio18
  else if row = 61 then .gpio m
  else if row = 62 then
    (if m ≤ 7 then .gpio (24 + m)
     else if m ≤ 17 then (if m % 2 = 0 then .i2cScl ((m - 8) / 2) else .i2cSda ((m - 8) / 2))
     else .vss)
  else if row = 63 then audioRow[m]?.getD .vss
  else if m ≤ 7 then .supply .vddio33
  else .vss

/-- The ball at a row and a column, each from 1 to 64 (R511, Table 20-1). -/
def ballAt (row col : Nat) : Ball :=
  if row ≤ 8 then laneBall row col
  else if row ≤ 57 then
    (if col ≤ 14 then dramBall 0 row col
     else if 51 ≤ col then dramBall 16 row (65 - col)
     else coreBall row col)
  else if col ≤ 32 then pcieBall row col
  else if col ≤ 40 then dsiBall row col
  else lowSpeedBall row col

/-- What drives a DRAM ball. -/
inductive DramDrive where
  /-- The channel's PHY. -/
  | phy
  /-- A retention driver fed from AON, at the level of self-refresh. -/
  | retention
  /-- Nothing: high-impedance. -/
  | highZ
  deriving DecidableEq, Repr

/-- What drives a DRAM ball: while DRAM_HOLD is asserted, RESET_N and CS are held by retention
drivers and every other DRAM ball is high-impedance (R519). -/
def dramDrive (s : State) (g : DramSignal) : DramDrive :=
  if s.pwr.dramHold then
    match g with
    | .resetN => .retention
    | .cs => .retention
    | _ => .highZ
  else .phy

end Sys2Proof.Machine.Package
end

