-- ==== Sys2Proof/Tests/Slice0.lean ====
section
/-!
SUPPORT. The author's own tests. First the well-formedness checks refuse ill-formed terms; then single commands on small
states, the expected values from the rules named beside them; then, for each statement of Obligations.lean with hypotheses, one
theorem `witness_<statement>` whose parts are states and operands that meet the hypotheses of its clauses, in their order.
-/

namespace Sys2Proof.Tests

open Sys2Proof.Machine

/-- `s` with a request POSTED in slot 0 of function `p`: opcode, flags (WAIT 1, DMA 2 above bit 25), context, payload words. -/
def asksBy (p code flags ctx : Nat) (pay : List Nat) (s : State) : State :=
  let s := s.wrs ([(R.MBX p 0x1000, w32 (code + flags * 2 ^ 25 + 2 ^ 28)), (R.MBX p 0x1004, w32 (ctx + pay.length * 2 ^ 16))] ++
    (List.range pay.length).map (fun i => (R.MBX p (0x1010 + 4 * i), w32 (pay.getD i 0))))
  let s := s.setSlot p 0 Slot.POSTED
  { s with mbx := { s.mbx with posted := [{ part := p, slot := 0, at_ := 0 }] } }

/-- The same of function 0. -/
def asks (code flags ctx : Nat) (pay : List Nat) (s : State) : State := asksBy 0 code flags ctx pay s

/-- That request taken: its input data, and its output can be written. -/
def call (inp : List Byte) : Call := { part := 0, slot := 0, inp := some inp, outOk := true }

/-- A DMA block: lengths of the input and of the output buffer. -/
def dma (inLen outLen : Nat) : List Nat := [0x1000, 0, inLen, outLen, 0x2000, 0, 0, 0]

/-- Function 0 may master the bus. -/
def bm (s : State) : State := { s with mbx := { s.mbx with bme := [(0, true)] } }

/-- Registers of `s` set. -/
def put (l : List (Nat × Nat)) (s : State) : State := s.wrs (l.map (fun e => (e.1, w32 e.2)))

/-- The request is served, and `k` holds of the state and the request that its meaning starts from. -/
def served (code : Nat) (inp : List Byte) (s : State) (k : State → Req → Bool) : Bool :=
  s.admits code 3 (call inp) && k (s.begun 3 (call inp)) (s.asked 3 (call inp))

/-- Part 0 with a staging quota. -/
def quota (s : State) : State := put [(R.PART_STAGE_QUOTA 0, 100)] s

/-- The entries fit the quota. -/
def fits (es : Over) (u : State) (r : Req) : Bool :=
  decide (((u.stageAll r.part r.ctx es).2.stageSet r.part).length ≤ u.fd (R.PART_STAGE_QUOTA r.part) 0 15)

/-- The commit is accepted. -/
def accepted (es : Over) (target : Nat) (u : State) (r : Req) : Bool :=
  match u.submit r.part r.ctx es target [] with
  | (0, some _, _) => true
  | _ => false

set_option linter.unusedVariables false
set_option Elab.async false

abbrev s0 : State := State.reset

/-- Part 0 holds the first 4 KiB of DRAM. -/
def mem0 : State := { s0 with allocs := [{ addr := 0x8000000000, size := 4096, ctx := some 0, part := 0, slot := none }] }

/-- Take slot `k` in state `st`. -/
def take (k st : Nat) (t : TakeSlot) (s : State) : State :=
  put [(R.LND_SLOT_STAT k, st)] { s with lnd := { s.lnd with slots := [(k, t)] } }

/-- Part 0 holds the first `n` MiB of DRAM. -/
def held (n : Nat) (s : State) : State :=
  { s with allocs := [{ addr := 0x8000000000, size := n * 0x100000, ctx := none, part := 0, slot := none }] }

/-- Take slot 0 HOLDING, with a directory entry in NV memory that counts one frame. -/
def holding : State :=
  (take 0 5 {} s0).nvStore (dirAddr 0).1 (nvWhole (List.replicate 0x38 0 ++ [1] ++ List.replicate (123 - 0x38) 0))

/-- A range of DRAM that has one place only. -/
theorem findRange_only {u : State} {n a : Nat} (h : placeCount n u.gaps = 1) (h' : placeAt n u.gaps 0 = some a) :
    (u.findRange n).1 = some a := by
  unfold State.findRange
  simp only [h, h', Nat.mod_one]
  rfl

/-- A video-coder session of part 0. -/
def vcs : VcSession :=
  { ctx := 0, dec := false, live := false, scaler := 0, profile := 0, maxW := 64, maxH := 64, rate := 0, numRef := 1, gopLen := 0
    sliceRows := 0, statsEn := false, ring := 0, config := [] }

/-- Session `q` of the video coder is open. -/
def session (q : Nat) (x : VcSession) (s : State) : State := { s with vcd := { s.vcd with ses := [(q, some x)] } }

/-- A job of the video coder. -/
def job : VcJob := { tag := 7, inAddr := 0, inLen := 0, outAddr := 0, outLen := 0, strideY := 0, strideC := 0, ord := 0 }

/-- A storage queue of part 0. -/
def squeue : SqQueue := { ctx := 0, n := 5, poll := 1, sub := 0, cpl := 0, idx := 0 }

/-- Storage queue `q` is open. -/
def sqOpen (q : Nat) (x : SqQueue) (s : State) : State := { s with lnd := { s.lnd with sqs := [(q, some x)] } }

/-- A storage command. -/
def sqc (opc : Nat) : SqCmd := { opc := opc, tag := 3, block := 0, count := 1, addr := 0, cookie := 0 }

/-- A maintenance activity. -/
def act (code : Nat) : Act :=
  { id := 5, code := code, ctx := 0, words := [0, 0, 0], addr := 0, len := 0, running := true, startAt := 0 }

/-- Maintenance activities. -/
def doing (l : List Act) (s : State) : State := { s with pwr := { s.pwr with acts := l } }

/-- An image of 512 bytes whose checks hold (R496), in slot 0, which is open. -/
def image : State :=
  let body : List Byte := List.replicate 256 0
  let hdr : List Byte := leBytes 4 1 ++ leBytes 4 512 ++ leBytes 12 0 ++ leBytes 4 (crc32 body) ++ sha256 body
  let hdr := hdr ++ List.replicate (0xFC - hdr.length) 0
  let s := s0.nvStore (imgBase 0) (hdr ++ leBytes 4 (crc32 hdr) ++ body)
  { s with pwr := { s.pwr with imgOpen := some 0 } }

/-- `k` holds 3 ns later. -/
def later (s : State) (k : State → Bool) : Bool := k (s.tick 3)

/-- Event queue of context `c`. -/
def evq (c : Nat) (q : EvQueue) (s : State) : State := { s with evt := { s.evt with evq := [(c, q)] } }

/-- A frame in flight, its FS of group 0 taken. -/
def frame : Frame :=
  { no := 1, epoch := 0, sensorFrame := 9, tF := 0, tFm := 0, flags := 0, synth := false, expStart := 0, expNs := 0
    sensorEpoch := 0, fs := [0], fe := [], dead := [], embed := [], stripes := [{}], closed := false, ovf := false, key := false
    refClear := false, skips := 0, coded := false, shipped := false, landed := [], tapSeen := false, tap := none, tapDone := false }

/-- Frames in flight. -/
def flying (l : List Frame) (s : State) : State := { s with ing := { s.ing with frames := l } }

/-- The link runs, and lane 0 carries the data of group 0. -/
def linked (s : State) : State :=
  put [(R.SLK_LINK_STAT, 2), (R.SLK_LANE_STAT 0, 0x1000), (R.LNA_QUAD_CFG 0, 1), (R.LNA_LANE_STAT 0, 5)] s

/-- A packet header with its HCRC: type, payload length, sensor frame. -/
def header (ty len fr : Nat) : BitVec 128 :=
  BitVec.ofNat 128 (ty + len * 2 ^ 16 + fr * 2 ^ 32 + crc16 (leBytes 14 (ty + len * 2 ^ 16 + fr * 2 ^ 32)) * 2 ^ 112)

/-- A back-channel command. -/
def bc : BcCmd :=
  { kind := 0, type := 4, tag := 6, count := 0, addr := 0, vals := [], last := false, epoch := 0, from_ := 0, to_ := 0, tries := 0
    sentAt := some 0 }

/-- An open root record. -/
def root : Root :=
  { entry := 0, id := 77, src := 0, unit := 0, code := 0, cls := 0, detail := 0, tag := [], open_ := true, order := 0, lastShort := 0
    lastMono := 0, reports := 1, affected := 0, partMask := 1, marks := [], msgParts := [] }

/-- A commit accepted at time 0. -/
def commit : Commit :=
  { seq := 0, part := 0, ctx := 0, id := 1, tAm := 0, tAshort := 0, target := 0, past := false, entries := [], sensor := [], sparse := none
    sparseAt := 0, late := false, hold := false }

/-- Monotonic time. -/
def at_ (n : Nat) (s : State) : State := { s with clk := { s.clk with now := n } }

/-- Device time in whole ns. -/
def dev (n : Nat) (s : State) : State := { s with clk := { s.clk with tod := n * 2 ^ 32 } }

/-- Ring 0 with a state. -/
def ring (x : Ring) (s : State) : State := { s with rings := [(0, x)] }

/-- A descriptor taken. -/
def taken (n : Nat) : Taken := { desc := { addr := 0, len := w32 n, cookie := 0 }, bad := false }

/-- A fault report of block `src` with fault code `code`. -/
def fault (src code : Nat) : FaultRep := { src := BitVec.ofNat 8 src, unit := 2, code := BitVec.ofNat 16 code, cls := .item, detail := 4, ctxs := [0] }

/-- The payload of an ALIGN of LANE 0, ALIGN_SEQ 0 (Table 5-3). -/
def alignPay : BitVec 256 := BitVec.ofNat 256 (ofBytes ([0x4B, 0xB4, 0, 255, 0, 255] ++ List.replicate 26 0x55))

/-- The payload of a FILL. -/
def fillPay : BitVec 256 := BitVec.ofNat 256 (ofBytes ([0x1E, 0xE1] ++ List.replicate 30 0x55))

/-- The device's own data set lies between the least and the greatest that an Announce can carry. -/
theorem ptpOwn_bounds (u : State) : 0 * 2 ^ 64 + 0 < u.ptpOwn ∧ u.ptpOwn ≤ (2 ^ 48 - 1) * 2 ^ 64 + (2 ^ 64 - 1) := by
  have h1 : u.fd R.TIM_PTP_CFG 16 8 < 256 := Nat.mod_lt _ (by decide)
  have h2 : u.fd R.TIM_PTP_CFG 24 8 < 256 := Nat.mod_lt _ (by decide)
  have h3 := Config.clockQuality.isLt
  have h4 := Config.clockIdentity.isLt
  unfold State.ptpOwn
  omega

/-- Lane 63 is a sensor lane in state `st` with loopback mode `lp`. -/
def sensorLane (st lp : Nat) (s : State) : State :=
  put [(R.LNA_QUAD_CFG 15, 1), (R.LNA_LANE_STAT 63, st), (R.LNA_LANE_LOOP 63, lp)] s

/-- Both Ethernet ports up, TIM_PTP_CFG `cfg`. -/
def eth (cfg : Nat) (s : State) : State :=
  put [(R.LNA_QUAD_CFG 14, 3), (R.LNA_LANE_STAT 56, 5), (R.LNA_LANE_STAT 57, 5), (R.TIM_PTP_CFG, cfg)] s

/-- A monitor output. -/
def output (o : Nat) (x : MonOut) (s : State) : State := { s with mon := { s.mon with outs := [(o, x)] } }

/-- An audio port. -/
def port (p st : Nat) (x : AudPort) (s : State) : State := put [(R.AUD_P_STAT p, st)] { s with aud := [(p, x)] }

/-- An I²C transfer of controller `n`. -/
def xfer (n : Nat) (x : I2cXfer) (s : State) : State := { s with cbs := { s.cbs with xfers := [(n, some x)] } }

/-- Chute `n`. -/
def chute (n : Nat) (c : Chute) (s : State) : State := { s with chutes := [(n, c)] }

/-- A word in a chute. -/
def word : ChuteWord := { data := 5, good := true, poison := false, slot := false, at_ := 0 }

/-- Boot state. -/
def boot (b : BootSt) (s : State) : State := { s with pwr := { s.pwr with boot := b } }

/-- The state after a command. -/
def run (c : Instr) (s : State) : State :=
  match exec c s with
  | .next t => t
  | _ => s

/-- Response word `i` of slot 0 of function 0. -/
def resp (s : State) (i : Nat) : Nat := (s.rd (R.MBX 0 (0x2000 + 4 * i))).toNat

/-! ### Well-formedness: each check refuses a term that breaks it -/

/-- Input data in whole words (R65). -/
theorem test_wf_call : Instr.wf (.memWrite 0 (call [1, 2, 3]) 0) = false := by decide

/-- A sensor write carries at least one value (Table 6-3). -/
theorem test_wf_sensor_write : Instr.wf (.epochCommit 0 (call []) [{ addr := 0, vals := [] }]) = false := by decide

/-- Through BAR0 only MBX_INT_EN and MBX_BAR2_WIN are written so (Table 2-2); elsewhere the address is a word's (R70). -/
theorem test_wf_plain_write :
    Instr.wf (.plainRegisterWrite 0 (.bar0 0) 0x1C 0) = false ∧ Instr.wf (.plainRegisterWrite 0 .bar2 0x2000000002 0) = false ∧
      Instr.wf (.plainRegisterWrite 0 (.bar0 0) 0x24 0) = true := by decide

theorem test_wf_fw_log : Instr.wf (.fwLogRead 0 (call []) [1]) = false := by decide

theorem test_wf_h2c_data : Instr.wf (.h2cReadComplete 0 0 [1, 2]) = false := by decide

theorem test_wf_fault_report : Instr.wf (.faultReport 0 []) = false := by decide

/-! ### Check values -/

/-- The CRC-16 and the CRC-32 of R161 of the nine bytes "123456789", their usual check values. -/
theorem test_crc : crc16 ((List.range 9).map (fun i => BitVec.ofNat 8 (0x31 + i))) = 0x29B1 ∧
    crc32 ((List.range 9).map (fun i => BitVec.ofNat 8 (0x31 + i))) = 0xCBF43926 := by decide +kernel

/-- SHA-256 of "abc" (FIPS 180-4): its first four bytes. -/
theorem test_sha256 : (sha256 [0x61, 0x62, 0x63]).take 4 = [0xBA, 0x78, 0x16, 0xBF] := by decide +kernel

/-- Example of chapter 5: SEED(2). -/
theorem test_seed : scrambleSeed 2 = 0x35A71C02 := by decide

/-- Drop frame at 29.97: 00:01:00:02 is frame 1800 of the day, and 00:01:00:00 names none (Table 15-3). -/
theorem test_timecode : tcIndex 3 0x00010002 = some 1800 ∧ tcIndex 3 0x00010000 = none := by decide +kernel

/-! ### Mailboxes -/

/-- Example of chapter 2: the words 0x14290201 and 0x00080011 are a `SETTINGS_STAGE` with DMA of ctx 17. -/
theorem test_request_decodes :
    let s := put [(R.MBX 0 0x1000, 0x14290201), (R.MBX 0 0x1004, 0x00080011)] s0
    let r := s.request 0 0 none true
    r.op = 0x0201 ∧ r.dma = true ∧ r.wait = false ∧ r.len = 8 ∧ r.ctx = 17 := by decide +kernel

/-- NOP is answered OK with no payload (Tables 2-9, 2-15): OPCODE and LENGTH. -/
theorem test_nop : resp (run (.nop 3 (call [])) (s0 |> asks 0x0100 0 5 [])) 0 = 0x0100 ∧
    resp (run (.nop 3 (call [])) (s0 |> asks 0x0100 0 5 [])) 1 = 5 := by decide +kernel

/-- A command of a context that the partition does not own is answered OK with zeros and counted (R59). -/
theorem test_foreign_context :
    let s := (put [(R.MBX 0 0x04, 1)] s0 |> asks 0x0901 0 300 []).setSlot 0 0 Slot.FREE
    let t := run (.mbxDoorbell 3 0 0) s
    resp t 0 = 0x0901 ∧ resp t 1 = 300 + 5 * 0x10000 ∧ t.rd (R.CTX_VIOL_CNT 0 Viol.ctx) = 1 := by decide +kernel

/-- An unassigned opcode is answered UNKNOWN_OPCODE, a wrong VERSION MALFORMED (R58, Table 2-13). -/
theorem test_doorbell_refuses :
    let s := put [(R.MBX 0 0x04, 1)] s0
    resp (run (.mbxDoorbell 3 0 0) ((s |> asks 0x0FFF 0 0 []).setSlot 0 0 Slot.FREE)) 0 / 2 ^ 24 = 0x11 ∧
      resp (run (.mbxDoorbell 3 0 0) (put [(R.MBX 0 0x1000, 0x0100)] s)) 0 / 2 ^ 24 = 0x10 := by decide +kernel

/-- REG_READ of a run: the epoch, then the values (R69). -/
theorem test_reg_read :
    let s := put [(R.LNA_PRBS_CTRL 0, 5), (R.LNA_PRBS_CTRL 1, 6)] s0
    let a := R.LNA_PRBS_CTRL 0
    let t := run (.regRead 3 (call [])) (s |> asks 0x0102 0 0 [a % 2 ^ 32, a / 2 ^ 32 + 0x100])
    resp t 1 = 0x20000 ∧ resp t 4 = 0 ∧ resp t 5 = 5 := by decide +kernel

/-- REG_WRITE of a settings register is refused whole (R70): SETTINGS_REGISTER, nothing written. -/
theorem test_reg_write_settings :
    let t := run (.regWrite 3 (call [])) (s0 |> asks 0x0103 0 0 [R.TIM_TC_CFG % 2 ^ 32, R.TIM_TC_CFG / 2 ^ 32 + 0x100, 7])
    resp t 0 / 2 ^ 24 = 0x17 ∧ t.rd R.TIM_TC_CFG = s0.rd R.TIM_TC_CFG := by decide +kernel

/-- A reserved offset of BAR0 counts as a violation of kind 3 (R47). -/
theorem test_bar0_reserved : (run (.bar0ReservedAccess 3 5 0x28 true) s0).rd (R.CTX_VIOL_CNT 5 3) = 1 := by decide +kernel

/-- A host read of MBX_FN_ID: the partition, and bit 6 for the PF (R48, Table 2-2). -/
theorem test_bar0_read :
    (run (.bar0ReservedAccess 3 5 0 false) s0).out.contains (.read 5) = true ∧
      (run (.bar0ReservedAccess 3 0 0 false) s0).out.contains (.read 64) = true := by decide +kernel

/-- The request area of a slot that is not FREE keeps its word, and WR_BUSY counts (R52). -/
theorem test_request_area_busy :
    let t := run (.requestAreaWrite 3 5 15 63 9) (s0.setSlot 5 15 Slot.DONE)
    t.reqWord 5 15 63 = 0 ∧ t.fd (R.MBX 5 0x1C) 8 8 = 1 := by decide +kernel

/-- MEM_WRITE, then MEM_READ of the same word returns it. -/
theorem test_mem_write_read :
    let t := run (.memWrite 3 (call [1, 2, 3, 4]) 0x8000000FFC) (bm mem0 |> asks 0x0108 2 0 (dma 4 0))
    let u := run (.memRead 3 (call []) 0x8000000FFC 4) (t |> asks 0x0109 2 0 (dma 0 4))
    t.byte 0x8000000FFF = 4 ∧ u.out.contains (.host 0 0x2000 [1, 2, 3, 4]) = true := by decide +kernel

/-! ### Epochs, contexts, events -/

/-- EPOCH_COMMIT answers its COMMIT_ID, 1 for the first (R25). -/
theorem test_commit_id : resp (run (.epochCommit 3 (call []) []) (s0 |> asks 0x0202 0 0 [0, 0])) 4 = 1 := by decide +kernel

/-- A commit accepted 2 µs before a boundary is taken at it, one accepted 1,999 ns before is not (R25, R28). -/
theorem test_boundary_takes :
    let s := { s0 with ep := { s0.ep with queue := [commit] } }
    let n := fun (u : State) => ((u.count true).takeCommits 1 false [] [] (heads u.ep.queue)).1.length
    n (at_ 2000 s) = 1 ∧ n (at_ 1999 s) = 0 := by decide +kernel

/-- The commits that activate form epoch 1 (R26); epoch 0 keeps its bank. -/
theorem test_activate : (s0.activate [commit]).ep.epoch = 1 ∧ (s0.activate [commit]).ep.banks.map (·.epoch) = [0] := by decide +kernel

/-- RESET of level 4 by part 0 answers first; the device then resets, and the mailbox is FREE again (R102). -/
theorem test_reset_level4 : (run (.reset 3 (call [])) (s0 |> asks 0x0305 0 0 [4])).slotState 0 0 = Slot.FREE := by decide +kernel

/-- VIOLATION_READ with CLEAR zeroes the counters it reads (R110). -/
theorem test_violation_read :
    let s := put [(R.CTX_VIOL_CNT 63 15, 9)] s0
    let t := run (.violationRead 3 (call [])) (s |> asks 0x0306 0 0 [0x7F])
    resp t 19 = 9 ∧ t.rd (R.CTX_VIOL_CNT 63 15) = 0 := by decide +kernel

/-- A fault of a new root gets ROOT_ID 1 (R122). -/
theorem test_fault_report : (run (.faultReport 3 [fault 0x20 1]) s0).evt.roots.map (·.id) = [1] := by decide +kernel

/-- A code that no fault table has opens no record (log entry 38). -/
theorem test_fault_untabled : (run (.faultReport 3 [fault 0x20 9]) s0).evt.roots = [] := by decide +kernel

/-! ### Lanes and sensor link -/

/-- CDR without lock: FAILED with cause 1 (Tables 5-5, 5-14). -/
theorem test_cdr_timeout :
    (run (.laneCdrTimeout 3 63) (put [(R.LNA_LANE_STAT 63, 1)] s0)).rd (R.LNA_LANE_STAT 63) = 0x0100000F#32 := by decide +kernel

/-- A header that fails HCRC is counted (R162). -/
theorem test_header_error : (run (.nullPacket 3 0 (header 0x3F 0 0 ^^^ 1)) (linked s0)).rd R.SLK_HCRC_ERR = 1 := by decide +kernel

/-! ### Landing store -/

/-- Example of chapter 11: H 4,096, U 335,872 and N 639,375 for CAP_MIB 204,800. -/
theorem test_unit_shape :
    (put [(R.BKC_FRAME_BYTES, 330752)] s0).unitShape { capMib := 204800 } = (4096, 335872, 639375) := by decide +kernel

/-- TAKE_DISARM returns the slot to IDLE (R296). -/
theorem test_take_disarm : (run (.takeDisarm 3 (call [])) (take 15 2 {} s0 |> asks 0x0504 0 0 [15])).slotSt 15 = 1 := by decide +kernel

/-- A storage NOP ends at once and frees its tag (Table 11-5). -/
theorem test_sq_nop : ((run (.sqNop 3 31) (sqOpen 31 { squeue with cmds := [sqc 4] } (bm s0))).sq 31).map (·.cmds) = some [] := by
  decide +kernel

/-! ### Memory system -/

/-- A word written in one cycle is read in a later one, and leaves the chute (R339, R340, R343). -/
theorem test_chute :
    let s := run (.chuteWrite 1 7 0 42 false) s0
    let t := run (.chuteRead 1 7) s
    (s.chute 7).words.length = 1 ∧ (t.chute 7).words.length = 0 := by decide +kernel

/-- Of two requests that wait with the same urgency the ingest port's goes first; the older of two others (R329). -/
theorem test_dram_order :
    let r : DramReq := { place := dramPlace 0x8000000000, port := Port.hlk, target := 4000, key := 0, at_ := 5 }
    s0.dmc.first 6 { r with port := Port.pscRd } r = true ∧ s0.dmc.first 6 { r with at_ := 4 } r = true ∧
      s0.dmc.first 6 { r with at_ := 6 } r = false := by decide +kernel

/-- A handover: the new owner, OWNED (R335). -/
theorem test_handover :
    (run (.spdHandoverComplete 3 63) (put [(R.SPD_BANK_OWN 63, 0x100), (R.SPD_BANK_HO 63, 5)] s0)).rd (R.SPD_BANK_OWN 63) = 5 := by
  decide +kernel

/-! ### Video coder, monitor outputs -/

/-- Example of chapter 13: with BUF_MIB 33, K is 1 for 3,840 × 2,160 in PROFILE 2. -/
theorem test_vc_k : (put [(R.VCD_POOL_CFG, 33)] s0).vcK 2 3840 2160 = 1 := by decide +kernel

/-- A frame buffer that its holder releases is nobody's (R382). -/
theorem test_fb_release :
    (run (.monFbAlloc 3 (call [])) ({ s0 with mon := { s0.mon with fb := [(9, 1)] } } |>
      asks 0x0803 0 0 [0xFFFF0000, 0x200, 0, 0, 0, 0, 0, 0, 0])).mon.fb = [] := by decide +kernel

/-! ### Time, audio -/

/-- Example of chapter 15: at 1,000 s the short time is 0xD4A51000, and 0x103FDA00 lies 10^9 ns ahead. -/
theorem test_short_time :
    (dev (10 ^ 12) s0).short = 0xD4A51000 ∧ sx 32 (0x103FDA00 + 2 ^ 32 - 0xD4A51000) = 10 ^ 9 := by decide +kernel

/-- Example of chapter 16: frame 96,000,001 at 48 kHz and frame 192,000,001 at 96 kHz. -/
theorem test_audio_grid :
    tickAt (audRate 2).1 (audRate 2).2 96000001 = 2000000020833 ∧ tickAt (audRate 4).1 (audRate 4).2 192000001 = 2000000010416 := by
  decide +kernel

/-- TIME_READ at 3 s and 3 ns: nanoseconds, then seconds (R396). -/
theorem test_time_read :
    let t := run (.timeRead 3 (call [])) (dev (3 * 10 ^ 9) s0 |> asks 0x0901 0 0 [])
    resp t 4 = 3 ∧ resp t 5 = 3 ∧ resp t 6 = 0 := by decide +kernel

/-- A jam of TC_BASE to the next LTC frame (R412). -/
theorem test_timecode_jam : (run (.timecodeSet 3 (call [])) (s0 |> asks 0x0906 0 0 [0, 0, 0, 0, 1])).tim.jam = true := by decide +kernel

/-- AUD_MUTE of a stopped port sets MUTED (R429). -/
theorem test_aud_mute : (run (.audMute 3 (call [])) (s0 |> asks 0x0A04 0 0 [15])).bt (R.AUD_P_STAT 7) 3 = true := by decide +kernel

/-! ### Host link, control buses -/

/-- Bus Master Enable of a function (R443). -/
theorem test_bme : (run (.bmeSet 3 5) s0).bme 5 = true ∧ (run (.bmeClear 3 0) (bm s0)).bme 0 = false := by decide +kernel

/-- GPIO bits that part 0 owns are set, and one is cleared (R469). -/
theorem test_gpio :
    let p : WrPath := .regWrite 0 0
    let s := run (.cbsGpioSet 3 p 0x80000001) (put [(R.MBX 0 0x04, 1)] s0)
    s.cbs.gpioOut = 0x80000001 ∧ (run (.cbsGpioClr 3 p 1) s).cbs.gpioOut = 0x80000000 := by decide +kernel

/-- An I²C transfer that is not acknowledged leaves the controller idle (R464, R465). -/
theorem test_i2c_end :
    (run (.i2cSclTimeout 3 3) (xfer 3 { addr := 1, wlen := 1, rlen := 0, data := [5] } s0)).xfer 3 = none := by decide +kernel

/-! ### Power, thermal, boot, maintenance -/

/-- A sample of 25 °C reads 400 sixteenths (R482). -/
theorem test_thm_sample : (run (.thmSample 3 (some 400) 0) s0).fd R.THM_TJ 0 16 = 400 := by decide +kernel

/-- POWER_STATE to P1 is reported (R473, R474). -/
theorem test_power_p1 : (run (.powerState 3 (call [])) (s0 |> asks 0x0E01 0 0 [1])).power = 1 := by decide +kernel

/-- While a slot is ARMED, P2 is refused with REFUSED_ARMED (R304). -/
theorem test_power_refused : resp (run (.powerState 3 (call [])) (take 0 2 {} s0 |> asks 0x0E01 0 0 [2])) 0 / 2 ^ 24 = 2 := by
  decide +kernel

/-- BOOT_INFO answers AON_BOOT_STAT and AON_BOOT_COUNT (R502). -/
theorem test_boot_info :
    let t := run (.bootInfo 3 (call [])) (put [(R.AON_BOOT_STAT, 5), (R.AON_BOOT_COUNT, 6)] s0 |> asks 0x0E05 0 0 [])
    resp t 1 = 0x20000 ∧ resp t 4 = 5 ∧ resp t 5 = 6 := by decide +kernel

/-- MAINT_START of a DRAM_RETRAIN runs at once and answers its id; a second of its kind is DEFERRED (R504, R505). -/
theorem test_maint_start :
    let t := run (.maintStart 3 (call [])) (s0 |> asks 0x0C01 0 0 [1, 0])
    resp t 0 / 2 ^ 24 = 0 ∧ resp (run (.maintStart 3 (call [])) (t |> asks 0x0C01 0 0 [1, 0])) 0 / 2 ^ 24 = 1 := by decide +kernel

/-- The queue: the front command runs, the rest stays. -/
theorem test_step :
    (match step { s0 with pending := [.bmeSet 3 5, .bmeSet 3 6] } with
      | .next t => (t.bme 5, t.bme 6, t.pending)
      | _ => (false, false, [])) = (true, false, [.bmeSet 3 6]) := by decide +kernel

/-- The table gives no row bits, so no word spells a command (log entry 24). -/
theorem test_no_word : decodeTableWord 32 5 = none ∧ State.withFetchWord s0 32 5 = s0 := ⟨rfl, rfl⟩

/-- Row lettering and balls of R511 to R514: row 19 is Y, 57 is BY, 64 is CG; LN_TXP of lane 0 at B1; PORST_N at CA41. -/
theorem test_balls :
    [19, 57, 64].map Package.rowName = [['Y'], ['B', 'Y'], ['C', 'G']] ∧ Package.ballAt 2 1 = .lnTx 0 false ∧
    Package.ballAt 59 32 = .pcieTx 15 true ∧ Package.ballAt 57 1 = .vss ∧
    Package.ballAt 57 51 = .vss ∧ Package.ballAt 57 53 = .dram 31 .resetN ∧ Package.ballAt 58 41 = .control .porstN ∧
    Package.ballAt 63 57 = .aud 3 .fs ∧ Package.ballAt 63 64 = .aesOut 1 := by decide +kernel

/-- Table 20-4 counts 100 balls of VDDQ_DRAM and 64 of VDD_LNA. -/
theorem test_rail_balls :
    ((List.range 64).flatMap (fun i => (List.range 64).filter (fun j => Package.ballAt (i + 1) (j + 1) = .supply .vddqDram))).length
      = 100 ∧
    ((List.range 64).flatMap (fun i => (List.range 64).filter (fun j => Package.ballAt (i + 1) (j + 1) = .supply .vddLna))).length
      = 64 := by decide +kernel
/-! ### Witnesses of the statements -/

set_option maxRecDepth 100000

theorem witness_StepRunsFrontCommand :
    ({ s0 with pending := [.nop 3 (call [])] } : State).pending = .nop 3 (call []) :: [] ∧
    s0.pending = [] :=
  ⟨rfl, rfl⟩

theorem witness_StepKeepsCanonical :
    ({ s0 with pending := [.laneSignalLoss 3 0] } : State).canonical = true ∧
    (∃ t, step { s0 with pending := [.laneSignalLoss 3 0] } = .next t) :=
  ⟨by decide +kernel, ⟨_, rfl⟩⟩

theorem witness_CommandsKeepTimeQueueStraps :
    ∃ t, exec (.syntheticBoundary 3) s0 = .next t :=
  ⟨_, rfl⟩

theorem witness_EpochMovesOnlyAtBoundaryOrReset :
    movesEpoch (.memWrite 3 (call []) 0) = false ∧
    (∃ t, exec (.memWrite 3 (call []) 0) s0 = .next t) :=
  ⟨rfl, ⟨_, rfl⟩⟩

theorem witness_CommandsTouchOnlyTheirParts :
    (∃ t, exec (.laneCdrLock 3 63) s0 = .next t) ∧
    Area.nv ∉ touches (.laneCdrLock 3 63) :=
  ⟨⟨_, rfl⟩, by decide +kernel⟩

theorem witness_KilelRefusals :
    (s0.tick 3).takes 0x0100 (call []) = false ∧
    ((s0 |> asks 0x0102 0 0 [0, 0]).opens 0x0102 3 (call []) = true ∧ regReadArgs ((s0 |> asks 0x0102 0 0 [0,
        0]).asked 3 (call [])) s0 = false) ∧
    ((bm mem0 |> asks 0x0108 2 0 (dma 4 0)).opens 0x0108 3 (call [1]) = true ∧ ((bm mem0 |> asks 0x0108 2 0 (dma 4
        0)).taken 3 (call [1])).inputOk ((bm mem0 |> asks 0x0108 2 0 (dma 4 0)).asked 3 (call [1])) = false) :=
  by
  refine ⟨?_, ?_, ?_⟩ <;> decide +kernel

theorem witness_LivenessCommandsComplete :
    (s0 |> asks 0x0100 0 0 []).admits 0x0100 3 (call []) = true ∧
    (s0 |> asks 0x0101 0 0 []).admits 0x0101 3 (call []) = true ∧
    (s0 |> asks 0x0104 0 0 [1]).admits 0x0104 3 (call []) = true ∧
    served 0x0105 [] (bm s0 |> asks 0x0105 2 0 (dma 0 4)) (fun u r => decide (4 ≤ r.outLen)) = true :=
  by
  refine ⟨?_, ?_, ?_, ?_⟩ <;> decide +kernel

theorem witness_MemoryCommandsComplete :
    served 0x0107 []
        (({ s0 with allocs := [{ addr := 0x8000000000, size := 4096, ctx := some 0, part := 0, slot := none }] } :
        State) |> asks 0x0107 0 0 []) (fun u r => (u.allocs.find? (fun y => decide (y.addr = 0x8000000000) && decide
        (y.part = 0) && y.slot.isNone)).isSome) = true ∧
    served 0x0108 [1, 2, 3, 4] (bm mem0 |> asks 0x0108 2 0 (dma 4 0)) (fun u r => decide (r.inLen ≠ 0) && decide
        (u.memBad 0 0x8000000000 r.inLen = none)) = true ∧
    served 0x0109 [] (bm mem0 |> asks 0x0109 2 0 (dma 0 4)) (fun u r => decide (u.memBad 0 0x8000000000 4 = none) &&
        decide (((u.ask Port.hlk r.ctx 0x8000000000 4).eccReads r.ctx 0x8000000000 4).1.length = 4) && decide (4 ≤
        r.outLen)) = true ∧
    served 0x0106 [] (s0 |> asks 0x0106 0 0 []) (fun u r => !u.overQuota 0 (some r.ctx) (66846720 * 4096)) = true ∧
    (((s0 |> asks 0x0106 0 0 []).begun 3 (call [])).findRange (66846720 * 4096)).1 = some 0x8000000000 :=
  ⟨by decide +kernel, by decide +kernel, by decide +kernel, by decide +kernel, findRange_only (by decide +kernel) (by
        decide +kernel)⟩

theorem witness_RegisterCommandsComplete :
    served 0x0102 [] (s0 |> asks 0x0102 0 0 [0x18, 0x110]) (fun u r => regReadArgs r s0 && !(u.readRun 0 r.ctx
        r.regAddr (r.f 1 8 8)).2.1) = true ∧
    (served 0x0103 [] (s0 |> asks 0x0103 0 0 [0x18, 0x110, 1]) (fun u r => regWriteArgs r s0 && decide (∀ i < r.f 1 8
        8, isSetting (r.regAddr + 4 * i) = false ∧ u.hoBad 0 (r.regAddr + 4 * i) (r.w (2 + i)) = false)) = true) :=
  by
  refine ⟨?_, ?_⟩ <;> decide +kernel

theorem witness_EpochCommandsComplete :
    served 0x0201 [] (quota s0 |> asks 0x0201 0 0 [R.TIM_TC_CFG % 2 ^ 32, R.TIM_TC_CFG / 2 ^ 32, 1]) (fun u r =>
        stageArgs r s0 && decide (parseEntries r.pay = some [(R.TIM_TC_CFG, 1)]) && fits [(R.TIM_TC_CFG, 1)] u r) =
        true ∧
    served 0x0202 [] (s0 |> asks 0x0202 0 0 [0, 0]) (fun u r => accepted (u.stageSet 0) 0 u r && !r.wait) = true ∧
    served 0x0202 [] (s0 |> asks 0x0202 1 0 [0, 0]) (fun u r => accepted (u.stageSet 0) 0 u r && r.wait) = true ∧
    (s0 |> asks 0x0203 0 0 []).admits 0x0203 3 (call []) = true ∧
    served 0x0204 [] (bm s0 |> asks 0x0204 2 0 (dma 0 48 ++ [0, 0, 0])) (fun u r => decide (r.inLen = 0) && decide
        (r.w64 0 = 0) && decide (r.outLen = 48)) = true ∧
    served 0x0205 [] (({ s0 with ep := { s0.ep with stage := [(R.TIM_TC_CFG, some 1)] } } : State) |> asks 0x0205 0 0
        [R.TIM_TC_CFG % 2 ^ 32, R.TIM_TC_CFG / 2 ^ 32]) (fun u r => isSetting r.setAddr && decide (u.staged 0
        r.setAddr = some 1)) = true ∧
    served 0x0205 [] (s0 |> asks 0x0205 0 0 [R.TIM_TC_CFG % 2 ^ 32, R.TIM_TC_CFG / 2 ^ 32]) (fun u r => isSetting
        r.setAddr && decide (u.staged 0 r.setAddr = none)) = true ∧
    (s0 |> asks 0x0206 0 0 []).admits 0x0206 3 (call []) = true :=
  by
  refine ⟨?_, ?_, ?_, ?_, ?_, ?_, ?_, ?_⟩ <;> decide +kernel

theorem witness_ContextCommandsComplete :
    served 0x0301 [] (quota s0 |> asks 0x0301 0 0 [256 + 2 ^ 16, 1]) (fun u r => ctxAllocArgs r u && fits
        [(R.CTX_ENT_OWN 256, 65)] u r) = true ∧
    served 0x0302 [] (quota s0 |> asks 0x0302 0 0 [255, 1]) (fun u r => rangeOk (r.f 0 0 12) (r.f 1 0 13) && fits
        [(R.CTX_ENT_OWN 255, setFld (u.stagedOr 0 (R.CTX_ENT_OWN 255)) 6 1 0)] u r) = true ∧
    served 0x0303 [] (quota s0 |> asks 0x0303 0 0 [2, 0, 1, 0]) (fun u r => entriesDefined [(R.CTX_ENT_QOS 0, 1)] &&
        fits [(R.CTX_ENT_QOS 0, 1)] u r) = true ∧
    served 0x0304 [] (quota s0 |> asks 0x0304 0 0 [1, 8, 0, 0, 0, 4, 0, 0]) (fun u r => partConfigArgs r u && fits
        (partConfigEntries r) u r) = true ∧
    served 0x0305 [] (s0 |> asks 0x0305 0 0 [4]) (fun u r => decide (r.f 0 0 3 = 4) && !r.wait) = true ∧
    served 0x0305 [] (s0 |> asks 0x0305 1 0 [0x103]) (fun u r => decide (r.f 0 0 3 = 3) && r.wait && decide (r.f 0 8 6
        = 1)) = true ∧
    served 0x0305 [] (s0 |> asks 0x0305 0 0 [2]) (fun u r => decide (r.f 0 0 3 = 2) && !r.wait && decide (r.f 0 8 6 =
        0)) = true ∧
    served 0x0305 [] (s0 |> asks 0x0305 0 0 [1]) (fun u r => decide (r.f 0 0 3 = 1) && !r.wait) = true ∧
    served 0x0305 [] (s0 |> asks 0x0305 0 0 [0x103]) (fun u r => decide (r.f 0 0 3 = 3) && !r.wait && decide (r.f 0 8
        6 = 1)) = true ∧
    served 0x0306 [] (s0 |> asks 0x0306 0 0 [0x41]) (fun u r => decide (r.f 0 0 6 = 1)) = true ∧
    served 0x0307 [] (s0 |> asks 0x0307 0 0 [0, 0, 0]) (fun u r => decide (r.f 2 0 4 = 0) && decide (r.w64 0 = 0)) =
        true ∧
    served 0x0307 [] (s0 |> asks 0x0307 0 0 [4096, 0, 6]) (fun u r => decide (r.f 2 0 4 = 6) && decide (r.w64 0 =
        4096)) = true :=
  by
  refine ⟨?_, ?_, ?_, ?_, ?_, ?_, ?_, ?_, ?_, ?_, ?_, ?_⟩ <;> decide +kernel

theorem witness_LinkCommandsComplete :
    served 0x0401 [] (s0 |> asks 0x0401 1 0 []) (fun u r => decide (u.linkSt = 0) && r.wait) = true ∧
    served 0x0401 [] (s0 |> asks 0x0401 0 0 []) (fun u r => decide (u.linkSt = 0) && !r.wait) = true ∧
    served 0x0402 [] (put [(R.SLK_LINK_STAT, 1)] s0 |> asks 0x0402 0 0 []) (fun u r => decide (u.linkSt = 1)) = true ∧
    served 0x0402 [] (put [(R.SLK_LINK_STAT, 2)] s0 |> asks 0x0402 0 0 []) (fun u r => decide (2 ≤ u.linkSt)) = true ∧
    (s0 |> asks 0x0403 0 0 []).admits 0x0403 3 (call []) = true ∧
    served 0x0404 [] (s0 |> asks 0x0404 0 0 [0x102, 0x10, 5, 0, 0, 0]) (fun u r => sensorArgs r u) = true ∧
    served 0x0405 [] (put [(R.SLK_LANE_MAP 48, 0)] (quota s0) |> asks 0x0405 0 0 [1, 60]) (fun u r => spareArgs r u &&
        fits ((spareList r).map (fun l => (R.SLK_LANE_MAP l, 0x2000#32))) u r) = true :=
  by
  refine ⟨?_, ?_, ?_, ?_, ?_, ?_, ?_⟩ <;> decide +kernel

theorem witness_TakeCommandsComplete :
    served 0x0501 [] (s0 |> asks 0x0501 0 0 [0, 1, 0, 0, 0, 0]) (fun u r => takeConfigArgs r u && decide (u.slotOwner
        0 = 0) && decide (u.slotSt 0 < 2) && decide (r.f 0 4 1 = 0)) = true ∧
    served 0x0501 [] (s0 |> asks 0x0501 0 0 [0x3F, 245760, 0, 0, 1, 0]) (fun u r => takeConfigArgs r u && decide
        (u.slotSt 15 < 2) && decide (r.f 0 4 1 = 1) && decide (r.f 0 5 3 = 1) && decide (u.resOwner 0x10 = 0)) = true ∧
    served 0x0503 [] (s0 |> held 15360 |> take 0 1 { capMib := 245760, ctx := 0 } |> put [(R.BKC_CFG, 1), (R.DMC_CFG,
        1), (R.SLK_PERIOD_MIN, 1000000)] |> asks 0x0503 0 0 [0]) (fun u r => decide (u.slotSt 0 = 1) && u.bt R.BKC_CFG
        0 && decide (u.fd R.DMC_CFG 0 2 = u.fd R.DMC_INFO 10 2) && decide ((selIdx 16 u.slotLive).length < 4) &&
        decide (2 ≤ (u.unitShape (u.slot 0)).2.2) && decide (u.liveU + (u.unitShape (u.slot 0)).2.1 ≤ 128 * (u.rd
        R.SLK_PERIOD_MIN).toNat) && !u.overQuota 0 (some 0) (245760 * 0x100000) && decide (((u.allocs.filter (fun x =>
        x.slot.isSome)).map (·.size)).sum + 245760 * 0x100000 ≤ 240 * 2 ^ 30)) = true ∧
    (((s0 |> held 15360 |> take 0 1 { capMib := 245760, ctx := 0 } |> put [(R.BKC_CFG, 1), (R.DMC_CFG, 1),
        (R.SLK_PERIOD_MIN, 1000000)] |> asks 0x0503 0 0 [0]).begun 3 (call [])).findRange (245760 * 0x100000)).1 =
        some 0x83C0000000 ∧
    served 0x0504 [] (take 15 2 {} s0 |> asks 0x0504 0 0 [15]) (fun u r => decide (u.slotSt 15 = 2) && decide
        (u.slotOwner 15 = 0)) = true ∧
    served 0x0505 [] (take 0 2 {} s0 |> asks 0x0505 0 0 [0, 0, 0, 0]) (fun u r => u.slotLive 0 && decide ((u.slot
        0).mode ≠ 1) && decide ((u.slot 0).start = none)) = true ∧
    served 0x0506 [] (take 0 3 {} s0 |> asks 0x0506 0 0 [0, 999999999, 0, 0]) (fun u r => u.slotLive 0 && decide
        ((u.slot 0).mode ≠ 1) && decide ((u.slot 0).stop = none)) = true ∧
    served 0x0507 [] (take 0 2 { mode := 1 } s0 |> asks 0x0507 0 0 [0, 0, 0, 0]) (fun u r => decide (u.slotSt 0 = 2)
        && decide ((u.slot 0).mode = 1) && decide ((u.slot 0).trig = none)) = true ∧
    served 0x0508 [] (take 0 5 {} s0 |> asks 0x0508 0 0 [0]) (fun u r => decide (u.slotSt 0 = 5) && decide ((u.slot
        0).reads = [])) = true :=
  ⟨by decide +kernel, by decide +kernel, by decide +kernel, findRange_only (by decide +kernel) (by decide +kernel), by
        decide +kernel, by decide +kernel, by decide +kernel, by decide +kernel, by decide +kernel⟩

theorem witness_TakeReadsComplete :
    served 0x0502 [] (bm s0 |> asks 0x0502 2 0 (dma 0 2048)) (fun u r => decide (r.outLen = 2048)) = true ∧
    served 0x0509 [] (holding |> asks 0x0509 0 0 [0, 0, 1]) (fun u r => decide (u.slotSt 0 = 5) && decide (entryNum
        (u.dirEntry 0) 0x08 1 ≠ 2) && u.bindOk 0 0 false && decide (-(entryNum (u.dirEntry 0) 0x3C 2 : Int) ≤ sx 32
        (r.w 1).toNat) && decide ((r.w 2).toNat ≠ 0) && decide (sx 32 (r.w 1).toNat + ((r.w 2).toNat : Int) ≤
        (entryNum (u.dirEntry 0) 0x38 4 : Int))) = true ∧
    (s0 |> asks 0x050A 0 0 []).admits 0x050A 3 (call []) = true :=
  by
  refine ⟨?_, ?_, ?_⟩ <;> decide +kernel

theorem witness_StreamCommandsComplete :
    served 0x0601 [] (quota s0 |> asks 0x0601 0 0 [9 + 3 * 2 ^ 16]) (fun u r => u.myStream 0 9 && u.bindOk 0 3 false
        && fits [(R.HLK_STREAM_CFG 9, w32 (1 + 3 * 65536))] u r) = true ∧
    served 0x0602 [] (put [(R.HLK_STREAM_CFG 0, 1)] s0 |> asks 0x0602 0 0 [0]) (fun u r => u.myStream 0 0 && u.bt
        (R.HLK_STREAM_CFG 0) 0 && accepted (u.closeEntry 0) 0 u r && !r.wait) = true ∧
    (s0 |> asks 0x0603 0 0 []).admits 0x0603 3 (call []) = true ∧
    served 0x0604 [] (quota s0 |> asks 0x0604 0 0 []) (fun u r => u.owns 0 255 && u.bindOk 0 1023 false && fits
        (u.routeEntries 0 14 255 true) u r && fits (u.routeEntries 0 6 255 true) u r) = true :=
  by
  refine ⟨?_, ?_, ?_, ?_⟩ <;> decide +kernel

theorem witness_VideoCoderCommandsComplete :
    served 0x0701 [] (held 1 s0 |> asks 0x0701 0 0 [93 * 2 ^ 16, 0x400040, 0, 0x100, 0, 0, 10, 0, 0, 0]) (fun u r =>
        vcOpenArgs r u &&
        (match vcLevel (r.f 0 16 8) with | some l => decide (u.vcRefusal r l = none) | none => false) && decide
        (selIdx 64 (fun q => (u.vc q).isNone) ≠ [])) = true ∧
    served 0x0702 [] (session 63 vcs s0 |> asks 0x0702 0 0 []) (fun u r => decide (u.vcNamed 0 63 = some vcs) &&
        !vcs.closing) = true ∧
    served 0x0703 [] (session 0 vcs (held 1 s0) |> asks 0x0703 0 0 [0, 0, 0x80, 4096, 0, 0x80, 4096, 0]) (fun u r =>
        decide (u.vcNamed 0 (r.f 0 0 6) = some vcs) && u.vcWithin false r) = true ∧
    served 0x0704 [] (session 0 { vcs with dec := true } (held 1 s0) |> asks 0x0704 0 0 [0, 0, 0x80, 4096, 0, 0x80,
        4096, 0]) (fun u r => decide (u.vcNamed 0 (r.f 0 0 6) = some { vcs with dec := true }) && u.vcWithin true r) =
        true ∧
    served 0x0705 [] (put [(R.PART_POOL_QUOTA 0, 1), (R.VCD_POOL_CFG, 0x10000)] (session 0 vcs s0) |> asks 0x0705 0 0
        [0x10000]) (fun u r => decide (u.vcNamed 0 (r.f 0 0 6) = some vcs) && decide (sx 16 (r.f 0 16 16) = 1) &&
        decide (1 ≤ u.vcFree) && decide (u.vcHeld 0 + 1 ≤ u.fd (R.PART_POOL_QUOTA 0) 0 8)) = true ∧
    served 0x0705 [] (put [(R.VCD_POOL_CFG, 0x20001)] (session 0 { vcs with pool := [0, 1] } s0) |> asks 0x0705 0 0
        [0xFFFF0000]) (fun u r =>
        (match u.vcNamed 0 (r.f 0 0 6) with | some x => decide (sx 16 (r.f 0 16 16) = -1) && decide (x.pool.filter (fun b => !(x.usedBufs (u.vcK x.profile x.maxW x.maxH) (x.cur.isSome || decide (u.vcd.dec = some (r.f 0 0 6)))).contains b) = [0, 1]) | none => false))
        = true ∧
    served 0x0706 [] (session 63 vcs s0 |> asks 0x0706 0 0 []) (fun u r => decide (u.vcNamed 0 63 = some vcs) &&
        !vcs.dec) = true ∧
    served 0x0707 [] (session 0 { vcs with jobs := [{ job with startAt := none }] } s0 |> asks 0x0707 0 0 [7 * 2 ^
        16]) (fun u r =>
        (match u.vcNamed 0 (r.f 0 0 6) with | some x => decide (x.jobs.find? (fun y => y.tag = r.f 0 16 16) = some { job with startAt := none }) | none => false))
        = true ∧
    served 0x0707 [] (session 0 { vcs with jobs := [{ job with startAt := (some 3) }] } s0 |> asks 0x0707 0 0 [7 * 2 ^
        16]) (fun u r =>
        (match u.vcNamed 0 (r.f 0 0 6) with | some x => decide (x.jobs.find? (fun y => y.tag = r.f 0 16 16) = some { job with startAt := (some 3) }) | none => false)
        && decide (u.now = 3)) = true ∧
    served 0x0707 [] (session 0 { vcs with jobs := [{ job with startAt := (some 0) }] } s0 |> asks 0x0707 0 0 [7 * 2 ^
        16]) (fun u r =>
        (match u.vcNamed 0 (r.f 0 0 6) with | some x => decide (x.jobs.find? (fun y => y.tag = r.f 0 16 16) = some { job with startAt := (some 0) }) | none => false)
        && decide (u.now = 3)) = true :=
  by
  refine ⟨?_, ?_, ?_, ?_, ?_, ?_, ?_, ?_, ?_, ?_⟩ <;> decide +kernel

theorem witness_MonitorCommandsComplete :
    served 0x0801 [] (quota s0 |> asks 0x0801 0 0 []) (fun u r => decide (u.resOwner (outputRes 5) = 0) && u.owns 0
        255 && fits [(R.MON_OUT_CTRL 5, setFld (u.stagedOr 0 (R.MON_OUT_CTRL 5)) 8 12 255)] u r) = true ∧
    served 0x0802 [] (s0 |> asks 0x0802 0 0 [1, 0, 0x40004]) (fun u r => u.monOwned 0 (r.f 0 0 3) && decide (r.f 0 0 3
        = 1) && decide (r.f 0 3 1 = 0) && decide (r.f 2 0 16 = 4)) = true ∧
    served 0x0802 [] ({ s0 with mon := { s0.mon with fb := [(9, 1)] } } |> asks 0x0802 0 0 [0x90D, 0, 0]) (fun u r =>
        u.monOwned 0 (r.f 0 0 3) && decide (r.f 0 0 3 = 5) && decide (r.f 0 3 1 = 1) && u.fbHeld 0 (r.f 0 8 8) &&
        decide (r.w 2 = 0)) = true ∧
    served 0x0803 [] (put [(R.MON_FB_CFG, 4 * 65536), (R.PART_POOL_QUOTA 0, 0x100)] s0 |> asks 0x0803 0 0 [0x10000, 0,
        0, 0, 0, 0, 0, 0, 0]) (fun u r => monFbArgs r u && decide (sx 16 (r.f 0 16 16) = 1) && decide (1 ≤
        u.fbFree.length) && decide ((u.fbOf 0).length + 1 ≤ u.fd (R.PART_POOL_QUOTA 0) 8 8)) = true ∧
    served 0x0803 [] (s0 |> asks 0x0803 0 0 [0xFFFF0000, 1, 0, 0, 0, 0, 0, 0, 0]) (fun u r => monFbArgs r u && decide
        (sx 16 (r.f 0 16 16) = -1) && decide ((fbMap r).length = 1) && !(fbMap r).any u.fbShown) = true ∧
    (s0 |> asks 0x0804 0 0 []).admits 0x0804 3 (call []) = true :=
  by
  refine ⟨?_, ?_, ?_, ?_, ?_, ?_⟩ <;> decide +kernel

theorem witness_TimeCommandsComplete :
    (s0 |> asks 0x0901 0 0 []).admits 0x0901 3 (call []) = true ∧
    (served 0x0902 [] (s0 |> asks 0x0902 0 0 [0, 999999999, 0, 0xFFFF]) (fun u r => timeSetArgs r u && decide (u.servo
        ≠ 3 ∧ u.servo ≠ 4) && decide (u.tim.sched = []) && !u.anyArmed) = true) ∧
    served 0x0903 [] (quota s0 |> asks 0x0903 0 0 []) (fun u r => !ptpBad 0 0x2000 0x10000 && definedBits
        R.TIM_PTP_CFG 0 && definedBits R.TIM_PTP_INTV 0x2000 && fits [(R.TIM_PTP_CFG, 0), (R.TIM_PTP_INTV, 0x2000),
        (R.TIM_PTP_SERVO, 0x10000), (R.TIM_PTP_STEP, 0)] u r) = true ∧
    served 0x0904 [] (s0 |> asks 0x0904 0 0 [3, 2003]) (fun u r => decide (2000 ≤ sx 32 ((r.w 1).toNat + 2 ^ 32 -
        u.short)) && decide (u.resOwner (0x10 + 3) = 0) && decide (r.f 0 3 1 = 0) && decide (((u.dev : Int) + sx 32
        ((r.w 1).toNat + 2 ^ 32 - u.short)).toNat = 2003) && decide (u.tim.sched = [])) = true ∧
    served 0x0904 [] ({ s0 with tim := { s0.tim with sched := [{ pin := 0, strb := true, ts := 2003 }] } } |> asks
        0x0904 0 0 [12, 2003]) (fun u r => decide (2000 ≤ sx 32 ((r.w 1).toNat + 2 ^ 32 - u.short)) && decide
        (u.resOwner (0x14) = 0) && decide (r.f 0 3 1 = 1) && decide (((u.dev : Int) + sx 32 ((r.w 1).toNat + 2 ^ 32 -
        u.short)).toNat = 2003) && decide (({ pin := 0, strb := true, ts := 2003 } : SchedEnt) ∈ u.tim.sched)) = true ∧
    served 0x0905 [] (quota s0 |> asks 0x0905 0 0 []) (fun u r => !cadBad 0 0 && definedBits (R.TIM_CAD_CFG 3) 0 &&
        definedBits R.TIM_GL_CFG 0 && fits [(R.TIM_CAD_CFG 3, 0), (R.TIM_CAD_RATE 3, 0), (R.TIM_CAD_PHASE 3, 0),
        (R.TIM_GL_CFG, 0)] u r) = true ∧
    served 0x0906 [] (s0 |> asks 0x0906 0 0 [0, 999999999, 0, 0, 1]) (fun u r => decide (r.f 4 0 1 = 1)) = true ∧
    served 0x0906 [] (s0 |> asks 0x0906 0 0 [0x23595900, 0, 0, 0, 0]) (fun u r => decide (r.f 4 0 1 = 0) && decide
        (r.f 1 0 30 < 10 ^ 9) && (tcIndex u.tcCode (r.w 0).toNat).isSome) = true ∧
    (s0 |> asks 0x0907 0 0 []).admits 0x0907 3 (call []) = true :=
  by
  refine ⟨?_, ?_, ?_, ?_, ?_, ?_, ?_, ?_, ?_⟩ <;> decide +kernel

theorem witness_AudioCommandsComplete :
    served 0x0A01 [] (quota s0 |> asks 0x0A01 0 0 []) (fun u r => decide ((0 : Word) &&& ~~~(w32 (regMask (R.AUD_P_CFG
        7))) = 0) && fits [(R.AUD_P_CFG 7, 0), (R.AUD_P_MASK 7, 5)] u r) = true ∧
    served 0x0A02 [] (put [(R.AUD_P_CFG 0, 1), (R.AUD_P_MASK 0, 1)] s0 |> asks 0x0A02 0 0 [1, 100003]) (fun u r =>
        decide (audMask r u = ([0], [])) && decide (sx 32 ((r.w 1).toNat + 2 ^ 32 - u.short) = 100000) && decide
        (u.audSt 0 = 0) && !u.audIdle 0) = true ∧
    served 0x0A03 [] (s0 |> asks 0x0A03 0 0 [0x81]) (fun u r => decide (audMask r u = ([0, 7], []))) = true ∧
    served 0x0A04 [] (s0 |> asks 0x0A04 0 0 [15]) (fun u r => decide (u.audOwner 7 = 0) && decide (r.f 0 0 3 = 7)) =
        true ∧
    (s0 |> asks 0x0A05 0 0 []).admits 0x0A05 3 (call []) = true :=
  by
  refine ⟨?_, ?_, ?_, ?_, ?_⟩ <;> decide +kernel

theorem witness_StorageCommandsComplete :
    served 0x0B01 [] (put [(R.PART_POOL_QUOTA 0, 0x10000)] s0 |> asks 0x0B01 0 0 [0x105, 0, 0, 0, 0, 0, 0]) (fun u r
        => sqCreateArgs r u && decide (u.fd (R.PART_POOL_USED 0) 16 8 + 1 ≤ u.fd (R.PART_POOL_QUOTA 0) 16 8) && decide
        (selIdx 32 (fun q => (u.sq q).isNone) ≠ [])) = true ∧
    served 0x0B02 [] (sqOpen 31 squeue s0 |> asks 0x0B02 0 0 []) (fun u r => decide (u.sqNamed 0 31 = some squeue)) =
        true ∧
    served 0x0B03 [] (sqOpen 0 { squeue with cmds := [{ sqc 1 with started := false }] } s0 |> asks 0x0B03 0 0 [])
        (fun u r => decide (u.sqNamed 0 0 = some { squeue with cmds := [{ sqc 1 with started := false }] }) && decide
        (u.now = 3)) = true ∧
    served 0x0B03 [] (sqOpen 0 { squeue with cmds := [{ sqc 1 with started := true, startAt := 3 }] } s0 |> asks
        0x0B03 0 0 []) (fun u r => decide (u.sqNamed 0 0 = some
        { squeue with cmds := [{ sqc 1 with started := true, startAt := 3 }] }) && decide (u.now = 3)) = true ∧
    served 0x0B03 [] (sqOpen 0 { squeue with cmds := [{ sqc 1 with started := true, startAt := 1 }] } s0 |> asks
        0x0B03 0 0 []) (fun u r => decide (u.sqNamed 0 0 = some
        { squeue with cmds := [{ sqc 1 with started := true, startAt := 1 }] }) && decide (u.now = 3)) = true ∧
    served 0x0B04 [] (sqOpen 0 squeue s0 |> asks 0x0B04 0 0 []) (fun u r => decide (u.sqNamed 0 0 = some squeue)) =
        true :=
  by
  refine ⟨?_, ?_, ?_, ?_, ?_, ?_⟩ <;> decide +kernel

theorem witness_MaintenanceCommandsComplete :
    served 0x0C01 [] (s0 |> asks 0x0C01 1 0 [1, 0]) (fun u r => r.wait && maintArgs r u && !u.anyArmed && u.actFree 1
        u.pwr.acts) = true ∧
    served 0x0C01 [] (bm s0 |> asks 0x0C01 3 0 (dma 0 16128 ++ [2, 1, 0, 0])) (fun u r => r.wait && maintArgs r u &&
        !u.anyArmed && u.actFree 2 u.pwr.acts && decide (eyeBytes [1, 0, 0] ≤ r.outLen) && decide (((r.pay.drop 1).map
        (·.toNat)) = [1, 0, 0])) = true ∧
    served 0x0C01 [] (put [(R.DMC_INFO, 0xA20)] s0 |> asks 0x0C01 1 0 [4]) (fun u r => r.wait && maintArgs r u &&
        decide (2 ≤ u.fd R.DMC_INFO 10 2) && u.actFree 4 u.pwr.acts) = true ∧
    served 0x0C01 [] (s0 |> asks 0x0C01 0 0 [1, 0]) (fun u r => !r.wait && maintArgs r u && !u.anyArmed && u.actFree 1
        u.pwr.acts) = true ∧
    served 0x0C01 [] (bm s0 |> asks 0x0C01 2 0 (dma 0 16128 ++ [2, 1, 0, 0])) (fun u r => !r.wait && maintArgs r u &&
        !u.anyArmed && u.actFree 2 u.pwr.acts && decide (eyeBytes [1, 0, 0] ≤ r.outLen) && decide (((r.pay.drop 1).map
        (·.toNat)) = [1, 0, 0])) = true ∧
    served 0x0C01 [] (put [(R.DMC_INFO, 0xA20)] s0 |> asks 0x0C01 0 0 [4]) (fun u r => !r.wait && maintArgs r u &&
        decide (2 ≤ u.fd R.DMC_INFO 10 2) && u.actFree 4 u.pwr.acts) = true ∧
    (s0 |> asks 0x0C02 0 0 []).admits 0x0C02 3 (call []) = true ∧
    served 0x0C03 [] (doing [{ act 3 with running := false }] s0 |> asks 0x0C03 0 0 []) (fun u r => decide
        (u.pwr.acts.find? (fun x => decide (x.id = 5)) = some ({ act 3 with running := false })) && decide (u.now =
        3)) = true ∧
    served 0x0C03 [] (doing [{ act 3 with startAt := 3 }] s0 |> asks 0x0C03 0 0 []) (fun u r => decide
        (u.pwr.acts.find? (fun x => decide (x.id = 5)) = some ({ act 3 with startAt := 3 })) && decide (u.now = 3)) =
        true ∧
    served 0x0C03 [] (doing [{ act 3 with startAt := 1 }] s0 |> asks 0x0C03 0 0 []) (fun u r => decide
        (u.pwr.acts.find? (fun x => decide (x.id = 5)) = some ({ act 3 with startAt := 1 })) && decide (u.now = 3)) =
        true ∧
    served 0x0C04 [] (s0 |> asks 0x0C04 0 0 []) (fun u r => !u.funcRuns 63) = true ∧
    served 0x0C04 [] (put [(R.LNA_QUAD_CFG 15, 1), (R.SLK_LINK_STAT, 2)] s0 |> asks 0x0C04 0 0 []) (fun u r =>
        u.funcRuns 63 && decide (u.laneFunc 63 < 2) && !u.isBackLane 63) = true ∧
    served 0x0C05 [] (s0 |> asks 0x0C05 0 0 []) (fun u r => errInjectArgs 0x20 127 65535 r s0 && errInjectArgs 0x31
        0x4001FFFFFF 1 r s0) = true ∧
    served 0x0C05 [] (put [(R.LNA_LANE_LOOP 63, 0), (R.LNA_PRBS_CTRL 63, 8)] s0 |> asks 0x0C05 0 0 []) (fun u r =>
        errInjectArgs 3 63 1 r u && decide (u.laneInject 3 63 = none) && decide (u.nearLoop 63 = false)) = true ∧
    served 0x0C05 [] (put [(R.LNA_LANE_LOOP 63, 1), (R.LNA_PRBS_CTRL 63, 8)] s0 |> asks 0x0C05 0 0 []) (fun u r =>
        errInjectArgs 3 63 1 r u && decide (u.laneInject 3 63 = none) && decide (u.nearLoop 63 = true)) = true ∧
    served 0x0C05 [] (s0 |> asks 0x0C05 0 0 []) (fun u r => errInjectArgs 4 63 1 r u && decide (u.laneInject 4 63 =
        none) && errInjectArgs 1 0 16 r u && decide (u.laneInject 1 0 = none) && errInjectArgs 1 0 15 r u &&
        errInjectArgs 2 0 1 r u && decide (u.laneInject 2 0 = none)) = true ∧
    served 0x0C06 [] (s0 |> asks 0x0C06 0 0 []) (fun u r => !u.funcRuns 63) = true ∧
    served 0x0C06 [] (put [(R.LNA_QUAD_CFG 15, 1), (R.LNA_LANE_STAT 63, 6)] s0 |> asks 0x0C06 0 0 []) (fun u r =>
        !(s0.isBackLane 63) && decide (u.laneFunc 63 < 2) && u.inService 63 && !u.bt (R.LNA_PRBS_CTRL 63) 3) = true :=
  by
  refine ⟨?_, ?_, ?_, ?_, ?_, ?_, ?_, ?_, ?_, ?_, ?_, ?_, ?_, ?_, ?_, ?_, ?_, ?_⟩ <;> decide +kernel

theorem witness_ImageCommandsComplete :
    served 0x0D01 [] (s0 |> asks 0x0D01 0 0 []) (fun u r => decide (u.pwr.imgOpen = none)) = true ∧
    served 0x0D02 [1, 2, 3, 4] (bm image |> asks 0x0D02 2 0 (dma 4 0 ++ [0x3FF000])) (fun u r => decide (u.pwr.imgOpen
        = some 0) && u.nvRange && decide ((r.w 0).toNat = 0x3FF000) && decide (r.inLen = 4)) = true ∧
    served 0x0D03 [] (image |> asks 0x0D03 0 0 [3]) (fun u r => decide (u.pwr.imgOpen = some 0) && u.nvRange &&
        u.imgOk 0) = true ∧
    (s0 |> asks 0x0D04 0 0 []).admits 0x0D04 3 (call []) = true ∧
    served 0x0D05 [] (s0.setImgCtl { a := 2, b := 0, sel := 1, va := 0, vb := 0 } |> asks 0x0D05 0 0 []) (fun u r =>
        decide (u.imgCtl.st 0 = 2)) = true ∧
    served 0x0D06 [] (bm s0 |> asks 0x0D06 2 0 (dma 0 64)) (fun u r => decide (r.outLen = 64)) = true :=
  by
  refine ⟨?_, ?_, ?_, ?_, ?_, ?_⟩ <;> decide +kernel

theorem witness_PowerCommandsComplete :
    served 0x0E01 [] (s0 |> asks 0x0E01 0 0 [0]) (fun u r => decide (u.power = r.f 0 0 2)) = true ∧
    (served 0x0E01 [] (put [(R.AON_PWR_STAT, 1)] s0 |> asks 0x0E01 0 0 [0]) (fun u r => decide (u.power = 1 ∧ r.f 0 0
        2 = 0)) = true) ∧
    (served 0x0E01 [] (s0 |> asks 0x0E01 0 0 [1]) (fun u r => decide (u.power = 0 ∧ r.f 0 0 2 = 1) && !u.anyArmed &&
        !u.powerBusy && decide (u.ep.queue = [])) = true) ∧
    (served 0x0E01 [] (s0 |> asks 0x0E01 0 0 [2]) (fun u r => decide (u.power = 0 ∧ r.f 0 0 2 = 2) && !u.anyArmed &&
        !u.powerBusy && decide (u.ep.queue = [])) = true) ∧
    (served 0x0E01 [] (s0 |> asks 0x0E01 0 0 [3]) (fun u r => decide (u.power = 0 ∧ r.f 0 0 2 = 3) && !u.anyArmed &&
        !u.powerBusy && decide (u.ep.queue = [])) = true) ∧
    (s0 |> asks 0x0E02 0 0 []).admits 0x0E02 3 (call []) = true ∧
    served 0x0E03 [] (quota s0 |> asks 0x0E03 0 0 []) (fun u r => thmLimitOk (w32 (80 + 90 * 256 + 120 * 65536 + 70 *
        2 ^ 24)) && fits [(R.THM_LIMIT, w32 (80 + 90 * 256 + 120 * 65536 + 70 * 2 ^ 24)), (R.THM_RATE, 1)] u r) = true ∧
    (s0 |> asks 0x0E04 0 0 []).admits 0x0E04 3 (call []) = true ∧
    (s0 |> asks 0x0E05 0 0 []).admits 0x0E05 3 (call []) = true :=
  by
  refine ⟨?_, ?_, ?_, ?_, ?_, ?_, ?_, ?_, ?_⟩ <;> decide +kernel

theorem witness_MailboxAccessesComplete :
    later ((put [(R.MBX 0 0x04, 1)] (s0 |> asks 0x0100 0 0 [])).setSlot 0 0 Slot.FREE) (fun u => u.linkAlive && decide
        (u.wakeP1.slotState 0 0 = Slot.FREE) && u.wakeP1.bt (R.MBX 0 0x04) 0 && decide ((u.wakeP1.setSlot 0 0
        Slot.POSTED).gate 0 0 = .run)) = true ∧
    later (s0) (fun u => u.linkAlive && decide (u.slotState 63 15 = Slot.FREE)) = true ∧
    later (s0.setSlot 63 15 Slot.DONE) (fun u => u.linkAlive && decide (u.slotState 63 15 ≠ Slot.FREE)) = true ∧
    later (s0) (fun u => u.linkAlive && [0x28, 0xFFC, 0x3000, 0x3FFC, 0x4200, 0x7FFC].all bar0Reserved) = true ∧
    later (bm s0) (fun u => u.linkAlive && u.owns 0 255 && (u.setEvq 255 { u.evq 255 with cons := 1 }).bme 0 &&
        !(u.setEvq 255 { u.evq 255 with cons := 1 }).draining 255 && decide ((u.evq 255).cons ≠ 1)) = true ∧
    later (s0) (fun u => u.linkAlive && u.owns 0 255 && decide ((u.evq 255).cons = 0)) = true ∧
    later (evq 4095 { held := true, pend := true, lastMsg := some 0 } s0) (fun u => u.linkAlive && (u.evq 4095).held
        && decide ((u.evq 4095).lastMsg = some 0) && decide (u.fd (R.CTX_ENT_IRQ 4095) 16 16 * 100 ≤ u.now) && decide
        ((u.evq 4095).pend = true)) = true ∧
    later (evq 4095 { held := true, pend := false, lastMsg := some 0 } s0) (fun u => u.linkAlive && (u.evq 4095).held
        && decide ((u.evq 4095).lastMsg = some 0) && decide (u.fd (R.CTX_ENT_IRQ 4095) 16 16 * 100 ≤ u.now) && decide
        ((u.evq 4095).pend = false)) = true :=
  by
  refine ⟨?_, ?_, ?_, ?_, ?_, ?_, ?_, ?_⟩ <;> decide +kernel

theorem witness_RegisterAccessesComplete :
    later (put [(R.MBX 0 0x04, 1)] s0) (fun u => !isSetting (R.LNA_PRBS_CTRL 0) && !u.hoBad 0 (R.LNA_PRBS_CTRL 0) 5 &&
        u.bt (R.MBX 0 0x04) 0 && u.owns 0 0) = true ∧
    later (put [(R.MBX 0 0x04, 5), (R.MBX 0 0x24, 0x2000)] s0) (fun u => u.linkAlive && u.bar2On && decide
        (R.LNA_PRBS_CTRL 0 / 2 ^ 24 = u.fd (R.MBX 0 0x24) 0 16) && decide (R.LNA_PRBS_CTRL 0 % 4 = 0) && !isSetting
        (R.LNA_PRBS_CTRL 0)) = true ∧
    later (s0) (fun u => u.linkAlive && decide (u.rd (R.MBX 63 0x14) = 0)) = true ∧
    (later (put [(R.MBX 63 0x14, 1)] s0) (fun u => u.linkAlive && decide (u.rd (R.MBX 63 0x14) &&& u.rd (R.MBX 63
        0x18) = 0 ∧ u.rd (R.MBX 63 0x14) &&& (1 &&& 0x3FFFF#32) ≠ 0)) = true) ∧
    later (put [(R.MBX 0 0x04, 5)] s0) (fun u => u.linkAlive && u.bar2On && bar2Ok 0xFFFFF8 8 && bar2Ok 0xFFFFFC 4) =
        true ∧
    later (s0) (fun u => u.linkAlive && !u.bar2On && !bar2Ok 4 8) = true :=
  by
  refine ⟨?_, ?_, ?_, ?_, ?_, ?_⟩ <;> decide +kernel

theorem witness_ListedRegisterWritesComplete :
    later (put [(R.MBX 0 0x04, 1), (R.SPD_BANK_OWN 63, 0)] s0) (fun u => u.bt (R.MBX 0 0x04) 0 && u.owns 0 0 &&
        u.ownsReg 0 (R.HLK_RING_CTRL 0) && u.ownsReg 0 (R.HLK_RING_CTRL 1023) && u.ownsReg 0 R.EVT_ROOT_CLOSE &&
        u.ownsReg 0 R.BKC_KEY_REQ && u.ownsReg 0 R.BKC_JOB_PROD && u.ownsReg 0 R.BKC_JOB_ABORT && u.ownsReg 0
        (R.SPD_BANK_HO 63) && !u.hoRefused 63 0 && u.ownsReg 0 (R.CBS_I2C_XFER 3)) = true :=
  by decide +kernel

theorem witness_PcieCommandsComplete :
    later (s0) (fun u => u.awakeDev && decide (u.pwr.p2At = none)) = true ∧
    later ({ s0 with pwr := { s0.pwr with p2At := some 0 } }) (fun u => u.awakeDev && !u.pwr.p2Ack) = true ∧
    later ({ s0 with pwr := { s0.pwr with p2At := some 0, p2Ack := true } }) (fun u => decide (u.pwr.p2At ≠ none) &&
        u.pwr.p2Ack) = true ∧
    later (put [(R.AON_PWR_STAT, 2)] s0) (fun u => !u.awakeDev && decide (u.power = 2)) = true :=
  by
  refine ⟨?_, ?_, ?_, ?_⟩ <;> decide +kernel

theorem witness_RingCommandsComplete :
    later (put [(R.HLK_RING_CTRL 0, 1)] (bm s0)) (fun u => u.ringMay 0 && !u.ringIn 0 && u.ringOn 0) = true ∧
    later (ring { taken := [taken 4] } (put [(R.HLK_RING_CTRL 0, 3)] (bm s0))) (fun u => u.ringMay 0 && u.ringIn 0 &&
        decide ((u.ring 0).taken = [taken 4]) && !(taken 4).bad) = true ∧
    later (ring { cplPend := true, lastCpl := some 0 } s0) (fun u => (u.ring 0).cplPend && decide ((u.ring 0).lastCpl
        = some 0) && decide (u.fd (R.HLK_RING_CTRL 0) 16 8 * 1000 ≤ u.now)) = true :=
  by
  refine ⟨?_, ?_, ?_⟩ <;> decide +kernel

theorem witness_BoundaryAndFaultCommandsComplete :
    (later (at_ 2000 { s0 with ep := { s0.ep with queue := [commit] } }) (fun u => u.mayBound && !u.linkOn && decide
        (u.fd (R.TIM_CAD_CFG 0) 0 2 = 0) && decide (∃ c ∈ u.ep.queue, c.tAm + 2000 ≤ u.now ∧ u.ep.tFm < c.tAm + 2000))
        = true) ∧
    later (put [(R.TIM_CAD_CFG 3, 1)] s0) (fun u => u.mayBound && newTick (tabGet (fun _ => none) u.tim.ticks 3)
        (u.cadLast 3)) = true ∧
    later (put [(R.TIM_CAD_CFG 0, 1), (R.TIM_EXP_SRC, 16)] s0) (fun u => u.mayBound && newTick (tabGet (fun _ => none)
        u.tim.ticks 0) (u.cadLast 0) && decide (u.fd (R.TIM_CAD_CFG 0) 0 2 = 1) && !u.linkOn &&
        (({ u with tim := { u.tim with ticks := tabSet (fun _ => none) u.tim.ticks 0 (u.cadLast 0) } } :
        State).boundary true id).2.bt R.TIM_EXP_SRC 4) = true ∧
    later (put [(R.TIM_CAD_CFG 0, 1), (R.TIM_EXP_SRC, 0)] s0) (fun u => u.mayBound && newTick (tabGet (fun _ => none)
        u.tim.ticks 0) (u.cadLast 0) && decide (u.fd (R.TIM_CAD_CFG 0) 0 2 = 1) && !u.linkOn &&
        !(({ u with tim := { u.tim with ticks := tabSet (fun _ => none) u.tim.ticks 0 (u.cadLast 0) } } :
        State).boundary true id).2.bt R.TIM_EXP_SRC 4) = true ∧
    later (put [(R.TIM_CAD_CFG 0, 3), (R.TIM_EXP_SRC, 16)] s0) (fun u => u.mayBound && newTick (tabGet (fun _ => none)
        u.tim.ticks 0) (u.cadLast 0) && decide (u.fd (R.TIM_CAD_CFG 0) 0 2 = 3) && !u.linkOn &&
        ({ u with tim := { u.tim with ticks := tabSet (fun _ => none) u.tim.ticks 0 (u.cadLast 0) } } : State).bt
        R.TIM_EXP_SRC 4) = true ∧
    later (put [(R.TIM_CAD_CFG 0, 3), (R.TIM_EXP_SRC, 0)] s0) (fun u => u.mayBound && newTick (tabGet (fun _ => none)
        u.tim.ticks 0) (u.cadLast 0) && decide (u.fd (R.TIM_CAD_CFG 0) 0 2 = 3) && !u.linkOn &&
        !({ u with tim := { u.tim with ticks := tabSet (fun _ => none) u.tim.ticks 0 (u.cadLast 0) } } : State).bt
        R.TIM_EXP_SRC 4) = true ∧
    later ({ s0 with ep := { s0.ep with banks := [{ epoch := 7, first := 0, regs := [], ctxs := [0] }] } }) (fun u =>
        decide (u.ep.banks = [{ epoch := 7, first := 0, regs := [], ctxs := [0] }]) && !u.inFlight 7) = true ∧
    later ({ s0 with resets := [{ id := 4, level := 1, scope := [0], ctxs := [5], parts := [], drain := [5], free := [] }] })
        (fun u => (match u.resets.find? (fun j => decide (j.id = 4)) with | some j => !u.busyCtxs j.drain | none => false))
        = true ∧
    later (s0) (fun u => u.awakeDev && decide ([fault 0x20 1, fault 0x30 1].filterMap tabled ≠ []) && decide (∀ f ∈
        [fault 0x20 1, fault 0x30 1].filterMap tabled, f.cls ≠ .device) && decide (∃ f ∈ [fault 0x30 2].filterMap
        tabled, f.cls = .device)) = true ∧
    later (at_ (1023 * 10 ^ 6) { s0 with evt := { s0.evt with roots := [root] } }) (fun u => decide (u.evt.roots.find?
        (fun r => r.open_ && decide (r.id = 77)) = some root) && u.awakeDev && decide (root.lastMono + u.fd R.EVT_CTRL
        0 10 * 10 ^ 6 ≤ u.now)) = true :=
  by
  refine ⟨?_, ?_, ?_, ?_, ?_, ?_, ?_, ?_, ?_, ?_⟩ <;> decide +kernel

theorem witness_LaneCommandsComplete :
    later (put [(R.LNA_LANE_STAT 63, 1)] s0) (fun u => decide (u.laneSt 63 = 1) && decide (tabGet (fun _ => 0)
        u.lnk.wasLane 63 = 0)) = true ∧
    later (put [(R.LNA_LANE_STAT 63, 2)] s0) (fun u => decide (u.laneSt 63 = 2)) = true ∧
    later (put [(R.LNA_LANE_STAT 63, 7)] s0) (fun u => u.laneLocked 63) = true ∧
    later (put [(R.LNA_LANE_STAT 63, 1)] s0) (fun u => !u.laneLocked 63) = true ∧
    later (sensorLane 3 0 s0) (fun u => u.laneLocked 63 && decide (u.laneFunc 63 = 1) && decide (u.fd (R.LNA_LANE_LOOP
        63) 0 2 = 0) && !u.injects 1 63 && !u.injects 2 63 && decide (u.laneSt 63 = 3)) = true ∧
    later (sensorLane 4 0 s0) (fun u => u.laneLocked 63 && decide (u.laneFunc 63 = 1) && decide (u.fd (R.LNA_LANE_LOOP
        63) 0 2 = 0) && !u.injects 1 63 && !u.injects 2 63 && decide (u.laneSt 63 = 4)) = true ∧
    later (sensorLane 7 0 s0) (fun u => u.laneLocked 63 && decide (u.laneFunc 63 = 1) && decide (u.fd (R.LNA_LANE_LOOP
        63) 0 2 = 0) && !u.injects 1 63 && !u.injects 2 63 && decide (u.laneSt 63 = 7)) = true ∧
    later (sensorLane 3 3 s0) (fun u => u.laneLocked 63 && decide (u.laneFunc 63 = 1) && decide (u.fd (R.LNA_LANE_LOOP
        63) 0 2 = 3) && !u.injects 1 63 && !u.injects 2 63 && decide (u.laneSt 63 = 3)) = true ∧
    later (sensorLane 4 3 s0) (fun u => u.laneLocked 63 && decide (u.laneFunc 63 = 1) && decide (u.fd (R.LNA_LANE_LOOP
        63) 0 2 = 3) && !u.injects 1 63 && !u.injects 2 63 && decide (u.laneSt 63 = 4)) = true ∧
    later (sensorLane 7 3 s0) (fun u => u.laneLocked 63 && decide (u.laneFunc 63 = 1) && decide (u.fd (R.LNA_LANE_LOOP
        63) 0 2 = 3) && !u.injects 1 63 && !u.injects 2 63 && decide (u.laneSt 63 = 7)) = true ∧
    later ({ sensorLane 5 0 s0 with dmc := { s0.dmc with inj := [{ kind := 1, target := 63, left := 1 }] } }) (fun u
        => u.laneLocked 63 && decide (u.laneFunc 63 = 1) && u.injects 1 63) = true ∧
    later ({ sensorLane 5 0 s0 with dmc := { s0.dmc with inj := [{ kind := 2, target := 63, left := 1 }] } }) (fun u
        => u.laneLocked 63 && decide (u.laneFunc 63 = 1) && !u.injects 1 63 && u.injects 2 63) = true ∧
    (alignForm 2 alignPay = true ∧ fillForm 2 alignPay = false ∧ fillForm 1 (~~~fillPay) = true) ∧
    later (put [(R.LNA_LANE_STAT 63, 3)] s0) (fun u => decide (u.laneSt 63 = 3) && decide (tabGet (fun _ => 0)
        u.lnk.wasLane 63 = 0)) = true ∧
    later ({ put [(R.LNA_LANE_STAT 63, 3)] s0 with lnk := { s0.lnk with wasLane := [(63, 1)] } }) (fun u => decide
        (u.laneSt 63 = 3) && decide (tabGet (fun _ => 0) u.lnk.wasLane 63 ≠ 0)) = true ∧
    later (put [(R.LNA_PRBS_CTRL 63, 16), (R.LNA_LANE_LOOP 63, 0)] s0) (fun u => u.bt (R.LNA_PRBS_CTRL 63) 4 && decide
        (u.fd (R.LNA_LANE_LOOP 63) 0 2 = 0)) = true ∧
    later (put [(R.LNA_PRBS_CTRL 63, 16), (R.LNA_LANE_LOOP 63, 1)] s0) (fun u => u.bt (R.LNA_PRBS_CTRL 63) 4 && decide
        (u.fd (R.LNA_LANE_LOOP 63) 0 2 = 1)) = true ∧
    later (put [(R.LNA_PRBS_CTRL 63, 16), (R.LNA_LANE_LOOP 63, 2)] s0) (fun u => u.bt (R.LNA_PRBS_CTRL 63) 4 && decide
        (u.fd (R.LNA_LANE_LOOP 63) 0 2 = 2)) = true :=
  by
  refine ⟨?_, ?_, ?_, ?_, ?_, ?_, ?_, ?_, ?_, ?_, ?_, ?_, ?_, ?_, ?_, ?_, ?_, ?_⟩ <;> decide +kernel

theorem witness_PacketCommandsComplete :
    later (linked s0) (fun u => u.linkOn &&
        (match (u.fillSeen 0).receive 0 (header Dt.fs 0 9 ^^^ 1) [] 0 with | (x, v) => !hdrOk x.1 && v.groupUp 0)) =
        true ∧
    later (linked s0) (fun u => u.linkOn &&
        (match (u.fillSeen 0).receive 0 (header Dt.fs 0 9) [] 0 with | (x, v) => hdrOk x.1 && decide (hdrType x.1 = Dt.fs) && decide (v.openFrame = none)))
        = true ∧
    later (flying [{ frame with sensorFrame := 8 }] (linked s0)) (fun u => u.linkOn &&
        (match (u.fillSeen 0).receive 0 (header Dt.fs 0 9) [] 0 with | (x, v) => hdrOk x.1 && decide (hdrType x.1 = Dt.fs) && decide (v.openFrame = some { frame with sensorFrame := 8 }) && decide (hdrFrame x.1 = 9)))
        = true ∧
    later (flying [frame] (linked s0)) (fun u => u.linkOn &&
        (match (u.fillSeen 0).receive 0 (header Dt.fs 0 9) [] 0 with | (x, v) => hdrOk x.1 && decide (hdrType x.1 = Dt.fs) && decide (v.openFrame = some frame) && decide (frame.sensorFrame = hdrFrame x.1) && v.groupUp 0))
        = true ∧
    later (at_ 10000 (flying [frame] s0)) (fun u => decide (u.openFrame = some frame) && decide (u.ep.tFm + u.cf 0
        R.SLK_LINK_CFG 0 10 * 1000 < u.now) && !frame.fs.contains 47 && !frame.dead.contains 47) = true ∧
    later (flying [frame] (linked s0)) (fun u => u.groupUp 0 && u.linkOn &&
        (match u.receive 0 (header Dt.fe 0 9) [] 0 with | (x, v) => !v.lnk.grpSkip.contains 0 && v.groupUp 0 && hdrOk x.1 && decide (v.openFrame = some frame) && frame.takes 0 x.1 && decide (hdrType x.1 = Dt.fe)))
        = true ∧
    later (flying [frame] (linked s0)) (fun u => u.groupUp 0 && u.linkOn &&
        (match u.receive 0 (header Dt.raw 4 9) [1, 2, 3, 4] (w32 (crc32 [1, 2, 3, 4])) with | (x, v) => !v.lnk.grpSkip.contains 0 && v.groupUp 0 && hdrOk x.1 && decide (v.openFrame = some frame) && frame.takes 0 x.1 && payloadOk x.1 x.2.1 x.2.2 && hdrPixel x.1 && !frame.ovf && !(frame.stripes.getD (hdrStripe x.1) {}).drop))
        = true ∧
    later (flying [frame] (linked s0)) (fun u => u.groupUp 0 && u.linkOn &&
        (match u.receive 0 (header Dt.embed 4 9) [1, 2, 3, 4] (w32 (crc32 [1, 2, 3, 4])) with | (x, v) => !v.lnk.grpSkip.contains 0 && v.groupUp 0 && hdrOk x.1 && decide (v.openFrame = some frame) && frame.takes 0 x.1 && payloadOk x.1 x.2.1 x.2.2 && decide (hdrType x.1 = Dt.embed) && !frame.ovf))
        = true ∧
    later (flying [frame] (linked s0)) (fun u => u.groupUp 0 && u.linkOn &&
        (match u.receive 0 (header Dt.raw 4 9) [1, 2, 3, 4] 0 with | (x, v) => !v.lnk.grpSkip.contains 0 && v.groupUp 0 && hdrOk x.1 && decide (v.openFrame = some frame) && frame.takes 0 x.1 && !payloadOk x.1 x.2.1 x.2.2 && hdrPixel x.1 && !frame.ovf && !(frame.stripes.getD (hdrStripe x.1) {}).drop))
        = true ∧
    later (flying [frame] (linked s0)) (fun u => u.groupUp 0 && u.linkOn &&
        (match u.receive 0 (header Dt.embed 4 9) [1, 2, 3, 4] 0 with | (x, v) => !v.lnk.grpSkip.contains 0 && v.groupUp 0 && hdrOk x.1 && decide (v.openFrame = some frame) && frame.takes 0 x.1 && !payloadOk x.1 x.2.1 x.2.2 && decide (hdrType x.1 = Dt.embed) && !frame.ovf))
        = true ∧
    later (linked s0) (fun u => u.groupUp 0 && u.linkOn &&
        (match u.receive 0 (header 0x3F 0 0) [] 0 with | (x, v) => !v.lnk.grpSkip.contains 0 && v.groupUp 0 && hdrOk x.1)
        && (match u.receive 0 (header 0x3F 0 0 ^^^ 1) [] 0 with | (x, v) => !v.lnk.grpSkip.contains 0 && v.groupUp 0 && !hdrOk x.1))
        = true ∧
    later ({ linked s0 with lnk := { s0.lnk with bcOut := [bc] } }) (fun u => decide (u.linkSt ≠ 0) && u.groupUp 0 &&
        (match u.receive 0 (header Dt.reply 1 0) [6] (w32 (crc32 [6])) with | (x, v) => !v.lnk.grpSkip.contains 0 && v.groupUp 0 && hdrOk x.1 && decide (hdrType x.1 = Dt.reply) && payloadOk x.1 x.2.1 x.2.2 && decide ((payloadOf x.1 x.2.1).take 1 = [6]) && decide (v.lnk.bcOut.find? (fun b => decide (b.tag = 6)) = some bc)))
        = true ∧
    later ({ s0 with lnk := { s0.lnk with bcq := [bc] } }) (fun u => decide (u.lnk.bcq.find? (fun b => u.serves
        Src.SLK b.ctx) = some bc) && u.bcMay) = true ∧
    later (at_ (65535 * 1000) { s0 with lnk := { s0.lnk with bcOut := [bc] } }) (fun u => decide (u.lnk.bcOut.find?
        (u.bcDue 6) = some bc)) = true ∧
    later (put [(R.SLK_LINK_STAT, 3), (R.SLK_LANE_STAT 63, 0x5000)] { s0 with ep := { s0.ep with frame := 4 } }) (fun
        u => u.swapDue 63) = true ∧
    later (at_ 40000000 { s0 with lnk := { s0.lnk with startedAt := some 3 } }) (fun u => decide (u.lnk.startedAt =
        some 3) && decide (3 + 40000000 ≤ u.now)) = true :=
  by
  refine ⟨?_, ?_, ?_, ?_, ?_, ?_, ?_, ?_, ?_, ?_, ?_, ?_, ?_, ?_, ?_, ?_⟩ <;> decide +kernel

theorem witness_CorrectionAndCoderCommandsComplete :
    later (put [(R.SLK_STRIPE_CFG 0, 4)] (flying [{ frame with closed := true }] s0)) (fun u => decide (u.pscFrame 0 =
        some { frame with closed := true })) = true ∧
    later (flying [{ frame with coded := true, stripes := [{ cor := [[], []] }] }] s0) (fun u => decide (u.bkcFrame =
        some { frame with coded := true, stripes := [{ cor := [[], []] }] }) && decide (({ cor := [[], []] } :
        StripeSt).recon.length + 2 ≤ ({ cor := [[], []] } : StripeSt).cor.length)) = true ∧
    later (put [(R.BKC_JOB_PROD, 1), (R.BKC_JOB_CTRL, 256)] s0) (fun u => u.jobMay) = true ∧
    later ({ s0 with bkcJob := some { desc := [], aborted := false, startedAt := 0 } }) (fun u => u.bkcJob.isSome) =
        true :=
  by
  refine ⟨?_, ?_, ?_, ?_⟩ <;> decide +kernel

theorem witness_LandingAndPipelineCommandsComplete :
    later (flying [{ frame with coded := true, shipped := true }] (take 15 2 {} s0)) (fun u => u.slotLive 15 && decide
        (u.landNext 15 = some { frame with coded := true, shipped := true })) = true ∧
    later (take 15 4 {} s0) (fun u => decide (u.slotSt 15 = 4) && u.nvRange) = true ∧
    later (put [(R.SLK_FRAME_CFG, 2 * 4096)] (flying [{ frame with tap := some 0, stripes := [{ cor := [[], []] }] }]
        s0)) (fun u => decide (u.cpl.dev = none) && u.devNext.isSome) = true ∧
    later ({ flying [{ frame with closed := true, tapDone := true }] s0 with cpl := { s0.cpl with dev := some { no := 1, slot := 0, todo := [{ sc := 7, buf := 0, lut := [] }], outs := [], tapUe := [] } } })
        (fun u => (match u.cpl.dev with | some d => (d.todo.find? (fun x => decide (x.sc = 7))).isSome && decide (u.ing.frames.find? (fun f => decide (f.no = d.no)) = some { frame with closed := true, tapDone := true }) | none => false))
        = true ∧
    later ({ s0 with crs := { due := [{ ctx := 0, owner := 0, point := 0, scaler := 0, kind := 1, frame := 0, epoch := 0, flags := 0, rest := [] }], ring := [] } })
        (fun u => decide (u.crs.due.length = 1) && decide (tabGet (fun _ => 0) u.crs.ring 0 = 0)) = true ∧
    later ({ s0 with crs := { due := [{ ctx := 0, owner := 0, point := 0, scaler := 0, kind := 1, frame := 0, epoch := 0, flags := 0, rest := [] }], ring := [(0, 1)] } })
        (fun u => decide (u.crs.due.length = 1) && decide (tabGet (fun _ => 0) u.crs.ring 0 ≠ 0)) = true :=
  by
  refine ⟨?_, ?_, ?_, ?_, ?_, ?_⟩ <;> decide +kernel

theorem witness_VideoEngineCommandsComplete :
    later ({ put [(R.VCD_POOL_CFG, 1)] s0 with vcd := { s0.vcd with ses := [(63, some { vcs with live := true, pool := [0, 1] })], pend := [{ session := 63, out := { buf := 0, frame := 0, epoch := 0, flags := 0, tF := 0, w := 64, h := 64, fmt := 3, strideY := 0, strideC := 0, addr := 0 }, mtx := false, full := false, dest := true, poc := 0, sc := 0 }] } })
        (fun u => decide (u.vcd.pend.find? (fun o => decide (o.session = 63)) = some
        { session := 63, out := { buf := 0, frame := 0, epoch := 0, flags := 0, tF := 0, w := 64, h := 64, fmt := 3, strideY := 0, strideC := 0, addr := 0 }, mtx := false, full := false, dest := true, poc := 0, sc := 0 })
        && (match u.vc 63 with | some x => !x.closing && decide (x.queue.length + b2n x.cur.isSome < 2) && decide (64 ≤ x.maxW) && decide (64 ≤ x.maxH) && decide (2 * u.vcK x.profile x.maxW x.maxH ≤ x.bufs) | none => false))
        = true ∧
    later (s0) (fun u => decide (u.vcd.enc = none)) = true ∧
    later ({ s0 with vcd := { s0.vcd with enc := some 0 } }) (fun u => decide (u.vcd.enc = some 0)) = true ∧
    later (session 5 { vcs with dec := true, jobs := [job] } s0) (fun u => decide (u.vcd.dec = none) && !u.throttled
        && decide (u.decNext = some 5) && decide (u.vc 5 = some { vcs with dec := true, jobs := [job] })) = true ∧
    later ({ s0 with vcd := { s0.vcd with ses := [(5, some { vcs with dec := true, jobs := [job] })], dec := some 5 } })
        (fun u => decide (u.vcd.dec = some 5) && decide (u.vc 5 = some { vcs with dec := true, jobs := [job] })) =
        true :=
  by
  refine ⟨?_, ?_, ?_, ?_, ?_⟩ <;> decide +kernel

theorem witness_MonitorOutputCommandsComplete :
    later (put [(R.TIM_CAD_CFG 0, 1)] s0) (fun u => decide ((u.monOut 5).line = none) && !u.monTe 5 && newTick
        (u.monOut 5).tick (u.monTick 5)) = true ∧
    later (output 1 { regs := [(R.MON_OUT_CTRL 1, 1), (R.MON_OUT_DSI 1, 0x8000)], teDue := some 0 } s0) (fun u =>
        u.monTe 1 && decide ((u.monOut 1).line = none) && decide ((u.monOut 1).teDue = some 0)) = true ∧
    later (at_ 1310700000 (output 1 { regs := [(R.MON_OUT_CTRL 1, 1), (R.MON_OUT_DSI 1, 0x8000)] } s0)) (fun u =>
        u.monTe 1 && decide ((u.monOut 1).teDue = none) && !u.bt (R.MON_OUT_STAT 1) 1 && newTick (u.monOut 1).tick
        (u.monTick 1) && decide (((u.monOut 1).teAt.getD 0) + 20000 * (u.monOut 1).fd (R.MON_OUT_DSI_T 1) 16 16 ≤
        u.now)) = true ∧
    later (output 1 { dirty := some ⟨0, 0, 4, 4⟩ } s0) (fun u => decide ((u.monOut 1).dirty = some ⟨0, 0, 4, 4⟩)) =
        true ∧
    later (output 5 { line := some 0 } s0) (fun u => decide ((u.monOut 5).line = some 0) && decide (0 < ((u.monOut
        5).size 5).2)) = true ∧
    later (output 5 { line := some 2160 } s0) (fun u => decide ((u.monOut 5).line = some ((u.monOut 5).size 5).2)) =
        true :=
  by
  refine ⟨?_, ?_, ?_, ?_, ?_, ?_⟩ <;> decide +kernel

theorem witness_TimingEventCommandsComplete :
    later (s0) (fun u => decide (u.power = 0)) = true ∧
    later ({ s0 with tim := { s0.tim with sched := [{ pin := 3, strb := false, ts := 23 }] } }) (fun u => decide
        (u.schedFirst 3 false = some { pin := 3, strb := false, ts := 23 }) && decide (23 ≤ u.dev + 20)) = true ∧
    later ({ s0 with tim := { s0.tim with sched := [{ pin := 3, strb := true, ts := 3 }] } }) (fun u => decide
        (u.schedFirst 3 true = some { pin := 3, strb := true, ts := 3 }) && decide (3 ≤ u.dev)) = true ∧
    later ({ s0 with tim := { s0.tim with pulses := [(3, some { lead := 0, trail := 3 })] } }) (fun u => decide
        (tabGet (fun _ => none) u.tim.pulses 3 = some { lead := 0, trail := 3 }) && decide (3 ≤ u.dev)) = true ∧
    later (s0) (fun u => decide ((u.timLog 2 0 0 u.dev).2.bt R.TIM_GL_CFG 0 = false) && decide ((u.timLog 2 4 0
        u.dev).2.bt R.TIM_GL_CFG 0 ≠ true)) = true ∧
    later (put [(R.TIM_CAD_CFG 3, 2)] s0) (fun u => u.genCads.contains 3) = true ∧
    later (put [(R.TIM_TC_CFG, 16)] s0) (fun u => u.bt R.TIM_TC_CFG 4 && (tcIndex u.tcCode 0).isSome && !u.tim.ltcLost
        && u.ltcDue) = true ∧
    later (put [(R.TIM_TC_CFG, 8)] s0) (fun u => u.tcBaseTaken.bt R.TIM_TC_CFG 3) = true ∧
    later (s0) (fun u => !u.tcBaseTaken.bt R.TIM_TC_CFG 3) = true :=
  by
  refine ⟨?_, ?_, ?_, ?_, ?_, ?_, ?_, ?_, ?_⟩ <;> decide +kernel

theorem witness_PtpCommandsComplete :
    later (eth 32 s0) (fun u => u.ethTakes 0 (List.replicate 60 1) && u.ethTakes 1 (List.replicate 60 1)) = true ∧
    later ((eth 1 s0).setServo 0) (fun u => decide (u.fd R.TIM_PTP_CFG 0 2 ≠ 0) && u.ethUp 0 && decide (u.fd
        R.TIM_PTP_CFG 3 1 = 0) && !u.bt R.TIM_PTP_CFG 4 && decide ((u.wrs [(R.TIM_PTP_GM_LO, 0), (R.TIM_PTP_GM_HI,
        0)]).servo = 0)) = true ∧
    later ((eth 17 s0).setServo 0) (fun u => decide (u.fd R.TIM_PTP_CFG 0 2 ≠ 0) && u.ethUp 0 && decide (u.fd
        R.TIM_PTP_CFG 3 1 = 0) && u.bt R.TIM_PTP_CFG 4 && decide ((u.wrs [(R.TIM_PTP_GM_LO, 0), (R.TIM_PTP_GM_HI,
        0)]).servo = 0)) = true ∧
    later ((eth 1 s0).setServo 2) (fun u => decide (u.fd R.TIM_PTP_CFG 0 2 ≠ 0) && u.ethUp 0 && decide (u.fd
        R.TIM_PTP_CFG 3 1 = 0) && !u.bt R.TIM_PTP_CFG 4 && decide ((u.wrs [(R.TIM_PTP_GM_LO, 0), (R.TIM_PTP_GM_HI,
        0)]).servo = 2)) = true ∧
    later ((eth 17 s0).setServo 2) (fun u => decide (u.fd R.TIM_PTP_CFG 0 2 ≠ 0) && u.ethUp 0 && decide (u.fd
        R.TIM_PTP_CFG 3 1 = 0) && u.bt R.TIM_PTP_CFG 4 && decide ((u.wrs [(R.TIM_PTP_GM_LO, 0), (R.TIM_PTP_GM_HI,
        0)]).servo = 2)) = true ∧
    later ((eth 1 s0).setServo 3) (fun u => decide (u.fd R.TIM_PTP_CFG 0 2 ≠ 0) && u.ethUp 0 && decide (u.fd
        R.TIM_PTP_CFG 3 1 = 0) && !u.bt R.TIM_PTP_CFG 4 && decide ((u.wrs [(R.TIM_PTP_GM_LO, 0), (R.TIM_PTP_GM_HI,
        0)]).servo = 3)) = true ∧
    later ((eth 17 s0).setServo 3) (fun u => decide (u.fd R.TIM_PTP_CFG 0 2 ≠ 0) && u.ethUp 0 && decide (u.fd
        R.TIM_PTP_CFG 3 1 = 0) && u.bt R.TIM_PTP_CFG 4 && decide ((u.wrs [(R.TIM_PTP_GM_LO, 0), (R.TIM_PTP_GM_HI,
        0)]).servo = 3)) = true ∧
    later (eth 9 s0) (fun u => decide (u.fd R.TIM_PTP_CFG 0 2 ≠ 0) && u.ethUp 1 && decide (u.fd R.TIM_PTP_CFG 3 1 = 1)
        && !u.bt R.TIM_PTP_CFG 4 && decide (u.servo ≠ 5)) = true ∧
    (∀ u : State, 0 * 2 ^ 64 + 0 < u.ptpOwn ∧ u.ptpOwn ≤ (2 ^ 48 - 1) * 2 ^ 64 + (2 ^ 64 - 1)) ∧
    later (eth 10 s0) (fun u => u.ptpMay 1 2 && u.ptpMay 1 3) = true ∧
    later ((eth 1 s0).setServo 3) (fun u => u.ptpMay 0 1 && decide (u.servo = 3)) = true ∧
    later ((eth 1 s0).setServo 5) (fun u => u.ptpMay 0 0) = true ∧
    later ((put [(R.TIM_PTP_CFG, 17)] s0).setServo 2) (fun u => decide (u.servo = 2) && u.bt R.TIM_PTP_CFG 4) = true ∧
    later ((put [(R.TIM_PTP_CFG, 1)] s0).setServo 2) (fun u => decide (u.servo = 2) && !u.bt R.TIM_PTP_CFG 4) = true :=
  ⟨by decide +kernel, by decide +kernel, by decide +kernel, by decide +kernel, by decide +kernel, by decide +kernel, by
        decide +kernel, by decide +kernel, ptpOwn_bounds, by decide +kernel, by decide +kernel, by decide +kernel, by
        decide +kernel, by decide +kernel⟩

theorem witness_AudioEventCommandsComplete :
    later (port 7 1 {} s0) (fun u => decide (u.audSt 7 = 1) && decide ((u.audP 7).at_ 7 (u.audP 7).k0 ≤ u.dev)) = true ∧
    later (dev (10 ^ 9) (port 7 2 {} s0)) (fun u => decide (2 ≤ u.audSt 7) && decide ((u.audP 7).at_ 7 ((u.audP
        7).first 7 + (u.audP 7).len 7) ≤ u.dev) && decide ((u.audP 7).at_ 7 ((u.audP 7).first 7) ≤ u.dev)) = true ∧
    later (port 3 2 { regs := [(R.AUD_P_CFG 3, 4)] } s0) (fun u => (u.audP 3).follows 3 && decide (2 ≤ u.audSt 3)) =
        true ∧
    later (port 5 2 {} s0) (fun u => (u.audP 5).follows 5 && decide (2 ≤ u.audSt 5)) = true :=
  by
  refine ⟨?_, ?_, ?_, ?_⟩ <;> decide +kernel

theorem witness_StorageQueueCommandsComplete :
    later (sqOpen 31 squeue (bm s0)) (fun u => decide (u.sq 31 = some squeue) && !u.sqShut squeue) = true ∧
    later (sqOpen 31 { squeue with cmds := [sqc 1] } (bm s0)) (fun u => decide (u.sqNext 31 1 = some
        ({ squeue with cmds := [sqc 1] }, sqc 1))) = true ∧
    later (sqOpen 31 { squeue with cmds := [sqc 2] } (bm s0)) (fun u => decide (u.sqNext 31 2 = some
        ({ squeue with cmds := [sqc 2] }, sqc 2)) && u.nvRange && !u.i2cHolds (sqc 2)) = true ∧
    later (sqOpen 31 { squeue with cmds := [sqc 3] } (bm s0)) (fun u => decide (u.sqNext 31 3 = some
        ({ squeue with cmds := [sqc 3] }, sqc 3)) && u.nvRange && !u.i2cHolds (sqc 3)) = true ∧
    later (sqOpen 31 { squeue with cmds := [sqc 4] } (bm s0)) (fun u => decide (u.sqNext 31 4 = some
        ({ squeue with cmds := [sqc 4] }, sqc 4))) = true ∧
    later (sqOpen 31 { squeue with cmds := [{ sqc 1 with started := true }] } (bm s0)) (fun u => decide (u.sq 31 =
        some { squeue with cmds := [{ sqc 1 with started := true }] }) && !(sqc 1).writes) = true ∧
    later (sqOpen 31 { squeue with cmds := [{ sqc 2 with started := true }] } (bm s0)) (fun u => decide (u.sq 31 =
        some { squeue with cmds := [{ sqc 2 with started := true }] }) && !u.i2cHolds ({ sqc 2 with started := true })
        && !u.sqStarted.any (fun d => d.writes && d.overlaps ({ sqc 2 with started := true }) && decide (d.seq <
        ({ sqc 2 with started := true } : SqCmd).seq))) = true ∧
    later ({ s0 with lnd := { s0.lnd with i2c := some (3, [], 0) } }) (fun u => decide (u.lnd.i2c = some (3, [], 0)))
        = true :=
  by
  refine ⟨?_, ?_, ?_, ?_, ?_, ?_, ?_, ?_⟩ <;> decide +kernel

theorem witness_ControlBusCommandsComplete :
    later (put [(R.CBS_TGT_ADDR, 0x42)] s0) (fun u => (u.tgtEnd.tgtAck 0x42).1 && !(u.tgtEnd.tgtAck 0x43).1) = true ∧
    later (xfer 3 { addr := 1, wlen := 1, rlen := 0, data := [5], abort := true } s0) (fun u => decide (u.xfer 3 =
        some { addr := 1, wlen := 1, rlen := 0, data := [5], abort := true })) = true ∧
    later (xfer 3 { addr := 1, wlen := 1, rlen := 0, data := [5], abort := false } s0) (fun u => decide (u.xfer 3 =
        some { addr := 1, wlen := 1, rlen := 0, data := [5], abort := false })) = true ∧
    later (put [(R.AON_PWR_STAT, 2), (R.AON_WAKE, 2147483648)] s0) (fun u => !u.bt R.AON_PWR_STAT 2 && decide (u.power
        = 2) && decide (u.bt R.AON_WAKE 31 = true)) = true ∧
    later (put [(R.AON_PWR_STAT, 2), (R.AON_WAKE, 0)] s0) (fun u => !u.bt R.AON_PWR_STAT 2 && decide (u.power = 2) &&
        decide (u.bt R.AON_WAKE 31 = false)) = true ∧
    later (put [(R.AON_PWR_STAT, 3), (R.AON_WAKE, 2147483648)] s0) (fun u => !u.bt R.AON_PWR_STAT 2 && decide (u.power
        = 3) && decide (u.bt R.AON_WAKE 31 = true)) = true ∧
    later (put [(R.AON_PWR_STAT, 0), (R.AON_WAKE, 0)] s0) (fun u => !u.bt R.AON_PWR_STAT 2 && decide (u.power = 0) &&
        decide (u.bt R.AON_WAKE 31 = false)) = true ∧
    later (put [(R.AON_PWR_STAT, 1), (R.AON_WAKE, 2147483648)] s0) (fun u => !u.bt R.AON_PWR_STAT 2 && decide (u.power
        = 1) && decide (u.bt R.AON_WAKE 31 = true)) = true :=
  by
  refine ⟨?_, ?_, ?_, ?_, ?_, ?_, ?_, ?_⟩ <;> decide +kernel

theorem witness_MemorySystemCommandsComplete :
    later (put [(R.SPD_BANK_OWN 63, 0x140)] s0) (fun u => decide (fld (u.rd (R.SPD_BANK_OWN 63)) 8 2 = 1) && bit (u.rd
        (R.SPD_BANK_OWN 63)) 6) = true ∧
    later (put [(R.SPD_BANK_OWN 63, 0x100)] s0) (fun u => decide (fld (u.rd (R.SPD_BANK_OWN 63)) 8 2 = 1) && !bit
        (u.rd (R.SPD_BANK_OWN 63)) 6) = true ∧
    later (put [(R.CHT_CFG 127, 4)] s0) (fun u => u.chuteTakes 127 2 && decide ((u.chute 127).held = [])) = true ∧
    later (chute 127 { held := [(0, word)] } s0) (fun u => decide ((u.chute 127).held ≠ [])) = true ∧
    later (chute 127 { words := [word] } s0) (fun u => decide ((u.chute 127).words = [word]) && decide ((u.chute
        127).readable u.now ≠ 0) && word.good) = true ∧
    later (at_ 2047 { s0 with dmc := { s0.dmc with rows := [(31 * 16 + 15, (1, 0))] } }) (fun u => decide (tabGet (fun
        _ => (0, 0)) (u.dramDrain 31).dmc.rows (31 * 16 + 15) = (1, 0)) && decide (0 ≠ (u.dramDrain 31).now) && decide
        (0 + (u.dramDrain 31).fd R.DMC_PAGE_IDLE 0 11 ≤ (u.dramDrain 31).now)) = true ∧
    later (at_ 1000 (put [(R.DMC_SR_IDLE, 1)] s0)) (fun u => decide ((u.dramDrain 31).fd R.DMC_SR_IDLE 0 16 ≠ 0) &&
        !(u.dramDrain 31).dmc.waits 31 && decide (tabGet (fun _ => 0) (u.dramDrain 31).dmc.last 31 + (u.dramDrain
        31).fd R.DMC_SR_IDLE 0 16 * 1000 ≤ (u.dramDrain 31).now) && !(u.dramDrain 31).linkUp) = true :=
  by
  refine ⟨?_, ?_, ?_, ?_, ?_, ?_, ?_⟩ <;> decide +kernel

theorem witness_MaintenanceActivityCommandsComplete :
    later (at_ (10 ^ 9) (put [(R.DMC_RETRAIN, 1), (R.MBX 0 0x04, 1)] s0)) (fun u => u.schedDue) = true ∧
    later (doing [{ act 3 with running := false }] s0) (fun u => decide (u.nextDeferred (u.pwr.acts.filter
        (·.running)) (u.pwr.acts.filter (fun a => !a.running)) = some { act 3 with running := false })) = true ∧
    later (doing [{ act 1 with abort := true }] s0) (fun u => decide (u.runningAct 1 = some
        { act 1 with abort := true }) && decide ((act 1).chans = [])) = true ∧
    later (doing [{ act 2 with abort := true }] s0) (fun u => decide (u.runningAct 2 = some
        { act 2 with abort := true })) = true ∧
    later (doing [{ act 3 with abort := true }] s0) (fun u => decide (u.runningAct 3 = some
        { act 3 with abort := true })) = true ∧
    later (at_ (2 ^ 40) (doing [{ act 4 with abort := true }] s0)) (fun u => decide (u.runningAct 4 = some
        { act 4 with abort := true }) && decide ((act 4).startAt + u.dramMiB * 0x100000 ≤ u.now)) = true ∧
    later (doing [{ act 1 with abort := false }] s0) (fun u => decide (u.runningAct 1 = some
        { act 1 with abort := false }) && !u.throttled && u.nvRange && decide (u.pwr.imgOpen = none) && decide ((act
        1).chans = [])) = true ∧
    later (doing [{ act 2 with abort := false }] s0) (fun u => decide (u.runningAct 2 = some
        { act 2 with abort := false }) && !u.throttled && u.nvRange && decide (u.pwr.imgOpen = none)) = true ∧
    later (doing [{ act 3 with abort := false }] s0) (fun u => decide (u.runningAct 3 = some
        { act 3 with abort := false }) && !u.throttled && u.nvRange && decide (u.pwr.imgOpen = none)) = true ∧
    later (at_ (2 ^ 40) (doing [{ act 4 with abort := false }] s0)) (fun u => decide (u.runningAct 4 = some
        { act 4 with abort := false }) && !u.throttled && u.nvRange && decide (u.pwr.imgOpen = none) && decide ((act
        4).startAt + u.dramMiB * 0x100000 ≤ u.now)) = true :=
  by
  refine ⟨?_, ?_, ?_, ?_, ?_, ?_, ?_, ?_, ?_, ?_⟩ <;> decide +kernel

theorem witness_PowerAndBootCommandsComplete :
    later (s0) (fun u => u.awakeDev && u.pwr.mainGood && decide (u.power ≠ 3)) = true ∧
    later ({ s0 with pwr := { s0.pwr with p2At := some 3 } }) (fun u => decide (u.pwr.p2At = some 3) && decide (u.now
        ≤ 3 + 10 ^ 9) && decide (u.sqStarted = [])) = true ∧
    later ({ sqOpen 31 { squeue with cmds := [{ sqc 1 with started := true }] } s0 with pwr := { s0.pwr with p2At := some 3 } })
        (fun u => decide (u.pwr.p2At = some 3) && decide (u.now ≤ 3 + 10 ^ 9) && decide (u.sqStarted ≠ [])) = true ∧
    later (at_ (10 ^ 9) { s0 with pwr := { s0.pwr with p2At := some 3 } }) (fun u => decide (u.pwr.p2At = some 3) &&
        !u.pwr.p2Ack && decide (3 + 10 ^ 9 ≤ u.now)) = true ∧
    later (put [(R.AON_PWR_STAT, 3)] s0) (fun u => u.pwr.mainGood && decide (u.power = 3)) = true ∧
    later ({ s0 with pwr := { s0.pwr with mainGood := false, p3At := some 0, bakEx := true } }) (fun u =>
        !u.pwr.mainGood && decide (u.pwr.p3At = some 0) && u.pwr.bakEx) = true ∧
    later (s0) (fun u => u.bootMay) = true ∧
    later (at_ (2 * 10 ^ 9) (boot { wait := some 3 } s0)) (fun u => decide (u.pwr.boot.wait = some 3) && decide (3 + 2
        * 10 ^ 9 ≤ u.now)) = true ∧
    later (at_ (10 ^ 10) (boot { readyAt := some 3 } s0)) (fun u => decide (u.pwr.boot.readyAt = some 3) && decide (3
        + 10 ^ 10 ≤ u.now)) = true :=
  by
  refine ⟨?_, ?_, ?_, ?_, ?_, ?_, ?_, ?_, ?_⟩ <;> decide +kernel

theorem witness_ResponseHasHeader :
    255 < 256 ∧ (List.replicate 60 (0 : Word)).length ≤ 60 :=
  by decide

theorem witness_CommitQueueHoldsEight :
    served 0x0202 [] ({ s0 with ep := { s0.ep with queue := List.replicate 8 commit } } |> asks 0x0202 0 0 [0, 0])
        (fun u r => decide (8 ≤ u.depth 0)) = true ∧
    served 0x0202 [] ({ s0 with ep := { s0.ep with queue := List.replicate 7 commit } } |> asks 0x0202 0 0 [0, 0])
        (fun u r => decide (u.depth 0 < 8)) = true ∧
    (∃ t, exec (.epochCommit 3 (call []) []) (s0 |> asks 0x0202 0 0 [0, 0]) = .next t) :=
  ⟨by decide +kernel, by decide +kernel, ⟨_, rfl⟩⟩

theorem witness_ViolationReadAnswers :
    served 0x0306 [] (s0 |> asks 0x0306 0 0 [0x7F]) (fun u r => decide (r.f 0 0 6 = 63) && bit (r.w 0) 6) = true ∧
    (put [(R.CTX_ENT_OWN 256, 0x141), (R.PART_CTRL 1, 1)] s0 |> asksBy 1 0x0306 0 256 [0x41]).admits 0x0306 3
        { call [] with part := 1 } = true ∧
    (put [(R.CTX_ENT_OWN 256, 0x141), (R.PART_CTRL 1, 1)] s0 |> asksBy 1 0x0306 0 256 [2]).admits 0x0306 3
        { call [] with part := 1 } = true ∧
    (put [(R.CTX_ENT_OWN 256, 0x141), (R.PART_CTRL 1, 1)] s0 |> asksBy 1 0x0306 0 256 [1]).admits 0x0306 3
        { call [] with part := 1 } = true :=
  by
  refine ⟨?_, ?_, ?_, ?_⟩ <;> decide +kernel

theorem witness_TakeDeleteFreesSlot :
    served 0x0508 [] (take 15 5 {} s0 |> asks 0x0508 0 0 [15]) (fun u r => decide (u.slotOwner 15 = 0) && decide
        (u.slotSt 15 = 5) && decide ((u.slot 15).reads = [])) = true ∧
    served 0x0508 [] (take 15 5 { reads := [{ id := 0, left := 1, done := 0, bad := false }] } s0 |> asks 0x0508 0 0
        [15]) (fun u r => decide (u.slotOwner 15 = 0) && decide (u.slotSt 15 = 5) && decide ((u.slot 15).reads ≠ []))
        = true :=
  by
  refine ⟨?_, ?_⟩ <;> decide +kernel

theorem witness_PowerDownRefusedWhileArmed :
    served 0x0E01 [] (take 15 2 {} s0 |> asks 0x0E01 0 0 [2]) (fun u r => decide (u.slotSt 15 = 2) && decide (u.power
        < 2) && decide (r.f 0 0 2 = 2)) = true ∧
    served 0x0E01 [] (take 15 3 {} s0 |> asks 0x0E01 0 0 [3]) (fun u r => decide (u.slotSt 15 = 3) && decide (u.power
        < 2) && decide (r.f 0 0 2 = 3)) = true :=
  by
  refine ⟨?_, ?_⟩ <;> decide +kernel

theorem witness_StorageWritesKeepNvOutsideRange :
    later (put [(R.THM_TJ, 1521)] (sqOpen 31 { squeue with cmds := [sqc 2] } (bm s0))) (fun u => !u.nvRange && decide
        (u.sqNext 31 2 = some ({ squeue with cmds := [sqc 2] }, sqc 2))) = true ∧
    later (put [(R.THM_TJ, 1521)] (sqOpen 31 { squeue with cmds := [sqc 3] } (bm s0))) (fun u => !u.nvRange && decide
        (u.sqNext 31 3 = some ({ squeue with cmds := [sqc 3] }, sqc 3))) = true :=
  by
  refine ⟨?_, ?_⟩ <;> decide +kernel

theorem witness_BackupStatusAndBootInfo :
    (s0 |> asks 0x0E04 0 0 []).admits 0x0E04 3 (call []) = true ∧
    (s0 |> asks 0x0E05 0 0 []).admits 0x0E05 3 (call []) = true :=
  by
  refine ⟨?_, ?_⟩ <;> decide +kernel

theorem witness_UnmappedAccessIsSuppressed :
    ∀ a ∈ [0x1001000000, 0x1300000000, 0x4002000000, 0x7FFFFFFFFF, s0.dramEnd, 0xFFFFFFFFFF], s0.where_ a = .nowhere :=
  by decide +kernel

theorem witness_PendingBitClears :
    later (evq 255 { pend := true, lastEv := some 3 } s0) (fun u => u.owns 0 255 && (u.evq 255).pend && decide ((u.evq
        255).lastEv = some u.now) && decide ((u.evq 255).lastMsg ≠ some u.now)) = true ∧
    later (evq 255 { pend := true, lastEv := some 2 } s0) (fun u => u.owns 0 255 && decide ((u.evq 255).lastEv ≠ some
        u.now) && u.linkAlive) = true :=
  by
  refine ⟨?_, ?_⟩ <;> decide +kernel

theorem witness_BoundaryFormsEpoch :
    later (at_ 9000 { s0 with ep := { s0.ep with queue := [] } }) (fun u => decide (((u.count true).takeCommits
        (u.count true).ep.frame (u.count true).banksFull [] [] (heads (u.count true).ep.queue)).1 = [])) = true ∧
    later (at_ 9000 { s0 with ep := { s0.ep with queue := [commit] } }) (fun u => decide (((u.count true).takeCommits
        (u.count true).ep.frame (u.count true).banksFull [] [] (heads (u.count true).ep.queue)).1 ≠ [])) = true :=
  by
  refine ⟨?_, ?_⟩ <;> decide +kernel

theorem witness_ChutesLoseWordsOnlyByReads :
    (∃ t, exec (.chuteRead 3 127) (chute 127 { words := [word] } s0) = .next t) ∧
    (∃ t, exec (.chuteWrite 3 127 2 5 false) (chute 127 { words := [word] } s0) = .next t) ∧
    movesEpoch (.chuteWrite 3 127 2 5 false) = false :=
  ⟨⟨_, rfl⟩, ⟨_, rfl⟩, rfl⟩

theorem witness_AnswerFrame :
    (List.replicate 60 (0 : Word)).length ≤ 60 :=
  by decide

theorem witness_ReportsChangeNothing :
    (∀ code ∈ [0x0100, 0x0101, 0x0206, 0x0403, 0x050A, 0x0603, 0x0804, 0x0901, 0x0907, 0x0A05, 0x0B04, 0x0C02, 0x0D04,
        0x0E02, 0x0E04, 0x0E05], (s0 |> asks code 0 0 []).admits code 3 (call []) = true) ∧
    ((s0 |> asks 0x0100 0 0 []).pwr.acts.length ≤ 60 ∧ ∃ t, exec (.nop 3 (call [])) (s0 |> asks 0x0100 0 0 []) = .next
        t) :=
  ⟨by decide +kernel, ⟨by decide +kernel, _, rfl⟩⟩

theorem witness_OnlyListedRegistersChange :
    (∃ t, exec (.chuteWrite 3 127 2 5 false) s0 = .next t) ∧
    (∃ t, exec (.nullPacket 3 47 0) (linked s0) = .next t) ∧
    (linked s0).dmc.inj.all (fun j => decide (2 ≤ j.kind)) = true ∧
    (∃ t, exec (.laneCdrTimeout 3 63) { s0 with lnk := { s0.lnk with wasLane := [(63, 1)] } } = .next t) ∧
    tabGet (fun _ => 0) ({ s0 with lnk := { s0.lnk with wasLane := [(63, 1)] } } : State).lnk.wasLane 63 ≠ 0 :=
  ⟨⟨_, rfl⟩, ⟨_, rfl⟩, by decide +kernel, ⟨_, rfl⟩, by decide +kernel⟩

theorem witness_StoresChangeOnlyTheirBytes :
    served 0x0108 [1, 2, 3, 4] (bm mem0 |> asks 0x0108 2 0 (dma 4 0)) (fun u r => decide (r.inLen ≠ 0) && decide
        (u.memBad 0 0x8000000FFC r.inLen = none) && decide (u.memBad 0 0x8000001000 r.inLen ≠ none)) = true ∧
    served 0x0108 [] (bm mem0 |> asks 0x0108 2 0 (dma 0 0)) (fun u r => decide (r.inLen = 0)) = true ∧
    ((held 1 s0).where_ 0x80000FFFFC = .dram ∧ 0x80000FFFFC < (held 1 s0).fwBase ∧ (held 1 s0).inPart 0 0x80000FFFFC 4
        = true) ∧
    (let s := put [(R.SPD_BANK_OWN 63, 0)] s0; s.where_ 0x4001FFFFFC = .spd ∧ s.spdMay 0 0x4001FFFFFC = true) ∧
    ((put [(R.SPD_BANK_OWN 63, 0x140)] s0).fd (R.SPD_BANK_OWN 63) 8 2 = 1 ∧ (put [(R.SPD_BANK_OWN 63, 0x140)] s0).bt
        (R.SPD_BANK_OWN 63) 6 = true) ∧
    (∃ t, exec (.spdHandoverComplete 3 63) s0 = .next t) :=
  ⟨by decide +kernel, by decide +kernel, by decide +kernel, by decide +kernel, by decide +kernel, ⟨_, rfl⟩⟩

end Sys2Proof.Tests
end

section
/-!
The architecture statements: suppressed accesses (R8, R108, R109) and full commit queues (R22).
-/

namespace Sys2Proof.Proofs

open Sys2Proof Sys2Proof.Machine Sys2Proof.Laws

/-! ### Suppressed accesses (R8, R108, R109) -/

/-- What Table 1-1 leaves below the scratchpad: no window holds an address whose 16 MiB unit starts none. -/
theorem where_below_spd {s : State} {a : Nat}
    (hw : a / 0x1000000 ∉ ([0x10, 0x11, 0x12, 0x20, 0x21, 0x22, 0x23, 0x24, 0x25, 0x26, 0x27, 0x28, 0x29, 0x2A, 0x2B, 0x2C,
      0x30, 0x31, 0x32, 0x3F].map (· * 0x100))) (ha : a < 0x4000000000) : s.where_ a = .nowhere := by
  unfold State.where_
  rw [if_neg, if_neg (by omega), if_neg (by omega)]
  rintro ⟨hb, hlow⟩
  exact hw (List.mem_map.mpr ⟨_, hb, by omega⟩)

/-- Above the blocks every address is scratchpad, DRAM or nothing. -/
theorem where_above_blocks {s : State} {a : Nat} (hspd : 0x4002000000 ≤ a) (hdram : a < 0x8000000000 ∨ s.dramEnd ≤ a) :
    s.where_ a = .nowhere := by
  unfold State.where_
  rw [if_neg, if_neg (by omega), if_neg (by omega)]
  rintro ⟨hb, -⟩
  simp only [List.mem_cons, List.not_mem_nil, or_false] at hb
  omega

/-- A read of no window answers 0, not BUSY, and is a violation. -/
theorem readAt_nowhere {s : State} {a : Nat} (p ctx : Nat) (h : s.where_ a = .nowhere) :
    s.readAt p ctx a = (0, false, s.viol p Viol.noWindow ctx a) := by
  unfold State.readAt; rw [h]

/-- A write to no window is a violation and nothing else. -/
theorem writeAt_nowhere {s : State} {a : Nat} (p ctx : Nat) (v : Word) (more : Nat) (h : s.where_ a = .nowhere) :
    s.writeAt p ctx a v more = s.viol p Viol.noWindow ctx a := by
  unfold State.writeAt; rw [h]

/-- A violation changes registers alone. -/
theorem viol_only (s : State) (p kind ctx a : Nat) :
    s.viol p kind ctx a = ({ s with regs := (s.viol p kind ctx a).regs } : State) := by
  unfold State.viol; rw [wrs_only]; rfl

/-- Past its counter, a violation leaves every register alone that is not one of the partition's four record words (R109). -/
theorem rd_viol_not_last {s : State} {p kind ctx a b : Nat} (hb : ∀ j : Fin 4, b ≠ R.CTX_VIOL_LAST p j) :
    (s.viol p kind ctx a).rd b =
      (s.wr (R.CTX_VIOL_CNT p kind) (w32 (min 0xFFFFFFFF ((s.rd (R.CTX_VIOL_CNT p kind)).toNat + 1)))).rd b := by
  unfold State.viol
  refine rd_wrs_ne (fun e he => ?_)
  simp only [List.mem_cons, List.not_mem_nil, or_false] at he
  rcases he with rfl | rfl | rfl | rfl
  · exact hb 0
  · exact hb 1
  · exact hb 2
  · exact hb 3

/-- The counters of accesses at no window are none of the record words, for any partition number. -/
theorem cnt_noWindow_ne_last (p : Nat) (j : Fin 4) : R.CTX_VIOL_CNT p Viol.noWindow ≠ R.CTX_VIOL_LAST p j := by
  unfold R.CTX_VIOL_CNT R.CTX_VIOL_LAST Viol.noWindow; omega

/-- Settles O53: both accesses reduce to `viol`, which counts once, records, and writes registers only. -/
theorem unmappedAccessIsSuppressed : Obligations.UnmappedAccessIsSuppressed := by
  unfold Obligations.UnmappedAccessIsSuppressed
  intro s t p ctx a more v
  refine ⟨?_, fun h ht => ?_⟩
  · rintro (⟨hw, ha⟩ | ⟨hlo, hhi⟩ | ⟨hlo, hend⟩)
    · exact where_below_spd hw ha
    · exact where_above_blocks hlo (.inl hhi)
    · exact where_above_blocks (by omega) (.inr hend)
  · subst ht
    refine ⟨readAt_nowhere p ctx h, writeAt_nowhere p ctx v more h, viol_only .., ?_, fun b hcnt hlast => ?_⟩
    · rw [rd_viol_not_last (cnt_noWindow_ne_last p), rd_wr_self]
    · rw [rd_viol_not_last hlast, rd_wr_ne hcnt]

/-! ### Commit queues (R22) -/

/-- The depth of a commit queue is read from the epoch state. -/
theorem depth_congr {s t : State} (h : t.ep = s.ep) (p : Nat) : t.depth p = s.depth p := by
  unfold State.depth; rw [h]

/-- So is a staging set. -/
theorem stageSet_congr {s t : State} (h : t.ep = s.ep) (p : Nat) : t.stageSet p = s.stageSet p := by
  unfold State.stageSet; rw [h]

@[simp] theorem answer_ep (s : State) (p slot st : Nat) (pay : List Word) : (s.answer p slot st pay).ep = s.ep := by
  rw [(answer_only s p slot st pay).1]

/-- Taking a command out of its slot touches no epoch state. -/
@[simp] theorem begun_ep (s : State) (dt : Nat) (c : Call) : (s.begun dt c).ep = s.ep := rfl

/-- Answering or parking a served command leaves the epoch state as its meaning made it. -/
theorem kilel_ep {code dt : Nat} {args : Req → State → Bool} {body : Req → State → Ans} {c : Call} {s : State}
    (h : s.admits code dt c = true) (ha : args (s.asked dt c) (s.taken dt c) = true) :
    (kilel code args body dt c s).ep = (ansSt (body (s.asked dt c) (s.begun dt c))).ep := by
  cases hb : body (s.asked dt c) (s.begun dt c) with
  | done st pay v => rw [kilel_done h ha hb, answer_ep]; rfl
  | wait k v => rw [kilel_wait h ha hb]; rfl

/-- A commit to a full queue is refused before anything of it is looked at. -/
theorem submit_full {s : State} {p : Nat} (h : 8 ≤ s.depth p) (ctx : Nat) (es : Over) (target : Nat) (sensor : List SensorWrite) :
    s.submit p ctx es target sensor = (St.QUEUE_FULL, none, s) := by
  unfold State.submit; rw [if_pos h]

/-- `EPOCH_COMMIT` to a full queue answers QUEUE_FULL and does not unstage. -/
theorem epochCommit_full {s : State} {r : Req} (sensor : List SensorWrite) (h : 8 ≤ s.depth r.part) :
    epochCommit sensor r s = .done St.QUEUE_FULL [] s := by
  unfold epochCommit; rw [submit_full h]; rfl

/-- `EPOCH_COMMIT` is a Kilel command without argument checks of its own. -/
theorem exec_epochCommit (dt : Nat) (c : Call) (sensor : List SensorWrite) (s : State) :
    exec (.epochCommit dt c sensor) s = .next (kilel 0x0202 (fun _ _ => true) (epochCommit sensor) dt c s) := rfl

/-- Settles O47: a full queue is refused by `epochCommit_full`; otherwise `commit_depth` bounds what the meaning leaves, and
the answer keeps it. -/
theorem commitQueueHoldsEight : Obligations.CommitQueueHoldsEight := by
  unfold Obligations.CommitQueueHoldsEight
  intro dt c sensor s u t hadm hu he
  subst hu
  rw [exec_epochCommit] at he
  obtain rfl := Host.Outcome.next.inj he
  refine ⟨fun hfull => ?_, fun hroom p hp => ?_⟩
  · have hbody : epochCommit sensor (s.asked dt c) (s.begun dt c) = .done St.QUEUE_FULL [] (s.begun dt c) :=
      epochCommit_full sensor (by rwa [asked_part])
    rw [kilel_done hadm rfl hbody]
    have hep : ((s.begun dt c).answer c.part c.slot St.QUEUE_FULL []).ep = s.ep := by rw [answer_ep, begun_ep]
    exact ⟨rfl, stageSet_congr hep _, congrArg (·.queue) hep⟩
  · rw [depth_congr (kilel_ep hadm rfl)]
    exact commit_depth sensor _ _ p (by rwa [asked_part]) (by rwa [depth_congr (begun_ep s dt c)])

end Sys2Proof.Proofs
end

section
/-!
The mailbox statements: the response of a command (R53, R57).
-/

namespace Sys2Proof.Proofs

open Sys2Proof Sys2Proof.Machine Sys2Proof.Laws

/-! ### The two packed header words (Table 2-9) -/

/-- OPCODE, SEQ and STATUS of header word 0. -/
theorem fld_header0 {op seq status : Nat} (ho : op < 2 ^ 16) (hq : seq < 2 ^ 8) (hs : status < 2 ^ 8) :
    fld (w32 (op + seq * 2 ^ 16 + status * 2 ^ 24)) 0 16 = op ∧
    fld (w32 (op + seq * 2 ^ 16 + status * 2 ^ 24)) 16 8 = seq ∧
    fld (w32 (op + seq * 2 ^ 16 + status * 2 ^ 24)) 24 8 = status := by
  have hfit : op + seq * 2 ^ 16 + status * 2 ^ 24 < 2 ^ 32 := by omega
  rw [fld_w32 hfit, fld_w32 hfit, fld_w32 hfit]
  omega

theorem b2n_lt_two (b : Bool) : b2n b < 2 := by cases b <;> decide

theorem b2n_eq_one (b : Bool) : decide (b2n b = 1) = b := by cases b <;> rfl

/-- CTX, LENGTH and REPLAYED of header word 1, and its two reserved fields. -/
theorem fld_header1 {ctx len : Nat} (b : Bool) (hc : ctx < 2 ^ 12) (hl : len < 2 ^ 8) :
    fld (w32 (ctx + len * 2 ^ 16 + b2n b * 2 ^ 24)) 0 12 = ctx ∧
    fld (w32 (ctx + len * 2 ^ 16 + b2n b * 2 ^ 24)) 12 4 = 0 ∧
    fld (w32 (ctx + len * 2 ^ 16 + b2n b * 2 ^ 24)) 16 8 = len ∧
    bit (w32 (ctx + len * 2 ^ 16 + b2n b * 2 ^ 24)) 24 = b ∧
    fld (w32 (ctx + len * 2 ^ 16 + b2n b * 2 ^ 24)) 25 7 = 0 := by
  have hb := b2n_lt_two b
  have hfit : ctx + len * 2 ^ 16 + b2n b * 2 ^ 24 < 2 ^ 32 := by omega
  have hbit : (ctx + len * 2 ^ 16 + b2n b * 2 ^ 24) / 2 ^ 24 % 2 = b2n b := by omega
  have hrep : bit (w32 (ctx + len * 2 ^ 16 + b2n b * 2 ^ 24)) 24 = b := by
    rw [bit, w32, BitVec.toNat_ofNat, Nat.mod_eq_of_lt hfit, hbit, b2n_eq_one]
  rw [fld_w32 hfit, fld_w32 hfit, fld_w32 hfit, fld_w32 hfit]
  exact ⟨by omega, by omega, by omega, hrep, by omega⟩

/-! ### What a response writes, and what is read back -/

/-- The four header writes of a response. -/
def headerWrites (s : State) (slot : Nat) (c : Cached) (replayed : Bool) : List (Nat × Word) :=
  [(R.MBX c.part (0x2000 + 0x100 * slot), w32 (c.op + c.seq * 2 ^ 16 + c.status * 2 ^ 24)),
    (R.MBX c.part (0x2000 + 0x100 * slot) + 4, w32 (c.ctx + c.payload.length * 2 ^ 16 + b2n replayed * 2 ^ 24)),
    (R.MBX c.part (0x2000 + 0x100 * slot) + 8, c.cookie),
    (R.MBX c.part (0x2000 + 0x100 * slot) + 12, w32 s.short)]

/-- The payload writes of a response. -/
def payloadWrites (slot : Nat) (c : Cached) : List (Nat × Word) :=
  (List.range c.payload.length).map (fun i => (R.MBX c.part (0x2000 + 0x100 * slot) + 16 + 4 * i, c.payload.getD i 0))

theorem writeResponse_eq (s : State) (slot : Nat) (c : Cached) (replayed : Bool) :
    s.writeResponse slot c replayed =
      (((s.wrs (headerWrites s slot c replayed)).wrs (payloadWrites slot c)).setSlot c.part slot Slot.DONE).intSet c.part
        (2 ^ slot) := rfl

/-- In the response areas, only the header and payload writes of a response are seen: the slot state and the interrupt
status lie below. -/
theorem rd_writeResponse_area {s : State} {slot b : Nat} {c : Cached} {replayed : Bool} (hb : R.MBX c.part 0x2000 ≤ b) :
    (s.writeResponse slot c replayed).rd b = ((s.wrs (headerWrites s slot c replayed)).wrs (payloadWrites slot c)).rd b := by
  unfold R.MBX at hb
  rw [writeResponse_eq, rd_intSet _ _ _ _ (by unfold R.MBX; omega)]
  exact rd_wrF_ne (by unfold R.MBX; omega)

/-- The payload starts behind the header. -/
theorem rd_payloadWrites_header {s : State} {slot b : Nat} {c : Cached} (hb : b < R.MBX c.part (0x2000 + 0x100 * slot) + 16) :
    (s.wrs (payloadWrites slot c)).rd b = s.rd b := by
  refine rd_wrs_ne fun e he => ?_
  obtain ⟨i, -, rfl⟩ := List.mem_map.mp he
  dsimp only
  omega

/-- The header words of a response read what Table 2-9 gives. -/
theorem rd_writeResponse_header (s : State) (slot : Nat) (c : Cached) (replayed : Bool) :
    (s.writeResponse slot c replayed).rd (R.MBX c.part (0x2000 + 0x100 * slot)) =
      w32 (c.op + c.seq * 2 ^ 16 + c.status * 2 ^ 24) ∧
    (s.writeResponse slot c replayed).rd (R.MBX c.part (0x2000 + 0x100 * slot) + 4) =
      w32 (c.ctx + c.payload.length * 2 ^ 16 + b2n replayed * 2 ^ 24) ∧
    (s.writeResponse slot c replayed).rd (R.MBX c.part (0x2000 + 0x100 * slot) + 8) = c.cookie ∧
    (s.writeResponse slot c replayed).rd (R.MBX c.part (0x2000 + 0x100 * slot) + 12) = w32 s.short := by
  have hseen : ∀ k < 16, (s.writeResponse slot c replayed).rd (R.MBX c.part (0x2000 + 0x100 * slot) + k) =
      (s.wrs (headerWrites s slot c replayed)).rd (R.MBX c.part (0x2000 + 0x100 * slot) + k) := fun k hk => by
    rw [rd_writeResponse_area (by unfold R.MBX; omega), rd_payloadWrites_header (by omega)]
  refine ⟨(hseen 0 (by omega)).trans ?_, (hseen 4 (by omega)).trans ?_, (hseen 8 (by omega)).trans ?_,
    (hseen 12 (by omega)).trans ?_⟩ <;>
    simp [headerWrites, State.wrs, rd_wr]

/-- The payload words of a response follow its header, in order. -/
theorem rd_writeResponse_payload (s : State) (slot : Nat) (c : Cached) (replayed : Bool) {i : Nat}
    (hi : i < c.payload.length) :
    (s.writeResponse slot c replayed).rd (R.MBX c.part (0x2000 + 0x100 * slot) + 16 + 4 * i) = c.payload.getD i 0 := by
  rw [rd_writeResponse_area (by unfold R.MBX; omega)]
  exact rd_wrs_range _ (f := fun i => R.MBX c.part (0x2000 + 0x100 * slot) + 16 + 4 * i) (fun _ _ h => by omega) hi

/-- The slot that a response answers is DONE (R53). -/
theorem slotState_writeResponse (s : State) {slot : Nat} (c : Cached) (replayed : Bool) (hslot : slot < 16) :
    (s.writeResponse slot c replayed).slotState c.part slot = Slot.DONE := by
  rw [State.slotState, State.fd, writeResponse_eq, rd_intSet _ _ _ _ (by unfold R.MBX; omega), State.setSlot, State.wrF,
    rd_wr_self, fld_setFld_self _ _ (by omega)]
  rfl

/-- Its SLOT_DONE bit is set (R53). -/
theorem slotDone_writeResponse (s : State) {slot : Nat} (c : Cached) (replayed : Bool) (hslot : slot < 16) :
    (s.writeResponse slot c replayed).bt (R.MBX c.part 0x14) slot = true := by
  rw [State.bt, writeResponse_eq, intSet_bits, bit_or, bit_pow (by omega), Bool.or_true]

/-- Settles O46: the header words are read back by `rd_writeResponse_header` and taken apart by `fld_header0` and
`fld_header1`; the echoed fields are as wide as the request's, so the packing loses nothing. -/
theorem responseHasHeader : Obligations.ResponseHasHeader := by
  unfold Obligations.ResponseHasHeader
  intro s t p slot st a replayed pay hst hpay ha ht
  subst ha ht
  obtain ⟨h0, h1, h2, h3⟩ := rd_writeResponse_header s slot (s.response p slot st pay) replayed
  obtain ⟨hop, hseq, hstatus⟩ := fld_header0 (fld_lt (s.reqWord p slot 0) 0 16) (fld_lt (s.reqWord p slot 0) 16 8) hst
  obtain ⟨hctx, hres12, hlen, hrep, hres25⟩ :=
    fld_header1 replayed (fld_lt (s.reqWord p slot 1) 0 12) (show pay.length < 2 ^ 8 by omega)
  exact ⟨(congrArg (fld · 0 16) h0).trans hop, (congrArg (fld · 16 8) h0).trans hseq, (congrArg (fld · 24 8) h0).trans hstatus,
    (congrArg (fld · 0 12) h1).trans hctx, (congrArg (fld · 12 4) h1).trans hres12, (congrArg (fld · 16 8) h1).trans hlen,
    (congrArg (bit · 24) h1).trans hrep, (congrArg (fld · 25 7) h1).trans hres25, h2, h3,
    fun _ hi => rd_writeResponse_payload s slot (s.response p slot st pay) replayed hi,
    slotState_writeResponse s (s.response p slot st pay) replayed slot.isLt,
    slotDone_writeResponse s (s.response p slot st pay) replayed slot.isLt⟩

end Sys2Proof.Proofs
end

section
/-!
The context and partition statements: violation counters (R110) and pending bits (R88).
-/

namespace Sys2Proof.Proofs

open Sys2Proof Sys2Proof.Machine Sys2Proof.Laws

/-! ### Violation counters (R108, R110) -/

/-- The words that `VIOLATION_READ` returns: the counters of partition `p`, then its record of the last violation. -/
def violationWords (s : State) (p : Nat) : List Word :=
  (List.range 16).map (fun k => s.rd (R.CTX_VIOL_CNT p k)) ++ (List.range 4).map (fun k => s.rd (R.CTX_VIOL_LAST p k))

/-- Clearing the counters of a partition zeroes all 16. -/
theorem violationCounters_cleared (s : State) {p : Nat} (hp : p < 2 ^ 6) (k : Fin 16) :
    (s.regClear (R.CTX_VIOL_CNT p 0) (R.CTX_VIOL_CNT (p + 1) 0)).rd (R.CTX_VIOL_CNT p k) = 0 := by
  rw [rd_regClear, if_pos (by unfold R.CTX_VIOL_CNT; omega)]
  exact cnt_zero ⟨p, hp⟩ k

/-- Part 0, or a partition that names itself and does not set CLEAR, is answered. -/
theorem violationRead_permitted {r : Req} {s : State} (h : r.part = 0 ∨ (r.f 0 0 6 = r.part ∧ bit (r.w 0) 6 = false)) :
    violationRead r s = .done St.OK (violationWords s (r.f 0 0 6))
      (if bit (r.w 0) 6 then s.regClear (R.CTX_VIOL_CNT (r.f 0 0 6) 0) (R.CTX_VIOL_CNT (r.f 0 0 6 + 1) 0) else s) := by
  have hno : ¬(r.part ≠ 0 ∧ (r.f 0 0 6 ≠ r.part ∨ bit (r.w 0) 6 = true)) := by
    rintro ⟨hpart, hviol⟩
    obtain h0 | ⟨hself, hkeep⟩ := h
    · exact hpart h0
    · exact hviol.elim (· hself) (by simp [hkeep])
  exact if_neg hno

/-- Any other partition that names another one or sets CLEAR is refused. -/
theorem violationRead_refused {r : Req} {s : State} (hpart : r.part ≠ 0)
    (h : r.f 0 0 6 ≠ r.part ∨ bit (r.w 0) 6 = true) : violationRead r s = .done St.NOT_PERMITTED [] s :=
  if_pos ⟨hpart, h⟩

/-- `VIOLATION_READ` is a Kilel command without argument checks of its own. -/
theorem exec_violationRead (dt : Nat) (c : Call) (s : State) :
    exec (.violationRead dt c) s = .next (kilel 0x0306 (fun _ _ => true) violationRead dt c s) := rfl

/-- Settles O48: `violationRead_permitted` and `violationRead_refused` are the two answers, and a cleared counter reads its
reset value 0. -/
theorem violationReadAnswers : Obligations.ViolationReadAnswers := by
  unfold Obligations.ViolationReadAnswers
  intro dt c s u v r p hadm hu hr hp hv
  subst hu hr hp hv
  rw [exec_violationRead]
  refine ⟨fun hmay => ?_, fun hclear k => ?_, fun hpart hno => ?_⟩
  · refine ok_done hadm rfl (violationRead_permitted ?_)
    rw [asked_part]
    exact hmay.imp_left fun h0 => congrArg Fin.val h0
  · rw [if_pos hclear]
    exact violationCounters_cleared _ (fld_lt ..) k
  · refine congrArg _ (kilel_done hadm rfl (violationRead_refused ?_ ?_))
    · rw [asked_part]
      exact fun h0 => hpart (Fin.ext h0)
    · rwa [asked_part]

/-! ### Pending bits (R88) -/

/-- An event of this cycle set the pending bit of context `c`. -/
def pendJustSet (s : State) (c : Nat) : Prop := (s.evq c).pend = true ∧ (s.evq c).lastEv = some s.now

/-- A write of 1 by the owner that meets an event of the same cycle is not a clear: it asks for the event's message. -/
theorem pendClear_justSet {s : State} {p c : Nat} (hown : s.owns p c = true) (h : pendJustSet s c) :
    s.pendClear p c = if (s.evq c).lastMsg = some s.now then s else s.ctxMessage c := by
  obtain ⟨hpend, hev⟩ := h
  simp [State.pendClear, hown, hpend, hev]

/-- Any other write of 1 by the owner clears the bit. -/
theorem pendClear_plain {s : State} {p c : Nat} (hown : s.owns p c = true) (h : ¬pendJustSet s c) :
    s.pendClear p c = s.setEvq c { s.evq c with pend := false } := by
  have hold : ((s.evq c).pend && decide ((s.evq c).lastEv = some s.now)) = false := by
    simpa [pendJustSet] using h
  simp [State.pendClear, hown, hold]

/-- The write leaves the queues of the other contexts alone. -/
theorem evq_pendClear_ne {s : State} {p c d : Nat} (hown : s.owns p c = true) (hd : d ≠ c) :
    (s.pendClear p c).evq d = s.evq d := by
  by_cases h : pendJustSet s c
  · rw [pendClear_justSet hown h]
    split
    · rfl
    · exact (ctxMsg_evq s c d).2 hd
  · rw [pendClear_plain hown h, evq_setEvq, if_neg hd]

/-- A bit that an event of this cycle set stays 1. -/
theorem pend_pendClear_justSet {s : State} {p c : Nat} (hown : s.owns p c = true) (h : pendJustSet s c) :
    ((s.pendClear p c).evq c).pend = true := by
  rw [pendClear_justSet hown h]
  split
  · exact h.1
  · rw [(ctxMsg_evq s c c).1, h.1]

/-- A word of zeros names no bit. -/
theorem selIdx_bit_zero : selIdx 32 (fun i => bit 0 i) = [] := by decide

/-- What a write of a word of the pending bitmap does while the part answers. -/
theorem exec_pendingBitmapClear {s : State} {dt : Nat} (fn : Fin 64) (word : Fin 128) (x : Word)
    (h : (s.tick dt).linkAlive = true) : exec (.pendingBitmapClear dt fn word x) s =
      .next ((selIdx 32 (fun i => bit x i)).foldl (fun t i => t.pendClear fn (32 * word + i)) (s.tick dt)) :=
  congrArg Host.Outcome.next (if_neg (by rw [h]; decide))

/-- Settles O54: a write of 1 either meets an event of its own cycle (`pendClear_justSet`) or clears (`pendClear_plain`), and a
write of 0 selects no context. -/
theorem pendingBitClears : Obligations.PendingBitClears := by
  unfold Obligations.PendingBitClears
  intro s t p c hown ht
  subst ht
  refine ⟨fun hpend hev => ⟨pend_pendClear_justSet hown ⟨hpend, hev⟩, fun hmsg => ?_⟩, fun hold => ?_,
    fun d hd => evq_pendClear_ne hown hd, fun dt fn word halive => ?_⟩
  · rw [pendClear_justSet hown ⟨hpend, hev⟩, if_neg hmsg]
  · have hplain : ¬pendJustSet s c := by
      rintro ⟨hpend, hev⟩
      exact hold.elim (fun h0 => by simp [hpend] at h0) (· hev)
    rw [pendClear_plain hown hplain, evq_setEvq, if_pos rfl]
  · rw [exec_pendingBitmapClear fn word 0 halive, selIdx_bit_zero]
    rfl

end Sys2Proof.Proofs
end

section
/-!
The landing and storage statements: deleted takes (R297), power requests while a slot is armed (R304) and storage writes outside
the NV write range (R310).
-/

namespace Sys2Proof.Proofs

open Sys2Proof Sys2Proof.Machine Sys2Proof.Laws

/-! ### Take slots (R296, R297) -/

/-- A slot reads back the state that it changed to: neither its TAKE_ID register nor LND_RATE is its state register. -/
theorem slotSt_setSlotSt (s : State) (k : Nat) {st : Nat} (hst : st < 8) : (s.setSlotSt k st).slotSt k = st := by
  have hrate : R.LND_SLOT_STAT k ≠ R.LND_RATE := by unfold R.LND_SLOT_STAT R.LND_RATE; omega
  have htake : R.LND_SLOT_STAT k ≠ R.LND_SLOT_TAKE k := by unfold R.LND_SLOT_STAT R.LND_SLOT_TAKE; omega
  have hrd : (s.setSlotSt k st).rd (R.LND_SLOT_STAT k) = w32 st := by
    unfold State.setSlotSt State.lndRate
    rw [rd_wr_ne hrate]
    split
    · rw [rd_wr_ne htake, rd_wr_self]
    · rw [rd_wr_self]
  rw [State.slotSt, State.fd, hrd, fld_w32 (by omega)]
  omega

/-- A change of slot state allocates and frees nothing. -/
theorem setSlotSt_allocs (s : State) (k st : Nat) : (s.setSlotSt k st).allocs = s.allocs :=
  (keep_State_setSlotSt (F := [Area.regs].contains) s k st (by unfold Only; decide) (Ext.refl _ _)).keep .allocs rfl

/-- Freeing the store of a slot leaves no allocation of that slot. -/
theorem freeStore_no_alloc (s : State) (k : Nat) : ∀ x ∈ (s.freeStore k).allocs, x.slot ≠ some k := by
  intro x hx
  rw [State.freeStore, foldDrop] at hx
  simpa using erase_all (fun x : Alloc => decide (x.slot = some k)) s.allocs x hx

/-- A slot that returns to IDLE is IDLE and has no store. -/
theorem toIdle_frees (s : State) (k : Nat) : (s.toIdle k).slotSt k = 1 ∧ ∀ x ∈ (s.toIdle k).allocs, x.slot ≠ some k := by
  refine ⟨slotSt_setSlotSt _ k (by decide), fun x hx => ?_⟩
  rw [State.toIdle, setSlotSt_allocs] at hx
  exact freeStore_no_alloc s k x hx

/-! ### `TAKE_DELETE` (R297) -/

/-- The update that clears the directory entry of slot `k`. -/
def dirClear (k : Nat) : NvUpd :=
  { a0 := (dirAddr k).1, a1 := (dirAddr k).2, seqOff := 0x5C, body := List.replicate 124 0 }

/-- A HOLDING slot that nobody reads is deleted. -/
theorem takeDelete_unread {s : State} {k : Nat} (r : Req) (hst : s.slotSt k = 5) (hreads : (s.slot k).reads = []) :
    takeDelete k r s = .done St.OK [] ((s.nvUpdate (dirClear k)).toIdle k) :=
  if_neg (by simp [hst, hreads])

/-- A slot that is being read is not. -/
theorem takeDelete_reading {s : State} {k : Nat} (r : Req) (hreads : (s.slot k).reads ≠ []) :
    takeDelete k r s = .done St.STATE_CONFLICT [] s :=
  if_pos (by simp [hreads])

/-- `TAKE_DELETE` is a Kilel command on a take slot, without argument checks of its own. -/
theorem exec_takeDelete (dt : Nat) (c : Call) (s : State) :
    exec (.takeDelete dt c) s = .next (kilel 0x0508 (fun _ _ => true) (takeCmd 0 takeDelete) dt c s) := rfl

/-- Settles O49: the slot is the caller's, so the command comes to `takeDelete` (`takeCmd_mine`), which deletes an unread take
and refuses one in reading; the deleted slot is IDLE without a store by `toIdle_frees`. -/
theorem takeDeleteFreesSlot : Obligations.TakeDeleteFreesSlot := by
  unfold Obligations.TakeDeleteFreesSlot
  intro dt c s u v k hadm hu hk hown hst
  subst hu hk
  have hmine : takeCmd 0 takeDelete (s.asked dt c) (s.begun dt c) =
      takeDelete ((s.asked dt c).f 0 0 4) (s.asked dt c) (s.begun dt c) :=
    takeCmd_mine (by rw [hown, asked_part])
  rw [exec_takeDelete]
  refine ⟨fun hreads hv => ?_, fun hreads => ?_⟩
  · subst hv
    exact ⟨ok_done hadm rfl (hmine.trans (takeDelete_unread _ hst hreads)), toIdle_frees _ _⟩
  · exact congrArg _ (kilel_done hadm rfl (hmine.trans (takeDelete_reading _ hreads)))

/-! ### `POWER_STATE` while a slot is ARMED or RECORDING (R304) -/

/-- One slot that is ARMED or RECORDING makes the part armed. -/
theorem anyArmed_of_slot {s : State} {k : Nat} (hk : k < 16) (h : s.slotSt k = 2 ∨ s.slotSt k = 3) : s.anyArmed = true :=
  List.any_eq_true.mpr ⟨k, List.mem_range.mpr hk, by simpa [State.slotLive] using h⟩

/-- While the part is armed, a request for a state that is neither the present one nor P0 is refused. -/
theorem powerState_armed {r : Req} {s : State} (hother : r.f 0 0 2 ≠ s.power) (hdown : r.f 0 0 2 ≠ 0) (harmed : s.anyArmed = true) :
    powerState r s = .done St.REFUSED_ARMED [] s :=
  (if_neg hother).trans (if_pos ⟨hdown, harmed⟩)

/-- `POWER_STATE` is a Kilel command without argument checks of its own; a request for P3 that is due follows its answer. -/
theorem exec_powerState (dt : Nat) (c : Call) (s : State) :
    exec (.powerState dt c) s = .next (kilel 0x0E01 (fun _ _ => true) powerState dt c s).p3Due := rfl

/-- Settles O50: the part is in P0 or P1, so P2 and P3 are other states, and `powerState_armed` refuses them. -/
theorem powerDownRefusedWhileArmed : Obligations.PowerDownRefusedWhileArmed := by
  unfold Obligations.PowerDownRefusedWhileArmed
  intro dt c s u k hadm hu hslot hpower hreq
  subst hu
  have hbody := powerState_armed (r := s.asked dt c) (by omega) (by omega) (anyArmed_of_slot k.isLt hslot)
  rw [exec_powerState, kilel_done hadm rfl hbody]

/-! ### Storage writes outside the NV write range (R310) -/

/-- The next write of a queue ends at once with NV_TEMP_RANGE, whatever its host buffer holds. -/
theorem sqWriteStart_outOfRange {s : State} {q opc : Nat} {x : SqQueue} {cmd : SqCmd} (data : Option (List Byte))
    (hnext : s.sqNext q opc = some (x, cmd)) (hrange : s.nvRange = false) :
    s.sqWriteStart q opc data = s.sqEnd q cmd St.NV_TEMP_RANGE 0 := by
  rw [State.sqWriteStart, hnext]
  exact if_pos (by rw [hrange]; rfl)

/-- The parts of the state that the end of a storage command may change: its queue, its completion and the event of it. -/
def sqEndParts : List Area := [.regs, .mbx, .evt, .lnd, .out, .rc]

/-- The end of a storage command keeps every other part. -/
theorem sqEnd_ext (s : State) (q : Nat) (cmd : SqCmd) (status blocks : Nat) :
    Ext sqEndParts.contains s (s.sqEnd q cmd status blocks) :=
  keep_State_sqEnd s q cmd status blocks (by unfold Only; decide) (Ext.refl _ _)

/-- Settles O51: both commands come to `sqWriteStart`, which only ends the command there, and `sqEnd_ext` keeps the memories. -/
theorem storageWritesKeepNvOutsideRange : Obligations.StorageWritesKeepNvOutsideRange := by
  unfold Obligations.StorageWritesKeepNvOutsideRange
  intro dt qid data s u x cmd hu hrange
  subst hu
  have hkeep := (sqEnd_ext (s.tick dt) qid cmd St.NV_TEMP_RANGE 0).keep
  exact ⟨fun hnext => congrArg Host.Outcome.next (sqWriteStart_outOfRange data hnext hrange),
    fun hnext => congrArg Host.Outcome.next (sqWriteStart_outOfRange data hnext hrange),
    hkeep .nv rfl, hkeep .nvHeld rfl, hkeep .mem rfl⟩

end Sys2Proof.Proofs
end

section
/-!
The power, thermal and boot statements: the registers that `BACKUP_STATUS` (R481) and `BOOT_INFO` (R502) return.
-/

namespace Sys2Proof.Proofs

open Sys2Proof Sys2Proof.Machine Sys2Proof.Laws

/-! ### `BACKUP_STATUS` and `BOOT_INFO` (R481, R502) -/

/-- `BACKUP_STATUS` is a Kilel command without argument checks of its own; it only reads two registers, in one state. -/
theorem exec_backupStatus (dt : Nat) (c : Call) (s : State) :
    exec (.backupStatus dt c) s = .next (kilel 0x0E04 (fun _ _ => true)
      (fun _ t => .done St.OK [t.rd R.AON_BAK_STAT, t.rd R.AON_HOLD_TIME] t) dt c s) := rfl

/-- So is `BOOT_INFO`. -/
theorem exec_bootInfo (dt : Nat) (c : Call) (s : State) :
    exec (.bootInfo dt c) s = .next (kilel 0x0E05 (fun _ _ => true)
      (fun _ t => .done St.OK [t.rd R.AON_BOOT_STAT, t.rd R.AON_BOOT_COUNT] t) dt c s) := rfl

/-- Settles O52: a served command without checks is answered as its meaning says (`ok_done`), and both meanings answer OK with
their two registers and leave the state as it began. -/
theorem backupStatusAndBootInfo : Obligations.BackupStatusAndBootInfo := by
  unfold Obligations.BackupStatusAndBootInfo
  intro dt c s u hu
  subst hu
  rw [exec_backupStatus, exec_bootInfo]
  exact ⟨fun hbackup => ok_done hbackup rfl rfl, fun hboot => ok_done hboot rfl rfl⟩

end Sys2Proof.Proofs
end

section
/-!
The whole-machine statements: a step, reset, the canonical form of the tables, the frame of every command, and the epoch (R14, R26, R38).
-/

namespace Sys2Proof.Proofs

open Sys2Proof Sys2Proof.Machine Sys2Proof.Laws

/-! ### Steps and reset -/

/-- A step on a queue that is not empty runs the command at its front. -/
theorem step_cons {s : State} {c : Instr} {q : List Instr} (h : s.pending = c :: q) : step s = exec c { s with pending := q } := by
  unfold step; rw [h]

/-- A step on an empty queue idles. -/
theorem step_nil {s : State} (h : s.pending = []) : step s = .next s := by
  unfold step; rw [h]

/-- Settles O1: the two cases of the queue. -/
theorem stepRunsFrontCommand : Obligations.StepRunsFrontCommand := by
  unfold Obligations.StepRunsFrontCommand
  exact fun c q s => ⟨step_cons, step_nil⟩

/-! ### The canonical form -/

/-- The canonical form speaks of the tables, not of the queue. -/
theorem canonical_pending (s : State) (q : List Instr) : ({ s with pending := q } : State).canonical = s.canonical := rfl

/-- Every command keeps the tables canonical. -/
theorem exec_canonical {c : Instr} {s t : State} (h : exec c s = .next t) (hs : s.canonical = true) : t.canonical = true :=
  (keep_exec c s t h).canonical hs

/-- Settles O4: an empty queue leaves the state; a command at the front keeps the canonical form (`keep_exec`). -/
theorem stepKeepsCanonical : Obligations.StepKeepsCanonical := by
  unfold Obligations.StepKeepsCanonical
  intro s t hs hstep
  cases hq : s.pending with
  | nil =>
    rw [step_nil hq] at hstep
    obtain rfl := Host.Outcome.next.inj hstep
    exact hs
  | cons c q =>
    rw [step_cons hq] at hstep
    exact exec_canonical hstep (by rwa [canonical_pending])

/-! ### The frame of a command -/

/-- Settles O5: `keep_exec`, from the state in which the command's time has passed. -/
theorem commandsKeepTimeQueueStraps : Obligations.CommandsKeepTimeQueueStraps := by
  unfold Obligations.CommandsKeepTimeQueueStraps
  intro c s t h
  have hext := keep_exec c s t h
  exact ⟨hext.pending, hext.straps, hext.now, hext.free, hext.out⟩

/-- Settles O7: `keep_exec` keeps every part that `touches` does not name. -/
theorem commandsTouchOnlyTheirParts : Obligations.CommandsTouchOnlyTheirParts := by
  unfold Obligations.CommandsTouchOnlyTheirParts
  intro c s t h p hp
  exact (keep_exec c s t h).keep p (by simpa [may] using hp)

/-- Only a command in which a boundary falls or the whole part is reset may touch the epoch counters: both lists, command by
command. -/
theorem not_may_epoch_or_movesEpoch (c : Instr) : (!may c .epoch || movesEpoch c) = true := by
  cases c <;> rfl

/-- A command that moves no epoch does not name the epoch counters. -/
theorem may_epoch_eq_false {c : Instr} (h : movesEpoch c = false) : may c .epoch = false := by
  simpa [h] using not_may_epoch_or_movesEpoch c

/-- Settles O6: a command that is not listed may not touch the epoch counters, which then stand by `keep_exec`. -/
theorem epochMovesOnlyAtBoundaryOrReset : Obligations.EpochMovesOnlyAtBoundaryOrReset := by
  unfold Obligations.EpochMovesOnlyAtBoundaryOrReset
  intro c s t hc h
  obtain ⟨hepoch, hframe, -⟩ := (keep_exec c s t h).keep .epoch (may_epoch_eq_false hc)
  exact ⟨hepoch, hframe⟩

/-! ### After reset (R38, R85, R98) -/

/-- The row of CTX_ENT_OWN (Table 3-3). -/
def ctxOwnRow : RegRow := ⟨0x1100010000, 0x10, 4096, 0x0, 1, .rw, 0x37f, 0x0, true, .part0⟩

theorem regRow_ctxOwn {c : Nat} (hc : c < 4096) : regRow (R.CTX_ENT_OWN c) = some ctxOwnRow := by
  have hblock : R.CTX_ENT_OWN c / 0x100000000 = 0x11 := by unfold R.CTX_ENT_OWN; omega
  rw [regRow, hblock, show blockRows 0x11 = regsCtx from rfl]
  unfold regsCtx R.CTX_ENT_OWN
  iterate 2 rw [find_skip (by intro i j hi; dsimp only at hi ⊢; omega)]
  refine find_here ?_
  simp [RegRow.has, RegRow.idx1, RegRow.idx2]
  omega

/-- The factory default of an ownership register: part 0 owns contexts 0 to 255. -/
theorem regReset_ctxOwn {c : Nat} (hc : c < 4096) :
    regReset (R.CTX_ENT_OWN c) = if c < 256 then 0x140#32 else 0#32 := by
  have hidx : ctxOwnRow.idx1 (R.CTX_ENT_OWN c) = c := by
    simp [ctxOwnRow, RegRow.idx1, R.CTX_ENT_OWN]
    omega
  rw [regReset, regRow_ctxOwn hc]
  dsimp only
  rw [if_pos (show ctxOwnRow.base = R.CTX_ENT_OWN 0 from rfl), hidx]

/-- The registers that reset lists are no ownership registers. -/
theorem rd_reset_ctxOwn {c : Nat} (hc : c < 4096) : State.reset.rd (R.CTX_ENT_OWN c) = regReset (R.CTX_ENT_OWN c) := by
  unfold State.rd State.reset R.CTX_ENT_OWN
  unfold R.CTX_FREE_COUNT R.PART_DRAM_QUOTA R.PART_CTX_COUNT R.DMC_INFO
  simp only [tabGet]
  rw [if_neg (by omega), if_neg (by omega), if_neg (by omega), if_neg (by omega)]

/-- After reset part 0 owns the first 256 contexts and no one the others (R85). -/
theorem ctxOwner_reset (c : Fin 4096) : State.reset.ctxOwner c = if c.val < 256 then some 0 else none := by
  unfold State.ctxOwner State.fd
  rw [rd_reset_ctxOwn c.isLt, regReset_ctxOwn c.isLt]
  split <;> rfl

/-- After reset part 0 owns every resource (R98). -/
theorem resOwner_reset : ∀ o : Fin 68, State.reset.resOwner o = 0 := by decide

/-- After reset part 0 alone is enabled. -/
theorem enabled_reset : ∀ p : Fin 64, State.reset.enabled p = decide (p = 0) := by decide

/-- Settles O2: counters, queue, memories and chutes are those of the state literal; the tables are read by `ctxOwner_reset`,
`resOwner_reset` and `enabled_reset`. -/
theorem resetState : Obligations.ResetState := by
  unfold Obligations.ResetState
  exact ⟨rfl, rfl, rfl, rfl, rfl, rfl, rfl, rfl, ctxOwner_reset, resOwner_reset, enabled_reset⟩

/-- Settles O3: the four registers that reset lists rise and differ from their table's values; the memories are empty. -/
theorem resetIsCanonical : Obligations.ResetIsCanonical := by
  unfold Obligations.ResetIsCanonical
  decide

/-! ### Frame boundaries (R14, R26) -/

/-- The commits that a boundary activates and those that it keeps, in the state `v` that has counted the boundary. -/
def dueCommits (v : State) : List Commit × List Commit := v.takeCommits v.ep.frame v.banksFull [] [] (heads v.ep.queue)

/-- Taking commits out of the queues leaves the epoch counters alone. -/
theorem keepCommits_ep (v : State) (cs kept : List Commit) : (v.keepCommits cs kept).ep.epoch = v.ep.epoch ∧
    (v.keepCommits cs kept).ep.frame = v.ep.frame ∧ (v.keepCommits cs kept).ep.first = v.ep.first := ⟨rfl, rfl, rfl⟩

/-- With the boundary counted and its commits taken out, only the frame number has moved. -/
theorem count_keepCommits_ep (s : State) (synth : Bool) (cs kept : List Commit) :
    ((s.count synth).keepCommits cs kept).ep.epoch = s.ep.epoch ∧
    ((s.count synth).keepCommits cs kept).ep.frame = (s.ep.frame + 1) % 2 ^ 40 ∧
    ((s.count synth).keepCommits cs kept).ep.first = s.ep.first := by
  obtain ⟨hepoch, hframe, hfirst⟩ := keepCommits_ep (s.count synth) cs kept
  obtain ⟨hepoch', hframe', hfirst'⟩ := count_ep s synth
  exact ⟨hepoch.trans hepoch', hframe.trans hframe', hfirst.trans hfirst'⟩

/-- A boundary at which no commit activates goes on in the epoch. -/
theorem boundary_continues {s : State} {synth : Bool} {kept : List Commit} (h : dueCommits (s.count synth) = ([], kept)) :
    s.boundary synth id = (0, (((s.count synth).keepCommits [] kept).qosEvents).latch) := by
  unfold dueCommits at h
  unfold State.boundary
  dsimp only
  rw [h]
  rfl

/-- A boundary at which commits activate forms their epoch; the blocks that then take the new settings over leave the epoch
counters alone. -/
theorem boundary_activates {s : State} {synth : Bool} {cs kept : List Commit} (hcs : cs ≠ []) (h : dueCommits (s.count synth) = (cs, kept)) :
    Fl.EPOCH_NEW ≤ (s.boundary synth id).1 ∧
      Ext FE (((s.count synth).keepCommits cs kept).activate cs) (s.boundary synth id).2 := by
  unfold dueCommits at h
  unfold State.boundary
  dsimp only
  rw [h]
  dsimp only
  rw [if_neg (by simpa using hcs)]
  refine ⟨by omega, keep_State_latch _ (onlyE _ rfl) (keep_State_activated _ _ _ _ (onlyE _ rfl) (keep_State_qosEvents _ (onlyE _ rfl)
    (keep_State_applied _ _ (onlyE _ rfl) (keep_State_gpioBoundary _ _ (onlyE _ rfl) (keep_State_audBoundary _ (onlyE _ rfl)
    (keep_State_monBoundary _ _ (onlyE _ rfl) (keep_State_timBoundary _ (onlyE _ rfl) (keep_State_lnaBoundary _ _ (onlyE _ rfl)
    (keep_State_derived _ (onlyE _ rfl) (Ext.refl _ _))))))))))⟩

/-- Settles O55: counting moves the frame number (`count_ep`); where commits activate, `activate_ep` forms their epoch, and what
follows leaves the counters alone. -/
theorem boundaryFormsEpoch : Obligations.BoundaryFormsEpoch := by
  unfold Obligations.BoundaryFormsEpoch
  intro s v t synth flags cs kept hv hdue hbound
  rw [hv] at hdue
  obtain ⟨hepoch, hframe, hfirst⟩ := count_keepCommits_ep s synth cs kept
  by_cases hcs : cs = []
  · rw [hcs] at hdue hepoch hframe hfirst
    obtain ⟨hflags, ht⟩ := Prod.mk.inj (hbound.symm.trans (boundary_continues hdue))
    obtain ⟨hepoch', hframe', hfirst'⟩ := ofE (keep_State_latch _ (onlyE _ rfl) (keep_State_qosEvents _ (onlyE _ rfl)
      (Ext.refl FE ((s.count synth).keepCommits [] kept))))
    rw [ht]
    exact ⟨hframe'.trans hframe, fun _ => ⟨hepoch'.trans hepoch, hfirst'.trans hfirst, hflags⟩, fun h => absurd hcs h⟩
  · obtain ⟨hflags, hext⟩ := boundary_activates hcs hdue
    rw [hbound] at hflags hext
    obtain ⟨hepoch', hframe', hfirst'⟩ := ofE hext
    obtain ⟨hnew, hsame, hbegins⟩ := activate_ep ((s.count synth).keepCommits cs kept) cs
    exact ⟨hframe'.trans (hsame.trans hframe), fun h => absurd h hcs, fun _ =>
      ⟨hepoch'.trans (hnew.trans (congrArg epochSucc hepoch)), hfirst'.trans (hbegins.trans (hframe'.trans hsame).symm), hflags⟩⟩

end Sys2Proof.Proofs
end

section
/-!
The chutes: who may take words out of them (R339 to R343).
-/

namespace Sys2Proof.Proofs

open Sys2Proof Sys2Proof.Machine Sys2Proof.Laws

/-! ### Chutes (R339 to R343) -/

/-- Beside the commands that reset the whole part, only the two chute accesses may touch the chutes. -/
theorem may_chutes {c : Instr} (h : movesEpoch c = false) : may c .chutes = false ∨
    (∃ dt k kind data poison, c = .chuteWrite dt k kind data poison) ∨ ∃ dt k, c = .chuteRead dt k := by
  cases c
  case chuteWrite => exact .inr (.inl ⟨_, _, _, _, _, rfl⟩)
  case chuteRead => exact .inr (.inr ⟨_, _, rfl⟩)
  all_goals first | exact .inl rfl | exact Bool.noConfusion h

/-- A chute is read from the table of chutes. -/
theorem chute_congr {s t : State} (h : t.chutes = s.chutes) (n : Nat) : t.chute n = s.chute n := by
  unfold State.chute; rw [h]

/-- A command that may not touch the chutes leaves each as it was. -/
theorem exec_chute_of_not_may {c : Instr} {s t : State} (h : exec c s = .next t) (hc : may c .chutes = false) (n : Nat) :
    t.chute n = s.chute n :=
  chute_congr ((keep_exec c s t h).keep .chutes hc) n

/-- `CHUTE_WRITE` shortens no chute: the word is put, or held behind the words (R339). -/
theorem chuteWrite_length_le {dt : Nat} {k : Fin 128} {kind : Fin 3} {data : BitVec 64} {poison : Bool} {s t : State}
    (h : exec (.chuteWrite dt k kind data poison) s = .next t) (n : Nat) : (s.chute n).words.length ≤ (t.chute n).words.length := by
  obtain rfl := Host.Outcome.next.inj h
  change ((s.tick dt).chute n).words.length ≤ _
  split
  · exact put_len _ _ _ _ _
  · exact len_setChute _ _ _ _ (le_refl _)

/-- A fault of a chute's item touches no chute. -/
theorem chute_faultItem (s : State) (src code unit detail : Nat) (ctxs : List (Fin 4096)) (n : Nat) :
    (s.faultItem src code unit detail ctxs).chute n = s.chute n :=
  chute_congr ((keep_State_faultItem (F := fun a => decide (a ≠ .chutes)) s src code unit detail ctxs (by unfold Only; decide)
    (Ext.refl _ _)).keep .chutes rfl) n

/-- Neither does a counter or an output. -/
theorem chute_bump (s : State) (a lo n k m : Nat) : (s.bump a lo n k).chute m = s.chute m := chute_congr (State.bump_chutes ..) m

theorem chute_emit (s : State) (o : Out) (m : Nat) : (s.emit o).chute m = s.chute m := chute_congr (State.emit_chutes ..) m

/-- `CHUTE_READ` touches no other chute: held words are offered to the one that was read (R341). -/
theorem chuteRead_chute_ne {dt : Nat} {k : Fin 128} {s t : State} (h : exec (.chuteRead dt k) s = .next t) {n : Nat} (hn : n ≠ k) :
    t.chute n = s.chute n := by
  obtain rfl := Host.Outcome.next.inj h
  change _ = (s.tick dt).chute n
  dsimp only
  split
  · split
    · rfl
    · rw [offer_ne _ _ _ _ hn]
      split
      · rw [chute_emit, chute_setChute, if_neg hn]
      · rw [chute_faultItem, chute_bump, chute_emit, chute_setChute, if_neg hn]
  · rfl

/-- A reset of the whole part empties every chute (R343). -/
theorem wipe_chutes (s : State) (level : Nat) (aon : Bool) : (s.wipe level aon).chutes = [] := by
  unfold State.wipe; dsimp only; rw [wrs_only]

/-- Settles O56: only the two accesses touch a chute (`may_chutes`); a write shortens none and a read no other. -/
theorem chutesLoseWordsOnlyByReads : Obligations.ChutesLoseWordsOnlyByReads := by
  unfold Obligations.ChutesLoseWordsOnlyByReads
  intro c s t n h
  refine ⟨fun hread hc => ?_, fun dt k hck hn => ?_, fun level aon => wipe_chutes s level aon⟩
  · obtain hkeep | ⟨dt, k, kind, data, poison, rfl⟩ | ⟨dt, k, hck⟩ := may_chutes hc
    · rw [exec_chute_of_not_may h hkeep]
    · exact chuteWrite_length_le h n
    · exact absurd hck (hread dt k)
  · rw [hck] at h
    exact chuteRead_chute_ne h hn

end Sys2Proof.Proofs
end

section
/-!
The frame of an answer (R53, R57): what a response leaves alone.
-/

namespace Sys2Proof.Proofs

open Sys2Proof Sys2Proof.Machine Sys2Proof.Laws

/-! ### Queues of the mailbox -/

/-- A message, sent or held, leaves the posted slots and the waits alone. -/
theorem msix_queues (s : State) (fn vec : Nat) :
    (s.msix fn vec).mbx.posted = s.mbx.posted ∧ (s.msix fn vec).mbx.waits = s.mbx.waits := by
  unfold State.msix
  split <;> exact ⟨rfl, rfl⟩

/-- So does raising a mailbox interrupt. -/
theorem intSet_queues (s : State) (p bits : Nat) :
    (s.intSet p bits).mbx.posted = s.mbx.posted ∧ (s.intSet p bits).mbx.waits = s.mbx.waits := by
  unfold State.intSet
  dsimp only
  split
  · exact msix_queues _ _ _
  · exact ⟨rfl, rfl⟩

/-- Register writes leave the mailbox state alone. -/
theorem wrs_mbx (s : State) (l : List (Nat × Word)) : (s.wrs l).mbx = s.mbx := by rw [wrs_only]

/-- A response takes no slot from the posted ones and ends no wait. -/
theorem writeResponse_queues (s : State) (slot : Nat) (c : Cached) (replayed : Bool) :
    (s.writeResponse slot c replayed).mbx.posted = s.mbx.posted ∧ (s.writeResponse slot c replayed).mbx.waits = s.mbx.waits := by
  rw [writeResponse_eq]
  obtain ⟨hposted, hwaits⟩ := intSet_queues (((s.wrs (headerWrites s slot c replayed)).wrs (payloadWrites slot c)).setSlot c.part
    slot Slot.DONE) c.part (2 ^ slot)
  rw [hposted, hwaits, State.setSlot_mbx, wrs_mbx, wrs_mbx]
  exact ⟨rfl, rfl⟩

/-! ### Registers -/

/-- Every write of a response's header and payload goes to the response area of its slot. -/
theorem mem_responseWrites {s : State} {slot : Nat} {c : Cached} {replayed : Bool} {e : Nat × Word}
    (h : e ∈ headerWrites s slot c replayed ++ payloadWrites slot c) :
    R.MBX c.part (0x2000 + 0x100 * slot) ≤ e.1 ∧ e.1 < R.MBX c.part (0x2010 + 0x100 * slot + 4 * c.payload.length) := by
  unfold headerWrites payloadWrites at h
  unfold R.MBX at *
  simp only [List.mem_append, List.mem_cons, List.not_mem_nil, or_false, List.mem_map, List.mem_range] at h
  obtain (rfl | rfl | rfl | rfl) | ⟨i, hi, rfl⟩ := h <;> dsimp only <;> omega

/-- Outside the response area of its slot, a response changes the slot states and the interrupt status alone. -/
theorem rd_writeResponse_ne {s : State} {slot b : Nat} {c : Cached} {replayed : Bool} (hstates : b ≠ R.MBX c.part 0x0C)
    (hint : b ≠ R.MBX c.part 0x14)
    (harea : b < R.MBX c.part (0x2000 + 0x100 * slot) ∨ R.MBX c.part (0x2010 + 0x100 * slot + 4 * c.payload.length) ≤ b) :
    (s.writeResponse slot c replayed).rd b = s.rd b := by
  rw [writeResponse_eq, rd_intSet _ _ _ _ hint, State.setSlot, rd_wrF_ne hstates, ← wrs_append]
  exact rd_wrs_ne fun e he => by have := mem_responseWrites he; omega

/-- A response leaves the state of every other slot of its function alone. -/
theorem slotState_writeResponse_ne {s : State} {slot q : Nat} {c : Cached} {replayed : Bool} (hslot : slot < 16) (hq : q ≠ slot) :
    (s.writeResponse slot c replayed).slotState c.part q = s.slotState c.part q := by
  have hbelow : (s.wrs (headerWrites s slot c replayed ++ payloadWrites slot c)).rd (R.MBX c.part 0x0C) = s.rd (R.MBX c.part 0x0C) :=
    rd_wrs_ne fun e he => by have := mem_responseWrites he; unfold R.MBX at *; omega
  unfold State.slotState State.fd
  rw [writeResponse_eq, rd_intSet _ _ _ _ (by unfold R.MBX; omega), State.setSlot, State.wrF, rd_wr_self,
    fld_setFld_ne _ _ (by omega) (by omega), ← wrs_append, hbelow]

/-- The same of an answer, whose response is to the request in its slot. -/
theorem rd_answer_ne {s : State} {p slot st b : Nat} {pay : List Word} (hstates : b ≠ R.MBX p 0x0C) (hint : b ≠ R.MBX p 0x14)
    (harea : b < R.MBX p (0x2000 + 0x100 * slot) ∨ R.MBX p (0x2010 + 0x100 * slot + 4 * pay.length) ≤ b) :
    (s.answer p slot st pay).rd b = s.rd b :=
  rd_writeResponse_ne (c := s.response p slot st pay) hstates hint harea

/-- Settles O57: an answer is the response of its slot (`rd_answer_ne`, `slotState_writeResponse_ne`) to a request that is
kept for retries. -/
theorem answerFrame : Obligations.AnswerFrame := by
  unfold Obligations.AnswerFrame
  intro s t p slot st pay hpay ht
  obtain ⟨honly, hout⟩ := answer_only s p slot st pay
  obtain ⟨hposted, hwaits⟩ := writeResponse_queues (s.keep (s.response p slot st pay)) slot (s.response p slot st pay) false
  rw [ht]
  refine ⟨honly, hposted, hwaits, fun a ha => hout a ?_, fun q hq => ⟨?_, fun i hi => ⟨?_, ?_⟩⟩⟩
  · unfold R.MBX at *
    omega
  · exact slotState_writeResponse_ne (c := s.response p slot st pay) slot.isLt (fun h => hq (Fin.ext h))
  · refine rd_answer_ne ?_ ?_ ?_ <;> unfold R.MBX <;> omega
  · have hne : q.val ≠ slot.val := fun h => hq (Fin.ext h)
    refine rd_answer_ne ?_ ?_ ?_ <;> unfold R.MBX <;> omega

end Sys2Proof.Proofs
end

section
/-!
The commands that only report: their answer is all that they change (R53, R57).
-/

namespace Sys2Proof.Proofs

open Sys2Proof Sys2Proof.Machine Sys2Proof.Laws

/-! ### Meanings that only report -/

/-- A meaning that leaves the state as it began and answers at most the 60 words of a response area, while the activities in
progress are as few as R505 allows. -/
def Reports (body : Req → State → Ans) : Prop :=
  ∀ r u, u.pwr.acts.length ≤ 60 → ∃ st pay, body r u = .done st pay u ∧ pay.length ≤ 60

/-- What a command has changed once it was taken and answered: registers, mailbox and trace. -/
theorem begun_answer_only (s : State) (dt : Nat) (c : Call) (st : Nat) (pay : List Word) :
    (s.begun dt c).answer c.part c.slot st pay = { s.tick dt with
      regs := ((s.begun dt c).answer c.part c.slot st pay).regs
      mbx := ((s.begun dt c).answer c.part c.slot st pay).mbx
      out := ((s.begun dt c).answer c.part c.slot st pay).out } :=
  (answer_only (s.begun dt c) c.part c.slot st pay).1

/-- Taking a command changes no register but the slot states of its function. -/
theorem rd_begun_ne {s : State} {dt b : Nat} {c : Call} (h : b ≠ R.MBX c.part 0x0C) : (s.begun dt c).rd b = s.rd b :=
  rd_wrF_ne h

/-- A served command that only reports changes its own answer alone, within the mailbox window of its function. -/
theorem reports_frame {code dt : Nat} {body : Req → State → Ans} {c : Call} {s t : State} (hbody : Reports body)
    (hadm : s.admits code dt c = true) (hacts : s.pwr.acts.length ≤ 60)
    (h : (Host.Outcome.next (kilel code (fun _ _ => true) body dt c s) : Host.Outcome State Fault Refusal) = .next t) :
    t = ({ s.tick dt with regs := t.regs, mbx := t.mbx, out := t.out } : State) ∧
      ∀ a, (a < R.MBX c.part 0 ∨ R.MBX (c.part + 1) 0 ≤ a) → t.rd a = s.rd a := by
  obtain ⟨st, pay, hdone, hpay⟩ := hbody (s.asked dt c) (s.begun dt c) hacts
  obtain rfl := Host.Outcome.next.inj h
  rw [kilel_done hadm rfl hdone]
  refine ⟨begun_answer_only s dt c st pay, fun a ha => ?_⟩
  have hslot := c.slot.isLt
  rw [(answer_only (s.begun dt c) c.part c.slot st pay).2 a (by unfold R.MBX at *; omega),
    rd_begun_ne (by unfold R.MBX at *; omega)]

/-! ### The reporting meanings -/

/-- A meaning that answers as many words as are written in it. -/
theorem reports_of_length {st n : Nat} {f : Req → State → List Word} (hf : ∀ r u, (f r u).length = n) (hn : n ≤ 60) :
    Reports (fun r u => .done st (f r u) u) :=
  fun r u _ => ⟨st, f r u, rfl, by rw [hf]; exact hn⟩

/-- One report a selected resource, `k` words each, behind `m` words. -/
theorem selected_length_le (m n k : Nat) (l : List Word) (sel : Nat → Bool) (f : Nat → List Word) (hl : l.length = m)
    (hf : ∀ o, (f o).length = k) : (l ++ (selIdx n sel).flatMap f).length ≤ m + n * k := by
  rw [List.length_append, hl, flat_len f k hf]
  exact Nat.add_le_add_left (Nat.mul_le_mul_right k (sel_len n sel)) m

theorem reports_nop : Reports (fun _ u => .done St.OK [] u) := reports_of_length (fun _ _ => rfl) (Nat.zero_le 60)

theorem reports_sysInfo : Reports sysInfo := reports_of_length (fun _ _ => rfl) (by decide : 6 ≤ 60)

theorem reports_epochStatus : Reports epochStatus := reports_of_length (fun _ _ => rfl) (by decide : 11 ≤ 60)

theorem reports_linkStatus : Reports (fun _ u => .done St.OK u.linkStatus u) :=
  reports_of_length (fun _ _ => rfl) (by decide : 15 ≤ 60)

theorem reports_landingStatus : Reports landingStatus := reports_of_length (fun _ _ => rfl) (by decide : 19 ≤ 60)

theorem reports_timeRead : Reports timeRead := reports_of_length (fun _ _ => rfl) (by decide : 5 ≤ 60)

theorem reports_ptpStatus : Reports ptpStatus := reports_of_length (fun _ _ => rfl) (by decide : 6 ≤ 60)

theorem reports_imageStatus : Reports imageStatus := reports_of_length (fun _ _ => rfl) (by decide : 3 ≤ 60)

theorem reports_thermalRead : Reports thermalRead := reports_of_length (fun _ _ => rfl) (by decide : 4 ≤ 60)

theorem reports_backupStatus : Reports (fun _ u => .done St.OK [u.rd R.AON_BAK_STAT, u.rd R.AON_HOLD_TIME] u) :=
  reports_of_length (fun _ _ => rfl) (by decide : 2 ≤ 60)

theorem reports_bootInfo : Reports (fun _ u => .done St.OK [u.rd R.AON_BOOT_STAT, u.rd R.AON_BOOT_COUNT] u) :=
  reports_of_length (fun _ _ => rfl) (by decide : 2 ≤ 60)

theorem reports_pipeStatus : Reports pipeStatus := fun _ _ _ =>
  ⟨_, _, rfl, (selected_length_le 3 8 3 _ _ _ rfl (fun _ => rfl)).trans (by decide)⟩

theorem reports_monStatus : Reports monStatus := fun _ _ _ =>
  ⟨_, _, rfl, (selected_length_le 0 6 4 [] _ _ rfl (fun _ => rfl)).trans (by decide)⟩

theorem reports_audStatus : Reports audStatus := fun _ _ _ =>
  ⟨_, _, rfl, (selected_length_le 0 8 3 [] _ _ rfl (fun _ => rfl)).trans (by decide)⟩

/-- A queue that is not the caller's is refused, and that changes nothing either. -/
theorem reports_sqStatus (q : Nat) : Reports (sqStatus q) := by
  intro r u _
  unfold sqStatus
  split
  · exact ⟨_, _, rfl, Nat.zero_le 60⟩
  · exact ⟨_, _, rfl, (by decide : 2 ≤ 60)⟩

/-- The activities in progress are reported a word each. -/
theorem reports_maintStatus : Reports (fun _ u => .done St.OK (u.pwr.acts.map Act.word) u) := fun _ u hacts =>
  ⟨_, _, rfl, by rwa [List.length_map]⟩

/-- Settles O58: each of the commands is a meaning that only reports, served without checks of its own (`reports_frame`). -/
theorem reportsChangeNothing : Obligations.ReportsChangeNothing := by
  unfold Obligations.ReportsChangeNothing
  intro dt code c qid s t i hi hadm hacts h
  simp only [List.mem_cons, List.not_mem_nil, or_false, Prod.mk.injEq] at hi
  obtain ⟨rfl, rfl⟩ | ⟨rfl, rfl⟩ | ⟨rfl, rfl⟩ | ⟨rfl, rfl⟩ | ⟨rfl, rfl⟩ | ⟨rfl, rfl⟩ | ⟨rfl, rfl⟩ | ⟨rfl, rfl⟩ | ⟨rfl, rfl⟩ |
    ⟨rfl, rfl⟩ | ⟨rfl, rfl⟩ | ⟨rfl, rfl⟩ | ⟨rfl, rfl⟩ | ⟨rfl, rfl⟩ | ⟨rfl, rfl⟩ | ⟨rfl, rfl⟩ := hi
  · exact reports_frame reports_nop hadm hacts h
  · exact reports_frame reports_sysInfo hadm hacts h
  · exact reports_frame reports_epochStatus hadm hacts h
  · exact reports_frame reports_linkStatus hadm hacts h
  · exact reports_frame reports_landingStatus hadm hacts h
  · exact reports_frame reports_pipeStatus hadm hacts h
  · exact reports_frame reports_monStatus hadm hacts h
  · exact reports_frame reports_timeRead hadm hacts h
  · exact reports_frame reports_ptpStatus hadm hacts h
  · exact reports_frame reports_audStatus hadm hacts h
  · exact reports_frame (reports_sqStatus qid) hadm hacts h
  · exact reports_frame reports_maintStatus hadm hacts h
  · exact reports_frame reports_imageStatus hadm hacts h
  · exact reports_frame reports_thermalRead hadm hacts h
  · exact reports_frame reports_backupStatus hadm hacts h
  · exact reports_frame reports_bootInfo hadm hacts h

end Sys2Proof.Proofs
end

section
/-!
Stores to DRAM and scratchpad, byte by byte (R319, R334, R335).
-/

namespace Sys2Proof.Proofs

open Sys2Proof Sys2Proof.Machine Sys2Proof.Laws

/-! ### Bytes under the operations of memory -/

/-- What byte `k` reads once `bs` is stored at `a`. -/
def stored (a : Nat) (bs : List Byte) (k : Nat) (old : Byte) : Byte :=
  if a ≤ k ∧ k < a + bs.length then bs.getD (k - a) 0 else old

/-- A store under ECC changes the bytes that it names, in order, and no others. -/
theorem byte_eccStore (s : State) (ctx a k : Nat) (bs : List Byte) : (s.eccStore ctx a bs).byte k = stored a bs k (s.byte k) :=
  (byte_mem (ecc_mem s ctx a bs) k).trans (store_get s a k bs)

/-- A number of `n` bytes has `n` bytes. -/
theorem leBytes_length (n x : Nat) : (leBytes n x).length = n := by
  induction n generalizing x with
  | zero => rfl
  | succ n ih => rw [leBytes, List.length_cons, ih]

/-- Bytes cleared read 0; the others read as before. -/
theorem byte_memClear (s : State) (lo hi k : Nat) : (s.memClear lo hi).byte k = if lo ≤ k ∧ k < hi then 0 else s.byte k := by
  unfold State.memClear State.byte tabClear
  dsimp only
  split
  · exact tabGet_filter_out _ _ _ _ (fun v => by simp; omega)
  · exact tabGet_filter _ _ _ _ (fun v => by simp; omega)

/-- A violation changes no byte. -/
theorem byte_viol (s : State) (p kind ctx a k : Nat) : (s.viol p kind ctx a).byte k = s.byte k :=
  byte_mem (by rw [viol_only]) k

/-! ### `MEM_WRITE` (R319) -/

/-- The bytes that the meaning of `MEM_WRITE` leaves, where the copy may go and where it may not. -/
theorem byte_memWrite (r : Req) (u : State) (a k : Nat) : (ansSt (memWrite a r u)).byte k =
    if r.inLen ≠ 0 ∧ u.memBad r.part a r.inLen = none then stored a r.input k (u.byte k) else u.byte k := by
  unfold memWrite
  split
  · rename_i h0
    rw [if_neg (fun h => h.1 h0)]
    rfl
  · rename_i h0
    split
    · rename_i x hx
      rw [if_neg (fun h => by simp [hx] at h)]
      exact byte_viol ..
    · rename_i hx
      rw [if_pos ⟨h0, hx⟩]
      exact byte_eccStore ..

/-- Answering or parking a served command leaves memory as its meaning made it. -/
theorem byte_kilel {code dt : Nat} {args : Req → State → Bool} {body : Req → State → Ans} {c : Call} {s : State}
    (h : s.admits code dt c = true) (ha : args (s.asked dt c) (s.taken dt c) = true) (k : Nat) :
    (kilel code args body dt c s).byte k = (ansSt (body (s.asked dt c) (s.begun dt c))).byte k := by
  cases hb : body (s.asked dt c) (s.begun dt c) with
  | done st pay v => rw [kilel_done h ha hb]; exact byte_mem (answer_mem ..) k
  | wait kind v => rw [kilel_wait h ha hb]; rfl

/-- `MEM_WRITE` is a Kilel command without argument checks of its own. -/
theorem exec_memWrite (dt : Nat) (c : Call) (addr : BitVec 40) (s : State) :
    exec (.memWrite dt c addr) s = .next (kilel 0x0108 (fun _ _ => true) (memWrite addr.toNat) dt c s) := rfl

/-! ### Register-path writes (R334) -/

/-- A scratchpad port touching a word stores nothing. -/
theorem byte_spdTouch (s : State) (port : Nat) (write : Bool) (w k : Nat) : (s.spdTouch port write w).2.2.byte k = s.byte k :=
  byte_mem ((keep_State_spdTouch (F := fun a => decide (a ≠ .mem)) s port write w (by unfold Only; decide) (Ext.refl _ _)).keep
    .mem rfl) k

/-- A register-path write to memory that may go there stores its word, little-endian. -/
theorem byte_writeAt {s : State} {p a : Nat} (ctx more k : Nat) (v : Word)
    (h : (s.where_ a = .spd ∧ s.spdMay p a = true) ∨ (s.where_ a = .dram ∧ a < s.fwBase ∧ s.inPart p a 4 = true)) :
    (s.writeAt p ctx a v more).byte k = stored a (leBytes 4 v.toNat) k (s.byte k) := by
  unfold State.writeAt
  obtain ⟨hspd, hmay⟩ | ⟨hdram, hbase, hmine⟩ := h
  · rw [hspd]
    dsimp only
    rw [if_pos hmay]
    exact (store_get ..).trans (congrArg (stored a (leBytes 4 v.toNat) k) (byte_spdTouch ..))
  · rw [hdram]
    dsimp only
    rw [if_pos (by simp [hbase, hmine])]
    exact byte_eccStore ..

/-! ### Handover of a bank (R335) -/

/-- A bank zeroed reads 0, and every other byte as before. -/
theorem byte_spdZero (s : State) (b k : Nat) :
    (s.spdZero b).byte k = if 0x4000000000 + 0x80000 * b ≤ k ∧ k < 0x4000000000 + 0x80000 * (b + 1) then 0 else s.byte k := by
  have hend : 0x4000000000 + 0x80000 * (b + 1) = 0x4000000000 + 0x80000 * b + 0x80000 := by omega
  rw [hend]
  exact byte_memClear ..

/-- The handover of a bank that waits for it zeroes the bank with SCRUB and stores nothing without. -/
theorem byte_spdHandoverComplete {dt k : Nat} {bank : Fin 64} {s t : State} (hwait : s.fd (R.SPD_BANK_OWN bank) 8 2 = 1)
    (h : exec (.spdHandoverComplete dt bank) s = .next t) :
    t.byte k = if s.bt (R.SPD_BANK_OWN bank) 6 = true then ((s.tick dt).spdZero bank).byte k else s.byte k := by
  obtain rfl := Host.Outcome.next.inj h
  dsimp only
  rw [if_pos (show fld ((s.tick dt).rd (R.SPD_BANK_OWN bank)) 8 2 = 1 from hwait)]
  change State.byte (if s.bt (R.SPD_BANK_OWN bank) 6 = true then State.spdZero (s.tick dt) bank else s.tick dt) k = _
  exact apply_ite (State.byte · k) _ _ _

/-- Settles O60: `MEM_WRITE` by its meaning (`byte_memWrite`), a register-path write by `byte_writeAt`, a handover by the clearing
of its bank. -/
theorem storesChangeOnlyTheirBytes : Obligations.StoresChangeOnlyTheirBytes := by
  unfold Obligations.StoresChangeOnlyTheirBytes
  intro dt k s t
  refine ⟨fun c addr u r hadm hu hr h => ?_, fun p ctx a more v ht hmay => ?_, fun bank hwait h => ?_⟩
  · subst hu hr
    rw [exec_memWrite] at h
    obtain rfl := Host.Outcome.next.inj h
    rw [byte_kilel hadm rfl, byte_memWrite, asked_part]
    refine ⟨fun hgoes => if_pos hgoes, fun hstays => if_neg fun hgoes => ?_⟩
    exact hstays.elim hgoes.1 (fun hbad => hbad hgoes.2)
  · rw [ht, byte_writeAt ctx more k v hmay, stored, leBytes_length]
  · rw [byte_spdHandoverComplete hwait h, byte_spdZero]
    exact (ite_and ..).symm

end Sys2Proof.Proofs
end

section
/-!
The commands that change a few registers: which ones, command by command. `Keeps l s t` says that registers outside `l` read as
before.
-/

namespace Sys2Proof.Proofs

open Sys2Proof Sys2Proof.Machine Sys2Proof.Laws

/-! ### Steps that write no register, or listed ones -/

/-- Time changes no register. -/
theorem keeps_tick (l : List Nat) (s : State) (dt : Nat) : Keeps l s (s.tick dt) := fun _ _ => rfl

/-- A change beside the registers. -/
theorem keeps_of_regs {l : List Nat} {s t u : State} (h : Keeps l s t) (e : u.regs = t.regs) : Keeps l s u :=
  fun a ha => (congrArg (tabGet regReset · a) e).trans (h a ha)

/-- Both branches of a condition. -/
theorem keeps_ite {l : List Nat} {s t u : State} {c : Prop} [Decidable c] (ht : c → Keeps l s t) (hu : ¬c → Keeps l s u) :
    Keeps l s (if c then t else u) := by
  split
  · exact ht ‹_›
  · exact hu ‹_›

/-- A run of steps that each write listed registers. -/
theorem keeps_foldl {α : Type} {l : List Nat} {s t : State} {f : State → α → State} {xs : List α} (h : Keeps l s t)
    (hf : ∀ u x, Keeps l s u → Keeps l s (f u x)) : Keeps l s (xs.foldl f t) := by
  induction xs generalizing t with
  | nil => exact h
  | cons x xs ih => exact ih (hf t x h)

/-- A violation writes the counter of its kind and the record of the last one (R108, R109). -/
theorem keeps_viol {l : List Nat} {s t : State} {p kind ctx a : Nat} (h : Keeps l s t) (hcnt : R.CTX_VIOL_CNT p kind ∈ l)
    (hlast : ∀ k < 4, R.CTX_VIOL_LAST p k ∈ l) : Keeps l s (t.viol p kind ctx a) := by
  refine (h.wr hcnt).wrs fun e he => ?_
  simp only [List.mem_cons, List.not_mem_nil, or_false] at he
  obtain rfl | rfl | rfl | rfl := he <;> exact hlast _ (by decide)

section

variable {dt : Nat} {s t : State}

/-! ### BAR0 (R47 to R52) -/

theorem keeps_requestAreaWrite {fn word : Fin 64} {slot : Fin 16} {w : Word} (h : exec (.requestAreaWrite dt fn slot word w) s = .next t) :
    Keeps [R.MBX fn (0x1000 + 0x100 * slot + 4 * word), R.MBX fn 0x1C] s t := by
  obtain rfl := Host.Outcome.next.inj h
  have htick := keeps_tick [R.MBX fn (0x1000 + 0x100 * slot + 4 * word), R.MBX fn 0x1C] s dt
  exact keeps_ite (fun _ => htick) fun _ => keeps_ite (fun _ => htick.wr (by simp)) fun _ => htick.bump (by simp)

theorem keeps_mbxSlotAck {fn : Fin 64} {w : Word} (h : exec (.mbxSlotAck dt fn w) s = .next t) : Keeps [R.MBX fn 0x0C] s t := by
  obtain rfl := Host.Outcome.next.inj h
  exact keeps_ite (fun _ => keeps_tick _ s dt) fun _ => keeps_foldl (keeps_tick _ s dt) fun u i hu => hu.wrF (by simp)

theorem keeps_mbxIntStat {fn : Fin 64} {w : Word} (h : exec (.mbxIntStat dt fn w) s = .next t) : Keeps [R.MBX fn 0x14] s t := by
  obtain rfl := Host.Outcome.next.inj h
  exact keeps_ite (fun _ => keeps_tick _ s dt) fun _ => (keeps_tick _ s dt).wr (by simp)

/-- A read of BAR0 clears MBX_FN_ERR and writes nothing else (Table 2-2). -/
theorem keeps_bar0Read {l : List Nat} {u : State} {p o : Nat} (hu : Keeps l s u) (hl : R.MBX p 0x1C ∈ l) :
    Keeps l s (u.bar0Read p o).2 := by
  unfold State.bar0Read
  dsimp only
  split
  · split
    · exact hu
    · split
      · exact hu
      · split
        · rename_i ho
          rw [ho]
          exact hu.wr hl
        · exact hu
  · split
    · exact hu
    · split <;> exact hu

theorem keeps_bar0ReservedAccess {fn : Fin 64} {off : BitVec 16} {wr : Bool} (h : exec (.bar0ReservedAccess dt fn off wr) s = .next t) :
    Keeps (R.MBX fn 0x1C :: R.CTX_VIOL_CNT fn 3 :: (List.range 4).map (R.CTX_VIOL_LAST fn)) s t := by
  obtain rfl := Host.Outcome.next.inj h
  have htick := keeps_tick (R.MBX fn 0x1C :: R.CTX_VIOL_CNT fn 3 :: (List.range 4).map (R.CTX_VIOL_LAST fn)) s dt
  have hviol := keeps_viol htick (p := fn) (kind := Viol.bar0) (ctx := 0) (a := R.MBX fn off.toNat) (by simp [Viol.bar0])
    (fun k hk => by simp; exact .inr (.inr ⟨k, hk, rfl⟩))
  refine keeps_ite (fun _ => htick) fun _ => keeps_ite (fun _ => ?_) fun _ => keeps_ite (fun _ => htick) fun _ => ?_
  · exact keeps_ite (fun _ => hviol) fun _ => hviol.emit
  · exact (keeps_bar0Read htick (by simp)).emit

/-! ### Lanes (Table 5-5, R149) -/

theorem keeps_laneCdrLock {lane : Fin 64} (h : exec (.laneCdrLock dt lane) s = .next t) : Keeps [R.LNA_LANE_STAT lane] s t := by
  obtain rfl := Host.Outcome.next.inj h
  exact keeps_ite (fun _ => (keeps_tick _ s dt).wrF (by simp)) fun _ => keeps_tick _ s dt

theorem keeps_laneBlockLock {lane : Fin 64} (h : exec (.laneBlockLock dt lane) s = .next t) : Keeps [R.LNA_LANE_STAT lane] s t := by
  obtain rfl := Host.Outcome.next.inj h
  exact keeps_ite (fun _ => (keeps_tick _ s dt).wrF (by simp)) fun _ => keeps_tick _ s dt

/-- A lane that retrains has no CDR time-out (R146). -/
theorem keeps_laneCdrTimeout {lane : Fin 64} (hagain : tabGet (fun _ => 0) s.lnk.wasLane lane ≠ 0)
    (h : exec (.laneCdrTimeout dt lane) s = .next t) : Keeps [] s t := by
  obtain rfl := Host.Outcome.next.inj h
  rw [if_neg (by simp [hagain])]
  exact keeps_tick _ s dt

/-- A lane that retrains starts its training again (R146). -/
theorem keeps_laneAlignTimeout {lane : Fin 64} (hagain : tabGet (fun _ => 0) s.lnk.wasLane lane ≠ 0)
    (h : exec (.laneAlignTimeout dt lane) s = .next t) : Keeps [R.LNA_LANE_STAT lane] s t := by
  obtain rfl := Host.Outcome.next.inj h
  exact keeps_ite (fun _ => keeps_ite (fun h0 => absurd h0 hagain) fun _ => (keeps_tick _ s dt).wrF (by simp)) fun _ => keeps_tick _ s dt

/-- The generator of a looped lane writes no register (R149). -/
theorem keeps_prbsSend {l : List Nat} {u : State} {n k : Nat} (hu : Keeps l s u) : Keeps l s (u.prbsSend n k).2 := by
  unfold State.prbsSend
  dsimp only
  split
  · exact hu
  · exact keeps_foldl hu fun v _ hv => hv

/-- A bit that the checker receives goes into its own four registers. -/
theorem keeps_prbsBit {l : List Nat} {u : State} {n : Nat} (v : Bool) (hu : Keeps l s u) (hctrl : R.LNA_PRBS_CTRL n ∈ l)
    (herr : R.LNA_PRBS_ERR n ∈ l) (hlo : R.LNA_PRBS_BITS_LO n ∈ l) (hhi : R.LNA_PRBS_BITS_HI n ∈ l) : Keeps l s (u.prbsBit n v) := by
  unfold State.prbsBit
  dsimp only
  split
  · generalize min (2 ^ 48 - 1) _ = bits
    have hbits := hu.wrs (es := [(R.LNA_PRBS_BITS_LO n, w32 bits), (R.LNA_PRBS_BITS_HI n, w32 (bits / 2 ^ 32))]) (by simp [hlo, hhi])
    split
    · exact keeps_of_regs hbits rfl
    · exact keeps_of_regs (hbits.bump herr) rfl
  · exact keeps_ite (fun _ => Keeps.wrF (keeps_of_regs hu rfl) hctrl) fun _ => keeps_of_regs hu rfl

theorem keeps_prbsCheckerLock {rx : PrbsRx} (h : exec (.prbsCheckerLock dt rx) s = .next t) :
    Keeps [R.LNA_PRBS_CTRL rx.lane, R.LNA_PRBS_ERR rx.lane, R.LNA_PRBS_BITS_LO rx.lane, R.LNA_PRBS_BITS_HI rx.lane] s t := by
  obtain rfl := Host.Outcome.next.inj h
  refine keeps_ite (fun _ => keeps_tick _ s dt) fun _ => ?_
  split
  rename_i bits u hbits
  refine keeps_foldl ?_ fun u v hu => keeps_prbsBit v hu (by simp) (by simp) (by simp) (by simp)
  split at hbits
  · rw [← show _ = u from congrArg Prod.snd hbits]
    exact keeps_prbsSend (keeps_tick _ s dt)
  · rw [← show _ = u from congrArg Prod.snd hbits]
    exact keeps_tick _ s dt

/-! ### Packets (R162 to R165) -/

theorem keeps_nullPacket {g : Fin 48} {hdr : BitVec 128} (hclean : ∀ j ∈ s.dmc.inj, 2 ≤ j.kind)
    (h : exec (.nullPacket dt g hdr) s = .next t) : Keeps [R.SLK_HCRC_ERR] s t := by
  obtain rfl := Host.Outcome.next.inj h
  exact (keeps_tick _ s dt).onPacket hclean (by simp) fun _ _ _ _ hu => hu

/-- A segment goes into its frame or is dropped and counted (R163). -/
theorem keeps_segment {l : List Nat} {u : State} {f : Frame} {g : Nat} {hdr : BitVec 128} {bs : List Byte} {ok : Bool}
    (hu : Keeps l s u) (hl : R.SLK_PKT_DROP ∈ l) : Keeps l s (u.segment f g hdr bs ok) := by
  unfold State.segment
  dsimp only
  exact keeps_ite (fun _ => hu.bump hl) fun _ => keeps_of_regs hu rfl

/-- A payload that fails its check is counted (R163). -/
theorem keeps_pcrc {l : List Nat} {u : State} {ok : Bool} (hu : Keeps l s u) (hl : R.SLK_PCRC_ERR ∈ l) :
    Keeps l s (if ok = true then u else u.bump R.SLK_PCRC_ERR 0 32 1) :=
  keeps_ite (fun _ => hu) fun _ => hu.bump hl

theorem keeps_pixelPacket {g : Fin 48} {hdr : BitVec 128} {bs : List Byte} {crc : Word} (hclean : ∀ j ∈ s.dmc.inj, 2 ≤ j.kind)
    (h : exec (.pixelPacket dt g hdr bs crc) s = .next t) : Keeps [R.SLK_HCRC_ERR, R.SLK_PCRC_ERR, R.SLK_PKT_DROP] s t := by
  obtain rfl := Host.Outcome.next.inj h
  refine (keeps_tick _ s dt).onPacket hclean (by simp) fun y body c u hu => keeps_ite (fun _ => hu) fun _ => ?_
  have hcounted := keeps_pcrc (ok := payloadOk y body c) hu (by simp)
  dsimp only
  split
  · refine keeps_ite (fun _ => hcounted) fun _ => keeps_ite (fun _ => ?_) fun _ => hcounted.bump (by simp)
    exact keeps_segment hcounted (by simp)
  · exact hcounted.bump (by simp)

theorem keeps_embedPacket {g : Fin 48} {hdr : BitVec 128} {bs : List Byte} {crc : Word} (hclean : ∀ j ∈ s.dmc.inj, 2 ≤ j.kind)
    (h : exec (.embedPacket dt g hdr bs crc) s = .next t) : Keeps [R.SLK_HCRC_ERR, R.SLK_PCRC_ERR, R.SLK_EMBED_DROP] s t := by
  obtain rfl := Host.Outcome.next.inj h
  refine (keeps_tick _ s dt).onPacket hclean (by simp) fun y body c u hu => keeps_ite (fun _ => hu) fun _ => ?_
  have hcounted := keeps_pcrc (ok := payloadOk y body c) hu (by simp)
  dsimp only
  split
  · exact keeps_ite (fun _ => hcounted) fun _ => Keeps.bump (keeps_of_regs hcounted rfl) (by simp)
  · exact hcounted

/-! ### Chutes, banks, timecode, Ethernet -/

theorem keeps_chuteWrite {ch : Fin 128} {kind : Fin 3} {x : BitVec 64} {poison : Bool}
    (h : exec (.chuteWrite dt ch kind x poison) s = .next t) : Keeps [R.CHT_ERR ch] s t := by
  obtain rfl := Host.Outcome.next.inj h
  exact keeps_ite (fun _ => (keeps_tick _ s dt).put (by simp)) fun _ => keeps_tick _ s dt

theorem keeps_spdHandoverComplete {bank : Fin 64} (h : exec (.spdHandoverComplete dt bank) s = .next t) :
    Keeps [R.SPD_BANK_OWN bank] s t := by
  obtain rfl := Host.Outcome.next.inj h
  refine keeps_ite (fun _ => Keeps.wr ?_ (by simp)) fun _ => keeps_tick _ s dt
  exact keeps_ite (fun _ => keeps_tick _ s dt) fun _ => keeps_tick _ s dt

/-- A timecode base that was set takes its three registers (R412). -/
theorem keeps_tcBaseTaken {l : List Nat} {u : State} (hu : Keeps l s u) (hns : R.TIM_TC_BASE_NS ∈ l) (hlo : R.TIM_TC_BASE_SEC_LO ∈ l)
    (hhi : R.TIM_TC_BASE_SEC_HI ∈ l) : Keeps l s u.tcBaseTaken := by
  unfold State.tcBaseTaken
  split
  · exact Keeps.wrs (keeps_of_regs hu rfl) (by simp [hns, hlo, hhi])
  · exact hu

theorem keeps_timecodeFrameStart (h : exec (.timecodeFrameStart dt) s = .next t) :
    Keeps [R.TIM_TC_BASE_NS, R.TIM_TC_BASE_SEC_LO, R.TIM_TC_BASE_SEC_HI] s t := by
  obtain rfl := Host.Outcome.next.inj h
  have hbase := keeps_tcBaseTaken (keeps_tick [R.TIM_TC_BASE_NS, R.TIM_TC_BASE_SEC_LO, R.TIM_TC_BASE_SEC_HI] s dt) (by simp) (by simp)
    (by simp)
  exact keeps_ite (fun _ => hbase.emit) fun _ => hbase

theorem keeps_ethFrameReceived {port : Fin 2} {bs : List Byte} {size : Nat} {busy : Bool}
    (h : exec (.ethFrameReceived dt port bs size busy) s = .next t) : Keeps [R.TIM_PORT_CNT (1 - port)] s t := by
  obtain rfl := Host.Outcome.next.inj h
  have htick := keeps_tick [R.TIM_PORT_CNT (1 - port)] s dt
  exact keeps_ite (fun _ => htick) fun _ => keeps_ite (fun _ => htick.bump (by simp)) fun _ => htick.emit

end

/-- Settles O59: each command keeps every register outside its list. -/
theorem onlyListedRegistersChange : Obligations.OnlyListedRegistersChange := by
  unfold Obligations.OnlyListedRegistersChange
  intro dt size fn slot word lane bank w crc off wr busy poi g hdr bs rx port ch kind x i l s t c clean again hclean hagain hi hc h
  have hinj : clean = true → ∀ j ∈ s.dmc.inj, 2 ≤ j.kind := fun h j hj => by
    rw [hclean, List.all_eq_true] at h
    simpa using h j hj
  have hwas : again = true → tabGet (fun _ => 0) s.lnk.wasLane lane ≠ 0 := fun h => by
    rw [hagain] at h
    simpa using h
  simp only [List.mem_cons, List.not_mem_nil, or_false, Prod.mk.injEq] at hi
  obtain ⟨rfl, rfl, rfl⟩ | ⟨rfl, rfl, rfl⟩ | ⟨rfl, rfl, rfl⟩ | ⟨rfl, rfl, rfl⟩ | ⟨rfl, rfl, rfl⟩ | ⟨rfl, rfl, rfl⟩ |
    ⟨rfl, rfl, rfl⟩ | ⟨rfl, rfl, rfl⟩ | ⟨rfl, rfl, rfl⟩ | ⟨rfl, rfl, rfl⟩ | ⟨rfl, rfl, rfl⟩ | ⟨rfl, rfl, rfl⟩ |
    ⟨rfl, rfl, rfl⟩ | ⟨rfl, rfl, rfl⟩ | ⟨rfl, rfl, rfl⟩ | ⟨rfl, rfl, rfl⟩ := hi
  · exact keeps_requestAreaWrite h
  · exact keeps_mbxSlotAck h
  · exact keeps_mbxIntStat h
  · exact keeps_bar0ReservedAccess h
  · exact keeps_laneCdrLock h
  · exact keeps_laneCdrTimeout (hwas hc) h
  · exact keeps_laneBlockLock h
  · exact keeps_laneAlignTimeout (hwas hc) h
  · exact keeps_prbsCheckerLock h
  · exact keeps_pixelPacket (hinj hc) h
  · exact keeps_embedPacket (hinj hc) h
  · exact keeps_nullPacket (hinj hc) h
  · exact keeps_chuteWrite h
  · exact keeps_spdHandoverComplete h
  · exact keeps_timecodeFrameStart h
  · exact keeps_ethFrameReceived h

end Sys2Proof.Proofs
end

section
/-!
Served Kilel commands of groups 0x01 to 0x03: what their meanings answer, and what the commands come to (R56, R69, R92, R101).
-/

namespace Sys2Proof.Proofs

open Sys2Proof Sys2Proof.Machine Sys2Proof.Laws

variable {r : Req} {s t v : State} {dt : Nat} {c : Call}

/-! ### Meanings -/

theorem dmaOut_asked {u : State} {bs : List Byte} (h : bs ≠ []) (hl : bs.length ≤ (s.asked dt c).outLen) (ho : c.outOk = true) :
    dmaOut (s.asked dt c) bs t u = .done St.OK [w32 bs.length] (u.emit (.host c.part (s.asked dt c).outAddr bs)) := by
  rw [dmaOut_ok h hl (asked_outOk.trans ho), asked_part]

/-- A tag has bytes. -/
theorem tagBytes_ne_nil {time epoch ctx kind frame source flags : Nat} :
    tagBytes time epoch ctx kind frame source flags ≠ [] := by
  simp [tagBytes, leBytes]

theorem memAlloc_ok {n a : Nat} (hq : s.overQuota r.part (some r.ctx) n = false) (hf : s.findRange n = (some a, v)) :
    memAlloc n r s = .done St.OK [w32 a, w32 (a / 2 ^ 32)]
      (v.addAlloc { addr := a, size := n, ctx := some r.ctx, part := r.part, slot := none }) := by
  unfold memAlloc
  rw [hq, hf]
  rfl

theorem memFree_ok {a : Nat} {x : Alloc}
    (h : s.allocs.find? (fun y => decide (y.addr = a) && decide (y.part = r.part) && y.slot.isNone) = some x) :
    memFree a r s = .done St.OK [] (s.dropAlloc x) := by
  unfold memFree
  rw [h]

theorem memWrite_ok {a : Nat} (hl : r.inLen ≠ 0) (h : s.memBad r.part a r.inLen = none) :
    memWrite a r s = .done St.OK [] ((s.ask Port.hlk r.ctx a r.inLen).eccStore r.ctx a r.input) := by
  unfold memWrite
  rw [if_neg hl, h]

theorem memRead_ok {a n : Nat} {bs : List Byte} (hn : 0 < n) (h : s.memBad r.part a n = none)
    (hr : (s.ask Port.hlk r.ctx a n).eccReads r.ctx a n = (bs, v)) : memRead a n r s = dmaOut r bs s v := by
  unfold memRead
  rw [if_neg (Nat.ne_of_gt hn), h]
  dsimp only
  rw [hr]

theorem regRead_ok {vs : List Word} (h : s.readRun r.part r.ctx r.regAddr (r.f 1 8 8) = (vs, false, v)) :
    regRead r s = .done St.OK (w32 s.ep.epoch :: vs) v := by
  unfold regRead
  rw [h]
  rfl

theorem regWrite_ok (h : ∀ i < r.f 1 8 8, isSetting (r.regAddr + 4 * i) = false ∧
      s.hoBad r.part (r.regAddr + 4 * i) (r.w (2 + i)) = false) :
    regWrite r s = .done St.OK []
      (s.writeRun r.part r.ctx ((List.range (r.f 1 8 8)).map (fun i => (r.regAddr + 4 * i, r.w (2 + i))))) := by
  have h1 : ((List.range (r.f 1 8 8)).map (fun i => (r.regAddr + 4 * i, r.w (2 + i)))).any (fun e => isSetting e.1) = false := by
    simp only [List.any_eq_false, List.mem_map, List.mem_range]
    rintro _ ⟨i, hi, rfl⟩
    simp [(h i hi).1]
  have h2 : ((List.range (r.f 1 8 8)).map (fun i => (r.regAddr + 4 * i, r.w (2 + i)))).any
      (fun e => s.hoBad r.part e.1 e.2) = false := by
    simp only [List.any_eq_false, List.mem_map, List.mem_range]
    rintro _ ⟨i, hi, rfl⟩
    simp [(h i hi).2]
  unfold regWrite
  dsimp only
  rw [h1, h2]
  rfl

theorem settingsStage_ok {es : Over} (h : parseEntries (if r.dma then bytesWords (r.inLen / 4) r.input else r.pay) = some es) :
    settingsStage r s = stageAnswer r es s := by
  unfold settingsStage
  rw [h]

/-- A commit that is accepted leaves the partition's staged set and is answered as `submitAnswer` says. -/
theorem epochCommit_accepted {sensor : List SensorWrite} {q id : Nat}
    (h : s.submit r.part r.ctx (s.stageSet r.part) ((r.w 0).toNat + r.f 1 0 8 * 2 ^ 32) (if r.part = 0 then sensor else []) =
      (St.OK, some (q, id), v)) :
    epochCommit sensor r s = submitAnswer r (St.OK, some (q, id), v.unstage r.part) := by
  unfold epochCommit
  rw [h]
  rfl

theorem submitAnswer_done {q id : Nat} (hw : r.wait = false) :
    submitAnswer r (St.OK, some (q, id), v) = .done St.OK [w32 id, w32 v.short] v := by
  unfold submitAnswer
  rw [hw]
  rfl

theorem submitAnswer_wait {q id : Nat} (hw : r.wait = true) :
    submitAnswer r (St.OK, some (q, id), v) = .wait (.commit q) v := by
  unfold submitAnswer
  rw [hw]
  rfl

theorem settingsRead_staged {w : Word} (h : s.staged r.part r.setAddr = some w) :
    settingsRead r s = .done St.OK [1, w] s := by
  unfold settingsRead settingsReadAt
  rw [h]

/-- `VIOLATION_READ` by a partition that may read those counters. -/
theorem violationRead_ok (h : r.part = 0 ∨ (r.f 0 0 6 = r.part ∧ bit (r.w 0) 6 = false)) :
    violationRead r s = .done St.OK
      ((List.range 16).map (fun k => s.rd (R.CTX_VIOL_CNT (r.f 0 0 6) k)) ++
        (List.range 4).map (fun k => s.rd (R.CTX_VIOL_LAST (r.f 0 0 6) k)))
      (if bit (r.w 0) 6 then s.regClear (R.CTX_VIOL_CNT (r.f 0 0 6) 0) (R.CTX_VIOL_CNT (r.f 0 0 6 + 1) 0) else s) := by
  unfold violationRead
  dsimp only
  rw [if_neg]
  rcases h with h | ⟨h, hb⟩
  · exact fun hc => hc.1 h
  · rintro ⟨-, hc | hc⟩
    · exact hc h
    · rw [hb] at hc
      cases hc

/-! ### `RESET` -/

/-- A level 4 reset asked for by part 0 is due once it is answered (R102). -/
theorem resetCmd_device (h4 : r.f 0 0 3 = 4) (hp : r.part = 0) (hw : r.wait = false) :
    resetCmd r s = .done St.OK [] { s with pwr := { s.pwr with warm := true } } := by
  unfold resetCmd
  dsimp only
  rw [if_neg (fun hc => hc.1 hp), if_pos h4, hw]
  rfl

/-- The caller waits for its own reset. -/
def ownReset (r : Req) (level : Nat) : Bool :=
  decide (level ≠ 1) && (decide (r.f 0 8 6 = r.part) || (decide (level = 3) && decide (r.f 0 8 6 = 0)))

theorem ownReset_iff {level : Nat} :
    ownReset r level = true ↔ level ≠ 1 ∧ (r.f 0 8 6 = r.part ∨ (level = 3 ∧ r.f 0 8 6 = 0)) := by
  simp only [ownReset, Bool.and_eq_true, Bool.or_eq_true, decide_eq_true_eq]

/-- A level 1 to 3 reset that the caller may ask for begins (R101). -/
theorem resetCmd_starts {level id : Nat} (hl : r.f 0 0 3 = level) (h3 : level ≤ 3)
    (hmay : r.part = 0 ∨ (level = 1 ∧ s.owns r.part (r.f 0 16 12) = true) ∨ (level = 2 ∧ r.f 0 8 6 = r.part))
    (hs : s.startReset level (if level = 1 then [] else [r.f 0 8 6]) [r.f 0 16 12] [] = (id, v)) :
    resetCmd r s = if r.wait || ownReset r level then .wait (.reset id) v else .done St.OK [] v := by
  have hperm : ¬(r.part ≠ 0 ∧ (3 ≤ level ∨ (level = 2 ∧ r.f 0 8 6 ≠ r.part))) := by
    rintro ⟨hp, hc⟩
    rcases hmay with h | ⟨h, -⟩ | ⟨h, hq⟩ <;> omega
  have howns : ¬(level = 1 ∧ r.part ≠ 0 ∧ s.owns r.part (r.f 0 16 12) = false) := by
    rintro ⟨h1, hp, ho⟩
    rcases hmay with h | ⟨-, h⟩ | ⟨h, -⟩
    · exact hp h
    · rw [ho] at h
      cases h
    · omega
  unfold resetCmd
  dsimp only
  rw [hl, if_neg hperm, if_neg (by omega), if_neg howns, hs]
  rfl

/-! ### The commands -/

/-- Settles O9: none of the four has a check of its own, so being admitted is being served. -/
theorem livenessCommandsComplete : Obligations.LivenessCommandsComplete := by
  intro dt c s u r hu hr
  subst hu hr
  refine ⟨fun h => ok_done h rfl rfl, fun h => ok_done h rfl rfl, fun h => ok_done h rfl rfl, fun log h hne hl ho => ?_⟩
  exact ok_done h rfl (dmaOut_asked hne hl ho)

/-- Settles O10. -/
theorem memoryCommandsComplete : Obligations.MemoryCommandsComplete := by
  intro dt c s u r hu hr
  subst hu hr
  refine ⟨fun pages a v h hp hq hf => ?_, fun addr x h hx => ?_, fun addr h hl hb => ?_, fun addr len bs v h h0 h4 hm hb he hne hl ho => ?_⟩
  · rw [← asked_part (s := s) (dt := dt)] at hq ⊢
    exact ok_done h (decide_eq_true hp) (memAlloc_ok hq hf)
  · exact ok_done h rfl (memFree_ok (by rw [asked_part]; exact hx))
  · exact ok_done h rfl (memWrite_ok hl (by rw [asked_part]; exact hb))
  · have hargs : (decide (len % 4 = 0) && decide (len ≤ 2 ^ 24)) = true := by rw [decide_eq_true h4, decide_eq_true hm]; rfl
    exact ok_done h hargs ((memRead_ok h0 (by rw [asked_part]; exact hb) he).trans (dmaOut_asked hne hl ho))

/-- Settles O11. -/
theorem registerCommandsComplete : Obligations.RegisterCommandsComplete := by
  intro dt c s u r hu hr
  subst hu hr
  refine ⟨fun vs v h ha hv => ok_done h ha (regRead_ok (by rw [asked_part]; exact hv)), fun h ha hw => ?_⟩
  rw [← asked_part (s := s) (dt := dt)] at hw ⊢
  exact ok_done h ha (regWrite_ok hw)

/-- Settles O12. -/
theorem epochCommandsComplete : Obligations.EpochCommandsComplete := by
  intro dt c s u r hu hr
  subst hu hr
  refine ⟨fun es sup v h ha hp hst hq => ?_, fun sensor q id v h hsub => ?_, fun h => ?_, fun bs h hin ho hbs hl => ?_,
    fun w h hs hst => ?_, fun w b v h hs hst hrd => ?_, fun h => ok_done h rfl rfl⟩
  · exact ok_done h ha ((settingsStage_ok hp).trans (stageAnswer_ok asked_part hst hq))
  · rw [← asked_part (s := s) (dt := dt)] at hsub ⊢
    have hc := epochCommit_accepted (sensor := sensor) hsub
    exact ⟨fun hw => ok_done h rfl (hc.trans (submitAnswer_done hw)), fun hw => ok_wait h rfl (hc.trans (submitAnswer_wait hw))⟩
  · rw [← asked_part (s := s) (dt := dt)]
    exact ok_done h rfl rfl
  · have hne : bs ≠ [] := by
      rw [hbs]
      exact List.append_ne_nil_of_left_ne_nil tagBytes_ne_nil _
    refine ok_done h (decide_eq_true hin) (Eq.trans ?_ (dmaOut_asked (t := s.begun dt c) hne hl ho))
    rw [hbs, ← asked_part (s := s) (dt := dt)]
    rfl
  · exact ok_done h hs (settingsRead_staged (by rw [asked_part]; exact hst))
  · exact ok_done h hs (settingsReadAt_none (by rw [asked_part]; exact hst) (by rw [asked_part]; exact hrd))

/-- Settles O13. -/
theorem contextCommandsComplete : Obligations.ContextCommandsComplete := by
  intro dt c s u r hu hr
  subst hu hr
  refine ⟨fun es sup v hst hq => ?_, fun h h4 hp hw => ?_, fun level id v h hl h1 h3 hmay hs => ?_, fun h hp => ?_, fun h hr => ?_⟩
  · have staged := stageAnswer_ok (asked_part (s := s) (dt := dt)) hst hq
    refine ⟨fun h ha he => ok_done h ha ?_, fun h ha he => ok_done h ha ?_, fun h ha he => ok_done h ?_ ?_, fun h ha he => ok_done h ha ?_⟩
    · rw [← staged, he]
      rfl
    · rw [← staged, he, ← asked_part (s := s) (dt := dt)]
      rfl
    · rw [he] at ha
      exact ha
    · rw [← staged, he]
      rfl
    · rw [← staged, he, ← asked_part (s := s) (dt := dt)]
      rfl
  · have hargs : (decide (1 ≤ (s.asked dt c).f 0 0 3) && decide ((s.asked dt c).f 0 0 3 ≤ 4)) = true := by rw [h4]; rfl
    exact congrArg (fun k : State => Host.Outcome.next k.warmDue)
      (kilel_done h hargs (resetCmd_device h4 (asked_part.trans hp) hw))
  · have hargs : (decide (1 ≤ (s.asked dt c).f 0 0 3) && decide ((s.asked dt c).f 0 0 3 ≤ 4)) = true := by
      rw [hl]
      simp only [Bool.and_eq_true, decide_eq_true_eq]
      omega
    rw [← asked_part (s := s) (dt := dt)] at hmay ⊢
    have he := resetCmd_starts hl h3 hmay hs
    refine ⟨fun hw => ?_, fun hw ho => ?_⟩
    · have hb : ((s.asked dt c).wait || ownReset (s.asked dt c) level) = true := by
        rw [Bool.or_eq_true, ownReset_iff]
        exact hw
      rw [if_pos hb] at he
      exact congrArg (fun k : State => Host.Outcome.next k.warmDue) (kilel_wait h hargs he)
    · have hb : ¬((s.asked dt c).wait || ownReset (s.asked dt c) level) = true := by
        rw [Bool.or_eq_true, ownReset_iff, hw]
        rintro (hc | ⟨hn, hc⟩)
        · cases hc
        · rcases ho with ho | ⟨ho, h0⟩
          · exact hn ho
          · rcases hc with hc | ⟨hc, hz⟩
            · exact ho hc
            · exact h0 hc hz
      rw [if_neg hb] at he
      exact congrArg (fun k : State => Host.Outcome.next k.warmDue) (kilel_done h hargs he)
  · rw [← asked_part (s := s) (dt := dt)] at hp
    exact ok_done h rfl (violationRead_ok hp)
  · refine ok_done h ?_ rfl
    rcases hr with ⟨hn, hb⟩ | ⟨hn, hb⟩
    · rw [if_pos hn, hb]
      rfl
    · rw [if_neg (by omega), decide_eq_true hn, decide_eq_true hb]
      rfl

end Sys2Proof.Proofs
end

section
/-!
Served Kilel commands of the sensor link, the take slots and the streams (groups 0x04 to 0x06): what their meanings answer, and
what the commands come to.
-/

namespace Sys2Proof.Proofs

open Sys2Proof Sys2Proof.Machine Sys2Proof.Laws

variable {r : Req} {s v : State} {dt : Nat} {c : Call}

/-! ### The sensor link -/

theorem linkStart_wait (h : s.linkSt = 0) (hw : r.wait = true) : linkStart r s = .wait .link s.linkBegin := by
  unfold linkStart
  rw [if_neg (not_not_intro h), hw]
  rfl

theorem linkStart_done (h : s.linkSt = 0) (hw : r.wait = false) :
    linkStart r s = .done St.OK [s.linkBegin.rd R.SLK_LINK_STAT] s.linkBegin := by
  unfold linkStart
  rw [if_neg (not_not_intro h), hw]
  rfl

theorem linkStop_starting (h : s.linkSt = 1) : linkStop r s = .done St.OK [] s.linkEnd := by
  unfold linkStop
  rw [if_neg (by omega), if_pos h]

theorem linkStop_running (h : 2 ≤ s.linkSt) :
    linkStop r s = .done St.OK [] { s with lnk := { s.lnk with stopReq := true } } := by
  unfold linkStop
  rw [if_neg (by omega), if_neg (by omega)]

/-- The command that `SENSOR_CMD` queues. -/
def sensorBc (r : Req) : BcCmd :=
  { kind := 0, type := r.f 0 0 8, tag := 0, count := r.f 0 8 8, addr := (r.w 1).toNat, vals := [r.w 2, r.w 3, r.w 4, r.w 5],
    last := false, epoch := 0, from_ := 0, to_ := 0, tries := 0, sentAt := none, ctx := r.ctx }

theorem sensorCmd_wait {t : Nat} (h : s.bcPush (sensorBc r) = (t, v)) : sensorCmd r s = .wait (.sensor t) v := by
  have hs : sensorCmd r s = .wait (.sensor (s.bcPush (sensorBc r)).1) (s.bcPush (sensorBc r)).2 := rfl
  rw [hs, h]

/-- Settles O14. -/
theorem linkCommandsComplete : Obligations.LinkCommandsComplete := by
  intro dt c s u r hu hr
  subst hu hr
  refine ⟨fun h hst => ⟨fun hw => ok_wait h rfl (linkStart_wait hst hw), fun hw => ok_done h rfl (linkStart_done hst hw)⟩,
    fun h => ⟨fun hst => ok_done h rfl (linkStop_starting hst), fun hst => ok_done h rfl (linkStop_running hst)⟩,
    fun h => ok_done h rfl rfl, fun t v h ha hp => ok_wait h ha (sensorCmd_wait hp), fun sup v h ha hst hq => ok_done h ha ?_⟩
  rw [stageAnswer_ok asked_part hst hq]
  rfl

/-! ### Take slots -/

/-- A trigger source that `TAKE_CONFIG` accepts: none is used, or the caller owns it. -/
theorem takeConfig_ok {k : Nat} (hst : s.slotSt k < 2)
    (htrig : r.f 0 4 1 = 0 ∨ r.f 0 5 3 = 0 ∨ s.resOwner (0x10 + r.f 0 5 3 - 1) = r.part) :
    takeConfig k r s = .done St.OK [] ((s.setSlotT k
      { mode := r.f 0 4 1, trigSrc := r.f 0 5 3, leadEn := decide (r.f 0 8 1 = 1), embedKib := r.f 0 16 7,
        capMib := r.f 1 0 18, preNs := r.w64 2, postNs := r.w64 4, ctx := r.ctx }).setSlotSt k 1) := by
  unfold takeConfig
  dsimp only
  rw [if_neg, if_neg (by omega)]
  rintro ⟨h1, h2, h3⟩
  rcases htrig with h | h | h
  · omega
  · exact h2 h
  · exact h3 h

/-- What `TAKE_ARM` needs of the part and of the slot's configuration (R284, R285). -/
structure Armable (s : State) (r : Req) (k h w n : Nat) (own : Option Nat) : Prop where
  configured : s.slotSt k = 1
  coding : s.bt R.BKC_CFG 0 = true
  rate : s.fd R.DMC_CFG 0 2 = s.fd R.DMC_INFO 10 2
  live : (selIdx 16 s.slotLive).length < 4
  shape : s.unitShape (s.slot k) = (h, w, n)
  units : 2 ≤ n
  bandwidth : s.liveU + w ≤ 128 * (s.rd R.SLK_PERIOD_MIN).toNat
  owner : own = if s.owns r.part (s.slot k).ctx then some (s.slot k).ctx else none
  quota : s.overQuota r.part own ((s.slot k).capMib * 0x100000) = false
  store : ((s.allocs.filter (fun x => x.slot.isSome)).map (·.size)).sum + (s.slot k).capMib * 0x100000 ≤ 240 * 2 ^ 30

theorem takeArm_ok {k h w n a : Nat} {own : Option Nat} (hx : Armable s r k h w n own)
    (hf : s.findRange ((s.slot k).capMib * 0x100000) = (some a, v)) :
    takeArm k r s = .done St.OK [w32 v.lnd.takeNext, w32 w, w32 n]
      (v.armed k a ((s.slot k).capMib * 0x100000) own r.part h w n (s.slot k)) := by
  obtain ⟨hst, hb, hrate, hlive, hshape, hn, hbw, hown, hq, hstore⟩ := hx
  have hready : ¬(decide (s.slotSt k ≠ 1) || !s.bt R.BKC_CFG 0) = true := by rw [hst, hb]; decide
  unfold takeArm
  dsimp only
  rw [hshape]
  dsimp only
  rw [← hown, if_neg hready, if_neg (not_not_intro hrate), if_neg (Nat.not_le.mpr hlive), if_neg (Nat.not_lt.mpr hn),
    if_neg (Nat.not_lt.mpr hbw), hq, if_neg Bool.false_ne_true, if_neg (Nat.not_lt.mpr hstore), hf]

theorem takeDisarm_ok {k : Nat} (h : s.slotSt k = 2) : takeDisarm k r s = .done St.OK [] (s.toIdle k) :=
  if_neg (not_not_intro h)

theorem takeStart_ok {k : Nat} (hl : s.slotLive k = true) (hm : (s.slot k).mode ≠ 1) (h : (s.slot k).start = none) :
    takeStart k r s = .done St.OK [] (s.setStart k (takeTime r s)) :=
  if_neg (by simp [hl, hm, h])

theorem takeStop_ok {k : Nat} (hl : s.slotLive k = true) (hm : (s.slot k).mode ≠ 1) (h : (s.slot k).stop = none) :
    takeStop k r s = .done St.OK [] (s.setStop k (takeTime r s)) :=
  if_neg (by simp [hl, hm, h])

theorem takeTrigger_ok {k : Nat} (hst : s.slotSt k = 2) (hm : (s.slot k).mode = 1) (h : (s.slot k).trig = none) :
    takeTrigger k r s = .done St.OK [] (s.trigger k (takeTime r s)) :=
  if_neg (by simp [hst, hm, h])

/-- Settles O15: on a slot of the caller's a take command comes to its meaning (`takeCmd_mine`). -/
theorem takeCommandsComplete : Obligations.TakeCommandsComplete := by
  intro dt c s u r k hu hr hk hown
  subst hu hr hk
  rw [← asked_part (s := s) (dt := dt)] at hown ⊢
  have mine : ∀ (n : Nat) (body : Nat → Req → State → Ans), takeCmd n body (s.asked dt c) (s.begun dt c) =
      body ((s.asked dt c).f 0 0 4) (s.asked dt c) (s.begun dt c) := fun n body => takeCmd_mine hown
  refine ⟨fun h ha hst ht => ok_done h ha ((mine 0 takeConfig).trans (takeConfig_ok hst ht)),
    fun h w n a own v hadm hst hb hrate hlive hshape hn hbw ho hq hstore hf => ?_,
    fun h hst => ok_done h rfl ((mine 0 takeDisarm).trans (takeDisarm_ok hst)),
    fun h ht hl hm hn => ok_done h (decide_eq_true ht) ((mine 0 takeStart).trans (takeStart_ok hl hm hn)),
    fun h ht hl hm hn => ok_done h (decide_eq_true ht) ((mine 0 takeStop).trans (takeStop_ok hl hm hn)),
    fun h ht hst hm hn => ok_done h (decide_eq_true ht) ((mine 0 takeTrigger).trans (takeTrigger_ok hst hm hn)),
    fun h hst hn => ok_done h rfl ((mine 0 takeDelete).trans (takeDelete_unread _ hst hn))⟩
  exact ok_done hadm rfl ((mine 3 takeArm).trans
    (takeArm_ok ⟨hst, hb, hrate, hlive, hshape, hn, hbw, ho, hq, hstore⟩ hf))

theorem takeRead_ok {ue : List Nat} {k : Nat} (hst : s.slotSt k = 5) (hres : entryNum (s.dirEntry k) 0x08 1 ≠ 2)
    (hc : (r.w 2).toNat ≠ 0) (hb : s.bindOk r.part (r.f 0 16 16) false = true)
    (hlo : -(entryNum (s.dirEntry k) 0x3C 2 : Int) ≤ sx 32 (r.w 1).toNat)
    (hhi : sx 32 (r.w 1).toNat + ((r.w 2).toNat : Int) ≤ (entryNum (s.dirEntry k) 0x38 4 : Int)) :
    takeRead ue k r s =
      .done St.OK [] (s.readTake ue k (r.f 0 16 16) (sx 32 (r.w 1).toNat) (r.w 2).toNat r.ctx) := by
  unfold takeRead
  dsimp only
  rw [hb, if_neg, if_neg]
  · simp [hst, hres]
  · simp only [Bool.or_eq_true, Bool.and_eq_true, decide_eq_true_eq]
    rintro ((hc0 | hc0) | ⟨-, (hc0 | hc0) | hc0⟩)
    · exact hc hc0
    · cases hc0
    all_goals omega

/-- Settles O16. -/
theorem takeReadsComplete : Obligations.TakeReadsComplete := by
  intro dt c s u r hu hr
  subst hu hr
  refine ⟨fun bs h hbs hne hl ho => ok_done h rfl ?_, fun ue k h hk hown hst hres hc hb hlo hhi => ?_, fun h => ok_done h rfl ?_⟩
  · rw [← dmaOut_asked (t := s.begun dt c) hne hl ho, hbs, ← asked_part (s := s) (dt := dt)]
    rfl
  · subst hk
    rw [← asked_part (s := s) (dt := dt)] at hown hb
    exact ok_done h rfl ((takeCmd_mine hown).trans (takeRead_ok hst hres hc hb hlo hhi))
  · rw [← asked_part (s := s) (dt := dt)]
    rfl

/-! ### Streams and statistics -/

theorem streamOpen_ok (hm : s.myStream r.part (r.f 0 0 4) = true) (hb : s.bindOk r.part (r.f 0 16 16) false = true) :
    streamOpen r s = stageAnswer r [(R.HLK_STREAM_CFG (r.f 0 0 4), w32 (1 + r.f 0 16 16 * 65536))] s := by
  unfold streamOpen
  dsimp only
  rw [hm, hb]
  rfl

theorem streamClose_ok (hm : s.myStream r.part (r.f 0 0 4) = true) (hon : s.bt (R.HLK_STREAM_CFG (r.f 0 0 4)) 0 = true) :
    streamClose r s = submitAnswer r (s.submit r.part r.ctx (s.closeEntry (r.f 0 0 4)) 0 []) := by
  unfold streamClose
  dsimp only
  rw [hm, hon]
  rfl

/-- A route that may be bound is staged, and its ring bound once the entries are staged. -/
theorem statsRoute_ok {route ctx ring : Nat} {en : Bool} {pay : List Word} (ho : s.owns r.part ctx = true)
    (hb : s.bindOk r.part ring false = true)
    (hst : stageAnswer r (s.routeEntries r.part route ctx en) s = .done St.OK pay v) :
    statsRoute route ctx en ring r s =
      .done St.OK pay { v with crs := { v.crs with ring := tabSet (fun _ => 0) v.crs.ring ctx (ring + 1) } } := by
  unfold statsRoute
  rw [ho, hb, hst]
  rfl

/-- Settles O17. -/
theorem streamCommandsComplete : Obligations.StreamCommandsComplete := by
  intro dt c s u r hu hr
  subst hu hr
  rw [← asked_part (s := s) (dt := dt)]
  refine ⟨fun sup v h hm hb hst hq => ok_done h rfl ((streamOpen_ok hm hb).trans (stageAnswer_ok rfl hst hq)),
    fun q id v h hm hon hsub hw => ok_done h rfl ((streamClose_ok hm hon).trans ?_),
    fun h => ok_done h rfl rfl,
    fun route ctx en ring sup v h ho hb hst hq => ok_done h rfl (statsRoute_ok ho hb (stageAnswer_ok rfl hst hq))⟩
  unfold State.closeEntry
  rw [hsub]
  exact submitAnswer_done hw

end Sys2Proof.Proofs
end

section
/-!
Served Kilel commands of the video coder and of the monitor outputs (groups 0x07 and 0x08): what their meanings answer, and what
the commands come to.
-/

namespace Sys2Proof.Proofs

open Sys2Proof Sys2Proof.Machine Sys2Proof.Laws

variable {r : Req} {s v : State} {dt : Nat} {c : Call}

/-! ### The video coder -/

/-- A session that no cause of Table 13-3 refuses is opened under the free number that the open value picks. -/
theorem vcOpen_ok {l : Level} {free : List Nat} {n : Nat} (hl : vcLevel (r.f 0 16 8) = some l)
    (hf : free = selIdx 64 (fun q => (s.vc q).isNone)) (hne : free ≠ []) (href : s.vcRefusal r l = none) (hn : s.fresh = (n, v)) :
    vcOpen r s = .done St.OK [w32 (nth free (n % free.length)), w32 (v.vcK (r.f 0 8 2) (r.f 1 0 16) (r.f 1 16 16))]
      ((v.setVc (nth free (n % free.length)) (vcSession r)).vcPoolRegs r.part) := by
  have hempty : ¬free.isEmpty = true := by simpa using hne
  unfold vcOpen
  dsimp only
  rw [← hf, hl]
  dsimp only
  rw [if_neg hempty, href]
  dsimp only
  rw [hn]

theorem vcClose_ok {q : Nat} {x : VcSession} (hx : s.vcNamed r.part q = some x) (hc : x.closing = false) :
    vcClose q r s = .done St.OK [] (s.vcShut q x) := by
  unfold vcClose
  rw [hx]
  dsimp only
  rw [hc, if_neg Bool.false_ne_true]

theorem vcJob_ok {dec : Bool} {x : VcSession} (hx : s.vcNamed r.part (r.f 0 0 6) = some x) (hl : x.live = false)
    (hc : x.closing = false) (hj : x.jobs.length < 16) (hd : x.dec = dec) (hw : s.vcWithin dec r = true) :
    vcJob dec r s = .done St.OK [] (s.vcAdd (r.f 0 0 6) x r) := by
  unfold vcJob
  dsimp only
  rw [hx]
  dsimp only
  rw [hw, hl, hc, if_neg (by simp [hd]), if_neg (by simp), if_neg (Nat.not_le.mpr hj)]

theorem vcPoolAlloc_takes {x : VcSession} {n : Nat} (hx : s.vcNamed r.part (r.f 0 0 6) = some x)
    (hn : sx 16 (r.f 0 16 16) = (n : Int)) (hfree : n ≤ s.vcFree)
    (hq : n = 0 ∨ s.vcHeld r.part + n ≤ s.fd (R.PART_POOL_QUOTA r.part) 0 8) :
    vcPoolAlloc r s = .done St.OK []
      ((s.setVc (r.f 0 0 6) { x with pool := x.pool ++ s.poolFree.take n }).vcPoolRegs r.part) := by
  unfold vcPoolAlloc
  dsimp only
  rw [hx]
  dsimp only
  rw [hn, if_pos (Int.natCast_nonneg n), Int.toNat_natCast, if_neg, if_neg (Nat.not_lt.mpr hfree)]
  simp only [Bool.and_eq_true, decide_eq_true_eq]
  omega

theorem vcPoolAlloc_gives {x : VcSession} {n : Nat} {idle : List Nat} (hx : s.vcNamed r.part (r.f 0 0 6) = some x)
    (hn : sx 16 (r.f 0 16 16) = -(n : Int)) (h0 : 0 < n)
    (hi : idle = x.pool.filter (fun b => !(x.usedBufs (s.vcK x.profile x.maxW x.maxH)
      (x.cur.isSome || decide (s.vcd.dec = some (r.f 0 0 6)))).contains b)) (hlen : n ≤ idle.length) :
    vcPoolAlloc r s = .done St.OK [] ((s.setVc (r.f 0 0 6)
      { x with pool := x.pool.filter (fun b => !(idle.take n).contains b) }).vcPoolRegs r.part) := by
  unfold vcPoolAlloc
  dsimp only
  rw [hx]
  dsimp only
  rw [hn, if_neg (by omega), neg_neg, Int.toNat_natCast, ← hi, if_neg (Nat.not_lt.mpr hlen)]

theorem vcMark_ok {q poc mark : Nat} {x : VcSession} (hx : s.vcNamed r.part q = some x) (hd : x.dec = false) :
    vcMark q poc mark r s =
      .done St.OK [] (s.setVc q { x with marks := x.marks ++ [{ poc := poc, mark := mark, at_ := s.now }] }) := by
  unfold vcMark
  rw [hx]
  dsimp only
  rw [hd, if_neg Bool.false_ne_true]

/-- What `VC_ABORT` of job `j` comes to, by whether the job has started and when (R358). -/
theorem vcAbort_job {x : VcSession} {j : VcJob} (hx : s.vcNamed r.part (r.f 0 0 6) = some x) (hl : x.live = false)
    (hj : x.jobs.find? (fun y => y.tag = r.f 0 16 16) = some j) :
    vcAbort r s =
      if j.startAt.isNone then
        .done St.OK [] ((s.setVc (r.f 0 0 6) { x with jobs := x.jobs.erase j }).vcJobDone (r.f 0 0 6) j.tag St.ABORTED_NOT_STARTED)
      else if j.startAt = some s.now then
        .done St.OK [] ((((s.encFree (r.f 0 0 6)).decFree (r.f 0 0 6)).setVc (r.f 0 0 6)
          { x.unstart with jobs := x.jobs.erase j }).vcJobDone (r.f 0 0 6) j.tag St.ABORTED_NOT_STARTED)
      else
        .done St.OK [] (s.setVc (r.f 0 0 6) { x with jobs := repl1 j { j with abort := true } x.jobs
                                                     cur := x.cur.map (fun p => { p with abort := true }) }) := by
  unfold vcAbort
  dsimp only
  rw [hx]
  dsimp only
  rw [hl, if_neg Bool.false_ne_true, hj]

/-- Settles O18. -/
theorem videoCoderCommandsComplete : Obligations.VideoCoderCommandsComplete := by
  intro dt c s u r hu hr
  subst hu hr
  rw [← asked_part (s := s) (dt := dt)]
  refine ⟨fun l free n v h ha hl hf hne href hn => ok_done h ha (vcOpen_ok hl hf hne href hn),
    fun q x h hx hc => ok_done h rfl (vcClose_ok hx hc),
    fun x hx hl hc hj => ⟨fun h hd hw => ok_done h rfl (vcJob_ok hx hl hc hj hd hw),
      fun h hd hw => ok_done h rfl (vcJob_ok hx hl hc hj hd hw)⟩,
    fun x n h hx => ⟨fun hn hfree hq => ok_done h rfl (vcPoolAlloc_takes hx hn hfree hq),
      fun idle hn h0 hi hlen => ok_done h rfl (vcPoolAlloc_gives hx hn h0 hi hlen)⟩,
    fun q poc mark x h hx hd => ok_done h rfl (vcMark_ok hx hd), fun x j h hx hl hj => ?_⟩
  have he := vcAbort_job hx hl hj
  refine ⟨fun hn => ok_done h rfl (he.trans ?_), fun hn => ok_done h rfl (he.trans ?_), fun t ht hne => ok_done h rfl (he.trans ?_)⟩
  · rw [if_pos (by rw [hn]; rfl)]
  · rw [if_neg (by rw [hn]; exact Bool.false_ne_true), if_pos hn]
  · rw [if_neg (by rw [ht]; exact Bool.false_ne_true), if_neg (by rw [ht]; exact fun hc => hne (Option.some.inj hc))]

/-! ### The monitor outputs -/

theorem monConfig_ok {o x : Nat} (ho : o < 6) (hm : s.resOwner (outputRes o) = r.part) (hx : s.owns r.part x = true) :
    monConfig o x r s =
      stageAnswer r [(R.MON_OUT_CTRL o, setFld (s.stagedOr r.part (R.MON_OUT_CTRL o)) 8 12 x)] s :=
  if_neg (by simp [hm, hx]; omega)

/-- The push that a `MON_PUSH` of the caller's own buffer makes at time `now`. -/
def pushOf (r : Req) (now : Nat) : MonPush :=
  { output := r.f 0 0 3, layer := r.f 0 4 2, flip := if r.f 0 3 1 = 1 then some (r.f 0 8 8) else none,
    rect := if r.f 2 0 16 ≠ 0 ∧ r.f 2 16 16 ≠ 0
      then some ⟨r.f 1 0 16, r.f 1 16 16, r.f 1 0 16 + r.f 2 0 16, r.f 1 16 16 + r.f 2 16 16⟩ else none, at_ := now }

theorem monPush_ok {t : Nat} (hm : s.monOwned r.part (r.f 0 0 3) = true)
    (hreg : r.f 2 0 16 = 0 ∨ r.f 2 16 16 = 0 ∨ r.f 0 0 3 < 2)
    (hflip : r.f 0 3 1 = 1 → s.fbHeld r.part (r.f 0 8 8) = true)
    (hn : ({ s with mon := { s.mon with pushes := s.mon.pushes ++ [pushOf r s.now] } }).monNext (r.f 0 0 3) = (t, v)) :
    monPush r s = .done St.OK [w32 (shortOf t)] v := by
  have hheld : (decide (r.f 0 3 1 = 1) && !s.fbHeld r.part (r.f 0 8 8)) = false := by
    rw [Bool.and_eq_false_imp, decide_eq_true_eq]
    exact fun h => by rw [hflip h]; rfl
  have hfree : ¬(!s.monOwned r.part (r.f 0 0 3) || (decide (r.f 2 0 16 ≠ 0) && decide (r.f 2 16 16 ≠ 0) && decide (2 ≤ r.f 0 0 3))) = true := by
    simp only [hm, Bool.not_true, Bool.false_or, Bool.and_eq_true, decide_eq_true_eq]
    omega
  unfold monPush
  dsimp only
  rw [if_neg hfree, hheld, if_neg Bool.false_ne_true]
  simp only [Bool.not_false, Bool.and_true, Bool.and_eq_true, decide_eq_true_eq]
  unfold pushOf at hn
  rw [hn]

theorem monFbAlloc_takes {n : Nat} (hn : sx 16 (r.f 0 16 16) = (n : Int)) (hfree : n ≤ s.fbFree.length)
    (hq : n = 0 ∨ (s.fbOf r.part).length + n ≤ s.fd (R.PART_POOL_QUOTA r.part) 8 8) :
    monFbAlloc r s =
      .done St.OK (((s.fbTake r.part n).fbRegs r.part).fbWords r.part) ((s.fbTake r.part n).fbRegs r.part) := by
  unfold monFbAlloc
  dsimp only
  rw [hn, if_pos (Int.natCast_nonneg n), Int.toNat_natCast, if_neg, if_neg (Nat.not_lt.mpr hfree)]
  simp only [Bool.and_eq_true, decide_eq_true_eq]
  omega

theorem monFbAlloc_gives {n : Nat} (hn : sx 16 (r.f 0 16 16) = -(n : Int)) (h0 : 0 < n) (hlen : (fbMap r).length = n)
    (hshown : (fbMap r).any s.fbShown = false)
    (hv : v = ((fbMap r).foldl (fun (t : State) b =>
      if t.fbHeld r.part b then t.setFb b none else t.viol r.part Viol.pool r.ctx b) s).fbRegs r.part) :
    monFbAlloc r s = .done St.OK (v.fbWords r.part) v := by
  unfold monFbAlloc
  dsimp only
  rw [hn, if_neg (by omega), neg_neg, Int.toNat_natCast, if_neg (not_not_intro hlen), hshown, if_neg Bool.false_ne_true, hv]

/-- Settles O19. -/
theorem monitorCommandsComplete : Obligations.MonitorCommandsComplete := by
  intro dt c s u r hu hr
  subst hu hr
  rw [← asked_part (s := s) (dt := dt)]
  refine ⟨fun o x sup v h ho hm hx hst hq => ok_done h rfl ((monConfig_ok ho hm hx).trans (stageAnswer_ok rfl hst hq)),
    fun w h t p v hadm hm hw hh hreg hflip hp hn => ?_,
    fun n h ha => ⟨fun hn hfree hq => ok_done h ha (monFbAlloc_takes hn hfree hq),
      fun v hn h0 hlen hshown hv => ok_done h ha (monFbAlloc_gives hn h0 hlen hshown hv)⟩,
    fun h => ok_done h rfl rfl⟩
  subst hw hh hp
  exact ok_done hadm rfl (monPush_ok hm hreg hflip hn)

end Sys2Proof.Proofs
end

section
/-!
Served Kilel commands of time, audio and storage queues (groups 0x09 to 0x0B): what their meanings answer, and what the commands
come to.
-/

namespace Sys2Proof.Proofs

open Sys2Proof Sys2Proof.Machine Sys2Proof.Laws

variable {r : Req} {s v : State} {dt : Nat} {c : Call}

/-! ### Time -/

theorem timeSet_ok (h3 : s.servo ≠ 3) (h4 : s.servo ≠ 4) (hs : s.tim.sched = []) (ha : s.anyArmed = false) :
    timeSet r s = .done St.OK [] (s.stepTime (timeTarget r s).toNat) := by
  unfold timeSet
  rw [if_neg (by simp [h3, h4, hs]), ha, if_neg Bool.false_ne_true]

theorem ptpConfig_ok {cfg intv servo step : Word} (hb : ptpBad cfg intv servo = false)
    (hc : definedBits R.TIM_PTP_CFG cfg = true) (hi : definedBits R.TIM_PTP_INTV intv = true) :
    ptpConfig cfg intv servo step r s = stageAnswer r
      [(R.TIM_PTP_CFG, cfg), (R.TIM_PTP_INTV, intv), (R.TIM_PTP_SERVO, servo), (R.TIM_PTP_STEP, step)] s := by
  unfold ptpConfig
  rw [hb, hc, hi]
  rfl

theorem genlockConfig_ok {k : Nat} {cfg rate phase gl : Word} (hb : cadBad cfg rate = false)
    (hc : definedBits (R.TIM_CAD_CFG k) cfg = true) (hg : definedBits R.TIM_GL_CFG gl = true) :
    genlockConfig k cfg rate phase gl r s = stageAnswer r
      [(R.TIM_CAD_CFG k, cfg), (R.TIM_CAD_RATE k, rate), (R.TIM_CAD_PHASE k, phase), (R.TIM_GL_CFG, gl)] s := by
  unfold genlockConfig
  rw [hb, hc, hg]
  rfl

/-- How far ahead of the part's short time a `TRIG_SCHEDULE` asks for its edge. -/
def schedAhead (r : Req) (s : State) : Int := sx 32 ((r.w 1).toNat + 2 ^ 32 - s.short)

/-- The entry that a `TRIG_SCHEDULE` names. -/
def schedEntry (r : Req) (s : State) (strb : Bool) : SchedEnt :=
  { pin := r.f 0 0 2, strb := strb, ts := ((s.dev : Int) + schedAhead r s).toNat }

/-- The entries that wait for the pin that a `TRIG_SCHEDULE` names. -/
def pinSched (r : Req) (s : State) (strb : Bool) : List SchedEnt :=
  s.tim.sched.filter (fun x => decide (x.pin = r.f 0 0 2) && x.strb == strb)

/-- An entry waits for its own pin when it waits at all. -/
theorem schedEntry_mem {strb : Bool} : schedEntry r s strb ∈ pinSched r s strb ↔ schedEntry r s strb ∈ s.tim.sched := by
  simp [pinSched, schedEntry]

/-- What a `TRIG_SCHEDULE` comes to on a pin of the caller's, far enough ahead (R407). -/
theorem trigSchedule_mine {strb : Bool} (hstrb : strb = decide (r.f 0 2 1 = 1)) (ha : 2000 ≤ schedAhead r s)
    (hown : s.resOwner ((if strb then 0x14 else 0x10) + r.f 0 0 2) = r.part) :
    trigSchedule r s =
      if r.f 0 3 1 = 1 then
        if (pinSched r s strb).contains (schedEntry r s strb) then
          .done St.OK [] { s with tim := { s.tim with sched := s.tim.sched.erase (schedEntry r s strb) } }
        else .done St.BAD_ARGUMENT [] s
      else if (pinSched r s strb).contains (schedEntry r s strb) then .done St.OK [] s
      else if 16 ≤ (pinSched r s strb).length then .done St.QUEUE_FULL [] s
      else .done St.OK [] { s with tim := { s.tim with sched := s.tim.sched ++ [schedEntry r s strb] } } := by
  subst hstrb
  have hnear : ¬sx 32 ((r.w 1).toNat + 2 ^ 32 - s.short) < 2000 := Int.not_lt.mpr ha
  simp only [decide_eq_true_eq] at hown
  unfold trigSchedule
  dsimp only
  rw [if_neg hnear, if_neg (not_not_intro hown)]
  rfl

theorem timecodeSet_jam (h : r.f 4 0 1 = 1) : timecodeSet r s = .done St.OK [] { s with tim := { s.tim with jam := true } } :=
  if_pos h

theorem timecodeSet_base {m : Nat} (h : r.f 4 0 1 = 0) (hm : tcIndex s.tcCode (r.w 0).toNat = some m) :
    timecodeSet r s = .done St.OK [] { s with tim := { s.tim with tcBase := some (tcBaseFor s.tcCode m
      (if r.f 1 0 30 + ((r.w 2).toNat + r.f 3 0 16 * 2 ^ 32) * 10 ^ 9 = 0 then s.dev
        else r.f 1 0 30 + ((r.w 2).toNat + r.f 3 0 16 * 2 ^ 32) * 10 ^ 9)) } } := by
  unfold timecodeSet
  rw [if_neg (by omega), hm]

/-- Settles O20. -/
theorem timeCommandsComplete : Obligations.TimeCommandsComplete := by
  intro dt c s u r hu hr
  subst hu hr
  rw [← asked_part (s := s) (dt := dt)]
  refine ⟨fun h => ok_done h rfl rfl,
    fun h ha h3 h4 hs harm => ok_done h ha (timeSet_ok h3 h4 hs harm),
    fun cfg intv servo step sup v h hb hc hi hst hq => ok_done h rfl ((ptpConfig_ok hb hc hi).trans (stageAnswer_ok rfl hst hq)),
    fun n strb e h hn hstrb ha hown he => ?_,
    fun k cfg rate phase gl sup v h hb hc hg hst hq => ok_done h rfl ((genlockConfig_ok hb hc hg).trans (stageAnswer_ok rfl hst hq)),
    fun h ha => ?_, fun h => ok_done h rfl rfl⟩
  · subst hn he
    have hrun := trigSchedule_mine hstrb ha hown
    refine ⟨fun h0 hnew hlen => ok_done h rfl (hrun.trans ?_), fun h1 hin => ok_done h rfl (hrun.trans ?_)⟩
    · have hc : ¬(pinSched (s.asked dt c) (s.begun dt c) strb).contains (schedEntry (s.asked dt c) (s.begun dt c) strb) = true := by
        rw [List.contains_iff_mem, schedEntry_mem]
        exact hnew
      rw [if_neg (by omega), if_neg hc]
      exact if_neg (Nat.not_le.mpr hlen)
    · have hc : (pinSched (s.asked dt c) (s.begun dt c) strb).contains (schedEntry (s.asked dt c) (s.begun dt c) strb) = true := by
        rw [List.contains_iff_mem, schedEntry_mem]
        exact hin
      rw [if_pos h1, if_pos hc]
      rfl
  · have hargs : timecodeArgs (s.asked dt c) (s.taken dt c) = true := by
      simp only [timecodeArgs, Bool.or_eq_true, decide_eq_true_eq]
      exact ha
    refine ⟨fun hj => ok_done h hargs (timecodeSet_jam hj), fun m t h0 hm ht => ?_⟩
    subst ht
    exact ok_done h hargs (timecodeSet_base h0 hm)

/-! ### Audio -/

theorem audPortConfig_ok {p : Nat} {cfg mask : Word} (h : cfg &&& ~~~(w32 (regMask (R.AUD_P_CFG p))) = 0) :
    audPortConfig p cfg mask r s = stageAnswer r [(R.AUD_P_CFG p, cfg), (R.AUD_P_MASK p, mask)] s :=
  if_neg (not_not_intro h)

/-- `AUD_START` arms the caller's ports when each of them is stopped and has a slot (R426). -/
theorem audStart_ok {mine foreign : List Nat} {ahead : Int} (hm : audMask r s = (mine, foreign)) (hv : v = audForeign r foreign s)
    (hah : ahead = sx 32 ((r.w 1).toNat + 2 ^ 32 - s.short)) (ha : 100000 ≤ ahead)
    (hfree : ∀ p ∈ mine, v.audSt p = 0 ∧ v.audIdle p = false) :
    audStartCmd r s =
      .done St.OK [] (mine.foldl (fun (t : State) p => t.audArm ((v.dev : Int) + ahead).toNat p) v) := by
  have hany : (mine.any (fun p => v.audSt p ≠ 0 || v.audIdle p)) = false := by
    rw [List.any_eq_false]
    intro p hp
    obtain ⟨hst, hid⟩ := hfree p hp
    simp [hst, hid]
  unfold audStartCmd
  dsimp only
  rw [← hah, if_neg (Int.not_lt.mpr ha), hm]
  dsimp only
  rw [← hv, hany, if_neg Bool.false_ne_true]

theorem audStop_ok {mine foreign : List Nat} {parts : List (Fin 8 × List (List Nat))} (hm : audMask r s = (mine, foreign)) :
    audStopCmd parts r s =
      .done St.OK [] (mine.foldl (fun (t : State) p => t.audStop1 parts p) (audForeign r foreign s)) := by
  unfold audStopCmd
  rw [hm]

/-- `AUD_MUTE` of a port of the caller's (R429). -/
theorem audMute_ok (ho : s.audOwner (r.f 0 0 3) = r.part) :
    audMute r s = .done St.OK [] ((s.setAud (r.f 0 0 3) { s.audP (r.f 0 0 3) with
      mutes := (if s.audSt (r.f 0 0 3) = 0 then [] else (s.audP (r.f 0 0 3)).mutes) ++
        [(if s.audSt (r.f 0 0 3) = 0 then 0 else (s.audP (r.f 0 0 3)).frameFrom (r.f 0 0 3) (s.dev + 1),
          decide (r.f 0 3 1 = 1))] }).wrF (R.AUD_P_STAT (r.f 0 0 3)) 3 1 (b2n (decide (r.f 0 3 1 = 1)))) :=
  if_neg (not_not_intro ho)

/-- Settles O21. -/
theorem audioCommandsComplete : Obligations.AudioCommandsComplete := by
  intro dt c s u r hu hr
  subst hu hr
  rw [← asked_part (s := s) (dt := dt)]
  refine ⟨fun p cfg mask sup v h hb hst hq => ok_done h rfl ((audPortConfig_ok hb).trans (stageAnswer_ok rfl hst hq)),
    fun mine foreign v hm hv => ⟨fun ahead h hah ha hfree => ok_done h rfl (audStart_ok hm hv hah ha hfree), fun parts h => ?_⟩,
    fun p on x h hp ho hon hx => ?_, fun h => ok_done h rfl rfl⟩
  · rw [hv]
    exact ok_done h rfl (audStop_ok hm)
  · subst hp hon hx
    exact ok_done h rfl (audMute_ok ho)

/-! ### Storage queues -/

theorem sqCreate_ok {free : List Nat} {n : Nat}
    (hq : s.fd (R.PART_POOL_USED r.part) 16 8 + 1 ≤ s.fd (R.PART_POOL_QUOTA r.part) 16 8)
    (hf : free = selIdx 32 (fun q => (s.sq q).isNone)) (hne : free ≠ []) (hn : s.fresh = (n, v)) :
    sqCreate r s = .done St.OK [w32 (nth free (n % free.length))]
      ((v.setSq (nth free (n % free.length)) (some (sqNew r))).sqRegs r.part) := by
  have hempty : ¬free.isEmpty = true := by simpa using hne
  unfold sqCreate
  dsimp only
  rw [if_neg (Nat.not_lt.mpr hq), ← hf, if_neg hempty, hn]

theorem sqDelete_ok {q : Nat} {x : SqQueue} (hx : s.sqNamed r.part q = some x) (hc : x.cmds = []) (ho : x.out = []) :
    sqDelete q r s = .done St.OK [] ((s.setSq q none).sqRegs r.part) := by
  unfold sqDelete
  rw [hx]
  dsimp only
  rw [hc, ho]
  rfl

/-- What `SQ_ABORT` of a command that the queue holds comes to, by whether it has started and when (R311). -/
theorem sqAbort_held {q tag : Nat} {x : SqQueue} {d : SqCmd} (hx : s.sqNamed r.part q = some x)
    (hd : x.cmds.find? (fun y => y.tag = tag) = some d) :
    sqAbort q tag r s =
      if !d.started || decide (d.startAt = s.now) then .done St.OK [] (s.sqEnd q d St.ABORTED_NOT_STARTED 0)
      else if d.opc = 3 then .done St.STATE_CONFLICT [] s
      else .done St.OK [] (s.setSq q (some { x with cmds := repl1 d { d with abort := true } x.cmds })) := by
  unfold sqAbort
  rw [hx]
  dsimp only
  rw [hd]

theorem sqStatus_ok {q : Nat} {x : SqQueue} (hx : s.sqNamed r.part q = some x) :
    sqStatus q r s = .done St.OK [w32 x.cmds.length, w32 (((x.cmds.filter (·.started)).flatMap (·.blocks)).dedup).length] s := by
  unfold sqStatus
  rw [hx]

/-- Settles O22. -/
theorem storageCommandsComplete : Obligations.StorageCommandsComplete := by
  intro dt c s u r hu hr
  subst hu hr
  rw [← asked_part (s := s) (dt := dt)]
  refine ⟨fun free n v h ha hq hf hne hn => ok_done h ha (sqCreate_ok hq hf hne hn),
    fun q x h hx hc ho => ok_done h rfl (sqDelete_ok hx hc ho), fun q tag x d h hx hd => ?_,
    fun q x h hx => ok_done h rfl (sqStatus_ok hx)⟩
  have hrun := sqAbort_held hx hd
  refine ⟨fun hn => ok_done h rfl (hrun.trans (if_pos ?_)), fun hs hn h3 => ok_done h rfl (hrun.trans ?_)⟩
  · rcases hn with hn | hn <;> simp [hn]
  · rw [if_neg (by simp [hs, hn]), if_neg h3]

end Sys2Proof.Proofs
end

section
/-!
Served Kilel commands of maintenance, images, power and boot (groups 0x0C to 0x0E): what their meanings answer, and what the
commands come to.
-/

namespace Sys2Proof.Proofs

open Sys2Proof Sys2Proof.Machine Sys2Proof.Laws

variable {r : Req} {s v : State} {dt : Nat} {c : Call}

/-! ### Maintenance -/

/-- The activity that a `MAINT_START` asks for. -/
def askedAct (r : Req) (s : State) : Act :=
  { id := s.actId, code := (r.w 0).toNat, ctx := r.ctx, words := (r.pay.drop 1).map (·.toNat), addr := r.outAddr,
    len := r.outLen, running := false, startAt := s.now }

/-- An activity that none of the refusals of R504 to R507 meets is requested. -/
theorem maintStart_ok {run : Bool} (h4 : (r.w 0).toNat = 4 → 2 ≤ s.fd R.DMC_INFO 10 2)
    (h2 : (r.w 0).toNat ≤ 2 → s.anyArmed = false) (heye : (r.w 0).toNat = 2 → eyeBytes (askedAct r s).words ≤ r.outLen)
    (hq : s.actFree (r.w 0).toNat s.pwr.acts = true ∨ (s.pwr.acts.filter (fun x => !x.running)).length < 8)
    (hreq : s.actRequest (askedAct r s) = (v, run)) :
    maintStart r s =
      if r.wait then .wait (.maint s.actId) v else .done (if run then St.OK else St.DEFERRED) [w32 s.actId] v := by
  have hscrub : ¬((r.w 0).toNat = 4 ∧ s.fd R.DMC_INFO 10 2 < 2) := fun ⟨h, hc⟩ => absurd (h4 h) (Nat.not_le.mpr hc)
  have harmed : ¬((r.w 0).toNat ≤ 2 ∧ s.anyArmed = true) := fun ⟨h, hc⟩ => by
    rw [h2 h] at hc
    cases hc
  have hsmall : ¬((r.w 0).toNat = 2 ∧ r.outLen < eyeBytes ((r.pay.drop 1).map (·.toNat))) :=
    fun ⟨h, hc⟩ => absurd (heye h) (Nat.not_le.mpr hc)
  have hfull : ¬(s.actFree (r.w 0).toNat s.pwr.acts = false ∧ 8 ≤ (s.pwr.acts.filter (fun x => !x.running)).length) := by
    rintro ⟨hf, hc⟩
    rcases hq with hq | hq
    · rw [hf] at hq
      cases hq
    · omega
  unfold askedAct at hreq
  unfold maintStart
  dsimp only
  rw [if_neg hscrub, if_neg harmed, if_neg hsmall, if_neg hfull, hreq]

theorem maintCancel_act {id : Nat} {a : Act} (h : s.pwr.acts.find? (fun x => decide (x.id = id)) = some a) :
    maintCancel id r s =
      if !a.running || decide (a.startAt = s.now) then .done St.OK [] (s.actEnd a St.ABORTED_NOT_STARTED)
      else .done St.OK [] (s.putAct { a with abort := true }) := by
  unfold maintCancel
  rw [h]

/-! ### Error injections (R154) -/

/-- The injection joins those that wait. -/
def addInj (s : State) (kind target count : Nat) : State :=
  { s with dmc := { s.dmc with inj := s.dmc.inj ++ [{ kind := kind, target := target, left := count }] } }

/-- An injection that no lane's state refuses, by kind. -/
theorem errInject_lane {kind target count : Nat} (hk : kind < 5) (h : s.laneInject kind target = none)
    (hv : v = s.bump (R.LNA_INJ_CNT target) 0 32 (if kind = 4 then 1 else count)) :
    errInject kind target count r s =
      if kind = 4 then .done St.OK [] (v.dropLane target false)
      else if kind = 1 ∧ 16 ≤ count then .done St.OK [] ((v.bump (R.LNA_LANE_ERR target) 0 16 count).dropLane target false)
      else if kind = 3 then .done St.OK [] (if s.nearLoop target then addInj v kind target count else v)
      else .done St.OK [] (addInj s kind target count) := by
  subst hv
  unfold errInject
  dsimp only
  rw [if_pos hk, h]
  rfl

theorem errInject_memory {kind target count : Nat} (hk : 5 ≤ kind) (ha : kind / 16 = 2 ∨ s.anyArmed = false) :
    errInject kind target count r s = .done St.OK [] (addInj s kind target count) := by
  unfold errInject
  dsimp only
  rw [if_neg (Nat.not_lt.mpr hk), if_neg]
  · rfl
  · rintro ⟨hn, hc⟩
    rcases ha with ha | ha
    · exact hn ha
    · rw [ha] at hc
      cases hc

/-- Settles O23. -/
theorem maintenanceCommandsComplete : Obligations.MaintenanceCommandsComplete := by
  intro dt c s u r hu hr
  subst hu hr
  refine ⟨fun a v run h ha hact h4 h2 heye hq hreq => ?_, fun h => ok_done h rfl rfl, fun id a h hf => ?_,
    fun n x h hmask hpat hruns => ?_, fun kind count n target v h hn ha => ?_, fun n mode h hmode => ?_⟩
  · subst hact
    have hrun := maintStart_ok h4 h2 heye hq hreq
    refine ⟨fun hw => ok_wait h ha (hrun.trans (if_pos hw)), fun hw => congrArg Host.Outcome.next (kilel_done h ha (hrun.trans (if_neg ?_)))⟩
    rw [hw]
    exact Bool.false_ne_true
  · have hrun := maintCancel_act (r := s.asked dt c) hf
    refine ⟨fun hn => ok_done h rfl (hrun.trans (if_pos ?_)), fun hs hn => ok_done h rfl (hrun.trans (if_neg ?_))⟩
    · rcases hn with hn | hn <;> simp [hn]
    · simp [hs, hn]
  · have hargs : (decide (x &&& ~~~0x3F#32 = 0) && decide (fld x 0 3 ≤ 5)) = true := by
      rw [decide_eq_true hmask, decide_eq_true hpat]
      rfl
    refine ok_done h hargs (if_neg ?_)
    rcases hruns with hr | ⟨h4, h3 | ⟨hl, hb⟩⟩
    · simp [hr]
    · simp [h4, h3]
    · simp [h4, hb, Nat.not_le.mpr hl]
  · subst hn
    refine ⟨fun hk hm => ok_done h ha (errInject_memory hk hm), fun hk hl hv => ?_⟩
    have hrun := errInject_lane (r := s.asked dt c) hk hl hv
    refine ⟨fun h4 => ok_done h ha (hrun.trans (if_pos h4)), fun h1 h16 => ok_done h ha (hrun.trans ?_),
      fun h3 hnear => ok_done h ha (hrun.trans ?_), fun h3 hnear => ok_done h ha (hrun.trans ?_),
      fun hk3 h16 => ok_done h ha (hrun.trans ?_)⟩
    · rw [if_neg (by omega), if_pos ⟨h1, h16⟩]
    · rw [if_neg (by omega), if_neg (by omega), if_pos h3, hnear, if_neg Bool.false_ne_true]
    · rw [if_neg (by omega), if_neg (by omega), if_pos h3, if_pos hnear]
      rfl
    · rw [if_neg (by omega), if_neg (fun hc => absurd (h16 hc.1) (Nat.not_lt.mpr hc.2)), if_neg (by omega)]
      rfl
  · have hargs : (!(decide (mode.val = 3) && ((s.taken dt c).isBackLane n || decide (2 ≤ (s.taken dt c).laneFunc n)))) = true := by
      rcases hmode with h0 | ⟨hlt, -⟩ | ⟨-, hb, hl, -, -⟩
      · simp [h0]
      · simp [Nat.ne_of_lt hlt]
      · simp [hb, hl]
    have hnear : ¬((decide (mode.val = 1) || decide (mode.val = 2)) && (s.begun dt c).funcRuns n) = true := by
      rcases hmode with h0 | ⟨-, hr⟩ | ⟨h3, -⟩
      · simp [h0]
      · simp [hr]
      · simp [h3]
    have hfar : ¬(decide (mode.val = 3) && ((s.begun dt c).bt (R.LNA_PRBS_CTRL n) 3 || !(s.begun dt c).inService n)) = true := by
      rcases hmode with h0 | ⟨hlt, -⟩ | ⟨-, -, -, hs, hg⟩
      · simp [h0]
      · simp [Nat.ne_of_lt hlt]
      · simp [hs, hg]
    exact ok_done h hargs ((if_neg hnear).trans (if_neg hfar))

/-! ### Images and the log -/

theorem imageBegin_ok {k : Nat} (ho : s.pwr.imgOpen = none) (hk : k = 1 - s.imgCtl.sel)
    (hv : v = s.setImgCtl (s.imgCtl.setSt k 1)) :
    imageBegin r s = .done St.OK [w32 k] { v with pwr := { v.pwr with imgOpen := some k } } := by
  subst hv hk
  unfold imageBegin
  rw [ho]
  rfl

theorem imageWrite_ok {k : Nat} (ho : s.pwr.imgOpen = some k) (hr : s.nvRange = true) :
    imageWrite r s = .done St.OK [] (s.nvStore (imgBase k + (r.w 0).toNat)
      (r.input ++ List.replicate ((r.input.length + 4095) / 4096 * 4096 - r.input.length) 0)) := by
  unfold imageWrite
  rw [hr, ho]
  rfl

theorem imageCommit_ok {k : Nat} {i : ImgCtl} (ho : s.pwr.imgOpen = some k) (hr : s.nvRange = true) (hk : s.imgOk k = true)
    (hi : i = (s.imgCtl.setSt k 2).setVer k (s.imgNum k 8 4))
    (hv : v = (s.setImgCtl (if bit (r.w 0) 0 then { i with sel := k } else i)).setConsec 0) :
    imageCommit r s = .done St.OK [] { v with pwr := { v.pwr with imgOpen := none, warm := bit (r.w 0) 1 } } := by
  subst hi
  unfold imageCommit
  rw [hr, ho]
  dsimp only
  rw [hk, Bool.not_true, if_neg Bool.false_ne_true, if_neg Bool.false_ne_true, ← hv]

theorem imageSelect_ok {k : Nat} (h : s.imgCtl.st k = 2) :
    imageSelect k r s = .done St.OK [] ((s.setImgCtl { s.imgCtl with sel := k }).setConsec 0) :=
  if_neg (not_not_intro h)

/-- Settles O24. -/
theorem imageCommandsComplete : Obligations.ImageCommandsComplete := by
  intro dt c s u r hu hr
  subst hu hr
  refine ⟨fun k v h ho hk hv => ok_done h rfl (imageBegin_ok ho hk hv),
    fun k ho hrange => ⟨fun h ha hlen hend => ok_done h ?_ (imageWrite_ok ho hrange), fun i v h hk hi hv => ?_⟩,
    fun h => ok_done h rfl rfl, fun k h hst => ok_done h rfl (imageSelect_ok hst),
    fun first count bs h hbs hne hl hout => ok_done h rfl ?_⟩
  · rw [decide_eq_true ha, decide_eq_true hlen, decide_eq_true hend]
    rfl
  · exact congrArg (fun k : State => Host.Outcome.next k.warmDue) (kilel_done h rfl (imageCommit_ok ho hrange hk hi hv))
  · rw [← dmaOut_asked (t := s.begun dt c) hne hl hout, hbs]
    rfl

/-! ### Power -/

theorem powerState_same (h : s.power = r.f 0 0 2) : powerState r s = .done St.OK [] s :=
  if_pos h.symm

theorem powerState_up (hne : s.power ≠ r.f 0 0 2) (h : r.f 0 0 2 = 0) : powerState r s = .done St.OK [] s.wakeP1 := by
  unfold powerState
  dsimp only
  rw [if_neg hne.symm, h]
  rfl

/-- A request to go down that nothing armed or busy stands against, by its target (R474). -/
theorem powerState_down (hne : s.power ≠ r.f 0 0 2) (h0 : r.f 0 0 2 ≠ 0) (ha : s.anyArmed = false)
    (hbusy : r.f 0 0 2 = 3 ∨ s.powerBusy = false) (hq : r.f 0 0 2 = 2 → s.ep.queue = []) :
    powerState r s =
      if r.f 0 0 2 = 1 then .done St.OK [] (s.setPower 1)
      else if r.f 0 0 2 = 2 then
        .done St.OK [] { s with pwr := { s.pwr with p2At := some s.now }, lnd := { s.lnd with sqStop := true } }
      else .done St.OK [] { s with pwr := { s.pwr with p3Cmd := true }, lnd := { s.lnd with sqStop := true } } := by
  have harmed : ¬(r.f 0 0 2 ≠ 0 ∧ s.anyArmed = true) := fun hc => by
    rw [ha] at hc
    exact Bool.false_ne_true hc.2
  have hfree : ¬((r.f 0 0 2 = 1 ∨ r.f 0 0 2 = 2) ∧ s.powerBusy = true) := by
    rintro ⟨ht, hc⟩
    rcases hbusy with hb | hb
    · omega
    · rw [hb] at hc
      cases hc
  unfold powerState
  dsimp only
  rw [if_neg hne.symm, if_neg harmed, if_neg hfree, if_neg (fun hc => hc.2 (hq hc.1)), if_neg h0]

/-- A served `POWER_STATE` whose meaning answers OK; a request for P3 that is due follows its answer. -/
theorem powerState_done {t : State} (h : s.admits 0x0E01 dt c = true)
    (hb : powerState (s.asked dt c) (s.begun dt c) = .done St.OK [] t) :
    exec (.powerState dt c) s = .next (t.okay c []).p3Due :=
  congrArg (fun k : State => Host.Outcome.next k.p3Due) (kilel_done h rfl hb)

/-- Settles O25. -/
theorem powerCommandsComplete : Obligations.PowerCommandsComplete := by
  intro dt c s u r hu hr
  subst hu hr
  refine ⟨fun h he => powerState_done h (powerState_same he), fun h hne => ⟨fun h0 => powerState_done h (powerState_up hne h0),
      fun h1 ha hb => powerState_done h ?_, fun h2 ha hb hq => powerState_done h ?_, fun h3 ha => powerState_done h ?_⟩,
    fun h => ok_done h rfl rfl, fun limit rate sup v h hl hr1 hr2 hr3 hst hq => ?_,
    fun h => ok_done h rfl rfl, fun h => ok_done h rfl rfl⟩
  · rw [powerState_down hne (by omega) ha (.inr hb) (by omega), if_pos h1]
  · rw [powerState_down hne (by omega) ha (.inr hb) (fun _ => hq), if_neg (by omega), if_pos h2]
  · rw [powerState_down hne (by omega) ha (.inl h3) (by omega), if_neg (by omega), if_neg (by omega)]
  · refine ok_done h ?_ (stageAnswer_ok asked_part hst hq)
    rw [hl, decide_eq_true hr1, decide_eq_true hr2, decide_eq_true hr3]
    rfl

end Sys2Proof.Proofs
end

section
/-!
Accesses of the host through BAR0, `REG_WRITE` and BAR2 (R47 to R53, R69 to R72, R117, R529): what each comes to while the part
answers.
-/

namespace Sys2Proof.Proofs

open Sys2Proof Sys2Proof.Machine Sys2Proof.Laws

variable {s u v : State}

/-- A branch that a true flag excludes. -/
theorem ite_not_of_true {α : Type} {b : Bool} {x y : α} (h : b = true) : (if !b then x else y) = y := by
  rw [h]
  rfl

/-! ### BAR0 -/

/-- A doorbell of a FREE slot of a served function, for a request that the front end lets run, posts it (R50). -/
theorem doorbell_run {p w : Nat} (ha : s.linkAlive = true) (hf : s.wakeP1.slotState p (w % 16) = Slot.FREE)
    (hs : s.wakeP1.bt (R.MBX p 0x04) 0 = true) (hv : v = s.wakeP1.setSlot p (w % 16) Slot.POSTED)
    (hg : v.gate p (w % 16) = .run) :
    s.doorbell p w =
      { v with mbx := { v.mbx with posted := v.mbx.posted ++ [{ part := p, slot := w % 16, at_ := v.now }] } } := by
  have hbusy : ¬(s.wakeP1.slotState p (w % 16) ≠ Slot.FREE ∨ s.wakeP1.bt (R.MBX p 0x04) 0 = false) := by
    rw [hf, hs]
    simp
  unfold State.doorbell
  dsimp only
  rw [ite_not_of_true ha, if_neg hbusy, ← hv, hg]

/-- A write of CONS by the owner of the context: the lost events are reported once CONS has moved and the function may write. -/
theorem exec_evqConsWrite {dt : Nat} {fn : Fin 64} {ctx : Fin 4096} {cons : BitVec 16} (hu : u = s.tick dt)
    (ha : u.linkAlive = true) (ho : u.owns fn ctx = true) (hv : v = u.setEvq ctx { u.evq ctx with cons := cons.toNat }) :
    exec (.evqConsWrite dt fn ctx cons) s =
      .next (if decide ((u.evq ctx).cons = cons.toNat) || !v.bme fn || v.draining ctx then v else v.flushLost ctx) := by
  subst hu hv
  exact congrArg Host.Outcome.next ((ite_not_of_true ha).trans (ite_not_of_true ho))

/-- The moderation gap of a context whose message was held is over (R87). -/
theorem exec_evqModExpiry {dt t : Nat} {ctx : Fin 4096} (hu : u = s.tick dt) (hh : (u.evq ctx).held = true)
    (hl : (u.evq ctx).lastMsg = some t) (hg : t + u.fd (R.CTX_ENT_IRQ ctx) 16 16 * 100 ≤ u.now) :
    exec (.evqModExpiry dt ctx) s =
      .next (if (u.evq ctx).pend then u.ctxMessage ctx else u.setEvq ctx { u.evq ctx with held := false }) := by
  subst hu
  refine congrArg Host.Outcome.next (if_neg ?_)
  rw [hh, hl]
  simp [hg]

/-- Settles O26. -/
theorem mailboxAccessesComplete : Obligations.MailboxAccessesComplete := by
  intro dt s u fn hu ha
  have alive : ∀ {x : State}, (if !u.linkAlive then u else x) = x := ite_not_of_true ha
  subst hu
  refine ⟨fun w slot v hslot hf hs hv hg => ?_, fun slot word x => ⟨fun hf => ?_, fun hf => ?_⟩, fun w => congrArg _ alive,
    fun w => congrArg _ alive, fun off ho => ⟨congrArg _ (alive.trans (if_pos ho)), congrArg _ (alive.trans (if_pos ho))⟩,
    fun word x => congrArg _ alive, fun ctx cons v ho hv => ?_, fun ctx t hh hl hg => ?_⟩
  · subst hslot
    exact congrArg _ (doorbell_run ha hf hs hv hg)
  · exact congrArg _ (alive.trans (if_pos hf))
  · exact congrArg _ (alive.trans (if_neg hf))
  · rw [exec_evqConsWrite rfl ha ho hv]
    refine ⟨fun hc hb hd => congrArg _ (if_neg ?_), fun h => congrArg _ (if_pos ?_)⟩
    · simp [hc, hb, hd]
    · rcases h with h | h | h <;> simp [h]
  · rw [exec_evqModExpiry rfl hh hl hg]
    refine ⟨fun hp => congrArg _ (if_pos hp), fun hp => congrArg _ (if_neg ?_)⟩
    rw [hp]
    exact Bool.false_ne_true

/-! ### Plain registers and BAR2 -/

/-- A write of MBX_INT_EN through BAR0: one message where R49's condition becomes true. -/
theorem bar0Write_intEn {p : Nat} {x : Word} (ha : s.linkAlive = true) :
    s.bar0Write p 0x18 x =
      if s.rd (R.MBX p 0x14) &&& s.rd (R.MBX p 0x18) = 0 ∧ s.rd (R.MBX p 0x14) &&& (x &&& 0x3FFFF#32) ≠ 0 then
        (s.wr (R.MBX p 0x18) (x &&& 0x3FFFF#32)).msix p 0
      else s.wr (R.MBX p 0x18) (x &&& 0x3FFFF#32) :=
  (ite_not_of_true ha).trans (if_pos rfl)

theorem bar0Write_window {x : Word} (ha : s.linkAlive = true) :
    s.bar0Write 0 0x24 x = s.wrF (R.MBX 0 0x24) 0 16 (fld x 0 16) :=
  (ite_not_of_true ha).trans ((if_neg (by decide)).trans (if_pos ⟨rfl, rfl⟩))

/-- An access that the window answers: it is open, and the access is aligned. -/
theorem bar2_open {off size : Nat} (hon : s.bar2On = true) (hok : bar2Ok off size = true) :
    ¬(!s.bar2On || !bar2Ok off size) = true := by
  rw [hon, hok]
  exact Bool.false_ne_true

/-- An aligned write through the open window: one or two words, the lower first (R71). -/
theorem bar2Write_open {off size x more : Nat} (ha : s.linkAlive = true) (hon : s.bar2On = true) (hok : bar2Ok off size = true) :
    s.bar2Write off size x more =
      if size = 8 then (s.bar2Put (s.bar2Addr off) (w32 x) more).bar2Put (s.bar2Addr off + 4) (w32 (x / 2 ^ 32)) 0
      else s.bar2Put (s.bar2Addr off) (w32 x) more :=
  (ite_not_of_true ha).trans (if_neg (bar2_open hon hok))

/-- The window's address and the offset behind it make the address that the window reaches. -/
theorem bar2Addr_mod {a : Nat} (h : a / 2 ^ 24 = s.fd (R.MBX 0 0x24) 0 16) : s.bar2Addr (a % 2 ^ 24) = a := by
  unfold State.bar2Addr
  rw [← h]
  exact Nat.div_add_mod' a (2 ^ 24)

/-- A write of a register that is no settings register, by the path through BAR2. -/
theorem pathWrite_bar2 {a more : Nat} {x : Word} (ha : s.linkAlive = true) (hon : s.bar2On = true)
    (hw : a / 2 ^ 24 = s.fd (R.MBX 0 0x24) 0 16) (h4 : a % 4 = 0) (hs : isSetting a = false) :
    s.pathWrite .bar2 a x more = s.writeAt 0 0 a x more := by
  have hal : a % 2 ^ 24 % 4 = 0 := by omega
  have hok : bar2Ok (a % 2 ^ 24) 4 = true := by
    unfold bar2Ok
    rw [decide_eq_true hal]
    rfl
  have hx : w32 x.toNat = x := BitVec.ofNat_toNat 32 x |>.trans (BitVec.setWidth_eq x)
  refine (if_pos hw).trans ?_
  rw [bar2Write_open ha hon hok, if_neg (by decide), bar2Addr_mod hw, hx]
  unfold State.bar2Put
  rw [hs, if_neg Bool.false_ne_true]

/-- A read through the window. -/
theorem exec_bar2Read {dt size : Nat} {off : BitVec 24} (hu : u = s.tick dt) (ha : u.linkAlive = true) :
    exec (.bar2Read dt off size) s =
      .next (if !u.bar2On || !bar2Ok off.toNat size then (u.viol 0 Viol.bar2 0 (u.bar2Addr off.toNat)).emit (.read 0)
        else (u.readRun 0 0 (u.bar2Addr off.toNat) (size / 4)).2.2.emit
          (.read (ofBytes (wordBytes (u.readRun 0 0 (u.bar2Addr off.toNat) (size / 4)).1)))) := by
  subst hu
  exact congrArg Host.Outcome.next (ite_not_of_true ha)

/-- Settles O27. -/
theorem registerAccessesComplete : Obligations.RegisterAccessesComplete := by
  intro dt s u hu
  subst hu
  refine ⟨fun p ctx a x hs hb hon ho => congrArg _ (pathWrite_reg hs hb hon ho),
    fun a x ha hon hw h4 hs => congrArg _ (pathWrite_bar2 ha hon hw h4 hs), fun p a x ha h18 => ?_, fun a x ha h24 => ?_,
    fun off size vs b v ha => ⟨fun hon hok hr => ?_, fun hn => ?_⟩, fun off x ha hon => ⟨fun hok => ?_, fun hok => ?_⟩⟩
  · have hrun : exec (.plainRegisterWrite dt (.bar0 p) a x) s = .next ((s.tick dt).bar0Write p 0x18 x) := by
      rw [← h18]
      rfl
    rw [hrun, bar0Write_intEn ha]
    exact ⟨fun hn => congrArg _ (if_neg hn), fun h0 h1 => congrArg _ (if_pos ⟨h0, h1⟩)⟩
  · have hrun : exec (.plainRegisterWrite dt (.bar0 0) a x) s = .next ((s.tick dt).bar0Write 0 0x24 x) := by
      rw [← h24]
      rfl
    rw [hrun, bar0Write_window ha]
  · rw [exec_bar2Read rfl ha, if_neg (bar2_open hon hok), hr]
  · rw [exec_bar2Read rfl ha]
    refine congrArg _ (if_pos ?_)
    rcases hn with hn | hn <;> simp [hn]
  · exact congrArg _ ((bar2Write_open ha hon hok).trans (if_neg (by decide)))
  · exact congrArg _ ((bar2Write_open ha hon hok).trans (if_pos rfl))

/-! ### The listed registers -/

/-- The place of a register in its row. -/
theorem idx1_ring {n : Nat} (hn : n < 16384) :
    RegRow.idx1 ⟨0x2b00100018, 0x40, 16384, 0x0, 1, .rw, 0xff3fff, 0x290, false, .ring⟩ (R.HLK_RING_CTRL n) = n := by
  have e : R.HLK_RING_CTRL n = 0x2b00100018 + 0x40 * n := rfl
  simp only [RegRow.idx1, e]
  rw [if_neg (by decide)]
  omega

theorem idx1_bank {n : Nat} (hn : n < 64) :
    RegRow.idx1 ⟨0x3100000200, 0x4, 64, 0x0, 1, .wo, 0x7f, 0x0, false, .bank⟩ (R.SPD_BANK_HO n) = n := by
  have e : R.SPD_BANK_HO n = 0x3100000200 + 0x4 * n := rfl
  simp only [RegRow.idx1, e]
  rw [if_neg (by decide)]
  omega

theorem idx1_xfer {n : Nat} (hn : n < 4) :
    RegRow.idx1 ⟨0x2c00010008, 0x40, 4, 0x0, 1, .rw, 0x1f1f7f, 0x0, false, .res 0x20⟩ (R.CBS_I2C_XFER n) = n := by
  have e : R.CBS_I2C_XFER n = 0x2c00010008 + 0x40 * n := rfl
  simp only [RegRow.idx1, e]
  rw [if_neg (by decide)]
  omega

/-- An address outside the two GPIO registers, which take writes bit by bit. -/
theorem ne_gpio {a : Nat} (h : a < 0x2c00020104 ∨ 0x2c00020108 < a) : a ≠ R.CBS_GPIO_SET ∧ a ≠ R.CBS_GPIO_CLR := by
  unfold R.CBS_GPIO_SET R.CBS_GPIO_CLR
  omega

section Served

variable {p : Fin 64} {ctx : Fin 4096} {x : Word} {more : Nat}

theorem pathWrite_ring (hon : s.bt (R.MBX p 0x04) 0 = true) (ho : s.owns p ctx = true) (r : Fin 16384)
    (hr : s.ownsReg p (R.HLK_RING_CTRL r) = true) :
    s.pathWrite (.regWrite p ctx) (R.HLK_RING_CTRL r) x more = s.ringCtrl r x more := by
  have hlt := r.isLt
  have e : R.HLK_RING_CTRL r = 0x2b00100018 + 0x40 * r.val := rfl
  have hblk : R.HLK_RING_CTRL r / 0x100000000 = 0x2b := by omega
  obtain ⟨hset, hclr⟩ := ne_gpio (a := R.HLK_RING_CTRL r) (by omega)
  rw [row1 (row_ring hlt) rfl (by rw [hblk]; decide) (by omega) hset hclr hon ho hr]
  exact put_ring s _ x more r _ e hlt rfl (idx1_ring hlt)

/-- A handover write that its bank does not refuse is not refused by `REG_WRITE` either (R335). -/
theorem hoBad_of_accepted {b : Nat} (h : s.hoRefused b x = false) : s.hoBad p (R.SPD_BANK_HO b) x = false := by
  have e : (R.SPD_BANK_HO b - R.SPD_BANK_HO 0) / 4 = b := by
    have e1 : R.SPD_BANK_HO b = 0x3100000200 + 0x4 * b := rfl
    have e0 : R.SPD_BANK_HO 0 = 0x3100000200 := rfl
    rw [e1, e0]
    omega
  unfold State.hoBad
  rw [e, h, Bool.and_false]

theorem pathWrite_bank (hon : s.bt (R.MBX p 0x04) 0 = true) (ho : s.owns p ctx = true) (b : Fin 64)
    (hr : s.ownsReg p (R.SPD_BANK_HO b) = true) (hacc : s.hoRefused b x = false) :
    s.pathWrite (.regWrite p ctx) (R.SPD_BANK_HO b) x more = s.hoAccept b x := by
  have hlt := b.isLt
  have e : R.SPD_BANK_HO b = 0x3100000200 + 0x4 * b.val := rfl
  have hblk : R.SPD_BANK_HO b / 0x100000000 = 0x31 := by omega
  obtain ⟨hset, hclr⟩ := ne_gpio (a := R.SPD_BANK_HO b) (by omega)
  have hs : isSetting (R.SPD_BANK_HO b) = false := by
    unfold isSetting
    rw [row_bank hlt]
    rfl
  rw [pathWrite_reg hs (hoBad_of_accepted hacc) hon ho,
    writeAt_reg (row_bank hlt) (window_of hblk (by decide) (by omega)) (by omega) hset hclr hr]
  exact put_bank s _ x more b _ e hlt rfl (idx1_bank hlt) hacc

theorem pathWrite_xfer (hon : s.bt (R.MBX p 0x04) 0 = true) (ho : s.owns p ctx = true) (n : Fin 4)
    (hr : s.ownsReg p (R.CBS_I2C_XFER n) = true) :
    s.pathWrite (.regWrite p ctx) (R.CBS_I2C_XFER n) x more = s.i2cXferWrite n x := by
  have hlt := n.isLt
  have e : R.CBS_I2C_XFER n = 0x2c00010008 + 0x40 * n.val := rfl
  have hblk : R.CBS_I2C_XFER n / 0x100000000 = 0x2c := by omega
  obtain ⟨hset, hclr⟩ := ne_gpio (a := R.CBS_I2C_XFER n) (by omega)
  rw [row1 (row_xfer hlt) rfl (by rw [hblk]; decide) (by omega) hset hclr hon ho hr]
  exact put_xfer s _ x more n _ e hlt rfl (fun h => by cases h) (idx1_xfer hlt)

/-- The two GPIO registers take the writes of any partition, bit by bit (R469). -/
theorem pathWrite_gpioSet (hon : s.bt (R.MBX p 0x04) 0 = true) (ho : s.owns p ctx = true) :
    s.pathWrite (.regWrite p ctx) R.CBS_GPIO_SET x more = s.gpioWrite p ctx true x.toNat := by
  rw [pathWrite_reg (by decide) (hoBad_no (.inl (by decide))) hon ho]
  unfold State.writeAt
  rw [window_of (k := 0x2c) (by decide) (by decide) (by decide)]
  dsimp only
  rw [if_neg (by decide), row_gpioSet]
  exact if_pos rfl

theorem pathWrite_gpioClr (hon : s.bt (R.MBX p 0x04) 0 = true) (ho : s.owns p ctx = true) :
    s.pathWrite (.regWrite p ctx) R.CBS_GPIO_CLR x more = s.gpioWrite p ctx false x.toNat := by
  rw [pathWrite_reg (by decide) (hoBad_no (.inl (by decide))) hon ho]
  unfold State.writeAt
  rw [window_of (k := 0x2c) (by decide) (by decide) (by decide)]
  dsimp only
  rw [if_neg (by decide), row_gpioClr]
  exact (if_neg (by decide)).trans (if_pos rfl)

end Served

/-- Settles O28: each write reaches its row (`row1`, `row_*`), and the row its register's own behaviour (`put_*`). -/
theorem listedRegisterWritesComplete : Obligations.ListedRegisterWritesComplete := by
  intro dt s u p ctx x hu hon ho
  subst hu
  refine ⟨fun r hr => ⟨congrArg _ (pathWrite_ring hon ho r hr), fun n => congrArg _ (pathWrite_ring hon ho r hr)⟩,
    fun hr => ?_, fun hr => ?_, fun hr => ?_, fun hr => ?_, fun b hr hacc => congrArg _ (pathWrite_bank hon ho b hr hacc),
    fun n hr => congrArg _ (pathWrite_xfer hon ho n hr), congrArg _ (pathWrite_gpioSet hon ho), congrArg _ (pathWrite_gpioClr hon ho)⟩
  · exact congrArg _ ((row1 row_close rfl (by decide) (by decide) (by decide) (by decide) hon ho hr).trans (put_close _ _ x 0))
  · exact congrArg _ ((row1 row_key rfl (by decide) (by decide) (by decide) (by decide) hon ho hr).trans (put_key _ _ x 0 rfl))
  · exact congrArg _ ((row1 row_prod rfl (by decide) (by decide) (by decide) (by decide) hon ho hr).trans (put_prod _ _ x 0 rfl))
  · exact congrArg _ ((row1 row_abort rfl (by decide) (by decide) (by decide) (by decide) hon ho hr).trans (put_abort _ _ x 0 rfl))

end Sys2Proof.Proofs
end

section
/-!
What the host link, the frame boundaries, the fault tables and the lanes do of themselves (R19, R37, R120 to R125, R137 to R150,
R441 to R450): each command under the conditions that let it act.
-/

namespace Sys2Proof.Proofs

open Sys2Proof Sys2Proof.Machine Sys2Proof.Laws

variable {s u v w : State} {dt : Nat}

/-! ### Functions and their resets -/

theorem warmReset_awake {cause : Nat} (h : s.awakeDev = true) : s.warmReset cause = s.deviceReset 4 cause false := if_pos h

theorem warmReset_off {cause : Nat} (h : s.awakeDev = false) : s.warmReset cause = s :=
  if_neg (by rw [h]; exact Bool.false_ne_true)

/-- A link-down that no handshake of P2 entry announced is a level 4 reset (R442, R476). -/
theorem exec_pcieDlDown :
    exec (.pcieDlDown dt) s = .next (if (s.tick dt).pwr.p2At.isSome && (s.tick dt).pwr.p2Ack then s.tick dt
      else (s.tick dt).warmReset 5) := rfl

/-- A function-level reset of a VF while the part is powered is a level 3 reset of its partition (R442). -/
theorem exec_vfFlr {p : Fin 64} (hu : u = s.tick dt) (ha : u.awakeDev = true) (hp : p ≠ 0) :
    exec (.vfFlr dt p) s = .next (u.startReset 3 [p.val] [] []).2 := by
  have hcond : ¬(p = 0 ∨ u.awakeDev = false) := by
    rw [ha]
    simp [hp]
  subst hu
  unfold exec execVfFlr
  dsimp only
  rw [if_neg hcond]

/-- Settles O29. -/
theorem pcieCommandsComplete : Obligations.PcieCommandsComplete := by
  intro dt s u hu
  subst hu
  have alive : (s.tick dt).awakeDev = true → (s.tick dt).linkAlive = true := fun h => h
  refine ⟨fun ha => ⟨fun fn vec => congrArg Host.Outcome.next (ite_not_of_true (alive ha)),
      fun fn => congrArg Host.Outcome.next (ite_not_of_true (alive ha)),
      fun fn => congrArg Host.Outcome.next (ite_not_of_true (alive ha)),
      fun fn => congrArg Host.Outcome.next (ite_not_of_true (alive ha)),
      fun p hp => exec_vfFlr rfl ha hp, congrArg _ (if_pos ha), congrArg _ (warmReset_awake ha), congrArg _ (warmReset_awake ha),
      congrArg _ (warmReset_awake ha), fun hn => ?_⟩, fun hp hk => ?_, fun ha => congrArg _ (warmReset_off ha),
    fun hp => congrArg _ (if_pos hp)⟩
  · have hnone : ¬((s.tick dt).pwr.p2At.isSome && (s.tick dt).pwr.p2Ack) = true := by
      rcases hn with hn | hn
      · rw [hn]
        exact Bool.false_ne_true
      · rw [hn, Bool.and_false]
        exact Bool.false_ne_true
    rw [exec_pcieDlDown, if_neg hnone, warmReset_awake ha]
  · rw [exec_pcieDlDown, if_pos]
    rw [hk, Bool.and_true]
    exact Option.isSome_iff_ne_none.mpr hp

/-! ### Host rings -/

/-- The gap of RING_CPL is over while entries wait to be reported (R459). -/
theorem exec_cplModExpiry {r : Fin 16384} {x : Ring} {t : Nat} (hu : u = s.tick dt) (hx : x = u.ring r) (hp : x.cplPend = true)
    (hl : x.lastCpl = some t) (hg : t + u.fd (R.HLK_RING_CTRL r) 16 8 * 1000 ≤ u.now) :
    exec (.cplModExpiry dt r) s = .next ((u.setRing r { x with cplPend := false }).ringEvent r) := by
  subst hu hx
  refine congrArg Host.Outcome.next (if_pos ?_)
  rw [hp, hl]
  exact decide_eq_true hg

/-- The buffer of a good descriptor has come whole (R450). -/
theorem exec_h2cReadComplete {r : Fin 16384} {t : Taken} {ts : List Taken} {data : List Byte} (hu : u = s.tick dt)
    (hx : (u.ring r).taken = t :: ts) (hm : u.ringMay r = true) (hi : u.ringIn r = true) (hb : t.bad = false)
    (hd : data.length = t.desc.len.toNat) : exec (.h2cReadComplete dt r data) s = .next (u.ringRead r data) := by
  subst hu
  unfold exec execH2cReadComplete
  dsimp only
  rw [hx]
  refine congrArg Host.Outcome.next (if_pos ?_)
  rw [hm, hi, hb, decide_eq_true hd]
  rfl

/-- Settles O30. -/
theorem ringCommandsComplete : Obligations.RingCommandsComplete := by
  intro dt s u r x hu hx
  refine ⟨fun w ds v hm hv => ?_, fun t ts data ht hm hi hb hd => exec_h2cReadComplete hu (by rw [← hx]; exact ht) hm hi hb hd,
    fun n v hm hi hv => ?_, fun what v hon hv => ?_, fun t hp hl hg => exec_cplModExpiry hu hx hp hl hg⟩
  · subst hu hv
    exact congrArg _ (ite_not_of_true hm)
  · subst hu hv
    refine congrArg _ (if_pos ?_)
    rw [hm, hi]
    rfl
  · subst hu hv
    exact congrArg _ (ite_not_of_true hon)

/-! ### Boundaries without FS -/

/-- A commit that waited 2 µs makes a boundary where neither link nor frame cadence does (R37). -/
theorem exec_syntheticBoundary (hu : u = s.tick dt) (hm : u.mayBound = true) (hl : u.linkOn = false)
    (hc : u.fd (R.TIM_CAD_CFG 0) 0 2 = 0 ∨ u.fd (R.TIM_CAD_CFG 0) 0 2 = 3)
    (hd : ∃ c ∈ u.ep.queue, c.tAm + 2000 ≤ u.now ∧ u.ep.tFm < c.tAm + 2000) :
    exec (.syntheticBoundary dt) s = .next (u.boundary true id).2 := by
  subst hu
  have hdue : ((s.tick dt).ep.queue.any
      (fun c => decide (c.tAm + 2000 ≤ (s.tick dt).now) && decide ((s.tick dt).ep.tFm < c.tAm + 2000))) = true := by
    simpa only [List.any_eq_true, Bool.and_eq_true, decide_eq_true_eq] using hd
  refine congrArg Host.Outcome.next (if_pos ?_)
  rw [hm, hl, hdue]
  simpa using hc

/-- A tick of a cadence that has come for the first time (R409). -/
theorem exec_cadenceTick {k : Fin 4} {t : Int} (hu : u = s.tick dt) (hm : u.mayBound = true) (ht : u.cadLast k = some t)
    (hn : newTick (tabGet (fun _ => none) u.tim.ticks k) (some t) = true)
    (hv : v = { u with tim := { u.tim with ticks := tabSet (fun _ => none) u.tim.ticks k (some t) } }) :
    exec (.cadenceTick dt k) s = .next (if k = 0 then v.cadZero t else v) := by
  subst hu hv
  unfold exec execCadenceTick
  dsimp only
  rw [ht]
  refine congrArg Host.Outcome.next (if_neg ?_)
  rw [hn, hm]
  exact Bool.false_ne_true

/-- What the tick of cadence 0 does, by the state `w` that the boundary it may be leaves (R37, R411). -/
theorem cadZero_eq {t : Int} (hw : ((v.fd (R.TIM_CAD_CFG 0) 0 2 ≠ 3 ∧ v.linkOn = false ∧ w = (v.boundary true id).2) ∨
      ((v.fd (R.TIM_CAD_CFG 0) 0 2 = 3 ∨ v.linkOn = true) ∧ w = v))) :
    v.cadZero t = if w.bt R.TIM_EXP_SRC 4 then w.expose t.toNat 0 (shortOf t.toNat) else w := by
  have hb : (if v.fd (R.TIM_CAD_CFG 0) 0 2 ≠ 3 && !v.linkOn then (v.boundary true id).2 else v) = w := by
    rcases hw with ⟨hr, hl, hw⟩ | ⟨hn, hw⟩
    · rw [if_pos (by simp [hr, hl]), hw]
    · rw [if_neg (by rcases hn with hn | hn <;> simp [hn]), hw]
  unfold State.cadZero
  dsimp only
  rw [hb]

/-- The oldest epoch that is not active retires once nothing of it is in flight (R19). -/
theorem exec_epochRetirement {b : Bank} {bs : List Bank} (hu : u = s.tick dt) (hb : u.ep.banks = b :: bs)
    (hf : u.inFlight b.epoch = false) :
    exec (.epochRetirement dt) s = .next (b.ctxs.foldl
      (fun s c => s.raiseEv { s.evNow c 0x0202 St.OK Src.CTX 0 with epoch := b.epoch })
      ({ u with ep := { u.ep with banks := bs }, ing := { u.ing with
        sparse := u.ing.sparse.filter (fun x => decide (x.1 ≠ b.epoch)) } } : State)) := by
  subst hu
  unfold exec execEpochRetirement
  dsimp only
  rw [hb]
  dsimp only
  rw [hf, if_neg Bool.false_ne_true]

theorem exec_resetDrainComplete {id : Nat} {j : ResetJob} (hu : u = s.tick dt)
    (hj : u.resets.find? (fun j => decide (j.id = id)) = some j) (hb : u.busyCtxs j.drain = false) :
    exec (.resetDrainComplete dt id) s = .next (u.endDrain j) := by
  subst hu
  unfold exec execResetDrainComplete
  dsimp only
  rw [hj]
  dsimp only
  rw [hb, if_neg Bool.false_ne_true]

/-! ### Faults -/

/-- The reports of one cycle, while EVT is powered: those of the tables, in their order, and a level 4 reset after one of class
DEVICE (R120 to R125). -/
theorem exec_faultReport {given reps : List FaultRep} {l : List (Nat × Nat)} (hu : u = s.tick dt) (ha : u.awakeDev = true)
    (hr : reps = given.filterMap tabled) (hw : u.reports (reps.insertionSort (fun a b => repBefore a b = true)) = (l, w))
    (hv : v = w.rootMessages l) :
    exec (.faultReport dt given) s = .next (if reps.any (fun f => f.cls = .device) then v.warmReset 4 else v) := by
  subst hu hr
  unfold exec execFaultReport
  dsimp only
  rw [ite_not_of_true ha, hw]
  dsimp only
  rw [← hv]

theorem exec_rootQuietClose {id : Word} {r : Root} (hu : u = s.tick dt)
    (hr : u.evt.roots.find? (fun r => r.open_ && decide (r.id = id.toNat)) = some r) (ha : u.awakeDev = true)
    (hq : r.lastMono + u.fd R.EVT_CTRL 0 10 * 10 ^ 6 ≤ u.now) : exec (.rootQuietClose dt id) s = .next (u.closeRoot r) := by
  subst hu
  unfold exec execRootQuietClose
  dsimp only
  rw [hr]
  refine congrArg Host.Outcome.next (if_pos ?_)
  rw [ha, Bool.and_true]
  exact decide_eq_true hq

/-- Settles O31. -/
theorem boundaryAndFaultCommandsComplete : Obligations.BoundaryAndFaultCommandsComplete := by
  intro dt s u hu
  refine ⟨fun hm hl hc hd => exec_syntheticBoundary hu hm hl hc hd, fun k t v hm ht hn hv => ⟨fun hk => ?_, fun w hk hw => ?_⟩,
    fun b bs hb hf => exec_epochRetirement hu hb hf, fun id j hj hb => exec_resetDrainComplete hu hj hb,
    fun given reps l v w ha hr hw hv => ⟨fun hn => ?_, fun hd => ?_⟩, fun id r hr ha hq => exec_rootQuietClose hu hr ha hq⟩
  · rw [exec_cadenceTick hu hm ht hn hv, if_neg hk]
  · rw [exec_cadenceTick hu hm ht hn hv, if_pos hk, cadZero_eq hw]
    refine ⟨fun he => ?_, fun he => ?_⟩
    · rw [if_pos he]
    · rw [he, if_neg Bool.false_ne_true]
  · rw [exec_faultReport hu ha hr hw hv, if_neg]
    simpa using hn
  · rw [exec_faultReport hu ha hr hw hv, if_pos]
    simpa using hd

/-! ### Lanes -/

/-- A lane is locked or not as its status register says, whatever leaves the part. -/
theorem laneLocked_emit {o : Out} {n : Nat} : (s.emit o).laneLocked n = s.laneLocked n := rfl

theorem laneFunc_emit {o : Out} {n : Nat} : (s.emit o).laneFunc n = s.laneFunc n := rfl

/-- A block on a locked sensor lane: looped to the host (mode 3) it leaves again, and it is taken either way (R148). -/
theorem exec_alignBlock {n : Fin 64} {h0 h1 : Bool} {pay : BitVec 256} {gap skew : Nat} (hu : u = s.tick dt)
    (hl : u.laneLocked n = true) (hf : u.laneFunc n = 1)
    (hv : (u.fd (R.LNA_LANE_LOOP n) 0 2 = 0 ∧ v = u) ∨
      (u.fd (R.LNA_LANE_LOOP n) 0 2 = 3 ∧ v = u.emit (.retimed n (syncHdr h0 h1).toNat pay))) :
    exec (.alignBlock dt n h0 h1 pay gap skew) s = .next (v.takeBlock n (syncHdr h0 h1) pay gap skew) := by
  subst hu
  unfold exec execAlignBlock
  dsimp only
  rcases hv with ⟨hm, rfl⟩ | ⟨hm, rfl⟩
  · have hstay : ¬(decide (0 = 3) && (s.tick dt).laneLocked n) = true := by simp
    rw [hm, if_neg hstay, hl, hf]
    rfl
  · have hback : (decide (3 = 3) && (s.tick dt).laneLocked n) = true := by rw [hl]; rfl
    rw [hm, if_pos hback, laneLocked_emit, laneFunc_emit, hl, hf]
    rfl

section Block

variable {n gap skew : Nat} {hdr : BitVec 2} {pay : BitVec 256}

theorem takeBlock_injected (h : v.injects 1 n = true) :
    v.takeBlock n hdr pay gap skew = ((v.useInj 1 n).bump (R.LNA_INJ_CNT n) 0 32 1).badHeader n := if_pos h

theorem takeBlock_invalid (h : v.injects 1 n = false) (hh : hdr = 0 ∨ hdr = 3) :
    v.takeBlock n hdr pay gap skew = v.badHeader n :=
  (if_neg (by rw [h]; exact Bool.false_ne_true)).trans (if_pos (by simpa using hh))

/-- A block with a valid header that no injection of invalid headers takes. -/
theorem takeBlock_valid (h : v.injects 1 n = false) (h0 : hdr ≠ 0) (h3 : hdr ≠ 3) :
    v.takeBlock n hdr pay gap skew =
      if v.injects 2 n && alignForm hdr pay then (v.useInj 2 n).bump (R.LNA_INJ_CNT n) 0 32 1
      else if fillForm hdr pay && decide (4 ≤ v.laneSt n) then v.fillBlock n
      else if v.laneSt n = 3 then v.alignSeek n hdr pay gap
      else v.alignKeep n hdr pay gap skew :=
  (if_neg (by rw [h]; exact Bool.false_ne_true)).trans (if_neg (by simpa using ⟨h0, h3⟩))

end Block

/-- The bits that an enabled checker takes: those of its balls, or of its own generator in a near loop (R150). -/
theorem exec_prbsCheckerLock {n : Fin 64} {rx bits : List Bool} (hu : u = s.tick dt) (he : u.bt (R.LNA_PRBS_CTRL n) 4 = true)
    (hv : (u.fd (R.LNA_LANE_LOOP n) 0 2 ≠ 1 ∧ u.fd (R.LNA_LANE_LOOP n) 0 2 ≠ 2 ∧ bits = rx ∧ v = u) ∨
      ((u.fd (R.LNA_LANE_LOOP n) 0 2 = 1 ∨ u.fd (R.LNA_LANE_LOOP n) 0 2 = 2) ∧ u.prbsSend n rx.length = (bits, v))) :
    exec (.prbsCheckerLock dt { lane := n, bits := rx }) s = .next (bits.foldl (fun (t : State) b => t.prbsBit n b) v) := by
  subst hu
  unfold exec execPrbsCheckerLock
  dsimp only
  rw [ite_not_of_true he]
  rcases hv with ⟨h1, h2, rfl, rfl⟩ | ⟨hn, hs⟩
  · rw [if_neg (by simp [h1, h2])]
  · rw [if_pos (by simpa using hn), hs]

/-- Settles O32. -/
theorem laneCommandsComplete : Obligations.LaneCommandsComplete := by
  intro dt s u n hu
  refine ⟨fun h => ?_, fun h hw => ?_, fun v h hv => ?_, fun h => ?_, fun h => ?_, ?_,
    fun h0 h1 hdr pay gap skew v hh hl hf hv => ?_, fun h hw => ?_, fun h hw => ?_,
    fun rx bits v he hv => exec_prbsCheckerLock hu he hv⟩
  · subst hu
    exact congrArg _ (if_pos h)
  · subst hu
    exact congrArg _ (if_pos (by rw [h, hw]; rfl))
  · subst hu hv
    exact congrArg _ (if_pos h)
  · subst hu
    exact congrArg _ (if_pos h)
  · subst hu
    exact congrArg _ (if_neg (by rw [h]; exact Bool.false_ne_true))
  · subst hu
    rfl
  · subst hh
    have hrun := exec_alignBlock (gap := gap) (skew := skew) hu hl hf hv
    refine ⟨fun hi => hrun.trans (congrArg _ (takeBlock_injected hi)),
      fun hi hb => hrun.trans (congrArg _ (takeBlock_invalid hi hb)), fun hi h2 hb0 hb3 ha => hrun.trans (congrArg _ ?_),
      fun hi h2 hb0 hb3 => ⟨fun hfill h4 => hrun.trans (congrArg _ ?_), fun hst => hrun.trans (congrArg _ ?_),
        fun hfill h4 => hrun.trans (congrArg _ ?_)⟩⟩
    · rw [takeBlock_valid hi hb0 hb3, if_pos (by rw [h2, ha]; rfl)]
    · rw [takeBlock_valid hi hb0 hb3, if_neg (by simp [h2]), if_pos (by rw [hfill, decide_eq_true h4]; rfl)]
    · rw [takeBlock_valid hi hb0 hb3, if_neg (by simp [h2]), if_neg (by simp [hst]), if_pos hst]
    · rw [takeBlock_valid hi hb0 hb3, if_neg (by simp [h2]), if_neg (by simp [hfill]), if_neg (by omega)]
  · subst hu
    exact congrArg _ ((if_pos h).trans (if_pos hw))
  · subst hu
    exact congrArg _ ((if_pos h).trans (if_neg hw))

end Sys2Proof.Proofs
end

section
/-!
What the sensor link does of itself (R162 to R178): packets as received, the back-channel, spares and the wait for the link.
-/

namespace Sys2Proof.Proofs

open Sys2Proof Sys2Proof.Machine Sys2Proof.Laws

variable {s u v w : State} {dt : Nat} {g : Fin 48} {h : BitVec 128}

/-! ### Frame starts -/

section FrameStart

variable {x : BitVec 128 × List Byte × Word}

/-- What an FS packet comes to once received on a link that is on (R162, R166). -/
theorem exec_fsPacket_bad (hu : u = s.tick dt) (hl : u.linkOn = true) (hr : (u.fillSeen g).receive g h [] 0 = (x, v))
    (hb : hdrOk x.1 = false) (hg : v.groupUp g = true) : exec (.fsPacket dt g h) s = .next (v.hdrError g) := by
  subst hu
  unfold exec execFsPacket
  dsimp only
  rw [ite_not_of_true hl, hr]
  dsimp only
  rw [hb, hg]
  rfl

theorem exec_fsPacket_opens (hu : u = s.tick dt) (hl : u.linkOn = true) (hr : (u.fillSeen g).receive g h [] 0 = (x, v))
    (hok : hdrOk x.1 = true) (ht : hdrType x.1 = Dt.fs) (hf : v.openFrame = none) :
    exec (.fsPacket dt g h) s = .next (v.fsOpen g x.1) := by
  subst hu
  unfold exec execFsPacket
  dsimp only
  rw [ite_not_of_true hl, hr]
  dsimp only
  rw [ite_not_of_true hok, if_neg (not_not_intro ht), hf]

theorem exec_fsPacket_open {f : Frame} (hu : u = s.tick dt) (hl : u.linkOn = true)
    (hr : (u.fillSeen g).receive g h [] 0 = (x, v)) (hok : hdrOk x.1 = true) (ht : hdrType x.1 = Dt.fs)
    (hf : v.openFrame = some f) :
    exec (.fsPacket dt g h) s = .next (if f.sensorFrame = hdrFrame x.1 then (if v.groupUp g then v.fsAgain f g else v)
      else v.fsOpen g x.1) := by
  subst hu
  unfold exec execFsPacket
  dsimp only
  rw [ite_not_of_true hl, hr]
  dsimp only
  rw [ite_not_of_true hok, if_neg (not_not_intro ht), hf]

end FrameStart

/-- A group without an FS when the skew has passed (R166). -/
theorem exec_fsSkewTimeout {f : Frame} (hu : u = s.tick dt) (hf : u.openFrame = some f)
    (ht : u.ep.tFm + u.cf f.epoch R.SLK_LINK_CFG 0 10 * 1000 < u.now) (hfs : f.fs.contains g.val = false)
    (hd : f.dead.contains g.val = false) : exec (.fsSkewTimeout dt g) s = .next (u.groupDead f g) := by
  subst hu
  unfold exec execFsSkewTimeout
  dsimp only
  rw [hf]
  refine congrArg Host.Outcome.next (if_pos ?_)
  rw [hfs, hd, decide_eq_true ht]
  rfl

/-! ### Packets of an open frame -/

section Received

variable {payload body : List Byte} {pcrc crc : Word} {y : BitVec 128} {k : BitVec 128 → List Byte → Word → State → State}

/-- A packet of a group whose stream stands before and after it, which does not discard. -/
structure Arrives (u v : State) (g : Fin 48) (h : BitVec 128) (payload : List Byte) (pcrc : Word) (y : BitVec 128)
    (body : List Byte) (crc : Word) : Prop where
  up : u.groupUp g = true
  received : u.receive g h payload pcrc = ((y, body, crc), v)
  takes : v.lnk.grpSkip.contains g.val = false
  stays : v.groupUp g = true

/-- A packet that arrives has the meaning of its opcode, or its header is an error (R162). -/
theorem onPacket_eq (ha : Arrives u v g h payload pcrc y body crc) (hl : u.linkOn = true) :
    u.onPacket g h payload pcrc k = if hdrOk y then k y body crc v else v.hdrError g := by
  have hgo : ¬(!u.linkOn || !u.groupUp g) = true := by
    rw [hl, ha.up]
    exact Bool.false_ne_true
  have hstay : ¬(v.lnk.grpSkip.contains g.val || !v.groupUp g) = true := by
    rw [ha.takes, ha.stays]
    exact Bool.false_ne_true
  unfold State.onPacket
  rw [if_neg hgo, ha.received]
  dsimp only
  rw [if_neg hstay]
  cases hdrOk y <;> rfl

theorem onPacket_ok (ha : Arrives u v g h payload pcrc y body crc) (hl : u.linkOn = true) (hok : hdrOk y = true) :
    u.onPacket g h payload pcrc k = k y body crc v := by
  rw [onPacket_eq ha hl, if_pos hok]

/-- Counting a bad payload does not close the frame that is open. -/
theorem openFrame_counted {ok : Bool} : (if ok then v else v.bump R.SLK_PCRC_ERR 0 32 1).openFrame = v.openFrame := by
  cases ok <;> rfl

/-- A frame that takes a packet of a group has not given that group up. -/
theorem not_dead_of_takes {f : Frame} {n : Nat} (ht : f.takes n y = true) : f.dead.contains n = false := by
  unfold Frame.takes at ht
  simp only [Bool.and_eq_true, Bool.not_eq_true'] at ht
  exact ht.2

theorem exec_fePacket {f : Frame} (hu : u = s.tick dt) (ha : Arrives u v g h [] 0 y body crc) (hl : u.linkOn = true)
    (hok : hdrOk y = true) (hf : v.openFrame = some f) (ht : f.takes g y = true) (hfe : hdrType y = Dt.fe) :
    exec (.fePacket dt g h) s = .next (v.feTaken { f with fe := g.val :: f.fe, expNs := hdrNs y }) := by
  subst hu
  unfold exec execFePacket
  dsimp only
  rw [onPacket_ok ha hl hok, hf]
  refine congrArg Host.Outcome.next (if_pos ?_)
  rw [decide_eq_true hfe, ht]
  rfl

theorem exec_pixelPacket {f : Frame} {ok : Bool} (hu : u = s.tick dt) (ha : Arrives u v g h payload pcrc y body crc)
    (hl : u.linkOn = true) (hok : hdrOk y = true) (hf : v.openFrame = some f) (hp : ok = payloadOk y body crc)
    (hw : w = if ok then v else v.bump R.SLK_PCRC_ERR 0 32 1) (ht : f.takes g y = true) (hx : hdrPixel y = true)
    (ho : f.ovf = false) (hd : (f.stripes.getD (hdrStripe y) {}).drop = false) :
    exec (.pixelPacket dt g h payload pcrc) s = .next (w.segment f g y (payloadOf y body) ok) := by
  have hwf : w.openFrame = some f := by rw [hw, openFrame_counted, hf]
  subst hu hp
  unfold exec execPixelPacket
  dsimp only
  rw [onPacket_ok ha hl hok, ite_not_of_true hx, ← hw, hwf]
  dsimp only
  rw [ho, not_dead_of_takes ht, hd, Bool.and_false, if_neg (by decide), if_pos ht]

theorem exec_embedPacket {f : Frame} {ok : Bool} (hu : u = s.tick dt) (ha : Arrives u v g h payload pcrc y body crc)
    (hl : u.linkOn = true) (hok : hdrOk y = true) (hf : v.openFrame = some f) (hp : ok = payloadOk y body crc)
    (hw : w = if ok then v else v.bump R.SLK_PCRC_ERR 0 32 1) (ht : f.takes g y = true) (hx : hdrType y = Dt.embed)
    (ho : f.ovf = false) : exec (.embedPacket dt g h payload pcrc) s = .next (w.embedIn f g y body ok) := by
  have hwf : w.openFrame = some f := by rw [hw, openFrame_counted, hf]
  subst hu hp
  unfold exec execEmbedPacket
  dsimp only
  rw [onPacket_ok ha hl hok, if_neg (not_not_intro hx), ← hw, hwf]
  dsimp only
  rw [ho, ht]
  rfl

/-- A REPLY whose payload stands ends the command whose TAG it echoes (R178). -/
theorem replyIn_ok {b : BcCmd} {bytes : List Byte} (hx : hdrType y = Dt.reply) (hp : payloadOk y body crc = true)
    (hbytes : bytes = payloadOf y body ++ List.replicate 32 0)
    (hb : v.lnk.bcOut.find? (fun b => decide (b.tag = ofBytes (bytes.take 1))) = some b) :
    v.replyIn y body crc = ({ v with lnk := { v.lnk with bcOut := v.lnk.bcOut.erase b } } : State).bcReply b (bytes.take 32) := by
  unfold State.replyIn
  rw [if_neg (not_not_intro hx), ite_not_of_true hp]
  dsimp only
  rw [← hbytes, hb]

theorem exec_replyPacket (hu : u = s.tick dt) (ha : Arrives u v g h payload pcrc y body crc) (hl : u.linkSt ≠ 0)
    (hok : hdrOk y = true) : exec (.replyPacket dt g h payload pcrc) s = .next (v.replyIn y body crc) := by
  subst hu
  have hgo : ¬(decide ((s.tick dt).linkSt = 0) || !(s.tick dt).groupUp g) = true := by
    rw [ha.up, decide_eq_false hl]
    exact Bool.false_ne_true
  have hstay : ¬(v.lnk.grpSkip.contains g.val || !v.groupUp g) = true := by
    rw [ha.takes, ha.stays]
    exact Bool.false_ne_true
  unfold exec execReplyPacket
  dsimp only
  rw [if_neg hgo, ha.received]
  dsimp only
  rw [if_neg hstay, ite_not_of_true hok]

end Received

/-! ### The back-channel and the wait for the link -/

theorem exec_backchannelCommandSend {b : BcCmd} (hu : u = s.tick dt)
    (hb : u.lnk.bcq.find? (fun b => u.serves Src.SLK b.ctx) = some b) (hm : u.bcMay = true) :
    exec (.backchannelCommandSend dt) s = .next (u.bcSend b (u.lnk.bcq.erase b)) := by
  subst hu
  unfold exec execBackchannelCommandSend
  dsimp only
  rw [hb]
  dsimp only
  rw [if_pos hm]

theorem exec_bcCommandTimeout {tag : BitVec 8} {b : BcCmd} (hu : u = s.tick dt)
    (hb : u.lnk.bcOut.find? (u.bcDue tag.toNat) = some b) : exec (.bcCommandTimeout dt tag) s = .next (u.bcRetry b) := by
  subst hu
  unfold exec execBcCommandTimeout
  dsimp only
  rw [hb]

theorem exec_linkUpTimeout {t : Nat} (hu : u = s.tick dt) (ht : u.lnk.startedAt = some t) (hd : t + 40000000 ≤ u.now) :
    exec (.linkUpTimeout dt) s =
      .next (u.finish (fun k => decide (k = .link)) St.TIMEOUT [u.rd R.SLK_LINK_STAT]) := by
  subst hu
  unfold exec execLinkUpTimeout
  dsimp only
  rw [ht]
  dsimp only
  rw [if_pos hd]

/-- Settles O33. -/
theorem packetCommandsComplete : Obligations.PacketCommandsComplete := by
  intro dt s u g h hu
  refine ⟨fun x v hl hr => ⟨fun hb hg => exec_fsPacket_bad hu hl hr hb hg, fun hok ht =>
      ⟨fun hf => exec_fsPacket_opens hu hl hr hok ht hf, fun f hf => ⟨fun hn => ?_, fun he hg => ?_⟩⟩⟩,
    fun f hf ht hfs hd => exec_fsSkewTimeout hu hf ht hfs hd,
    fun payload body bytes pcrc crc y v hup hr hskip hstay => ?_,
    fun b hb hm => exec_backchannelCommandSend hu hb hm, fun tag b hb => exec_bcCommandTimeout hu hb, fun l hd => ?_,
    fun t ht hd => exec_linkUpTimeout hu ht hd⟩
  · rw [exec_fsPacket_open hu hl hr hok ht hf, if_neg hn]
  · rw [exec_fsPacket_open hu hl hr hok ht hf, if_pos he, if_pos hg]
  · have ha : Arrives u v g h payload pcrc y body crc := ⟨hup, hr, hskip, hstay⟩
    refine ⟨fun hl hok f ok w hf hp hw ht => ⟨fun hn hz hfe => ?_, fun hx ho hd => exec_pixelPacket hu ha hl hok hf hp hw ht hx ho hd,
      fun hx ho => exec_embedPacket hu ha hl hok hf hp hw ht hx ho⟩, fun hl hn hz hok => ?_, fun hl hn hz hok => ?_,
      fun b hl hok hx hp hbytes hb => (exec_replyPacket hu ha hl hok).trans (congrArg Host.Outcome.next (replyIn_ok hx hp hbytes hb))⟩
    · subst hn hz
      exact exec_fePacket hu ha hl hok hf ht hfe
    · subst hn hz hu
      exact congrArg Host.Outcome.next (onPacket_ok ha hl hok)
    · subst hn hz hu
      refine congrArg Host.Outcome.next ((onPacket_eq ha hl).trans (if_neg ?_))
      rw [hok]
      exact Bool.false_ne_true
  · subst hu
    exact congrArg Host.Outcome.next (if_pos hd)

end Sys2Proof.Proofs
end

section
/-!
What the engines do of themselves (R185 to R361): correction and coding, landing, development, statistics and the video coder.
-/

namespace Sys2Proof.Proofs

open Sys2Proof Sys2Proof.Machine Sys2Proof.Laws

variable {s u v : State} {dt : Nat}

/-! ### Correction and the coder -/

theorem exec_pscBeat {i : Fin 48} {f : Frame} {io : BeatIo} (hu : u = s.tick dt) (hf : u.pscFrame i = some f) :
    exec (.pscBeat dt i io) s = .next (u.pscStep i f io) := by
  subst hu
  unfold exec execPscBeat
  dsimp only
  rw [hf]

/-- A stripe that is not done and has two corrected rows more than it has coded is coded, or dropped where it is blocked. -/
theorem exec_bkcBeat {i : Fin 48} {f : Frame} {st : StripeSt} {io : CodeIo} (hu : u = s.tick dt) (hf : u.bkcFrame = some f)
    (hst : st = f.stripes.getD i { done := true }) (hd : st.done = false) (hr : st.recon.length + 2 ≤ st.cor.length) :
    exec (.bkcBeat dt i io) s = .next (if io.blocked then u.bkcBlock i f else u.bkcCode i f st io) := by
  subst hu
  unfold exec execBkcBeat
  dsimp only
  rw [hf]
  dsimp only
  rw [← hst, hd, decide_eq_false (Nat.not_lt.mpr hr)]
  rfl

theorem exec_bkcJobCompletion {b : BkcJob} {frames stripes : Nat} {ue par : List (Fin 48)} (hu : u = s.tick dt)
    (hb : u.bkcJob = some b) :
    exec (.bkcJobCompletion dt frames stripes ue par) s = .next (u.jobFinish b frames stripes ue par) := by
  subst hu
  unfold exec execBkcJobCompletion
  dsimp only
  rw [hb]

/-- Settles O34. -/
theorem correctionAndCoderCommandsComplete : Obligations.CorrectionAndCoderCommandsComplete := by
  intro dt s u hu
  refine ⟨fun i f io hf => exec_pscBeat hu hf, fun i f st io hf hst hd hr => ?_, fun hm => ?_,
    fun b frames stripes ue par hb => exec_bkcJobCompletion hu hb⟩
  · rw [exec_bkcBeat hu hf hst hd hr]
    refine ⟨fun hb => ?_, fun hb => ?_⟩
    · rw [hb, if_neg Bool.false_ne_true]
    · rw [if_pos hb]
  · subst hu
    exact congrArg Host.Outcome.next (if_pos hm)

/-! ### Landing, development and statistics -/

theorem exec_landingUnitWrite {k : Fin 16} {f : Frame} {cut : Option Nat} (hu : u = s.tick dt) (hl : u.slotLive k = true)
    (hf : u.landNext k = some f) : exec (.landingUnitWrite dt k cut) s = .next (u.landUnit k f cut) := by
  subst hu
  unfold exec execLandingUnitWrite
  dsimp only
  rw [hl, hf]

theorem exec_takeEntryWritten {k : Fin 16} (hu : u = s.tick dt) (hst : u.slotSt k = 4) (hr : u.nvRange = true) :
    exec (.takeEntryWritten dt k) s = .next (u.entryWritten k) := by
  subst hu
  refine congrArg Host.Outcome.next (if_pos ?_)
  rw [hst, hr]
  rfl

theorem exec_developmentStart {f : Frame} {tapUe : List (Nat × Nat × Nat)} {lutUe : List (Fin 8 × Fin 3)} (hu : u = s.tick dt)
    (hd : u.cpl.dev = none) (hf : u.devNext = some f) :
    exec (.developmentStart dt tapUe lutUe) s = .next (u.devBegin f tapUe lutUe) := by
  subst hu
  unfold exec execDevelopmentStart
  dsimp only
  rw [hd, hf]

theorem exec_scalerOutputRecord {o : Fin 8} {d : Dev} {x : DevOut} {f : Frame} (hu : u = s.tick dt) (hd : u.cpl.dev = some d)
    (hx : d.todo.find? (fun x => decide (x.sc = o.val)) = some x)
    (hf : u.ing.frames.find? (fun f => decide (f.no = d.no)) = some f) (ht : f.tapDone = true) (hc : f.closed = true) :
    exec (.scalerOutputRecord dt o) s = .next (u.scRecord o d x f) := by
  subst hu
  unfold exec execScalerOutputRecord
  dsimp only
  rw [hd]
  dsimp only
  rw [hx, hf]
  dsimp only
  rw [ht, hc]
  rfl

/-- The oldest statistics record that is due, by parity, room and ring (R276, R278). -/
theorem exec_statsRecordComplete {x : Stat} {rest : List Stat} {full par : Bool} (hu : u = s.tick dt)
    (hx : u.crs.due = x :: rest) (hv : v = { u with crs := { u.crs with due := rest } }) :
    exec (.statsRecordComplete dt full par) s = .next
      (if par then (v.bump R.CRS_DROP_CNT 0 32 1).faultItem Src.CRS 1 x.point x.kind [Fin.ofNat 4096 x.ctx]
      else if full || decide (tabGet (fun _ => 0) v.crs.ring x.ctx = 0) then v.statsDrop x
      else ({ v with crs := { v.crs with dropRun := false } } : State).stage
        { ring := tabGet (fun _ => 0) v.crs.ring x.ctx - 1, kind := 4, epoch := x.epoch
          ctx := (tabGet (fun _ => 0) v.crs.ring x.ctx - 1) / 4 }
        (tagBytes v.dev x.epoch x.ctx Kind.stats x.frame Src.CRS x.flags ++ x.rest)) := by
  subst hu hv
  unfold exec execStatsRecordComplete
  dsimp only
  rw [hx]

/-- Settles O35. -/
theorem landingAndPipelineCommandsComplete : Obligations.LandingAndPipelineCommandsComplete := by
  intro dt s u hu
  refine ⟨fun k f cut hl hf => exec_landingUnitWrite hu hl hf, fun k => ?_, fun k hst hr => exec_takeEntryWritten hu hst hr,
    fun f tapUe lutUe hd hf => exec_developmentStart hu hd hf,
    fun o d x f hd hx hf ht hc => exec_scalerOutputRecord hu hd hx hf ht hc, fun x rest v full par hx hv => ?_⟩
  · subst hu
    rfl
  · rw [exec_statsRecordComplete hu hx hv]
    refine ⟨fun hp => ?_, fun hp hn => ?_, fun hp hfull hr => ?_⟩
    · rw [if_pos hp]
    · rw [hp, if_neg Bool.false_ne_true, if_pos]
      rcases hn with hn | hn
      · rw [hn, Bool.true_or]
      · rw [hn, Bool.or_comm]
        rfl
    · rw [hp, if_neg Bool.false_ne_true, hfull, Bool.false_or, if_neg (by simpa using hr)]

/-! ### The video coder -/

/-- A live picture of a destination that the open session can take is held and queued (R352, R353). -/
theorem exec_livePictureHold {q : Fin 64} {o : VcOut} {x : VcSession} (hu : u = s.tick dt)
    (ho : u.vcd.pend.find? (fun o => decide (o.session = q.val)) = some o) (hx : u.vc q = some x)
    (hv : v = { u with vcd := { u.vcd with pend := u.vcd.pend.erase o } }) (hd : o.dest = true) (hc : x.closing = false)
    (hq : x.queue.length + b2n x.cur.isSome < 2) (hw : o.out.w ≤ x.maxW) (hh : o.out.h ≤ x.maxH)
    (hb : 2 * v.vcK x.profile x.maxW x.maxH ≤ x.bufs) (hf : o.out.fmt = 3 ∨ (o.out.fmt = 2 ∧ x.profile = 2)) :
    exec (.livePictureHold dt q) s = .next (v.liveQueue q x o) := by
  have hgoes : ¬(!o.dest || x.closing) = true := by
    rw [hd, hc]
    exact Bool.false_ne_true
  have hfits : ¬(decide (x.maxW < o.out.w) || decide (x.maxH < o.out.h)) = true := by
    rw [decide_eq_false (Nat.not_lt.mpr hw), decide_eq_false (Nat.not_lt.mpr hh)]
    exact Bool.false_ne_true
  have hform : ¬(!(decide (o.out.fmt = 3) || (decide (o.out.fmt = 2) && decide (x.profile = 2)))) = true := by
    rcases hf with hf | ⟨hf, hp⟩
    · simp [hf]
    · simp [hf, hp]
  subst hu
  unfold exec execLivePictureHold
  dsimp only
  rw [ho, hx]
  dsimp only
  rw [if_neg hgoes, if_neg (Nat.not_le.mpr hq), if_neg hfits, if_neg hform, ← hv, if_neg (Nat.not_lt.mpr hb)]

theorem exec_vcSliceBoundary_idle {out : SliceOut} (hu : u = s.tick dt) (he : u.vcd.enc = none) :
    exec (.vcSliceBoundary dt out) s = .next (u.vcPick (u.vcWork + 1)) := by
  subst hu
  unfold exec execVcSliceBoundary
  dsimp only
  rw [he]

theorem exec_vcSliceBoundary {out : SliceOut} {q : Nat} (hu : u = s.tick dt) (he : u.vcd.enc = some q)
    (hv : v = u.vcSlice q out) : exec (.vcSliceBoundary dt out) s = .next (v.vcPick (v.vcWork + 1)) := by
  subst hu hv
  unfold exec execVcSliceBoundary
  dsimp only
  rw [he]

theorem exec_vcDecodeStart {q : Nat} {x : VcSession} {j : VcJob} {rest : List VcJob} (hu : u = s.tick dt)
    (hd : u.vcd.dec = none) (ht : u.throttled = false) (hq : u.decNext = some q) (hx : u.vc q = some x)
    (hj : x.jobs = j :: rest) : exec (.vcDecodeStart dt) s = .next (u.decBegin q x j rest) := by
  have hgo : ¬(u.vcd.dec.isSome || u.throttled) = true := by
    rw [hd, ht]
    exact Bool.false_ne_true
  subst hu
  unfold exec execVcDecodeStart
  dsimp only
  rw [if_neg hgo, hq]
  dsimp only
  rw [hx]
  dsimp only
  rw [hj]

theorem exec_vcDecodeDone {q : Nat} {x : VcSession} {j : VcJob} {rest : List VcJob} {out : DecOut} (hu : u = s.tick dt)
    (hd : u.vcd.dec = some q) (hv : v = u.decFree q) (hx : v.vc q = some x) (hj : x.jobs = j :: rest) :
    exec (.vcDecodeDone dt out) s = .next (v.decEnd q x j rest out) := by
  subst hu hv
  unfold exec execVcDecodeDone
  dsimp only
  rw [hd]
  dsimp only
  rw [hx]
  dsimp only
  rw [hj]

/-- Settles O36. -/
theorem videoEngineCommandsComplete : Obligations.VideoEngineCommandsComplete := by
  intro dt s u hu
  exact ⟨fun q o x v ho hx hv hd hc hq hw hh hb hf => exec_livePictureHold hu ho hx hv hd hc hq hw hh hb hf,
    fun out => ⟨fun he => exec_vcSliceBoundary_idle hu he, fun q v he hv => exec_vcSliceBoundary hu he hv⟩,
    fun q x j rest hd ht hq hx hj => exec_vcDecodeStart hu hd ht hq hx hj,
    fun q v x j rest out hd hv hx hj => exec_vcDecodeDone hu hd hv hx hj⟩

end Sys2Proof.Proofs
end

section
/-!
What the outputs and the clocks do of themselves (R374 to R433): monitor outputs, triggers, timecode, Ethernet, PTP and audio.
-/

namespace Sys2Proof.Proofs

open Sys2Proof Sys2Proof.Machine Sys2Proof.Laws

variable {s u v : State} {dt : Nat}

/-! ### Monitor outputs -/

/-- A port between frames that starts them on its cadence (R374). -/
theorem exec_outputFrameStart_cadence {o : Fin 6} (hu : u = s.tick dt) (hl : (u.monOut o).line = none) (ht : u.monTe o = false)
    (hn : newTick (u.monOut o).tick (u.monTick o) = true) : exec (.outputFrameStart dt o) s = .next (u.monStart o) := by
  subst hu
  unfold exec execOutputFrameStart
  dsimp only
  rw [hl, ht, hn]
  rfl

/-- A port between frames that starts them at TE edges, an edge being due (R376). -/
theorem exec_outputFrameStart_edge {o : Fin 6} {t : Nat} (hu : u = s.tick dt) (hl : (u.monOut o).line = none)
    (ht : u.monTe o = true) (hd : (u.monOut o).teDue = some t) (hn : t ≤ u.now) :
    exec (.outputFrameStart dt o) s = .next (u.monStart o) := by
  subst hu
  unfold exec execOutputFrameStart
  dsimp only
  rw [hl, Option.isSome_none, if_neg Bool.false_ne_true, if_pos ht, hd]
  dsimp only
  rw [if_pos hn]

/-- Such a port without an edge or a lock on its edges falls back to its cadence (R376). -/
theorem exec_outputFrameStart_missed {o : Fin 6} (hu : u = s.tick dt) (hl : (u.monOut o).line = none) (ht : u.monTe o = true)
    (hd : (u.monOut o).teDue = none) (hb : u.bt (R.MON_OUT_STAT o) 1 = false)
    (hn : newTick (u.monOut o).tick (u.monTick o) = true) : exec (.outputFrameStart dt o) s = .next (u.monCadence o) := by
  subst hu
  unfold exec execOutputFrameStart
  dsimp only
  rw [hl, Option.isSome_none, if_neg Bool.false_ne_true, if_pos ht, hd]
  dsimp only
  rw [hb, hn]
  rfl

theorem exec_teMissTimeout {o : Fin 2} (hu : u = s.tick dt) (ht : u.monTe o = true)
    (hd : ((u.monOut o).teAt.getD 0) + 20000 * (u.monOut o).fd (R.MON_OUT_DSI_T o) 16 16 ≤ u.now) :
    exec (.teMissTimeout dt o) s = .next ((u.wrF (R.MON_OUT_STAT o) 1 1 0).monCadence o) := by
  subst hu
  refine congrArg Host.Outcome.next (if_pos ?_)
  rw [ht, Bool.true_and]
  exact decide_eq_true hd

theorem exec_dsiTransferDone {o : Fin 2} {d : Rect} {under : List (Nat × Nat)} {ue : List Nat} (hu : u = s.tick dt)
    (hd : (u.monOut o).dirty = some d) : exec (.dsiTransferDone dt o under ue) s = .next (u.dsiSent o d under ue) := by
  subst hu
  unfold exec execDsiTransferDone
  dsimp only
  rw [hd]

/-- The next active line of an SDI output that is in a frame (R374). -/
theorem exec_sdiLineStart {k : Fin 4} {o y : Nat} {miss : Option Nat} {ue : Bool} (hu : u = s.tick dt) (ho : o = k.val + 2)
    (hl : (u.monOut o).line = some y) (hy : y < ((u.monOut o).size o).2) :
    exec (.sdiLineStart dt k miss ue) s = .next (u.sdiLine o y ((u.monOut o).size o).1 miss ue) := by
  subst hu ho
  unfold exec execSdiLineStart
  dsimp only
  rw [hl]
  dsimp only
  rw [if_neg (Nat.not_le.mpr hy)]

theorem exec_sdiFrameEnd {k : Fin 4} {o : Nat} (hu : u = s.tick dt) (ho : o = k.val + 2)
    (hl : (u.monOut o).line = some ((u.monOut o).size o).2) :
    exec (.sdiFrameEnd dt k) s = .next (((u.setMon o { u.monOut o with line := none }).monDone o).monBlank o) := by
  subst hu ho
  exact congrArg Host.Outcome.next (if_pos hl)

/-- Settles O37. -/
theorem monitorOutputCommandsComplete : Obligations.MonitorOutputCommandsComplete := by
  intro dt s u hu
  refine ⟨fun o hl => ⟨fun ht hn => exec_outputFrameStart_cadence hu hl ht hn,
      fun t ht hd hn => exec_outputFrameStart_edge hu hl ht hd hn,
      fun ht hd hb hn => exec_outputFrameStart_missed hu hl ht hd hb hn⟩,
    fun o ht => ⟨?_, fun hd => exec_teMissTimeout hu ht hd⟩, fun o d under ue hd => exec_dsiTransferDone hu hd,
    fun k o y ho hl => ⟨fun miss ue hy => exec_sdiLineStart hu ho hl hy, fun hy => exec_sdiFrameEnd hu ho (by rw [hl, hy])⟩⟩
  subst hu
  exact congrArg Host.Outcome.next (if_pos ht)

/-! ### Triggers, genlock and timecode -/

theorem exec_scheduleEntryDue {n : Fin 4} {strb : Bool} {e : SchedEnt} (hu : u = s.tick dt)
    (he : u.schedFirst n strb = some e) (hd : e.ts ≤ u.dev + (if strb then 0 else 20)) :
    exec (.scheduleEntryDue dt n strb) s = .next (u.schedFire n strb e) := by
  subst hu
  unfold exec execScheduleEntryDue
  dsimp only
  rw [he]
  dsimp only
  rw [if_pos hd]

theorem exec_strobeTrailingEdge {n : Fin 4} {p : Pulse} (hu : u = s.tick dt)
    (hp : tabGet (fun _ => none) u.tim.pulses n = some p) (hd : p.trail ≤ u.dev) :
    exec (.strobeTrailingEdge dt n) s = .next (u.strobeEnd n) := by
  subst hu
  unfold exec execStrobeTrailingEdge
  dsimp only
  rw [hp]
  dsimp only
  rw [if_pos hd]

/-- An edge of the GENLOCK pin is logged, and steers the cadences where its polarity is the one set (R410). -/
theorem exec_genlockEdge {fall : Bool} (hu : u = s.tick dt) (hv : v = (u.timLog 2 (b2n fall * 4) 0 u.dev).2) :
    exec (.genlockEdge dt fall) s =
      .next (if v.bt R.TIM_GL_CFG 0 = fall then v.genCads.foldl (fun s k => s.genEdge k s.dev) v else v) := by
  subst hu hv
  rfl

/-- A valid LTC frame whose timecode the rate has (R413). -/
theorem exec_ltcInFrame {tc : Word} {m : Nat} (hu : u = s.tick dt) (hon : u.bt R.TIM_TC_CFG 4 = true)
    (hm : tcIndex u.tcCode tc.toNat = some m) : exec (.ltcInFrame dt tc) s = .next (u.ltcTaken m tc) := by
  subst hu
  unfold exec execLtcInFrame
  dsimp only
  rw [if_pos hon, hm]

theorem exec_ltcInTimeout (hu : u = s.tick dt) (hon : u.bt R.TIM_TC_CFG 4 = true) (hl : u.tim.ltcLost = false)
    (hd : u.ltcDue = true) :
    exec (.ltcInTimeout dt) s =
      .next (({ u with tim := { u.tim with ltcLost := true } } : State).raise 0 0x0907 St.OK Src.TIM 0) := by
  subst hu
  refine congrArg Host.Outcome.next (if_pos ?_)
  rw [hon, hl, hd]
  rfl

/-- A timecode frame starts: a new TC_BASE applies, and the LTC output carries the frame where it is on (R412, R413). -/
theorem exec_timecodeFrameStart (hu : u = s.tick dt) (hv : v = u.tcBaseTaken) :
    exec (.timecodeFrameStart dt) s =
      .next (if v.bt R.TIM_TC_CFG 3 then
        v.emit (.ltc (tcLabel v.tcCode (tcFrame v.tcCode v.tcBase v.dev % (tcDay v.tcCode : Nat)).toNat)
          (tcStart v.tcCode v.tcBase (tcFrame v.tcCode v.tcBase v.dev)).toNat) else v) := by
  subst hu hv
  rfl

/-- Settles O38. -/
theorem timingEventCommandsComplete : Obligations.TimingEventCommandsComplete := by
  intro dt s u hu
  refine ⟨fun n fall hp => ?_, fun n strb e he hd => exec_scheduleEntryDue hu he hd,
    fun n p hp hd => exec_strobeTrailingEdge hu hp hd, fun fall v hv => ?_, fun n hn => ?_,
    fun tc m hon hm => exec_ltcInFrame hu hon hm, fun hon hl hd => exec_ltcInTimeout hu hon hl hd, fun v hv => ?_⟩
  · subst hu
    exact congrArg Host.Outcome.next (if_pos hp)
  · rw [exec_genlockEdge hu hv]
    exact ⟨fun he => congrArg _ (if_pos he), fun hn => congrArg _ (if_neg hn)⟩
  · subst hu
    exact congrArg Host.Outcome.next (if_pos hn)
  · rw [exec_timecodeFrameStart hu hv]
    refine ⟨fun hon => congrArg _ (if_pos hon), fun hoff => congrArg _ (if_neg ?_)⟩
    rw [hoff]
    exact Bool.false_ne_true

/-! ### Ethernet and PTP -/

section Ptp

variable {port : Fin 2}

/-- A frame that the forwarding path takes is forwarded, or counted where the other port is behind (R400). -/
theorem exec_ethFrameReceived {frame : List Byte} {res : Nat} {busy : Bool} (hu : u = s.tick dt)
    (ht : u.ethTakes port frame = true) :
    exec (.ethFrameReceived dt port frame res busy) s =
      .next (if busy then u.bump (R.TIM_PORT_CNT (1 - port.val)) 16 16 1 else u.ethForward port frame res) := by
  subst hu
  exact congrArg Host.Outcome.next (ite_not_of_true ht)

/-- A message reaches the clock when a profile is on and the port is up. -/
theorem ptp_heard (hp : u.fd R.TIM_PTP_CFG 0 2 ≠ 0) (he : u.ethUp port = true) :
    ¬(decide (u.fd R.TIM_PTP_CFG 0 2 = 0) || !u.ethUp port) = true := by
  rw [he, decide_eq_false hp]
  exact Bool.false_ne_true

/-- An Announce on the port in use: a better clock, or one that this clock must follow, is followed; otherwise this clock
transmits (R402). -/
theorem exec_ptpAnnounce {gm : BitVec 64} {rank : BitVec 48} (hu : u = s.tick dt) (hp : u.fd R.TIM_PTP_CFG 0 2 ≠ 0)
    (he : u.ethUp port = true) (hh : u.fd R.TIM_PTP_CFG 3 1 = port.val)
    (hv : v = u.wrs [(R.TIM_PTP_GM_LO, w32 gm.toNat), (R.TIM_PTP_GM_HI, w32 (gm.toNat / 2 ^ 32))]) :
    exec (.ptpMessageReceived dt port (.announce gm rank)) s =
      .next (if decide (rank.toNat * 2 ^ 64 + gm.toNat < u.ptpOwn) || u.bt R.TIM_PTP_CFG 4 then
          (if decide (v.servo = 2) || decide (v.servo = 3) then v else v.setServo 2)
        else if u.servo = 5 then u else u.setServo 5) := by
  subst hu hv
  unfold exec execPtpMessageReceived
  dsimp only
  rw [if_neg (ptp_heard hp he), ite_not_of_true (decide_eq_true hh)]

theorem exec_ptpOffset {off : Int} {path : Nat} (hu : u = s.tick dt) (hp : u.fd R.TIM_PTP_CFG 0 2 ≠ 0)
    (he : u.ethUp port = true) (hh : u.fd R.TIM_PTP_CFG 3 1 = port.val) :
    exec (.ptpMessageReceived dt port (.offset off path)) s =
      .next (u.servoOffset (u.ptpCorrect port off path).1 (u.ptpCorrect port off path).2) := by
  subst hu
  unfold exec execPtpMessageReceived
  dsimp only
  rw [if_neg (ptp_heard hp he), decide_eq_true hh, if_pos rfl]

theorem exec_announceReceiptTimeout_locked (hu : u = s.tick dt) (h : u.servo = 3) :
    exec (.announceReceiptTimeout dt) s = .next (u.setServo 4) := by
  subst hu
  unfold exec execAnnounceReceiptTimeout
  dsimp only
  rw [h]
  rfl

/-- A clock that is not locked listens, or transmits when it may (R402). -/
theorem exec_announceReceiptTimeout_free (hu : u = s.tick dt) (h : u.servo = 1 ∨ u.servo = 2) :
    exec (.announceReceiptTimeout dt) s = .next (if u.bt R.TIM_PTP_CFG 4 then u.setServo 1 else u.setServo 5) := by
  subst hu
  unfold exec execAnnounceReceiptTimeout
  dsimp only
  rcases h with h | h
  · rw [h]
    rfl
  · rw [h]
    rfl

end Ptp

/-- Settles O39. -/
theorem ptpCommandsComplete : Obligations.PtpCommandsComplete := by
  intro dt s u port hu
  refine ⟨fun frame res ht => ⟨exec_ethFrameReceived (busy := false) hu ht, exec_ethFrameReceived (busy := true) hu ht⟩,
    fun hp he => ⟨fun gm rank v hh hm hv => ⟨fun hs => ?_, fun h2 h3 => ?_⟩, fun gm rank hh hr hb h5 => ?_,
      fun off path hh => exec_ptpOffset hu hp he hh, fun x => ?_, ?_⟩, fun type turn hm => ?_,
    fun h => exec_announceReceiptTimeout_locked hu h, fun h hb => ?_, fun h hb => ?_⟩
  · have hfollow : (decide (rank.toNat * 2 ^ 64 + gm.toNat < u.ptpOwn) || u.bt R.TIM_PTP_CFG 4) = true := by simpa using hm
    rw [exec_ptpAnnounce hu hp he hh hv, if_pos hfollow, if_pos (by simpa using hs)]
  · have hfollow : (decide (rank.toNat * 2 ^ 64 + gm.toNat < u.ptpOwn) || u.bt R.TIM_PTP_CFG 4) = true := by simpa using hm
    rw [exec_ptpAnnounce hu hp he hh hv, if_pos hfollow, if_neg (by simp [h2, h3])]
  · have hlead : ¬(decide (rank.toNat * 2 ^ 64 + gm.toNat < u.ptpOwn) || u.bt R.TIM_PTP_CFG 4) = true := by
      rw [hb, decide_eq_false (Nat.not_lt.mpr hr)]
      exact Bool.false_ne_true
    rw [exec_ptpAnnounce hu hp he hh rfl, if_neg hlead, if_neg h5]
  · subst hu
    exact congrArg Host.Outcome.next (if_neg (ptp_heard hp he))
  · subst hu
    exact congrArg Host.Outcome.next (if_neg (ptp_heard hp he))
  · subst hu
    exact congrArg Host.Outcome.next (if_pos hm)
  · rw [exec_announceReceiptTimeout_free hu h, if_pos hb]
  · rw [exec_announceReceiptTimeout_free hu h, hb, if_neg Bool.false_ne_true]

/-! ### Audio -/

theorem exec_audPortStartInstant {p : Fin 8} (hu : u = s.tick dt) (hst : u.audSt p = 1)
    (hd : (u.audP p).at_ p (u.audP p).k0 ≤ u.dev) :
    exec (.audPortStartInstant dt p) s =
      .next (((((u.audApply p).audNote p).setAudSt p 2).wr (R.AUD_P_SEQ p) 0).audEvent p 0x0A01 0) := by
  subst hu
  refine congrArg Host.Outcome.next (if_pos ?_)
  rw [hst, decide_eq_true hd]
  rfl

theorem exec_audBlockEnd {p : Fin 8} {data : List (List Nat)} {parity : List Nat} (hu : u = s.tick dt) (hst : 2 ≤ u.audSt p)
    (hd : (u.audP p).at_ p ((u.audP p).first p + (u.audP p).len p) ≤ u.dev) :
    exec (.audBlockEnd dt p data parity) s = .next (u.audBlockEnds p data parity) := by
  subst hu
  refine congrArg Host.Outcome.next (if_pos ?_)
  rw [decide_eq_true hst, decide_eq_true hd]
  rfl

theorem exec_audBlockStart {p : Fin 8} (hu : u = s.tick dt) (hst : 2 ≤ u.audSt p)
    (hd : (u.audP p).at_ p ((u.audP p).first p) ≤ u.dev) : exec (.audBlockStart dt p) s = .next (u.audBegin p) := by
  subst hu
  refine congrArg Host.Outcome.next (if_pos ?_)
  rw [decide_eq_true hst, decide_eq_true hd]
  rfl

theorem exec_followerFrameStart {p : Fin 4} {clocks : Nat} {mid : Bool} (hu : u = s.tick dt)
    (hf : (u.audP p).follows p = true) (hst : 2 ≤ u.audSt p) :
    exec (.followerFrameStart dt p clocks mid) s = .next (u.audFollow p clocks mid) := by
  subst hu
  refine congrArg Host.Outcome.next (if_neg ?_)
  rw [hf, decide_eq_false (Nat.not_lt.mpr hst)]
  exact Bool.false_ne_true

/-- Settles O40. -/
theorem audioEventCommandsComplete : Obligations.AudioEventCommandsComplete := by
  intro dt s u hu
  refine ⟨fun p hst hd => exec_audPortStartInstant hu hst hd,
    fun p hst => ⟨fun data parity hd => exec_audBlockEnd hu hst hd, fun hd => exec_audBlockStart hu hst hd⟩,
    fun p clocks mid hf hst => exec_followerFrameStart hu hf hst, fun p hf => ?_, fun i p z a b hp hst => ?_⟩
  · subst hu
    exact congrArg Host.Outcome.next (if_pos hf)
  · subst hu hp
    exact congrArg Host.Outcome.next (if_neg (Nat.not_lt.mpr hst))

end Sys2Proof.Proofs
end

section
/-!
Storage queues, control buses, the memory system, maintenance, and power and boot (R300 to R518): what each of their own steps
does where the state lets it go on.
-/

namespace Sys2Proof.Proofs

open Sys2Proof Sys2Proof.Machine Sys2Proof.Laws

variable {s u v : State} {dt : Nat}

/-! ### Storage queues -/

theorem exec_sqPoll {q : Fin 32} {x : SqQueue} {w : BitVec 64} {cmds : List (BitVec 512)} (hu : u = s.tick dt)
    (hq : u.sq q = some x) (hs : u.sqShut x = false) : exec (.sqPoll dt q w cmds) s = .next (u.sqPolled q x w cmds) := by
  subst hu
  unfold exec execSqPoll
  dsimp only
  rw [hq]
  dsimp only
  rw [hs, if_neg Bool.false_ne_true]

theorem exec_sqRead {q : Fin 32} {x : SqQueue} {c : SqCmd} (hu : u = s.tick dt) (hn : u.sqNext q 1 = some (x, c)) :
    exec (.sqRead dt q) s = .next (u.sqStart q x c (u.sqReadData x c)) := by
  subst hu
  unfold exec execSqRead
  dsimp only
  rw [hn]

theorem exec_sqNop {q : Fin 32} {x : SqQueue} {c : SqCmd} (hu : u = s.tick dt) (hn : u.sqNext q 4 = some (x, c)) :
    exec (.sqNop dt q) s = .next (u.sqEnd q c St.OK 0) := by
  subst hu
  unfold exec execSqNop
  dsimp only
  rw [hn]

/-- A host buffer that came in full needs neither padding nor a cut. -/
theorem take_append_replicate_sub_length {α : Type} {d : List α} {z : α} {n : Nat} (h : d.length = n) :
    (d ++ List.replicate (n - d.length) z).take n = d := by
  rw [← h, List.take_left]

/-- A write inside the NV range that no I²C hold delays starts with the data of its host buffer (R309, R310, R312). -/
theorem sqWriteStart_full {q opc : Nat} {x : SqQueue} {c : SqCmd} {d : List Byte} (hr : s.nvRange = true)
    (hi : s.i2cHolds c = false) (hd : d.length = 4096 * c.count) (hn : s.sqNext q opc = some (x, c)) :
    s.sqWriteStart q opc (some d) = s.sqStart q x c d := by
  unfold State.sqWriteStart
  rw [hn]
  dsimp only
  rw [ite_not_of_true hr, hi, if_neg Bool.false_ne_true, take_append_replicate_sub_length hd]

/-- Neither an I²C hold nor an earlier write delays a command that reads, or a write that meets none (R309, R312). -/
theorem sqDelay_eq_false {c : SqCmd} {b : Bool}
    (h : c.writes = false ∨ (s.i2cHolds c = false ∧ b = false)) : (c.writes && (s.i2cHolds c || b)) = false := by
  rcases h with hw | ⟨hi, hb⟩
  · rw [hw, Bool.false_and]
  · rw [hi, hb, Bool.or_self, Bool.and_false]

/-- A started command that nothing delays or stops ends after all of its blocks (R309). -/
theorem sqDone_all {q tag n : Nat} {x : SqQueue} {c : SqCmd} (hq : s.sq q = some x)
    (hc : x.cmds.find? (fun c => decide (c.tag = tag) && c.started) = some c) (ha : c.abort = false)
    (hw : c.writes = false ∨ (s.i2cHolds c = false ∧
      s.sqStarted.any (fun d => d.writes && d.overlaps c && decide (d.seq < c.seq)) = false)) :
    s.sqDone q tag n none = (s.sqEffect x c c.count).sqEnd q c St.OK c.count := by
  unfold State.sqDone
  rw [hq]
  dsimp only
  rw [hc]
  dsimp only
  rw [sqDelay_eq_false hw, if_neg Bool.false_ne_true, ite_self, ha]
  rfl

theorem exec_sqCommandDone {q tag : Fin 32} {n : Nat} (hu : u = s.tick dt) (hv : u.sqDone q tag n none = v) :
    exec (.sqCommandDone dt q tag n none) s = .next v.p3Due.p2Due := by
  subst hu hv
  rfl

theorem exec_uaHoldExpiry {b t : Nat} {bytes : List (Nat × Byte)} (hu : u = s.tick dt)
    (hi : u.lnd.i2c = some (b, bytes, t)) : exec (.uaHoldExpiry dt) s = .next (u.uaHeld b bytes) := by
  subst hu
  unfold exec execUaHoldExpiry
  dsimp only
  rw [hi]

/-- Settles O41. -/
theorem storageQueueCommandsComplete : Obligations.StorageQueueCommandsComplete := by
  intro dt s u q hu
  refine ⟨fun x w cmds => exec_sqPoll hu, fun x c => exec_sqRead hu, fun x c d hr hi hd => ⟨fun hn => ?_, fun hn => ?_⟩,
    fun x c => exec_sqNop hu, fun x c tag n v hq hc ha hw hv => ?_, fun b t bytes => exec_uaHoldExpiry hu⟩
  · subst hu
    exact congrArg Host.Outcome.next (sqWriteStart_full hr hi hd hn)
  · subst hu
    exact congrArg Host.Outcome.next (sqWriteStart_full hr hi hd hn)
  · exact exec_sqCommandDone hu ((sqDone_all hq hc ha hw).trans hv.symm)

/-! ### Control buses -/

/-- A read transaction at an address that the target acknowledges, or does not (R466). -/
theorem exec_i2cTargetRead {addr : BitVec 7} {n : Nat} {cut ack : Bool} (hu : u = s.tick dt)
    (ht : u.tgtEnd.tgtAck addr.toNat = (ack, v)) :
    exec (.i2cTargetRead dt addr n cut) s = .next (if ack then v.targetRead n cut else v) := by
  subst hu
  unfold exec execI2cTargetRead
  dsimp only
  rw [ht]

theorem exec_i2cTransferEnd {n r : Fin 4} {i : Fin 17} {x : I2cXfer} {data : List Byte} (hu : u = s.tick dt)
    (hx : u.xfer n = some x) :
    exec (.i2cTransferEnd dt n r i data) s = .next (u.i2cEnd n (if x.abort then 5 else r) i data) := by
  subst hu
  unfold exec execI2cTransferEnd
  dsimp only
  rw [hx]

/-- A pin's edge while no state is entered or left, by the power state (R469, Table 19-1). -/
theorem exec_gpioPinEdge {n : Fin 32} {fall : Bool} (hu : u = s.tick dt) (hb : u.bt R.AON_PWR_STAT 2 = false) :
    exec (.gpioPinEdge dt n fall) s = .next (
      if u.power = 2 then
        (if u.bt R.AON_WAKE n then ((u.wrF R.CBS_GPIO_IN n 1 (b2n !fall)).emit (.pin "PCIE_WAKE_N" false)).wakeP2
          else u.wrF R.CBS_GPIO_IN n 1 (b2n !fall))
      else if u.power = 3 then u.wrF R.CBS_GPIO_IN n 1 (b2n !fall)
      else if u.bt R.AON_WAKE n then (u.gpioEdge n fall).wakeP1 else u.gpioEdge n fall) := by
  subst hu
  exact congrArg Host.Outcome.next (if_neg (by rw [hb]; exact Bool.false_ne_true))

/-- Settles O42. -/
theorem controlBusCommandsComplete : Obligations.ControlBusCommandsComplete := by
  intro dt s u hu
  refine ⟨fun addr n cut v => ⟨exec_i2cTargetRead hu, exec_i2cTargetRead hu⟩, fun addr start bytes cut stop => ?_,
    fun n x hx => ⟨fun r i data => ⟨fun ha => ?_, fun ha => ?_⟩, ?_⟩, fun n fall low hl hb => ?_⟩
  · subst hu
    rfl
  · rw [exec_i2cTransferEnd hu hx, ha, if_neg Bool.false_ne_true]
  · rw [exec_i2cTransferEnd hu hx, ha, if_pos rfl]
  · subst hu
    rfl
  · rw [exec_gpioPinEdge hu hb, ← hl]
    refine ⟨fun h3 => ?_, fun h2 hw => ?_, fun h2 hw => ?_, fun h01 hw => ?_, fun h01 hw => ?_⟩
    · rw [if_neg (by omega), if_pos h3]
    · rw [if_pos h2, hw, if_neg Bool.false_ne_true]
    · rw [if_pos h2, hw, if_pos rfl]
    · rw [if_neg (by omega), if_neg (by omega), hw, if_neg Bool.false_ne_true]
    · rw [if_neg (by omega), if_neg (by omega), hw, if_pos rfl]

/-! ### The memory system -/

theorem exec_spdHandoverComplete {b : Fin 64} (hu : u = s.tick dt) (ho : fld (u.rd (R.SPD_BANK_OWN b)) 8 2 = 1)
    (hv : (if bit (u.rd (R.SPD_BANK_OWN b)) 6 then u.spdZero b else u) = v) :
    exec (.spdHandoverComplete dt b) s = .next (v.wr (R.SPD_BANK_OWN b)
      (w32 (v.fd (R.SPD_BANK_HO b) 0 6 + fld (u.rd (R.SPD_BANK_OWN b)) 6 2 * 64))) := by
  subst hu hv
  exact congrArg Host.Outcome.next (if_pos ho)

/-- A word that the chute takes, the producer holding none (R339). -/
theorem exec_chuteWrite_taken {n : Fin 128} {k : Fin 3} {d : BitVec 64} {p : Bool} {w : ChuteWord} (hu : u = s.tick dt)
    (hw : w = { data := d.toNat, good := true, poison := p, slot := false, at_ := u.now })
    (ht : u.chuteTakes n k = true) (hh : (u.chute n).held = []) :
    exec (.chuteWrite dt n k d p) s = .next (u.chutePut n k w) := by
  subst hu hw
  refine congrArg Host.Outcome.next (if_pos ?_)
  rw [ht, hh]
  rfl

/-- A word that the producer holds, behind those that it holds already (R339). -/
theorem exec_chuteWrite_held {n : Fin 128} {k : Fin 3} {d : BitVec 64} {p : Bool} {w : ChuteWord} (hu : u = s.tick dt)
    (hw : w = { data := d.toNat, good := true, poison := p, slot := false, at_ := u.now })
    (h : u.chuteTakes n k = false ∨ (u.chute n).held ≠ []) : exec (.chuteWrite dt n k d p) s =
      .next (u.setChute n { u.chute n with held := (u.chute n).held ++ [(k.val, w)] }) := by
  subst hu hw
  refine congrArg Host.Outcome.next (if_neg fun hc => ?_)
  obtain ⟨ht, hh⟩ := Bool.and_eq_true_iff.mp hc
  rcases h with hf | hne
  · exact Bool.false_ne_true (hf.symm.trans ht)
  · exact hne (List.isEmpty_iff.mp hh)

theorem exec_chuteRead {n : Fin 128} {c x : Chute} {w d : ChuteWord} {ws : List ChuteWord} (hu : u = s.tick dt)
    (hc : c = u.chute n) (hws : c.words = w :: ws) (hr : c.readable u.now ≠ 0) (hg : w.good = true)
    (hd : d = { w with poison := w.poison || !w.good })
    (hx : x = { c with
      words := ws, last := some d, pend := c.pend.map (· - 1), rd := (c.rd + 1) % 2 ^ u.fd (R.CHT_CFG n) 0 4 })
    (hv : v = u.setChute n x) : exec (.chuteRead dt n) s = .next ((v.emit (.read d.out)).chuteOffer n c.held.length) := by
  subst hu hc hd hx hv
  unfold exec execChuteRead
  dsimp only
  rw [hws]
  dsimp only
  rw [if_neg hr, if_pos hg]

theorem exec_pageIdleExpiry {ch : Fin 32} {b : Fin 16} {row t : Nat} (hu : u = s.tick dt) (hv : v = u.dramDrain ch)
    (hk : tabGet (fun _ => (0, 0)) v.dmc.rows (ch.val * 16 + b.val) = (row, t)) (hr : row ≠ 0) (ht : t ≠ v.now)
    (hi : t + v.fd R.DMC_PAGE_IDLE 0 11 ≤ v.now) : exec (.pageIdleExpiry dt ch b) s = .next { v with
      dmc := { v.dmc with rows := tabSet (fun _ => (0, 0)) v.dmc.rows (ch.val * 16 + b.val) (0, 0) } } := by
  subst hu hv
  unfold exec execPageIdleExpiry
  dsimp only
  rw [hk]
  exact congrArg Host.Outcome.next (if_pos ⟨hr, ht, hi⟩)

theorem exec_selfRefreshEntry {ch : Fin 32} (hu : u = s.tick dt) (hv : v = u.dramDrain ch) (hi : v.fd R.DMC_SR_IDLE 0 16 ≠ 0)
    (hw : v.dmc.waits ch = false) (hl : tabGet (fun _ => 0) v.dmc.last ch + v.fd R.DMC_SR_IDLE 0 16 * 1000 ≤ v.now)
    (hp : v.power ≠ 0 ∨ v.linkUp = false) : exec (.selfRefreshEntry dt ch) s = .next { v with
      dmc := { v.dmc with sr := tabSet (fun _ => false) v.dmc.sr ch true } } := by
  subst hu hv
  refine congrArg Host.Outcome.next (if_neg ?_)
  rintro (h0 | hq | hn | ⟨hz, hup⟩)
  · exact hi (by omega)
  · exact Bool.false_ne_true (hw.symm.trans hq)
  · exact Nat.not_lt.mpr hl hn
  · rcases hp with hp | hd
    · exact hp hz
    · exact Bool.false_ne_true (hd.symm.trans hup)

/-- Settles O43. -/
theorem memorySystemCommandsComplete : Obligations.MemorySystemCommandsComplete := by
  intro dt s u hu
  refine ⟨fun b ho v hv => exec_spdHandoverComplete hu ho ?_,
    fun n k d p w hw => ⟨exec_chuteWrite_taken hu hw, exec_chuteWrite_held hu hw⟩,
    fun n c x w d ws v => exec_chuteRead hu, fun ch b row t v => exec_pageIdleExpiry hu,
    fun ch v => exec_selfRefreshEntry hu, fun ch => ?_⟩
  · rcases hv with ⟨hb, hv⟩ | ⟨hb, hv⟩
    · rw [hb, if_pos rfl, hv]
    · rw [hb, if_neg Bool.false_ne_true, hv]
  · subst hu
    rfl

/-! ### Maintenance -/

/-- A running activity that is to stop ends at its step boundary (R505, R506). -/
theorem atStep_abort {k : Nat} {a : Act} {go : Act → State → State} (hr : s.runningAct k = some a) (ha : a.abort = true) :
    s.atStep k go = (if k = 1 then s.retrainStop a else s).actEnd a St.ABORTED := by
  unfold State.atStep
  rw [hr]
  dsimp only
  rw [if_pos ha]

/-- A running activity that nothing stops or throttles goes on (R485). -/
theorem atStep_go {k : Nat} {a : Act} {go : Act → State → State} (hr : s.runningAct k = some a) (ha : a.abort = false)
    (ht : s.throttled = false) : s.atStep k go = go a s := by
  unfold State.atStep
  rw [hr]
  dsimp only
  rw [ha, ht, if_neg Bool.false_ne_true, if_neg Bool.false_ne_true]

theorem exec_scheduledRetrainDue (hu : u = s.tick dt) (hd : u.schedDue = true) : exec (.scheduledRetrainDue dt) s =
    .next (u.actRequest { id := u.actId, code := 1, ctx := 0, words := [0], addr := 0, len := 0, running := false
                          startAt := u.now, sched := true }).1 := by
  subst hu
  exact congrArg Host.Outcome.next (ite_not_of_true hd)

theorem exec_deferredActivityStart {a : Act} (hu : u = s.tick dt)
    (hn : u.nextDeferred (u.pwr.acts.filter (·.running)) (u.pwr.acts.filter (fun a => !a.running)) = some a) :
    exec (.deferredActivityStart dt) s = .next (u.deferStart a) := by
  subst hu
  unfold exec execDeferredActivityStart
  dsimp only
  rw [hn]

theorem retrainDone_of_chans_nil {a : Act} (h : a.chans = []) : State.retrainDone a s =
    (s.putTraining.wrF R.DMC_TRAIN_STAT 2 1 1).actEnd a (if a.failed then St.HW_FAULT else St.OK) :=
  if_neg (not_not_intro h)

theorem nvScrubbed_done {a : Act} (hi : s.pwr.imgOpen = none) (hr : s.nvRange = true) :
    State.nvScrubbed a s = s.actEnd a St.OK := by
  unfold State.nvScrubbed
  rw [hi, hr]
  rfl

theorem dramScrubbed_done {a : Act} (h : a.startAt + s.dramMiB * 0x100000 ≤ s.now) : State.dramScrubbed a s =
    ((s.dmc.err.filter (fun e => decide (0x8000000000 ≤ e.1))).foldl (fun s e => s.scrub1 e.1 e.2) s).actEnd a St.OK :=
  if_neg (Nat.not_lt.mpr h)

/-- Each activity that is to stop ends ABORTED, a DRAM_RETRAIN with what it leaves (R505, R506). -/
theorem maintenance_aborts {k : Nat} {a : Act} (hu : u = s.tick dt) (hr : u.runningAct k = some a) (ha : a.abort = true) :
    (k = 1 → exec (.dramRetrainDone dt) s = .next ((u.retrainStop a).actEnd a St.ABORTED) ∧
      ∀ fail : Bool, exec (.dramRetrainStep dt fail) s = .next ((u.retrainStop a).actEnd a St.ABORTED)) ∧
    (k = 2 → ∀ (counts : List Word) (ok : Bool), exec (.laneEyeScanDone dt counts ok) s = .next (u.actEnd a St.ABORTED)) ∧
    (k = 3 → exec (.nvScrubDone dt) s = .next (u.actEnd a St.ABORTED)) ∧
    (k = 4 → exec (.dramScrubDone dt) s = .next (u.actEnd a St.ABORTED)) := by
  subst hu
  refine ⟨fun hk => ?_, fun hk counts ok => ?_, fun hk => ?_, fun hk => ?_⟩ <;> subst hk
  · exact ⟨congrArg Host.Outcome.next (atStep_abort hr ha), fun fail => congrArg Host.Outcome.next (atStep_abort hr ha)⟩
  · exact congrArg Host.Outcome.next (atStep_abort hr ha)
  · exact congrArg Host.Outcome.next (atStep_abort hr ha)
  · exact congrArg Host.Outcome.next (atStep_abort hr ha)

/-- Each activity that nothing stops takes its step or ends (R326, R153, R507). -/
theorem maintenance_goes_on {k : Nat} {a : Act} (hu : u = s.tick dt) (hr : u.runningAct k = some a) (ha : a.abort = false)
    (ht : u.throttled = false) :
    (k = 1 → ∀ fail : Bool, exec (.dramRetrainStep dt fail) s = .next (u.retrainStep fail a)) ∧
    (k = 1 → a.chans = [] → exec (.dramRetrainDone dt) s =
      .next ((u.putTraining.wrF R.DMC_TRAIN_STAT 2 1 1).actEnd a (if a.failed then St.HW_FAULT else St.OK))) ∧
    (k = 2 → ∀ (counts : List Word) (ok : Bool), exec (.laneEyeScanDone dt counts ok) s = .next (u.eyeDone counts ok a)) ∧
    (k = 3 → u.pwr.imgOpen = none → u.nvRange = true → exec (.nvScrubDone dt) s = .next (u.actEnd a St.OK)) ∧
    (k = 4 → a.startAt + u.dramMiB * 0x100000 ≤ u.now → exec (.dramScrubDone dt) s = .next
      (((u.dmc.err.filter (fun e => decide (0x8000000000 ≤ e.1))).foldl (fun s e => s.scrub1 e.1 e.2) u).actEnd a St.OK)) := by
  subst hu
  refine ⟨fun hk fail => ?_, fun hk hc => ?_, fun hk counts ok => ?_, fun hk hi hn => ?_, fun hk hs => ?_⟩ <;> subst hk
  · exact congrArg Host.Outcome.next (atStep_go hr ha ht)
  · exact congrArg Host.Outcome.next ((atStep_go hr ha ht).trans (retrainDone_of_chans_nil hc))
  · exact congrArg Host.Outcome.next (atStep_go hr ha ht)
  · exact congrArg Host.Outcome.next ((atStep_go hr ha ht).trans (nvScrubbed_done hi hn))
  · exact congrArg Host.Outcome.next ((atStep_go hr ha ht).trans (dramScrubbed_done hs))

/-- Settles O44. -/
theorem maintenanceActivityCommandsComplete : Obligations.MaintenanceActivityCommandsComplete := by
  intro dt s u hu
  exact ⟨exec_scheduledRetrainDue hu, fun a => exec_deferredActivityStart hu,
    fun k a hr => ⟨maintenance_aborts hu hr, maintenance_goes_on hu hr⟩⟩

/-! ### Power and boot -/

theorem exec_nvHeldWriteFlush (hu : u = s.tick dt) (ha : u.awakeDev = true) :
    exec (.nvHeldWriteFlush dt) s = .next (u.nvFlush.logFlush).copyThermal := by
  subst hu
  exact congrArg Host.Outcome.next (if_pos ha)

/-- The handshake of a request for P2, in its time (R476). -/
theorem exec_pmeHandshakeComplete {t : Nat} (hu : u = s.tick dt) (hp : u.pwr.p2At = some t) (ht : u.now ≤ t + 10 ^ 9)
    (hv : v = { u with pwr := { u.pwr with p2Ack := true } }) : exec (.pmeHandshakeComplete dt) s = .next v.p2Due := by
  subst hu hv
  unfold exec execPmeHandshakeComplete
  dsimp only
  rw [hp]
  exact congrArg Host.Outcome.next (if_pos ht)

/-- P2 is entered after the handshake when no storage command is started (R313). -/
theorem p2Due_of_ack {t : Nat} (hp : s.pwr.p2At = some t) (ha : s.pwr.p2Ack = true) :
    s.p2Due = if s.sqStarted.isEmpty then s.enterP2 else s := by
  unfold State.p2Due
  rw [hp, ha]
  rfl

theorem exec_p2HandshakeTimeout {t : Nat} (hu : u = s.tick dt) (hp : u.pwr.p2At = some t) (ht : t + 10 ^ 9 ≤ u.now)
    (ha : u.pwr.p2Ack = false) : exec (.p2HandshakeTimeout dt) s = .next (({ u with
      pwr := { u.pwr with p2At := none }
      lnd := { u.lnd with sqStop := false } } : State).raise 0 0x0E06 St.OK Src.AON 0) := by
  subst hu
  unfold exec execP2HandshakeTimeout
  dsimp only
  rw [hp]
  refine congrArg Host.Outcome.next (if_pos ?_)
  rw [ha, decide_eq_true ht]
  rfl

theorem exec_mainGoodFall (hu : u = s.tick dt) (hm : u.pwr.mainGood = true) : exec (.mainGoodFall dt) s =
    .next (if u.power = 3 then { u with pwr := { u.pwr with mainGood := false } } else u.enterP3 false) := by
  subst hu
  exact congrArg Host.Outcome.next (ite_not_of_true hm)

theorem exec_porstNAssert (hu : u = s.tick dt) (hm : u.pwr.mainGood = true) :
    exec (.porstNAssert dt) s = .next (u.freezeTakes.deviceReset 5 5 false) := by
  subst hu
  exact congrArg Host.Outcome.next (if_pos hm)

theorem exec_retentionArbitration {t : Nat} {good : Bool} (hu : u = s.tick dt) (hm : u.pwr.mainGood = false)
    (hp : u.pwr.p3At = some t) : exec (.retentionArbitration dt good) s = .next (u.retained t good) := by
  subst hu
  unfold exec execRetentionArbitration
  dsimp only
  rw [hp]
  dsimp only
  rw [hm, if_neg Bool.false_ne_true]

theorem exec_aonPowerLoss (hu : u = s.tick dt) (hm : u.pwr.mainGood = false) (hb : u.pwr.bakEx = true) :
    exec (.aonPowerLoss dt) s = .next u.aonDrop := by
  subst hu
  refine congrArg Host.Outcome.next (if_neg ?_)
  rw [hm, hb]
  exact Bool.false_ne_true

theorem exec_bootAttempt {train fast : List (Fin 32)} {step : Fin 16} {ready : Bool} (hu : u = s.tick dt)
    (hm : u.bootMay = true) : exec (.bootAttempt dt train fast step ready) s =
      .next (u.bootStep1.spdReady.bootSteps train fast step ready u.pwr.boot.told
        (decide (u.bootStep1.spdReady.pwr.boot.result ≤ 1))) := by
  subst hu
  exact congrArg Host.Outcome.next (if_pos hm)

theorem exec_bootWatchdog {t : Nat} (hu : u = s.tick dt) (hw : u.pwr.boot.wait = some t) (ht : t + 2 * 10 ^ 9 ≤ u.now) :
    exec (.bootWatchdog dt) s = .next (u.deviceReset 4 1 false) := by
  subst hu
  unfold exec execBootWatchdog
  dsimp only
  rw [hw]
  exact congrArg Host.Outcome.next (if_pos ht)

theorem exec_bootSuccessTimer {t : Nat} (hu : u = s.tick dt) (hr : u.pwr.boot.readyAt = some t) (ht : t + 10 ^ 10 ≤ u.now) :
    exec (.bootSuccessTimer dt) s =
      .next ((u.setBoot { u.pwr.boot with readyAt := none, prev := 0 }).setConsecAs 0 0) := by
  subst hu
  unfold exec execBootSuccessTimer
  dsimp only
  rw [hr]
  exact congrArg Host.Outcome.next (if_pos ht)

/-- Settles O45. -/
theorem powerAndBootCommandsComplete : Obligations.PowerAndBootCommandsComplete := by
  intro dt s u hu
  refine ⟨fun t raw => ?_, fun raw => ?_, fun mv => ?_, exec_nvHeldWriteFlush hu,
    fun t hp => ⟨fun v ht hv => ?_, exec_p2HandshakeTimeout hu hp⟩,
    fun hm => ⟨fun h3 => ?_, fun h3 => ?_, exec_porstNAssert hu hm⟩,
    fun hm => ⟨fun t good => exec_retentionArbitration hu hm, exec_aonPowerLoss hu hm⟩,
    fun train fast step ready => exec_bootAttempt hu, fun t => exec_bootWatchdog hu, fun t => exec_bootSuccessTimer hu⟩
  · subst hu
    rfl
  · subst hu
    rfl
  · subst hu
    rfl
  · have hdue : v.p2Due = if v.sqStarted.isEmpty then v.enterP2 else v :=
      p2Due_of_ack (t := t) (by rw [hv]; exact hp) (by rw [hv])
    rw [exec_pmeHandshakeComplete hu hp ht hv, hdue]
    refine ⟨fun he => ?_, fun he => ?_⟩
    · rw [he, List.isEmpty_nil, if_pos rfl]
    · rw [if_neg (mt List.isEmpty_iff.mp he)]
  · rw [exec_mainGoodFall hu hm, if_pos h3]
  · rw [exec_mainGoodFall hu hm, if_neg h3]

end Sys2Proof.Proofs
end
